-- ==== Sys2Proof/Word.lean ====
section
/-! DEFINITION. The word types of the ULN-8600 model: bytes, 32-bit registers, byte strings. -/

namespace Sys2Proof

/-- One byte of memory or of a wire format. -/
abbrev Byte := BitVec 8

/-- One 32-bit register (R40). -/
abbrev Word := BitVec 32

/-- A byte string, in address order or in the order it is sent. -/
abbrev Bytes := List Byte

end Sys2Proof
end

