-- ==== Sys2Proof/Syntax.lean ====
section
/-! DEFINITION. The commands of the block: one constructor per row of spec/opcode_table.json, with the operands the
row's rule gives it. Requests of the three paths of R2 carry their fields at the width they have on the wire; events
of the part itself name the unit they concern. -/

namespace Sys2Proof

/-- A UDP endpoint: IP address (as a number) and UDP port (R443: the device answers to the source). -/
structure NetAddr where
  ip  : Nat
  udp : Nat
  deriving DecidableEq, Repr

/-- The request a control-frame command answers: stream port, requester, key slot, request identifier (R443, R447). -/
structure Req where
  port  : Nat
  src   : NetAddr
  slot  : Nat
  reqId : Nat
  deriving DecidableEq, Repr

/-- The owner of a piece of work: session work or an adaptation job (CTX of R115, R169, R297, R342). -/
inductive Ctx where
  | session (id : Nat)
  | job (id : Nat)
  deriving DecidableEq, Repr

/-- A work item's owner and the deadline its traffic carries (R257, R285). -/
structure Work where
  ctx      : Ctx
  deadline : Nat
  deriving DecidableEq, Repr

/-- The OPEN body of R455, field by field, at its width on the wire. HEADER and SETTINGS are byte strings. -/
structure OpenBody where
  session     : BitVec 32
  flags       : BitVec 8
  cls         : BitVec 8
  modelSlot   : BitVec 16
  ratePoint   : BitVec 8
  deadlineOff : BitVec 32
  start0      : BitVec 64
  destGroup   : BitVec 16
  inPort      : BitVec 8
  inSsrc      : BitVec 32
  streamId    : BitVec 32
  header      : Bytes
  settings    : Bytes
  deriving DecidableEq, Repr

/-- The JOB_START body of R458. -/
structure JobBody where
  jobId     : BitVec 32
  modelSlot : BitVec 16
  cls       : BitVec 8
  seed      : BitVec 32
  steps     : BitVec 32
  source    : BitVec 32
  deriving DecidableEq, Repr

/-- A ring of a face, or a lot ring of a coder context: which = 0 DATA, 1 ELEM, 2 YHAT (R217, R281). -/
inductive RingRef where
  | face (p ring : Nat)
  | lot (level coder ctx which : Nat)
  deriving DecidableEq, Repr

/-- One detector candidate row of R198: four FP16 deltas and one FP16 logit per class. -/
structure Detection where
  dx     : BitVec 16
  dy     : BitVec 16
  dw     : BitVec 16
  dh     : BitVec 16
  logits : List (BitVec 16)
  deriving DecidableEq, Repr

/-- A compute step of R290: the 16 bytes of its compute record, the layer's flat output range [lo, lo + count) it forms, and, where
the step takes a skip, the ring, the operand of the layer it carries (0 IN0, 1 IN1, 2 IN2, 3 WEIGHT, 4 BIAS) and, where it is tagged (R151),
the chunk of scale entries that came with the skip. grad: the step forms the gradient of λ
of the layer instead (R163), channels [lo, lo + count), from the gradient tensor that arrives at its output into an FP32 tensor. -/
structure ComputeOp where
  record  : Bytes
  lo      : Nat
  count   : Nat
  inRing  : Option Nat
  auxAt   : Nat
  entries : Nat
  grad    : Option (Nat × Nat)
  inOf    : Nat := 0
  deriving DecidableEq, Repr

/-- One unit of the module under R368: kind and index. -/
structure UnitId where
  kind  : Nat
  index : Nat
  deriving DecidableEq, Repr

/-- The result of one link's training (R371). -/
inductive LinkResult where
  | ucie (module width : Nat)
  | crosscut (port : Nat) (lanes : BitVec 4)
  deriving DecidableEq, Repr

/-- What an uncorrectable read served (the rows of R337). dramUnit and lpddrUnit: a compressor unit's job; portEgress: the next
packet of a session's destination; mesh: a mesh flit with a parity error (R336); roundState: the triplicated storage of a level (0 to 3) or
of the command die (4). -/
inductive EccUse where
  | faceStore (p : Nat)
  | searchStore (p tile offset : Nat)
  | pool (level coder ctx : Nat)
  | workingArea (session : Nat)
  | descriptor (session : Nat)
  | dramOther (p engine : Nat)
  | dramUnit (level unit : Nat)
  | lpddrCopy (session : Nat) (copyB : Bool)
  | lpddrModel (slot : Nat)
  | lpddrOther (p engine : Nat)
  | lpddrUnit (level unit : Nat)
  | lot (level coder ctx : Nat)
  | tableCache (level coder ctx : Nat)
  | staging (level unit : Nat)
  | portIngress (port : Nat)
  | portEgress (session dest : Nat)
  | mesh (p engine : Nat)
  | roundState (die : Nat)
  deriving DecidableEq, Repr

/-- An error of a memory met in a use of it, uncorrectable or corrected (R337). -/
structure EccError where
  use       : EccUse
  corrected : Bool := false
  deriving DecidableEq, Repr

/-- What the initialisation of a level's memories finds (R368): the vaults and devices that fail, the devices that fail the write and
read-back, and whether the level's PLL locked. -/
structure MemoryInit where
  failed   : List UnitId := []
  readBack : List UnitId := []
  locked   : Bool := true
  deriving DecidableEq, Repr

/-- One LPDDR6 fault cause of R340. -/
inductive LpddrCause where
  | uncorrectable
  | training
  | corrected
  deriving DecidableEq, Repr

/-- Why a surprise removal is detected (R406). -/
inductive RemovalCause where
  | presence
  | overVoltage
  | enableFell
  deriving DecidableEq, Repr

/-- The commands: one constructor per row of spec/opcode_table.json. -/
inductive Instr where
  -- control frames (R442 to R454)
  | ctrlFrameReceive (port : Nat) (src : NetAddr) (frame : Bytes)
  | probe (rq : Req)
  | status (rq : Req)
  | sessionStatus (rq : Req) (session : BitVec 32)
  | sessionCounters (rq : Req) (session : BitVec 32) (clear : Bool)
  | jobStatus (rq : Req) (job : BitVec 32)
  | eventRead (rq : Req) (first count : BitVec 16)
  | eventSubscribe (rq : Req) (on : Bool)
  | repairRead (rq : Req) (first : BitVec 32) (count : BitVec 16)
  | regRead (rq : Req) (addr : BitVec 64) (count : BitVec 8)
  | regWrite (rq : Req) (addr : BitVec 64) (value : Word)
  | attest (rq : Req) (nonce : Bytes)
  | modelList (rq : Req) (first count : BitVec 16)
  | sesOpen (rq : Req) (body : OpenBody)
  | sesClose (rq : Req) (session : BitVec 32) (mode : BitVec 8) (launch : BitVec 64)
  | sesPark (rq : Req) (session : BitVec 32)
  | sesResume (rq : Req) (session : BitVec 32) (tr : BitVec 64)
  | sesReset (rq : Req) (session : BitVec 32)
  | sesSet (rq : Req) (session : BitVec 32) (ratePoint : BitVec 8) (launch : BitVec 64) (deadlineOff : BitVec 32)
      (settings : Bytes)
  | migrate (rq : Req) (session : BitVec 32) (cls level : BitVec 8)
  | jobStart (rq : Req) (body : JobBody)
  | jobSuspend (rq : Req) (job : BitVec 32)
  | jobResume (rq : Req) (job : BitVec 32)
  | jobCancel (rq : Req) (job : BitVec 32)
  | jobRelease (rq : Req) (job : BitVec 32)
  | jobExport (rq : Req) (job offset bytes : BitVec 32)
  | stageBegin (rq : Req) (kind : BitVec 8) (modelSlot : BitVec 16) (totalBytes : BitVec 32) (fire : BitVec 64)
  | stageData (rq : Req) (handle offset : BitVec 32) (data : Bytes)
  | stageCommit (rq : Req) (handle : BitVec 32)
  | stageAbort (rq : Req) (handle : BitVec 32)
  | modelUnstage (rq : Req) (modelSlot : BitVec 16)
  | swapArm (rq : Req) (t : BitVec 64)
  | swapDisarm (rq : Req)
  | directorySet (rq : Req) (bits : BitVec 8)
  | logClear (rq : Req) (kind : BitVec 8) (index : BitVec 16)
  | warmReset (rq : Req)
  | levelReset (rq : Req) (level : BitVec 8)
  | faceReset (rq : Req) (face : BitVec 16)
  | levelPark (rq : Req) (level park : BitVec 8)
  | standby (rq : Req) (enter : BitVec 8)
  | remove (rq : Req) (mode : BitVec 8) (drainLimit : BitVec 16)
  | keySet (rq : Req) (slot roles : BitVec 8) (nonce wrapped : Bytes)
  | keyClear (rq : Req) (slot : BitVec 8)
  -- the SMBus sideband (R439): address byte 7 bits, PEC where the carrier sends it
  | smbIdentity (addr : BitVec 7)
  | smbStatus (addr : BitVec 7)
  | smbEventNext (addr : BitVec 7)
  | smbThermal (addr : BitVec 7)
  | smbArm (addr : BitVec 7) (value pec : Byte)
  | smbArmWindowExpire
  | smbReset (addr : BitVec 7) (kind level pec : Byte)
  | smbPark (addr : BitVec 7) (park level pec : Byte)
  | smbStandby (addr : BitVec 7) (enter pec : Byte)
  | smbRemove (addr : BitVec 7) (mode limitLo limitHi pec : Byte)
  | smbResult (addr : BitVec 7)
  -- the Lamp monitor (R470 to R474)
  | lampLineReceive (line : Bytes)
  | lampHelp
  | lampId
  | lampStatus
  | lampLog (n : Nat)
  | lampRepair
  | lampBaud (rate : Nat)
  | lampBaudApply
  | lampRegRead (addr count : Nat)
  | lampRegWrite (addr : Nat) (value : Word)
  | lampMemRead (addr count : Nat)
  | lampResetCold
  | lampResetWarm
  | lampResetLevel (level : Nat)
  | lampResetFace (face : Nat)
  | lampPark (level : Nat)
  | lampUnpark (level : Nat)
  | lampStandbyOn
  | lampStandbyOff
  | lampKeyload (slot roles : Nat) (key : Bytes)
  | lampHfload (slot : Nat)
  | lampPlanload (slot : Nat)
  | lampImageFrame (length : BitVec 16) (data : Bytes) (crc : Word)
  | lampTransferTimeout
  | lampLock (moduleId : Nat)
  -- register accesses with an effect of their own (R5, R6): the value written, or the address read
  | arithFlagsClear (p : Nat) (value : Word)
  | trapRecordClear (p : Nat) (value : Word)
  | spillRecordClear (p : Nat) (value : Word)
  | tagFaultClear (p : Nat) (value : Word)
  | addrErrClear (level : Option Nat) (value : Word)
  | hstErrClear (p : Nat) (value : Word)
  | waitRecordClear (level : Nat) (value : Word)
  | roundAbortRecordClear (level : Option Nat) (value : Word)
  | eccRecordClear (level : Option Nat) (value : Word)
  | takeoverRecordClear (level : Nat) (value : Word)
  | phaseLastClear (value : Word)
  | counterReadClear (addr : Nat)
  | timNowLoRead
  | registerWriteOther (addr : Nat) (value : Word)
  -- data engines, fused stages, musters, rings, tram (chapter 9)
  | hoistCopy (p engine offset : Nat) (work : Work)
  | hoistFill (p engine offset : Nat) (work : Work)
  | tram (p engine offset : Nat) (layer : Nat) (work : Work)
  | transactionIssue (p engine : Nat)
  | descriptorComplete (p engine : Nat)
  | busError (p engine : Nat)
  | fusedStageCommand (p offset : Nat) (work : Work)
  | computeStep (p : Nat) (ctx : Ctx) (op : ComputeOp)
  | muster (p offset : Nat) (work : Work)
  | musterRelease (scope unit id : Nat)
  | skipPublish (p ring bytes : Nat) (tag : Option (BitVec 4))
  | skipRelease (p ring : Nat)
  | poolBorrow (ring : RingRef) (ctx : Ctx)
  | borrowReturnBy (ring : RingRef)
  | ringMonitorSample (level : Nat)
  | waitJoinSample
  | tramChunkArrive (home p layer chunk dueBy : Nat) (data : Bytes)
  | tramRefetch (p engine : Nat)
  | faceIdleGate (p : Nat)
  | faceUngate (p : Nat)
  -- motion engine and region unit (chapters 6 and 7)
  | motionBandStart (p session band : Nat)
  | columnBlockLoad (p : Nat) (block : Int)
  | motionTileStart (p : Nat)
  | motionBandPublish (p : Nat)
  | regionMapPaint (session : Nat) (detections : List Detection) (late : Bool)
  -- entropy coders (chapter 7)
  | coderJobSubmit (p : Nat) (descriptor : Bytes) (records : Nat)
  | coderJobDispatch (level : Nat)
  | coderCacheFill (level coder ctx : Nat) (uncorrectable : Bool)
  | coderContextSwitch (level coder : Nat) (arrived : List (Nat × Nat × Nat))
  | coderJobComplete (level coder ctx : Nat) (tallyOk : Bool)
  -- block compressor (chapter 10)
  | compress (p offset : Nat) (work : Work)
  | decompress (p offset : Nat) (work : Work)
  | verify (p offset : Nat) (work : Work)
  | compressorDispatch (level : Nat)
  | segmentComplete (level unit : Nat)
  -- sessions and frames (chapter 8)
  | sessionActivate (session : Nat)
  | frameStart (session : Nat)
  | bandLaunch (session band : Nat)
  | encodeDeadline (session : Nat)
  | sliceEmit (session : Nat)
  | destinationSend (session dest : Nat) (tallyOk : Bool)
  | spectatorSkip (session dest : Nat)
  | decodeFrameDeadline (session : Nat)
  | decodeFrameOutput (session : Nat)
  | sessionParkComplete (session : Nat)
  | sessionFree (session : Nat)
  -- stream ports and the USF receiver (chapters 2 and 14)
  | ethFrameReceive (port : Nat) (frame : Bytes) (tallyOk : Bool)
  | usfPacketReceive (port : Nat) (src : NetAddr) (dstUdp ssrc rtpSeq : Nat) (payload : Bytes)
  | fragmentTimeout (port ssrc : Nat)
  | rawMediaPacket (port : Nat) (dstUdp ssrc : Nat) (payload : Bytes)
  | usfStreamHeader (session : Nat) (unit : Bytes)
  | usfFrameHeader (session : Nat) (unit : Bytes)
  | usfSlice (session : Nat) (unit : Bytes)
  | usfEndOfStream (session : Nat) (unit : Bytes)
  | usfLossReport (session : Nat) (unit : Bytes) (primary : Bool)
  | usfReservedType (session : Nat) (unit : Bytes)
  -- rounds (chapter 11)
  | roundArm (id : Nat)
  | roundMemberComplete (id memberIx : Nat) (ok : Bool)
  | roundDecision (id : Nat)
  | roundFireTimed (id : Nat)
  | roundFireCompletion (id : Nat)
  | roundDeadline (id : Nat)
  -- faults
  | faceWatchdogExpire (p : Nat)
  | facePowerFault (p : Nat)
  | faceAutoReset (p : Nat)
  | faceSoundingDone (p : Nat) (passed : Bool) (test : Nat)
  | ringSegment (level drift segment : Nat)
  | lpddrDevice (device : Nat) (cause : LpddrCause)
  | eccUe (address : Nat) (error : EccError)
  | patrolScrub (address : Nat) (uncorrectable : Bool) (corrected : Nat)
  | phaseShed (phase cause : Nat)
  | junctionReport (die : Nat) (tenths : Int)
  | dvfsThermalStep (level : Nat)
  | dvfsStepDone (level : Nat)
  | mgmtWatchdogExpire
  -- bring-up (chapter 12)
  | coldStart
  | planLoad
  | memoryInitDone (level : Nat) (result : MemoryInit)
  | linkTrainingDone (result : LinkResult)
  | soundingDone (failed : List UnitId)
  | modelStagingDone
  | timeSettled (settled traceable : Bool)
  | survey
  | surveyRerun
  | helloSend (port : Nat)
  | helloReceive (port : Nat) (frame : Bytes)
  | neighbourTimeout
  | electionSettle
  | streamPortLinkChange (port : Nat) (up : Bool)
  | streamPortLinkTimeout (port : Nat)
  | warmResetResume (rehashOk : Bool)
  | levelResetComplete (level : Nat) (failed : List UnitId)
  | levelParkComplete (level : Nat)
  | levelUnparkComplete (level : Nat)
  | standbyExitComplete
  | repairLogWrite
  | shadowBuildComplete
  | stageInstallComplete (handle : Nat)
  | stageHandleTimeout (handle : Nat)
  | jobStep (job : Nat)
  | jobStepDone (job : Nat) (newLambdas : List (BitVec 32))
  -- hot plug (chapter 13)
  | prechargeContact
  | vauxUp (strap : BitVec 2)
  | modPresentAssert
  | inputValid (tenMillivolts : Nat)
  | modEnRise
  | modEnFall
  | modRemoveOkAssert
  | drainLimitExpire
  | surpriseRemoval (cause : RemovalCause)
  | inputUndervoltage
  -- time and the crosscut ports (chapter 14)
  | ptpMessageReceive (port : Nat) (message : Bytes)
  | ptpSyncSend (port : Nat)
  | servoHoldover
  | holdoverExpire
  | xctTimeSend (port : Nat)
  | xctTimeFrame (port : Nat) (frame : Bytes)
  | xctLaneFrame (port : Nat) (frame : Bytes)
  | xctRelay (port : Nat) (frame : Bytes)
  | xctNak (port : Nat) (frame : Bytes)
  | xctReplayTimeout (port : Nat)
  | xctLane (port lane : Nat)
  | decodeCloseLaunch (session : Nat)
  | standbyEntryComplete
  | xctAckReceive (port : Nat) (frame : Bytes)
  deriving DecidableEq, Repr

end Sys2Proof
end

