-- ==== Sys2Proof/Config.lean ====
section
/-! DEFINITION. What the spec leaves open, as constants without a body: nothing can evaluate them, so every statement
holds whatever they are. Each names the log entry that declares it. -/

namespace Sys2Proof.Config

/-- The 64-bit random epoch drawn at the n-th draw (R445: "a 64-bit random value"). Log entry 2. -/
opaque freeEpoch : Nat → BitVec 64

/-- Base of the handle numbers the device answers to STAGE_BEGIN (R454 gives HANDLE no value). Log entry 2. -/
opaque handleBase : BitVec 32

/-- A free choice among several units the spec lets Headframe take (placement entry, pool address, copy address).
Log entry 2. -/
opaque freeChoice : Nat → Nat

/-- A free byte: content the spec gives a report or a reading without stating it. Log entry 2. -/
opaque freeByte : Nat → Byte

/-- ML-DSA-44 signature by the attestation key over a digest (R466). Log entry 7. -/
opaque mldsaSign : Bytes → Bytes

/-- The module's attestation public key and its manufacture-time endorsement (R466, R467). Log entry 7. -/
opaque attestationKey : Bytes

/-- The ENDORSEMENT of R467. Log entry 7. -/
opaque attestationEndorsement : Bytes

/-- The Rosend root public key held in ROM (R353). Log entry 7. -/
opaque rootKey : Bytes

/-- The 64 KiB function coefficient sets held in ROM: set number, then byte offset (R121, R122). Log entry 8. -/
opaque romSet : Nat → Nat → Byte

/-- The point of a bracket of two neighbouring FP32 values from which on a special function's result is the upper one, in 2^-16 of the bracket:
function code, the lower value as a multiple of the spacing, the spacing (R125, R127 leave it to the ROM). Log entry 8. -/
opaque sfuTurn : Nat → Int → Int → Nat

/-- Is a ROLE 4 tensor of a package part of the reference state a slot holds (R77, R477)? The package's digest, the tensor number; no
record of the package states it. Log entry 83. -/
opaque referenceState : Bytes → Nat → Bool

/-- The DVFS step whose current a number of remaining VCORE phases carries (R402 gives no current per step).
Log entry 9. -/
opaque vcoreStep : Nat → Nat

/-- The DVFS step at which the module draws at most a cap in watts (R402). Log entry 9. -/
opaque powerStep : Nat → Nat

/-- FCE_ARITH_CTRL of a face under a Plan (R115: "Headframe writes FCE_ARITH_CTRL from the Plan"; no Plan section states
where it stands): Plan identifier, physical face. Log entry 13. -/
opaque planArithCtrl : Nat → Nat → Nat

/-- Does the work a logical face's command streams do feed a slice of a frame (R266; FACE_PROGRAMS says so to the faces)? Plan
identifier, logical face, slice. Log entry 15. -/
opaque feedsSlice : Nat → Nat → Nat → Bool

/-- The commands a Plan's FACE_PROGRAMS section holds, each as (kind, logical face, engine, face-store offset, bytes): kind 0 a descriptor of
R274, 1 a fused stage command, 2 a compute record, 3 a muster, 4 a compressor descriptor; the offset is where a command that PTR of R289
names stands. R356 states what the section holds and not how its streams are
laid out. Log entry 16. -/
opaque programCommands : Bytes → List (Nat × Nat × Nat × Nat × Bytes)

/-- What the n-th message on a wire leaves open: a MAC address still to be learnt, header fields the spec gives no value. Log entries 2 and
105. -/
opaque freeWire : Nat → Nat

/-- Is the command at an offset of a face's store the last of a work item of the face's schedule (R257; FACE_PROGRAMS says so to the faces)?
The Plan's digest, logical face, offset. Log entry 16. -/
opaque endsItem : Bytes → Nat → Nat → Bool

/-- Does the layout of a Plan's FACE_PROGRAMS section hold together? Log entry 16. -/
opaque programsOk : Bytes → Bool

/-- For each placement entry of a Plan that can run a package, by their digests: numerator and denominator of the frame period it is built
for, the time in ns left between the end of a face's work and the frame's deadline at its least, and the longest slice step (R258). Log
entry 16. -/
opaque placementTimes : Bytes → Bytes → List (Nat × Nat × Nat × Nat)

/-- Does a Plan, by its digest, reserve face store for so many state blocks of 16 KiB in conversion (R160)? Log entry 16. -/
opaque reassayFits : Bytes → Nat → Bool

/-- Does a Plan, by its digest, reserve lot k of a level's slice buffer for a session (R225, R295)? No section states where. Log entry 16. -/
opaque lotReserved : Bytes → Nat → Nat → Bool

/-- Does every crosscut port carry at half its trained width the relay traffic a GROUPS section places on it (R435)? The section, and two
bits of width per port; how much traffic a group is, the spec does not say. Log entry 16. -/
opaque relayFits : Bytes → Nat → Bool

/-- The logical faces whose command streams a placement entry names: the FACE_PROGRAMS section, offset, count (R356). Log
entry 16. -/
opaque programFaces : Bytes → Nat → Nat → List Nat

/-- offsetScaledLogVariance of the module's own clock (R377, R432 give the field no value). Log entry 2. -/
opaque clockVariance : Nat

/-- The servo's frequency after a measurement, in 2^−32 ns per TIME cycle: the frequency before, the offset in ns (R427 gives the step and
no law). Log entry 1. -/
opaque servoRate : Int → Int → Int

/-- Byte n of a hot-state image, of a model package by its D, by what the image holds: each tensor and slot led by its kind and number. The
layout is the package's own (R241, R243; log entry 93). -/
opaque imageByte : List (BitVec 8) → List (List Nat) → Nat → Byte

/-- Byte n of a generation of the cold planes, likewise by the planes it holds (R242, R243; log entry 93). -/
opaque coldByte : List (BitVec 8) → List (List Nat) → Nat → Byte

/-- The chunks of a package's weights that are resident in a slot: Plan identifier, digest of the package, logical face; each chunk its
offset in the face store, that of its home copy in the level's bonded DRAM, its offset in WEIGHTS, its bytes (R291, R357, R391; no section
states them). Log entry 96. -/
opaque residentChunks : Nat → Bytes → Nat → List (Nat × Nat × Nat × Nat)

/-- Input power in W and temperatures the module's sensors measure (R411, R439). Log entry 5. -/
opaque sensor : Nat → Nat

end Sys2Proof.Config
end

