-- ==== Sys2Proof/Machine/State.lean ====
section
/-! DEFINITION. The state of the block as plain data, what can stop it, and the state after reset. Registers that
software reads as words live in one sparse register file keyed by device address (R39); what the registers only view
(queues, rings, descriptors) is stored once, structured, and the view is computed where the register is read. -/

namespace Sys2Proof.Machine

/-- The reasons the block can stop with a fault: none. The spec gives every command an effect; errors of the part are
records, events and statuses (R41, R341, R453), which are next states. -/
inductive Fault where
  deriving DecidableEq, Repr

/-- The reasons exec can refuse. -/
inductive Refusal where
  /-- Raised by exec's arm of a command that has no meaning yet, and by nothing else. Safe: the model stops where the
  part goes on. -/
  | notModelled (mnemonic : String)
  deriving DecidableEq, Repr

/-- Registers written since reset: (device address, value), addresses rising, no entry equal to the reset value. -/
abbrev RegFile := List (Nat × Word)

/-- Device memory or flash: (address, byte), addresses rising, no entry equal to what an unlisted address reads. -/
abbrev Memory := List Host.Cell

/-- A record of the event log and of the alert queue (R342). -/
structure EventRec where
  time    : Nat := 0
  code    : Nat := 0
  cls     : Nat := 0
  level   : Nat := 0
  origin  : Nat := 0
  face    : Nat := 0
  session : Nat := 0
  ctx     : Nat := 0
  job     : Nat := 0
  detail0 : Word := 0
  detail1 : Word := 0
  deriving DecidableEq, Repr

/-- The event log of R342: the circular store by index, counters by code, and the time of the last record each
source wrote for each code (the record's TIME, with its source fields). -/
structure EventLog where
  records  : List (Nat × EventRec) := []
  counters : List (Nat × Nat) := []
  lastBy   : List EventRec := []
  deriving DecidableEq, Repr

/-- Fuses (R353, R367, R368, R418): written at manufacture, never after. -/
structure Fuses where
  moduleId   : Nat := 0
  fusedBad   : List UnitId := []
  rootDigest : Bytes := []
  minKeyGen  : Nat := 0
  macBase    : Nat := 0
  deriving DecidableEq, Repr

/-- One loaded key slot of R451. -/
structure KeySlot where
  key   : Bytes := []
  roles : BitVec 8 := 0
  deriving DecidableEq, Repr

/-- What the root of trust keeps (R361, R451, R472, R479, R439, R445, R383). -/
structure RootOfTrust where
  fuses      : Fuses := {}
  svnPlan    : Nat := 0
  svnHf      : Nat := 0
  locked     : Bool := false
  keys       : List (Option KeySlot) := []
  epoch      : BitVec 64 := 0
  alerts     : List EventRec := []
  alertsLost : Nat := 0
  armUntil   : Option Nat := none
  smbStatus  : Nat := 0
  smbCommand : Nat := 0
  strap      : BitVec 2 := 0
  hfRelease  : Nat := 0
  planId     : Nat := 0
  bootSeen   : Word := 0
  pwrSeen    : Word := 0
  tripHeld   : List EventRec := []
  lastKick   : Nat := 0
  deriving DecidableEq, Repr

/-- A removal request of R405: CLOSE or DRAIN, and when DRAIN_LIMIT passes. -/
structure Removal where
  drain   : Bool := false
  limitAt : Nat := 0
  closed  : Bool := false
  deriving DecidableEq, Repr

/-- Pins, supplies and temperatures (R400 to R407, R416). lastStep: when a level's clock last moved a thermal step; hot: the
level's junction passed 100 °C and has not fallen below 97 °C since; standby: where the module stands in standby, whatever PWR_STAT shows
of a removal beside it: 0 none, 1 entering, 2 in it, 3 leaving (R396, R405). -/
structure PowerState where
  precharged : Bool := false
  vaux       : Bool := false
  present    : Bool := false
  enable     : Bool := false
  inputOk    : Bool := false
  bulkOk     : Bool := false
  fetClosed  : Bool := false
  rails      : Bool := false
  pwrgd      : Bool := false
  removeOk   : Bool := false
  overTemp   : Bool := false
  surprise   : Bool := false
  brownOut   : Bool := false
  removal    : Option Removal := none
  wantRemoval : Option Removal := none
  junction   : List Int := []
  lastStep   : List Nat := []
  hot        : List Bool := []
  volts      : Nat := 0
  watts      : Nat := 0
  standby    : Nat := 0
  deriving DecidableEq, Repr

/-- A reset in progress (R383, R385): 0 cold, 1 warm module, 2 level, 3 face; its unit, the time it was
accepted, whether it has begun or is deferred by R331, CAUSE of R411 for a module reset, and the levels that take the fast path of a
warm one, as they stood when it was requested (R379). -/
structure ActiveReset where
  width : Nat
  unit  : Nat
  since : Nat
  auto  : Bool
  begun : Bool
  cause : Nat
  fast  : List Nat := []
  deriving DecidableEq, Repr

/-- A tensor record of R359. -/
structure TensorRec where
  fmt      : Nat := 0
  role     : Nat := 0
  c        : Nat := 0
  n        : Nat := 0
  yDiv     : Nat := 0
  xDiv     : Nat := 0
  y        : Nat := 0
  x        : Nat := 0
  scaleRec : Nat := 0
  hold     : Nat := 0
  flags    : Nat := 0
  dataOff  : Nat := 0
  dataLen  : Nat := 0
  auxOff   : Nat := 0
  auxLen   : Nat := 0
  deriving DecidableEq, Repr

/-- A layer record of R359. -/
structure LayerRec where
  opclass : Nat := 0
  subop   : Nat := 0
  flags   : Nat := 0
  func    : Nat := 0
  in0     : Nat := 0
  in1     : Nat := 0
  in2     : Nat := 0
  out     : Nat := 0
  weight  : Nat := 0
  bias    : Nat := 0
  record  : Nat := 0
  axis    : Nat := 0
  eps     : Nat := 0
  lambda  : Nat := 0
  deriving DecidableEq, Repr

/-- A window record of R173. -/
structure WindowRec where
  op        : Nat := 0
  padMode   : Nat := 0
  countMode : Nat := 0
  sparse    : Bool := false
  gated     : Bool := false
  zcIn      : Bool := false
  zcOut     : Bool := false
  kh        : Nat := 0
  kw        : Nat := 0
  sy        : Nat := 0
  sx        : Nat := 0
  dy        : Nat := 0
  dx        : Nat := 0
  pt        : Nat := 0
  pb        : Nat := 0
  pl        : Nat := 0
  pr        : Nat := 0
  opy       : Nat := 0
  opx       : Nat := 0
  groups    : Nat := 0
  halo      : Nat := 0
  flowG     : Nat := 0
  flowSh    : Nat := 0
  padValue  : Nat := 0
  deriving DecidableEq, Repr

/-- A scale policy record of R168. -/
structure ScaleRec where
  fmt      : Nat := 0
  path     : Nat := 0
  eventEn  : Bool := false
  reassay  : Bool := false
  sr       : Bool := false
  history  : Nat := 0
  margin   : Nat := 0
  initExp  : Int := 0
  outliers : List Nat := []
  limit    : Nat := 0
  deriving DecidableEq, Repr

/-- An entry of the CODED section (R356). -/
structure CodedRec where
  tensor : Nat := 0
  prior  : Nat := 0
  k      : Nat := 0
  first  : Nat := 0
  list   : Nat := 0
  mu     : Nat := 0
  sigma  : Nat := 0
  deriving DecidableEq, Repr

/-- A directory record of R227 with its entries: a CDF table (kind 1) or a threshold list (kind 2). -/
structure CdfRec where
  kind    : Nat := 0
  centre  : Nat := 0
  first   : Nat := 0
  entries : List Nat := []
  deriving DecidableEq, Repr

/-- The region record of R197 and its anchors (AX, AY, AW, AH). -/
structure RegionRec where
  scoreT  : Nat := 0
  iouT    : Nat := 0
  maxKeep : Nat := 0
  classes : Nat := 0
  weights : List Nat := []
  anchors : List (Nat × Nat × Nat × Nat) := []
  deriving DecidableEq, Repr

/-- A model package, parsed (R49, R356, R358, R359). -/
structure ModelPkg where
  id          : Nat := 0
  version     : Nat := 0
  d           : Bytes := []
  arith       : Nat := 0
  media       : Nat := 0
  ratePoints  : Nat := 0
  funcSet     : Nat := 0
  stateBytes  : Nat := 0
  mediaParams : Bytes := []
  tensors     : List TensorRec := []
  layers      : List LayerRec := []
  intra       : List CodedRec := []
  inter       : List CodedRec := []
  cdf         : List CdfRec := []
  window      : List WindowRec := []
  scale       : List ScaleRec := []
  region      : Option RegionRec := none
  weights     : Bytes := []
  deriving DecidableEq, Repr

/-- A model slot of R463: 0 empty, 1 installing, 2 waiting for swap, 3 usable, 4 unstaging. planCarried: the Plan's
own package (R356). globals: the global table number of each record of the package's CDF section, places: the pool entry where
each record's data start (R228). copyDevs: the LPDDR6 devices its two copies lie on, copyAt: where in device memory each begins
(R340, R367). -/
structure ModelSlot where
  state       : Nat := 0
  pkg         : ModelPkg := {}
  planCarried : Bool := false
  globals     : List Nat := []
  places      : List Nat := []
  copyDevs    : List Nat := []
  copyAt      : List Nat := []
  deriving DecidableEq, Repr

/-- A placement entry of R356: class, model slot, band budget, and the logical faces its command streams name. -/
structure Placement where
  cls        : Nat := 0
  modelSlot  : Nat := 0
  bandBudget : Nat := 0
  faces      : List Nat := []
  deriving DecidableEq, Repr

/-- A ring record of R281. -/
structure RingRec where
  base      : Nat := 0
  skipBytes : Nat := 0
  count     : Nat := 0
  tagged    : Bool := false
  borrow    : Bool := false
  reserve   : Nat := 0
  tSkip     : Nat := 0
  deriving DecidableEq, Repr

/-- A face's rings and its pool record: POOL_BASE, POOL_SKIP_BYTES, POOL_COUNT (R295). -/
structure FaceRings where
  rings     : List RingRec := []
  poolBase  : Nat := 0
  poolBytes : Nat := 0
  poolCount : Nat := 0
  deriving DecidableEq, Repr

/-- A port record of R419. -/
structure PortRec where
  ipv4     : Nat := 0
  prefix4  : Nat := 0
  prefix6  : Nat := 0
  vlan     : Nat := 0
  ipv6     : Nat := 0
  gateway4 : Nat := 0
  gateway6 : Nat := 0
  mtu      : Nat := 0
  ctrlUdp  : Nat := 0
  mediaUdp : Nat := 0
  deriving DecidableEq, Repr

/-- A destination entry of R419. -/
structure DestRec where
  addr     : Nat := 0
  udp      : Nat := 0
  portSel  : Nat := 0
  payload  : Nat := 0
  holdMax  : Nat := 0
  holdAge  : Nat := 0
  deriving DecidableEq, Repr

/-- A group of R419. -/
structure GroupRec where
  skipRefresh : Nat := 0
  dests       : List DestRec := []
  deriving DecidableEq, Repr

/-- The survey policy record of R373. -/
structure SurveyPolicy where
  readyFaces     : Nat := 0
  degradedFaces  : Nat := 0
  readyUnguarded : Nat := 0
  shortOk        : Bool := false
  readyLpddr     : Nat := 0
  degradedLpddr  : Nat := 0
  readyLevels    : Nat := 0
  degradedLevels : Nat := 0
  streamReady    : Nat := 0
  streamDegraded : Nat := 0
  xctMinWidth    : Nat := 0
  xctReady       : Nat := 0
  xctDegraded    : Nat := 0
  xctMismatch    : Bool := false
  timeReq        : Nat := 0
  deriving DecidableEq, Repr

/-- The loaded Plan (R356, R357). -/
structure Plan where
  slot        : Nat := 0
  id          : Nat := 0
  d           : Bytes := []
  svn         : Nat := 0
  svnCommit   : Bool := false
  ceLimit     : Nat := 0
  jobSlack    : Nat := 0
  eventFrames : Nat := 0
  district    : Nat := 0
  priority1   : Nat := 0
  priority2   : Nat := 0
  workOff     : Nat := 0
  workBytes   : Nat := 0
  placement   : List Placement := []
  rings       : List FaceRings := []
  ckptPool    : List (Nat × Nat) := []
  ports       : List PortRec := []
  groups      : List GroupRec := []
  survey      : SurveyPolicy := {}
  topology    : Option (List (Nat × Nat)) := none
  deriving DecidableEq, Repr

/-- A stored claim (R362): its record and the claim slot of the flash that holds it. -/
structure Claim where
  slot        : Nat := 0
  deviceId    : Nat := 0
  notBefore   : Nat := 0
  notAfter    : Nat := 0
  features    : Nat := 0
  maxActive   : Nat := 0
  maxResident : Nat := 0
  deriving DecidableEq, Repr

/-- Bring-up and what it formed (R360 to R382). logPending: log entries to write (unit, STATE, CAUSE, DETAIL). absent: logical
faces whose slot became absent under R266 since it was bound. ceSeen: corrected errors of LPDDR6 devices within the last second, each
the device, the time and how many (R340). claimsTimed: claims with a time limit apply (R365). sounded: the levels in memDone have been sounded in this start; unlocked: levels
whose PLL did not lock in it (R368). -/
structure BootState where
  hfRunning   : Bool := false
  origin      : Nat := 0
  plan        : Option Plan := none
  hfD         : Bytes := []
  claims      : List Claim := []
  enabled     : Nat := 0
  maxActive   : Nat := 0
  maxResident : Nat := 0
  badNow      : List UnitId := []
  disabled    : List UnitId := []
  lpddrFaulty : List Nat := []
  ceSeen      : List (Nat × Nat × Nat) := []
  logPending  : List (UnitId × Nat × Nat × Nat) := []
  absent      : List Nat := []
  claimsTimed : Bool := false
  memDone     : List Nat := []
  sounded     : Bool := false
  unlocked    : List Nat := []
  surveyDue   : Bool := false
  accepting   : Bool := false
  warmCause   : Option Nat := none
  warmFast    : List Nat := []
  bankKept    : Word := 0
  fireKept    : Nat := 0
  deriving DecidableEq, Repr

/-- An entry of Headframe's command queue (R442): path 0 control, by opcode, key slot and REQ_ID; 1 SMBus, by code and data bytes; 2 Lamp,
by the row of R471 and its numbers. -/
structure HfEntry where
  path   : Nat
  opcode : Nat
  slot   : Nat := 0
  reqId  : Nat := 0
  args   : List Nat := []
  deriving DecidableEq, Repr

/-- The replay window of one key slot (R446): H, the seen values among H - 63 to H, and the device's own SEQ. -/
structure ReplayWindow where
  high : Nat := 0
  seen : List Nat := []
  tx   : Nat := 0
  deriving DecidableEq, Repr

/-- A held response (R447): the request's opcode and body, and what was answered. -/
structure Held where
  slot   : Nat
  reqId  : Nat
  opcode : Nat
  body   : Bytes
  status : Nat
  detail : Nat
  resp   : Bytes
  deriving DecidableEq, Repr

/-- An event subscriber (R465). -/
structure Subscriber where
  slot : Nat
  port : Nat
  src  : NetAddr
  deriving DecidableEq, Repr

/-- The control path of Headframe (R442 to R465). -/
structure CtrlState where
  queue    : List HfEntry := []
  windows  : List ReplayWindow := []
  held     : List Held := []
  subs     : List Subscriber := []
  deriving DecidableEq, Repr

/-- A Lamp image transfer (R473): KIND of the container, slot, bytes so far, time of the last byte. -/
structure ImageXfer where
  kind  : Nat := 0
  slot  : Nat := 0
  data  : Bytes := []
  lastAt : Nat := 0
  deriving DecidableEq, Repr

/-- The Lamp monitor (R440, R470 to R473). -/
structure LampState where
  lines    : List Bytes := []
  newBaud  : Option (Nat × Nat) := none
  transfer : Option ImageXfer := none
  deriving DecidableEq, Repr

/-- A staging handle (R462). -/
structure StageHandle where
  handle     : BitVec 32 := 0
  kind       : Nat := 0
  modelSlot  : Nat := 0
  total      : Nat := 0
  fire       : Nat := 0
  data       : List (Nat × Byte) := []
  lastAt     : Nat := 0
  installing : Bool := false
  installed  : Bool := false
  deriving DecidableEq, Repr

/-- A tensor's elements in index order N, C, Y, X, as codes of its format, with its scale entries (R147), Grit4
exponents (R88) and outlier side plane (R154). -/
structure Tensor where
  fmt    : Nat := 0
  n      : Nat := 0
  c      : Nat := 0
  y      : Nat := 0
  x      : Nat := 0
  data   : List Nat := []
  scales : List Word := []
  bexps  : List Byte := []
  side   : List (BitVec 16) := []
  deriving DecidableEq, Repr

/-- A hot-state image (R241): the package's ROLE 4 tensors, the reference state of each slot, and the held outputs of
gated layers, each by tensor number. -/
structure Image where
  hot   : List (Nat × Tensor) := []
  refs  : List (Nat × List (Nat × Tensor)) := []
  gated : List (Nat × Tensor) := []
  deriving DecidableEq, Repr

/-- One sample plane: width, height, samples in raster order. -/
structure Plane where
  w       : Nat := 0
  h       : Nat := 0
  samples : List Nat := []
  deriving DecidableEq, Repr

/-- The session settings of R244. -/
structure Settings where
  stillT         : Nat := 0
  changeT        : Nat := 0
  gateRefresh    : Nat := 0
  refreshInterval : Nat := 0
  ltInterval     : Nat := 0
  reportInterval : Nat := 0
  x0             : Nat := 0
  x1             : Nat := 0
  y0             : Nat := 0
  y1             : Nat := 0
  weight         : Nat := 0
  deriving DecidableEq, Repr

/-- A cold plane's two generations (R242), each a list of sample planes, or a tensor's planes. -/
structure ColdPlane where
  num  : Nat := 0
  gen0 : Option (List Plane) := none
  gen1 : Option (List Plane) := none
  cold0 : Option Tensor := none
  cold1 : Option Tensor := none
  deriving DecidableEq, Repr

/-- A checkpoint copy (R243): settings, counters, one committed image, both generations of the cold planes. present: it is allocated; ok: it
holds the last checkpoint. -/
structure CkptCopy where
  settings : Settings := {}
  counters : List Nat := []
  image    : Image := {}
  cold     : List ColdPlane := []
  present  : Bool := false
  ok       : Bool := false
  deriving DecidableEq, Repr

/-- The state of a session (R240 STATE). -/
inductive SesState where
  | free
  | opening
  | active
  | parking
  | parked
  | resuming
  | closing
  deriving DecidableEq, Repr

/-- One of the eight reference slots as the descriptor shows it (R77, R240). -/
structure RefSlot where
  frame     : Nat := 0
  held      : Bool := false
  long      : Bool := false
  acked     : Bool := false
  concealed : Bool := false
  deriving DecidableEq, Repr

/-- A slice of an encode frame: 0 waiting, 1 launched, 2 completed with its SLICE_DATA and its tally (R332), 3 emitted, 4 dropped. -/
structure EncSlice where
  st    : Nat := 0
  data  : Bytes := []
  tally : Nat := 0
  deriving DecidableEq, Repr

/-- An encode frame in progress (R255 to R267). chosen: its references are chosen; pic: the picture it encodes;
yhat: the coded tensors as ŷ, as far as their records have been formed (R75); missed: gated layers launched before the skip map was
complete (R195); skipMap and rateMap: packed as R213 and R200 lay them out; counted: skipped positions counted, by layer and output
index (R245); wrote: the hot-state tensors its layers have written, each with the layer (R241). -/
structure EncFrame where
  k          : Nat := 0
  num        : Nat := 0
  pts        : Nat := 0
  start      : Nat := 0
  deadline   : Nat := 0
  inter      : Bool := false
  refresh    : Bool := false
  refSlot    : Nat := 0
  storeMask  : Nat := 0
  ltMask     : Nat := 0
  refNum     : Nat := 0
  bank       : Bool := false
  ratePoint  : Nat := 0
  first      : Bool := false
  full       : Bool := false
  slices     : List EncSlice := []
  doneOrder  : List Nat := []
  headerSent : Bool := false
  dropped    : Bool := false
  chosen     : Bool := false
  pic        : Option Nat := none
  ckpt       : Bool := false
  source     : List Plane := []
  tensors    : List (Nat × Tensor) := []
  yhat       : List (Nat × Tensor) := []
  bandsDone  : List Nat := []
  skipMap    : Bytes := []
  flow       : List (Nat × Int × Int) := []
  cost       : List (Nat × Nat) := []
  rateMap    : Option Bytes := none
  missed     : List Nat := []
  counted    : List (Nat × Nat) := []
  wrote      : List (Nat × Nat) := []
  deriving DecidableEq, Repr

/-- A slice of a decode frame: 0 not accepted, 1 accepted, 2 decoded, 3 malformed, 4 missing. -/
structure DecSlice where
  st   : Nat := 0
  data : Bytes := []
  deriving DecidableEq, Repr

/-- A decode frame opened by a header (R58, R65). grey: its reference is missing; conc: its slot is concealed;
bound: that has been decided; unknown: its stream is MODEL_UNKNOWN; ends: the stream ends with it; hdr: its stream header; wrote: as in an
encode frame; stopped: R338. -/
structure DecFrame where
  num       : Nat := 0
  pts       : Nat := 0
  inter     : Bool := false
  refresh   : Bool := false
  refSlot   : Nat := 0
  storeMask : Nat := 0
  ltMask    : Nat := 0
  refNum    : Nat := 0
  ratePoint : Nat := 0
  bank      : Bool := false
  start     : Nat := 0
  deadline  : Nat := 0
  closed    : Bool := false
  output    : Bool := false
  grey      : Bool := false
  conc      : Bool := false
  bound     : Bool := false
  unknown   : Bool := false
  ends      : Bool := false
  hdr       : Bytes := []
  slices    : List DecSlice := []
  tensors   : List (Nat × Tensor) := []
  wrote     : List (Nat × Nat) := []
  stopped   : Bool := false
  deriving DecidableEq, Repr

/-- The USF receiver of a decode session (R53 to R65, R269). lastStart: when its latest frame started; rtpSeq: of the next loss report's
packet. -/
structure DecState where
  header     : Option Bytes := none
  unknown    : Bool := false
  high       : Option Nat := none
  lastOpened : Option Nat := none
  frames     : List DecFrame := []
  closing    : Bool := false
  cleanNum   : Nat := 0
  firstLost  : Nat := 0
  lostCount  : Nat := 0
  reportSeq  : Nat := 0
  lastReport : Option Nat := none
  sinceReport : Nat := 0
  rx         : List Bytes := []
  src        : Option NetAddr := none
  lastStart  : Option Nat := none
  rtpSeq     : Nat := 0
  deriving DecidableEq, Repr

/-- Settings scheduled by SET (R253, R457). -/
structure PendingSet where
  launch      : Nat := 0
  settings    : Settings := {}
  ratePoint   : Nat := 0
  deadlineOff : Nat := 0
  deriving DecidableEq, Repr

/-- A graceful close waiting for its launch time (R253) or for a frame or a park (R246). -/
structure PendingClose where
  launch : Nat
  deriving DecidableEq, Repr

/-- An ingest picture (R425): number, PTS, received bytes by (plane, offset), arrival of each complete band. -/
structure Picture where
  num   : Nat := 0
  pts   : Nat := 0
  bytes : List (Nat × Nat × Byte) := []
  bands : List (Nat × Nat) := []
  doneAt : Option Nat := none
  deriving DecidableEq, Repr

/-- A unit held for egress (R270): its bytes, the time it was put there, the frame's last-unit mark, the destinations
that still hold it, whether it is a slice, with the tally of its SLICE_DATA (R332), and the PTS of its frame. -/
structure HeldUnit where
  bytes  : Bytes := []
  seq    : Nat := 0
  since  : Nat := 0
  pts    : Nat := 0
  last   : Bool := false
  header : Bool := false
  slice  : Bool := false
  tally  : Nat := 0
  holds  : List Nat := []
  deriving DecidableEq, Repr

/-- A destination's sending state (R270, R271, R420). -/
structure DestState where
  skipping : Bool := false
  frames   : Nat := 0
  rtpSeq   : Nat := 0
  deriving DecidableEq, Repr

/-- Egress of a session: unit numbering, held units, destinations (R259, R270). -/
structure Egress where
  unitSeq : Nat := 0
  units   : List HeldUnit := []
  dests   : List DestState := []
  lastPts : Nat := 0
  deriving DecidableEq, Repr

/-- A session: the descriptor of R240, the open command's fields, the working area, the copies and what is in
progress. firedAt: when its last checkpoint round fired; closingAt: when it began to close. lateReports: what loss reports set, with their acceptance times,
until a frame may act on it (R268): acknowledged slots, loss. -/
structure Session where
  state        : SesState := .free
  decode       : Bool := false
  media        : Nat := 0
  subframe     : Bool := false
  bank         : Bool := false
  modelSlot    : Nat := 0
  ratePoint    : Nat := 0
  half         : Bool := false
  mirrorSingle : Bool := false
  refreshDue   : Bool := false
  degraded     : Bool := false
  streamId     : Nat := 0
  placement    : Nat := 0
  destGroup    : Nat := 0
  nextFrameNum : Nat := 0
  start0       : Nat := 0
  frameIndex   : Nat := 0
  periodNum    : Nat := 0
  periodDen    : Nat := 0
  deadlineOff  : Nat := 0
  workBase     : Nat := 0
  ckptA        : Nat := 0
  ckptB        : Nat := 0
  stateBytes   : Nat := 0
  ckptSeq      : Nat := 0
  slots        : List RefSlot := []
  reportSeq    : Nat := 0
  ltAge        : Nat := 0
  refreshAge   : Nat := 0
  gen          : Word := 0
  cls          : Nat := 0
  inPort       : Nat := 0
  inSsrc       : Nat := 0
  header       : Bytes := []
  settings     : Settings := {}
  counters     : List Nat := []
  committed    : Image := {}
  pending      : Option Image := none
  copyA        : CkptCopy := {}
  copyB        : CkptCopy := {}
  cold         : List ColdPlane := []
  coldNew      : List ColdPlane := []
  prevFlow     : List (Nat × Int × Int) := []
  firstFrame   : Bool := false
  sinceFull    : Nat := 0
  parkAsked    : Bool := false
  closeAsked   : Option PendingClose := none
  closingAt    : Nat := 0
  eosSent      : Bool := false
  resetDue     : Bool := false
  anyReport    : Bool := false
  sets         : List PendingSet := []
  frame        : Option EncFrame := none
  ingest       : List Picture := []
  egress       : Egress := {}
  dec          : DecState := {}
  retried      : Bool := false
  resumed      : Bool := false
  firedAt      : Nat := 0
  lateReports  : List (Nat × Nat × Bool) := []
  deriving DecidableEq, Repr

/-- Adaptation job states (R460). -/
inductive JobState where
  | running
  | suspending
  | suspended
  | done
  | cancelled
  | faulted
  deriving DecidableEq, Repr

/-- An adaptation job (R458 to R461): its record, its parameters as FP32 codes in the order of R461, placement entry, the device
its state lies on, whether a step runs or a committed frame waits for one, the exponent history of its state blocks by (tensor, block),
each fit with its step (R156), and by layer the roots ρ of the forward pass by output element (R163). -/
structure Job where
  id       : Nat := 0
  state    : JobState := .running
  cause    : Nat := 0
  modelSlot : Nat := 0
  source   : Nat := 0
  seed     : Word := 0
  steps    : Nat := 0
  step     : Nat := 0
  rejected : Nat := 0
  skipped  : Nat := 0
  startAt  : Nat := 0
  endAt    : Nat := 0
  params   : List (BitVec 32) := []
  placement : Nat := 0
  device   : Nat := 0
  stepping : Bool := false
  fed      : Bool := false
  history  : List (Nat × Nat × List (Nat × Int)) := []
  tensors  : List (Nat × Tensor) := []
  rho      : List (Nat × List (Nat × BitVec 32)) := []
  deriving DecidableEq, Repr

/-- A descriptor queued on an engine: the face-store offset it was read from, its 64 bytes, its owner (R274), and its place in the face's
schedule (R257). -/
structure QueuedDesc where
  offset : Nat
  bytes  : Bytes
  work   : Work
  layer  : Nat
  stored : Bool
  seq    : Nat := 0
  deriving DecidableEq, Repr

/-- One of a face's six data engines (R274 to R287). status: of the last descriptor (R288); err: a bus error met, kind
and address, kept until the engine restarts or its work ends; errAt: when it was met. pos: bytes of the head descriptor moved; fill and drain:
bytes of the skip being filled and of the skip being drained; handed: skips the head descriptor has filled and handed on; unit,
page and sub: of a transfer that holds bytes before it writes them, the unit it is at, the unit's bytes taken in and how many bytes of
its result are written, or of a chunk on its way into the ring, whose injection began at sentAt (R293); auxPos: bytes of the auxiliary
plane moved; credit in 1/256 byte and when it was last brought up to date; key: the key of its last transaction (R285). -/
structure Engine where
  queue    : List QueuedDesc := []
  pos      : Nat := 0
  fill     : Nat := 0
  drain    : Nat := 0
  handed   : Nat := 0
  unit     : Nat := 0
  page     : Bytes := []
  sub      : Nat := 0
  auxPos   : Nat := 0
  stopped  : Bool := false
  waiting  : Nat := 0
  status   : Nat := 0
  err      : Option (Nat × Nat) := none
  errAt    : Nat := 0
  sentAt   : Nat := 0
  credit   : Nat := 0
  creditAt : Nat := 0
  key      : Nat := 0
  deriving DecidableEq, Repr

/-- A skip's metadata word, its tally, and the buffer it fills: an own skip's number, or 128 + a pool skip's (R283, R295,
R332). -/
structure SkipWord where
  bytes  : Nat := 0
  tag    : Nat := 0
  tagged : Bool := false
  tally  : Nat := 0
  place  : Nat := 0
  deriving DecidableEq, Repr

/-- One ring of a face (R281 to R284, R295): pool lists the pool skips it holds, each with its RETURN_BY, 2^64 once that has passed;
borrower: whose work borrowed last, whose next frame start lifts noBorrow; lastHead: when HEAD last advanced; made: of the last skip a
compute stage handed on with a tag, what it was making and the block's number (R150); block and reader: the consumer's count of blocks in
its tensor, and the layer that reads it (R151); taken: a fused step has run on the skip at HEAD (R289). -/
structure Ring where
  head       : Nat := 0
  tail       : Nat := 0
  skips      : List (Nat × SkipWord) := []
  pool       : List (Nat × Nat) := []
  borrower   : Option Ctx := none
  noBorrow   : Bool := false
  waitSpace  : Bool := false
  waitData   : Bool := false
  lastHead   : Option Nat := none
  filling    : Option Nat := none
  made       : Option (Nat × Nat × Nat) := none
  block      : Nat := 0
  reader     : Option Nat := none
  taken      : Bool := false
  deriving DecidableEq, Repr

/-- A fused stage command in progress (R289): the hand-overs its last step has done, the face-store offset it was read from, and how often
each engine number's compute step has run. -/
structure Fused where
  bytes   : Bytes
  drained : Nat
  work    : Work
  seq     : Nat := 0
  offset  : Nat := 0
  ran     : List Nat := List.replicate 8 0
  deriving DecidableEq, Repr

/-- A block's motion result: class 0 still, 1 moved, 2 changed; the vector in quarters; the cost (R208 to R213). -/
structure BlockMotion where
  block : Nat := 0
  cls   : Nat := 0
  vx    : Int := 0
  vy    : Int := 0
  cost  : Nat := 0
  deriving DecidableEq, Repr

/-- The motion engine of a face (R204 to R215, R236): the search store's column slots and tile buffers, what the
vector store holds of the previous frame and of the band in progress. -/
structure MotionEngine where
  busy    : Bool := false
  session : Nat := 0
  band    : Nat := 0
  tile    : Nat := 0
  columns : List (Nat × Int × List Nat) := []
  buffers : List (Nat × List Nat) := []
  vectors : List BlockMotion := []
  previous : List BlockMotion := []
  deriving DecidableEq, Repr

/-- A tram chunk this face left the multicast for, and how many of its bytes it has refetched (R293). -/
structure TramMissed where
  engine : Nat := 0
  layer  : Nat := 0
  chunk  : Nat := 0
  dueBy  : Nat := 0
  bytes  : Nat := 0
  done   : Nat := 0
  deriving DecidableEq, Repr

/-- A tram chunk on its way round a drift ring (R24, R293): the face that injected it, its header, its bytes, the faces it has
reached, and the key it travels with (R285). -/
structure TramChunk where
  home    : Nat := 0
  layer   : Nat := 0
  chunk   : Nat := 0
  dueBy   : Nat := 0
  data    : Bytes := []
  visited : List Nat := []
  key     : Nat := 0
  deriving DecidableEq, Repr

/-- A work item a face is at, one session's frame or a band of it in one stage, or a job's, and when the face launched it (R257). -/
structure WorkItem where
  work   : Work
  launch : Nat
  deriving DecidableEq, Repr

/-- A physical face (R21, R389 to R393). stopWork: whose work it stopped on (R288); zeroTiles: runs of its store marked as zero tiles,
(offset, bytes) (R188, R192); workSeq: numbers its schedule's work in order, item: the item it is at (R257); making: what its compute stages make, the layer with its frame's
deadline or its job's step, and the scale blocks of its output (R150). -/
structure Face where
  epoch     : Nat := 0
  failed    : Bool := false
  failedAt  : Nat := 0
  cause     : Nat := 0
  autoDone  : Bool := false
  passed    : Bool := false
  asReserve : Bool := false
  inReset   : Bool := false
  wasCurrent : Bool := false
  gated     : Bool := false
  lastWork  : Nat := 0
  stopped   : Bool := false
  engines   : List Engine := []
  counters  : List Nat := []
  rings     : List Ring := []
  fused     : Option Fused := none
  motion    : MotionEngine := {}
  missed    : List TramMissed := []
  stageStop : Bool := false
  stopWork  : Option Ctx := none
  zeroTiles : List (Nat × Nat) := []
  workSeq   : Nat := 0
  item      : Option WorkItem := none
  making    : Option (Nat × Nat × Nat) := none
  portDone  : List (Nat × Nat × Nat × Nat) := []
  deriving DecidableEq, Repr

/-- A coder job (R217): the face, the descriptor, the order of submission, SLICE_DATA to decode with its tally (R332) and how much of it has
been brought into DATA_RING, the element records at hand, and how many have come in all. -/
structure CoderJob where
  face     : Nat := 0
  desc     : Bytes := []
  seq      : Nat := 0
  data     : Bytes := []
  tally    : Nat := 0
  brought  : Nat := 0
  records  : List Word := []
  fed      : Nat := 0
  deriving DecidableEq, Repr

/-- The range coder's registers (R69, R70). -/
structure RangeState where
  val     : Nat := 0
  rng     : Nat := 0
  low     : Nat := 0
  cache   : Nat := 0
  pending : Nat := 0
  first   : Bool := false
  read    : Nat := 0
  out     : Bytes := []
  deriving DecidableEq, Repr

/-- One job context of a coder (R216, R219 to R223). next: 0 where no element is left or none is begun, 1 where the next needs no record, 2
where it needs one; need: the bytes its next element, or its close(), writes to DATA_RING where it has met no room for them; drained: ŷ
records the faces have read from its ring, or of an encode job the SLICE_DATA bytes they have; pressed: a face had records its ring had no room for (R225); barred: its rings that have had to
return a borrowed lot (R295). -/
structure CoderCtx where
  job       : Option CoderJob := none
  filling   : Bool := false
  next      : Nat := 0
  need      : Nat := 0
  running   : Bool := false
  cache     : List (Nat × CdfRec) := []
  range     : RangeState := {}
  done      : Nat := 0
  yhat      : List Word := []
  drained   : Nat := 0
  pressed   : Bool := false
  barred    : List Nat := []
  malformed : Bool := false
  status    : Option Nat := none
  deriving DecidableEq, Repr

/-- A compressor job on a unit or in the queue (R310 to R319). -/
structure BlkJob where
  face      : Nat := 0
  ctx       : Ctx := .session 0
  desc      : Bytes := []
  key       : Nat := 0
  seq       : Nat := 0
  nextSeg   : Nat := 0
  consumed  : Nat := 0
  produced  : Nat := 0
  outHere   : Nat := 0
  nonfinite : Nat := 0
  started   : Bool := false
  cancel    : Bool := false
  deriving DecidableEq, Repr

/-- One level (R386 to R399, R216, R225, R311). unparkAt: when its return from a park began (R395). -/
structure Level where
  inService  : Bool := false
  parked     : Nat := 0
  byStandby  : Bool := false
  inReset    : Bool := false
  coderQ     : List CoderJob := []
  coderSeq   : Nat := 0
  coders     : List (List CoderCtx) := []
  lotOwners  : List (Nat × Nat × Nat) := []
  sharedLots : List (RingRef × Nat × Nat) := []
  blkQ       : List BlkJob := []
  blkSeq     : Nat := 0
  blkUnits   : List (Option BlkJob) := []
  waitSeen   : List (Nat × Nat × Nat × Nat) := []
  dvfs       : Nat := 0
  dvfsNext   : Option Nat := none
  thermal    : Bool := false
  phaseLim   : Bool := false
  dvfsAt     : Nat := 0
  unparkAt   : Nat := 0
  deriving DecidableEq, Repr

/-- A round's kind with its flip members (R324). -/
inductive Flip where
  | remap (levels : List Nat)
  | takeover (level drift slot failed reserve : Nat)
  | rejoin (p : Nat) (reserve : Bool)
  | swap
  | checkpoint (session : Nat)
  | migration (session placement : Nat)
  | licence
  deriving DecidableEq, Repr

/-- A member of a round: the die that holds it (0 to 3 level, 4 command die), 0 pending, 1 done or ready, 2 failed. -/
structure Member where
  die : Nat := 0
  st  : Nat := 0
  deriving DecidableEq, Repr

/-- A round (R322 to R331). timed: the fire time T of a time-triggered round; asked: when it was asked for. hold: a migration round waiting for the
session's next frame start, or a preempted round waiting for the takeover (R329, R330). key: of the transfers a checkpoint round makes
(R285). -/
structure Round where
  id       : Nat
  flip     : Flip
  armed    : Bool
  armedAt  : Nat
  timed    : Option Nat
  deadline : Nat
  members  : List Member
  doneAt   : Option Nat
  decided  : Bool
  single   : Bool
  hold     : Bool
  key      : Nat := 0
  asked    : Nat := 0
  deriving DecidableEq, Repr

/-- A face that waits for the release of a muster to arrive at the next of the same identifier, with that command's fields (R292). -/
structure MusterWait where
  face      : Nat
  parts     : Nat
  notBefore : Nat
  deadline  : Nat
  placement : Nat
  deriving DecidableEq, Repr

/-- A muster (R291, R292): scope, scope unit, identifier, participants, NOT_BEFORE, logical faces arrived, the last
arrival, the deadline and the placement of the work it joins. -/
structure MusterState where
  scope     : Nat := 0
  unit      : Nat := 0
  id        : Nat := 0
  parts     : Nat := 0
  notBefore : Nat := 0
  arrived   : List Nat := []
  lastAt    : Nat := 0
  deadline  : Nat := 0
  placement : Nat := 0
  waiting   : List MusterWait := []
  deriving DecidableEq, Repr

/-- A crosscut frame as sent (R430): what the replay buffer keeps. -/
structure XctFrame where
  type    : Nat := 0
  seq     : Nat := 0
  payload : Bytes := []
  deriving DecidableEq, Repr

/-- One crosscut port (R429 to R434). dropped: frames of a TYPE that R430 does not name, which are dropped and counted. -/
structure XctPort where
  txSeq    : Nat := 0
  rxSeq    : Nat := 0
  ackAt    : Nat := 0
  replay   : List XctFrame := []
  waitingTx : List XctFrame := []
  nbrSeen  : Bool := false
  dataset  : List Nat := []
  steps    : Nat := 0
  helloAt  : Nat := 0
  timeAt   : Nat := 0
  laneBusy : Bool := false
  dropped  : Nat := 0
  deriving DecidableEq, Repr

/-- A crosscut link known to the module (R376, R432), with the time it was last reported. -/
structure KnownLink where
  modA  : Nat := 0
  portA : Nat := 0
  modB  : Nat := 0
  portB : Nat := 0
  seen  : Nat := 0
  deriving DecidableEq, Repr

/-- Links: UCIe module widths (R17, R371), stream ports, crosscut ports, the district (R376, R377). xctTried: the crosscut ports that have
been trained in the start in progress (R371); neigh: the MAC addresses stream ports have learnt, by port and IP address (R418). -/
structure LinkState where
  ucie      : List Nat := []
  streamUp  : List Bool := []
  xct       : List XctPort := []
  known     : List KnownLink := []
  best      : List Nat := []
  bestAt    : Nat := 0
  topologyAt : Nat := 0
  settledElection : Bool := false
  linksStart : Nat := 0
  xctTried  : List Nat := []
  neigh     : List (Nat × Nat × Nat) := []
  deriving DecidableEq, Repr

/-- IEEE 1588 on a stream port (R426, R428): the next sequence numbers of its Sync, Delay_Req and Announce messages and when it last
announced; of the slave, a two-step Sync that waits for its Follow_Up (sequenceId, receipt, correction), the last difference of receipt
and origin, the Delay_Req that waits for its answer (sequenceId, departure) and the path delay. -/
structure PtpPort where
  syncSeq : Nat := 0
  reqSeq  : Nat := 0
  annSeq  : Nat := 0
  annAt   : Option Nat := none
  sync    : Option (Nat × Nat × Int) := none
  down    : Option Int := none
  req     : Option (Nat × Nat) := none
  delay   : Option Int := none
  deriving DecidableEq, Repr

/-- The servo of the TIME counter (R426, R427, R433). below, above: consecutive measurements within 50 ns or over 500 ns;
masterPort: the stream port it takes time from; xctDelay: the measured delay of a crosscut link; announce: what a stream port's
master announced (priority1, class, accuracy, variance, priority2, identity, steps); rate: what the servo adds to a TIME cycle, in 2^−32
ns; frac: the time's fraction below 1 ns, in the same unit; ptp: the messages of each stream port. -/
structure Servo where
  below    : Nat := 0
  above    : Nat := 0
  lastAt   : Nat := 0
  holdAt   : Nat := 0
  external : Bool := false
  masterPort : Option Nat := none
  settled  : Bool := false
  traceable : Bool := false
  syncAt   : List Nat := []
  xctDelay : List Nat := []
  announce : List (List Nat) := []
  rate     : Int := 0
  frac     : Nat := 0
  ptp      : List PtpPort := []
  deriving DecidableEq, Repr

/-- A fragmented unit being reassembled (R423). -/
structure Fragment where
  port    : Nat
  ssrc    : Nat
  src     : NetAddr
  rtpNext : Nat
  ixNext  : Nat
  bytes   : Bytes
  since   : Nat
  deriving DecidableEq, Repr

/-- The CDF shadow build in progress or done (R232): the model slot staged or removed, and the fire of the swap. -/
structure ShadowBuild where
  slot   : Nat
  remove : Bool
  handle : Option (BitVec 32)
  deriving DecidableEq, Repr

/-- Something the block sent to the world (the model's own record, newest last). A control frame, a media packet and a loss report carry
the Ethernet frame they travel in (R418). -/
inductive OutMsg where
  | ctrl (port : Nat) (dst : NetAddr) (header body tag frame : Bytes)
  | smb (data : Bytes)
  | lamp (data : List Nat) (ok : Bool) (status : Nat)
  | lampByte (b : Byte)
  | lampReady
  | usf (port addr udp srcUdp : Nat) (rtp : Bytes) (fcsOk : Bool) (frame : Bytes)
  | report (session : Nat) (dst : Option NetAddr) (rtp frame : Bytes)
  | crosscut (port : Nat) (frame : Bytes)
  | relayed (port : Nat) (frame : Bytes)
  | net (port : Nat) (frame : Bytes)
  deriving DecidableEq, Repr

/-- The rate credit an engine starts with, in bytes: the cap of R279. The spec states no reset value: log entry 6. -/
def creditCap : Nat := 524288

/-- A face as reset leaves it (R398: every run-time state Z). -/
def Face.zero : Face :=
  { engines := List.replicate 6 { credit := creditCap }, counters := List.replicate 16 0,
    rings := List.replicate 16 {} }

/-- A level as reset leaves it. -/
def Level.zero : Level :=
  { coders := List.replicate 16 (List.replicate 4 {}), blkUnits := List.replicate 4 none,
    waitSeen := [] }

/-- The state of the block. now: the shift clock in ns (R10). mem: device memory of R7. outbox: what the block has sent,
newest last; draws and pending are the model's own (free values; the waiting commands). blkFirst: by SAVE address, the
descriptor that began the compressor job whose record lies there (R315). trams: the chunks on their way round the drift rings. poisoned: the 32-byte granules of
device memory that scrubbing has poisoned (R339). badReads: the LPDDR6 devices on which the command at work has read a poisoned granule,
declared faulted before it ends (R340). -/
structure State where
  now      : Nat
  pending  : List Instr
  draws    : Nat
  outbox   : List OutMsg
  regs     : RegFile
  mem      : Memory
  flash    : Memory
  rot      : RootOfTrust
  pwr      : PowerState
  boot     : BootState
  events   : EventLog
  ctrl     : CtrlState
  lamp     : LampState
  handles  : List StageHandle
  models   : List (Nat × ModelSlot)
  jobs     : List Job
  sessions : List (Nat × Session)
  faces    : List (Nat × Face)
  levels   : List Level
  rounds   : List Round
  nextRound : Nat
  musters  : List MusterState
  links    : LinkState
  servo    : Servo
  frags    : List Fragment
  resets   : List ActiveReset
  shadow   : Option ShadowBuild
  joinSeen : List (Nat × Nat × Nat × Nat)
  blkFirst : List (Nat × Bytes)
  trams    : List TramChunk
  poisoned : List Nat
  badReads : List Nat
  deriving DecidableEq, Repr

/-- The block before power is good and cold reset has run: every register at the reset value the spec gives it (an
unlisted register reads that), no work, nothing loaded. Log entries 2 to 6 name the values the spec does not state. -/
def State.reset : State :=
  { now := 0, pending := [], draws := 0, outbox := [], regs := [], mem := [], flash := [],
    rot := { keys := List.replicate 8 none, strap := 3 },
    pwr := { junction := List.replicate 5 0, lastStep := List.replicate 4 0,
             hot := List.replicate 4 false },
    boot := {},
    events := {}, ctrl := { windows := List.replicate 8 {} }, lamp := {},
    handles := [], models := [], jobs := [], sessions := [], faces := [],
    levels := List.replicate 4 Level.zero,
    rounds := [], nextRound := 0, musters := [],
    links := { ucie := List.replicate 24 0, streamUp := List.replicate 2 false, xct := List.replicate 4 {} },
    servo := { syncAt := List.replicate 2 0, xctDelay := List.replicate 4 0,
               announce := List.replicate 2 [], ptp := List.replicate 2 {} },
    frags := [], resets := [], shadow := none, joinSeen := [], blkFirst := [], trams := [], poisoned := [], badReads := [] }

end Sys2Proof.Machine
end

