-- ==== Sys2Proof/WellFormed.lean ====
section
/-! DEFINITION. Well-formed commands: operands that name a unit the module has, at the widths the interfaces carry. An
ill-formed command names no unit, so exec leaves the state as it is (log entry 1). -/

namespace Sys2Proof

/-- A physical face number of R8: level × 512 + drift × 32 + position, positions 0 to 16. -/
def faceWf (p : Nat) : Bool := decide (p < 2048) && decide (p % 32 < 17)

/-- Bytes of a face store (R38: 1.5 MiB). -/
def storeBytes : Nat := 1572864

/-- A level, or the command die. -/
def levelOptWf : Option Nat → Bool
  | none => true
  | some l => decide (l < 4)

/-- An endpoint: a 128-bit address and a UDP port. -/
def NetAddr.wf (a : NetAddr) : Bool := decide (a.ip < 2 ^ 128) && decide (a.udp < 65536)

/-- A request arrives on one of two stream ports, with a key slot byte and a 32-bit identifier (R443). -/
def Req.wf (r : Req) : Bool :=
  decide (r.port < 2) && r.src.wf && decide (r.slot < 256) && decide (r.reqId < 4294967296)

/-- A deadline is a 64-bit shift-clock time. -/
def Work.wf (w : Work) : Bool := decide (w.deadline < 2 ^ 64)

/-- A ring of a face, or one of the three lot rings of a coder context. -/
def RingRef.wf : RingRef → Bool
  | .face p r => faceWf p && decide (r < 16)
  | .lot l c x w => decide (l < 4) && decide (c < 16) && decide (x < 4) && decide (w < 3)

/-- The unit an uncorrectable read names exists. -/
def eccWf : EccUse → Bool
  | .faceStore p => faceWf p
  | .searchStore p _ _ => faceWf p
  | .pool l c x => decide (l < 4) && decide (c < 16) && decide (x < 4)
  | .workingArea _ => true
  | .descriptor _ => true
  | .dramOther p e => faceWf p && decide (e < 6)
  | .dramUnit l u => decide (l < 4) && decide (u < 4)
  | .lpddrCopy _ _ => true
  | .lpddrModel m => decide (m < 4096)
  | .lpddrOther p e => faceWf p && decide (e < 6)
  | .lpddrUnit l u => decide (l < 4) && decide (u < 4)
  | .lot l c x => decide (l < 4) && decide (c < 16) && decide (x < 4)
  | .tableCache l c x => decide (l < 4) && decide (c < 16) && decide (x < 4)
  | .staging l u => decide (l < 4) && decide (u < 4)
  | .portIngress p => decide (p < 2)
  | .portEgress id d => decide (id < 4294967296) && decide (d < 64)
  | .mesh p e => faceWf p && decide (e < 6)
  | .roundState d => decide (d < 5)

/-- A command whose operands name units the module has. -/
def Instr.wf : Instr → Bool
  | .ctrlFrameReceive port src _ => decide (port < 2) && src.wf
  | .probe rq => rq.wf
  | .status rq => rq.wf
  | .sessionStatus rq _ => rq.wf
  | .sessionCounters rq _ _ => rq.wf
  | .jobStatus rq _ => rq.wf
  | .eventRead rq _ _ => rq.wf
  | .eventSubscribe rq _ => rq.wf
  | .repairRead rq _ _ => rq.wf
  | .regRead rq _ _ => rq.wf
  | .regWrite rq _ _ => rq.wf
  | .attest rq nonce => rq.wf && decide (nonce.length = 32)
  | .modelList rq _ _ => rq.wf
  | .sesOpen rq body => rq.wf && decide (body.header.length = 40 && body.settings.length = 64)
  | .sesClose rq _ _ _ => rq.wf
  | .sesPark rq _ => rq.wf
  | .sesResume rq _ _ => rq.wf
  | .sesReset rq _ => rq.wf
  | .sesSet rq _ _ _ _ _ => rq.wf
  | .migrate rq _ _ _ => rq.wf
  | .jobStart rq _ => rq.wf
  | .jobSuspend rq _ => rq.wf
  | .jobResume rq _ => rq.wf
  | .jobCancel rq _ => rq.wf
  | .jobRelease rq _ => rq.wf
  | .jobExport rq _ _ _ => rq.wf
  | .stageBegin rq _ _ _ _ => rq.wf
  | .stageData rq _ _ _ => rq.wf
  | .stageCommit rq _ => rq.wf
  | .stageAbort rq _ => rq.wf
  | .modelUnstage rq _ => rq.wf
  | .swapArm rq _ => rq.wf
  | .swapDisarm rq => rq.wf
  | .directorySet rq _ => rq.wf
  | .logClear rq _ _ => rq.wf
  | .warmReset rq => rq.wf
  | .levelReset rq _ => rq.wf
  | .faceReset rq _ => rq.wf
  | .levelPark rq _ _ => rq.wf
  | .standby rq _ => rq.wf
  | .remove rq _ _ => rq.wf
  | .keySet rq _ _ nonce wrapped => rq.wf && decide (nonce.length = 16) && decide (wrapped.length = 32)
  | .keyClear rq _ => rq.wf
  | .smbIdentity _ => true
  | .smbStatus _ => true
  | .smbEventNext _ => true
  | .smbThermal _ => true
  | .smbArm _ _ _ => true
  | .smbArmWindowExpire => true
  | .smbReset _ _ _ _ => true
  | .smbPark _ _ _ _ => true
  | .smbStandby _ _ _ => true
  | .smbRemove _ _ _ _ _ => true
  | .smbResult _ => true
  | .lampLineReceive _ => true
  | .lampHelp => true
  | .lampId => true
  | .lampStatus => true
  | .lampLog n => decide (n ≤ 1024)
  | .lampRepair => true
  | .lampBaud _ => true
  | .lampBaudApply => true
  | .lampRegRead _ _ => true
  | .lampRegWrite _ _ => true
  | .lampMemRead _ _ => true
  | .lampResetCold => true
  | .lampResetWarm => true
  | .lampResetLevel level => decide (level < 4)
  | .lampResetFace _ => true
  | .lampPark level => decide (level < 4)
  | .lampUnpark level => decide (level < 4)
  | .lampStandbyOn => true
  | .lampStandbyOff => true
  | .lampKeyload slot roles key => decide (slot < 8) && decide (roles < 256) && decide (key.length == 32)
  | .lampHfload slot => decide (slot < 2)
  | .lampPlanload slot => decide (slot < 4)
  | .lampImageFrame _ data _ => decide (data.length ≤ 4096)
  | .lampTransferTimeout => true
  | .lampLock _ => true
  | .arithFlagsClear p _ => faceWf p
  | .trapRecordClear p _ => faceWf p
  | .spillRecordClear p _ => faceWf p
  | .tagFaultClear p _ => faceWf p
  | .addrErrClear level _ => levelOptWf level
  | .hstErrClear p _ => faceWf p
  | .waitRecordClear level _ => decide (level < 4)
  | .roundAbortRecordClear level _ => levelOptWf level
  | .eccRecordClear level _ => levelOptWf level
  | .takeoverRecordClear level _ => decide (level < 4)
  | .phaseLastClear _ => true
  | .counterReadClear _ => true
  | .timNowLoRead => true
  | .registerWriteOther _ _ => true
  | .hoistCopy p engine offset work => faceWf p && decide (engine < 6) && decide (offset < storeBytes) && work.wf
  | .hoistFill p engine offset work => faceWf p && decide (engine < 6) && decide (offset < storeBytes) && work.wf
  | .tram p engine offset _ work => faceWf p && (engine == 4 || engine == 5) && decide (offset < storeBytes) && work.wf
  | .transactionIssue p engine => faceWf p && decide (engine < 6)
  | .descriptorComplete p engine => faceWf p && decide (engine < 6)
  | .busError p engine => faceWf p && decide (engine < 6)
  | .fusedStageCommand p offset work => faceWf p && decide (offset < storeBytes) && work.wf
  | .computeStep p _ op => faceWf p && op.record.length == 16 && decide (op.inOf < 5)
  | .muster p offset work => faceWf p && decide (offset < storeBytes) && work.wf
  | .musterRelease scope unit _ => decide (scope < 4) && decide (unit < 65536)
  | .skipPublish p ring _ _ => faceWf p && decide (ring < 16)
  | .skipRelease p ring => faceWf p && decide (ring < 16)
  | .poolBorrow ring _ => ring.wf
  | .borrowReturnBy ring => ring.wf
  | .ringMonitorSample level => decide (level < 4)
  | .waitJoinSample => true
  | .tramChunkArrive home p _ _ _ _ => faceWf home && faceWf p
  | .tramRefetch p engine => faceWf p && decide (engine < 6)
  | .faceIdleGate p => faceWf p
  | .faceUngate p => faceWf p
  | .motionBandStart p session _ => faceWf p && decide (session < 4294967296)
  | .columnBlockLoad p _ => faceWf p
  | .motionTileStart p => faceWf p
  | .motionBandPublish p => faceWf p
  | .regionMapPaint session _ _ => decide (session < 4294967296)
  | .coderJobSubmit p _ _ => faceWf p
  | .coderJobDispatch level => decide (level < 4)
  | .coderCacheFill level coder ctx _ => decide (level < 4) && decide (coder < 16) && decide (ctx < 4)
  | .coderContextSwitch level coder _ => decide (level < 4) && decide (coder < 16)
  | .coderJobComplete level coder ctx _ => decide (level < 4) && decide (coder < 16) && decide (ctx < 4)
  | .compress p offset work => faceWf p && decide (offset < storeBytes) && work.wf
  | .decompress p offset work => faceWf p && decide (offset < storeBytes) && work.wf
  | .verify p offset work => faceWf p && decide (offset < storeBytes) && work.wf
  | .compressorDispatch level => decide (level < 4)
  | .segmentComplete level unit => decide (level < 4) && decide (unit < 4)
  | .sessionActivate session => decide (session < 4294967296)
  | .frameStart session => decide (session < 4294967296)
  | .bandLaunch session _ => decide (session < 4294967296)
  | .encodeDeadline session => decide (session < 4294967296)
  | .sliceEmit session => decide (session < 4294967296)
  | .destinationSend session dest _ => decide (session < 4294967296) && decide (dest < 64)
  | .spectatorSkip session dest => decide (session < 4294967296) && decide (dest < 64)
  | .decodeFrameDeadline session => decide (session < 4294967296)
  | .decodeFrameOutput session => decide (session < 4294967296)
  | .sessionParkComplete session => decide (session < 4294967296)
  | .sessionFree session => decide (session < 4294967296)
  | .ethFrameReceive port _ _ => decide (port < 2)
  | .usfPacketReceive port src dstUdp ssrc rtpSeq _ => decide (port < 2) && src.wf && decide (dstUdp < 65536) && decide (ssrc < 4294967296) && decide (rtpSeq < 65536)
  | .fragmentTimeout port ssrc => decide (port < 2) && decide (ssrc < 4294967296)
  | .rawMediaPacket port dstUdp ssrc _ => decide (port < 2) && decide (dstUdp < 65536) && decide (ssrc < 4294967296)
  | .usfStreamHeader session _ => decide (session < 4294967296)
  | .usfFrameHeader session _ => decide (session < 4294967296)
  | .usfSlice session _ => decide (session < 4294967296)
  | .usfEndOfStream session _ => decide (session < 4294967296)
  | .usfLossReport session _ _ => decide (session < 4294967296)
  | .usfReservedType session _ => decide (session < 4294967296)
  | .roundArm _ => true
  | .roundMemberComplete _ _ _ => true
  | .roundDecision _ => true
  | .roundFireTimed _ => true
  | .roundFireCompletion _ => true
  | .roundDeadline _ => true
  | .faceWatchdogExpire p => faceWf p
  | .facePowerFault p => faceWf p
  | .faceAutoReset p => faceWf p
  | .faceSoundingDone p _ _ => faceWf p
  | .ringSegment level drift segment => decide (level < 4) && decide (drift < 16) && decide (segment < 17)
  | .lpddrDevice device _ => decide (device < 16)
  | .eccUe _ error => eccWf error.use
  | .patrolScrub _ _ _ => true
  | .phaseShed phase _ => decide (phase < 160)
  | .junctionReport die _ => decide (die < 5)
  | .dvfsThermalStep level => decide (level < 4)
  | .dvfsStepDone level => decide (level < 4)
  | .mgmtWatchdogExpire => true
  | .coldStart => true
  | .planLoad => true
  | .memoryInitDone level _ => decide (level < 4)
  | .linkTrainingDone _ => true
  | .soundingDone _ => true
  | .modelStagingDone => true
  | .timeSettled _ _ => true
  | .survey => true
  | .surveyRerun => true
  | .helloSend port => decide (port < 4)
  | .helloReceive port _ => decide (port < 4)
  | .neighbourTimeout => true
  | .electionSettle => true
  | .streamPortLinkChange port _ => decide (port < 2)
  | .streamPortLinkTimeout port => decide (port < 2)
  | .warmResetResume _ => true
  | .levelResetComplete level _ => decide (level < 4)
  | .levelParkComplete level => decide (level < 4)
  | .levelUnparkComplete level => decide (level < 4)
  | .standbyExitComplete => true
  | .repairLogWrite => true
  | .shadowBuildComplete => true
  | .stageInstallComplete _ => true
  | .stageHandleTimeout _ => true
  | .jobStep _ => true
  | .jobStepDone _ _ => true
  | .prechargeContact => true
  | .vauxUp _ => true
  | .modPresentAssert => true
  | .inputValid _ => true
  | .modEnRise => true
  | .modEnFall => true
  | .modRemoveOkAssert => true
  | .drainLimitExpire => true
  | .surpriseRemoval _ => true
  | .inputUndervoltage => true
  | .ptpMessageReceive port _ => decide (port < 2)
  | .ptpSyncSend port => decide (port < 2)
  | .servoHoldover => true
  | .holdoverExpire => true
  | .xctTimeSend port => decide (port < 4)
  | .xctTimeFrame port _ => decide (port < 4)
  | .xctLaneFrame port _ => decide (port < 4)
  | .xctRelay port _ => decide (port < 4)
  | .xctNak port _ => decide (port < 4)
  | .xctReplayTimeout port => decide (port < 4)
  | .xctLane port lane => decide (port < 4) && decide (lane < 4)
  | .decodeCloseLaunch session => decide (session < 4294967296)
  | .standbyEntryComplete => true
  | .xctAckReceive port _ => decide (port < 4)

end Sys2Proof
end

