-- ==== Sys2Proof/Machine/Ops.lean ====
section
/-! DEFINITION. The named operations every meaning is written over: bit fields and byte orders (R4), sparse maps, device
memory, the register file (R39, R40), and access to the parts of State by unit number. -/

namespace Sys2Proof.Machine

open Sys2Proof

/-- Bits [lo + n - 1 : lo] of v. -/
def bits (v lo n : Nat) : Nat := v / 2 ^ lo % 2 ^ n

/-- Bit i of v. -/
def bitAt (v i : Nat) : Bool := v / 2 ^ i % 2 == 1

/-- 1 for true. -/
def b2n (b : Bool) : Nat := if b then 1 else 0

/-- The two's-complement value of the low n bits of v. -/
def signedOf (n v : Nat) : Int :=
  if v % 2 ^ n < 2 ^ (n - 1) then (v % 2 ^ n : Nat) else ((v % 2 ^ n : Nat) : Int) - (2 ^ n : Nat)

/-- The n-bit two's-complement code of i. -/
def codeOf (n : Nat) (i : Int) : Nat := (i % (2 ^ n : Nat)).toNat

/-- Little-endian value of a byte string (R4: memory, registers, descriptors, images). -/
def leNat : Bytes → Nat
  | [] => 0
  | b :: r => b.toNat + 256 * leNat r

/-- Big-endian value of a byte string (R4: the wire). -/
def beNat (b : Bytes) : Nat := leNat b.reverse

/-- The n little-endian bytes of v. -/
def natLe : Nat → Nat → Bytes
  | 0, _ => []
  | n + 1, v => BitVec.ofNat 8 v :: natLe n (v / 256)

/-- The n big-endian bytes of v. -/
def natBe (n v : Nat) : Bytes := (natLe n v).reverse

/-- n bytes of b from offset off. -/
def sub (b : Bytes) (off n : Nat) : Bytes := (b.drop off).take n

/-- The n-byte little-endian field of b at offset off. -/
def leAt (b : Bytes) (off n : Nat) : Nat := leNat (sub b off n)

/-- The n-byte big-endian field of b at offset off. -/
def beAt (b : Bytes) (off n : Nat) : Nat := beNat (sub b off n)

/-- n zero bytes. -/
def zeros (n : Nat) : Bytes := List.replicate n 0

/-- b cut or padded with zeros to n bytes. -/
def padTo (n : Nat) (b : Bytes) : Bytes := (b ++ zeros (n - b.length)).take n

/-- v rounded up to a multiple of m. -/
def roundUp (v m : Nat) : Nat := if m = 0 then v else (v + m - 1) / m * m

/-- Does n-bit serial number a come before b (R60, R285)? -/
def serialBefore (n a b : Nat) : Bool :=
  let d := (b % 2 ^ n + 2 ^ n - a % 2 ^ n) % 2 ^ n
  decide (0 < d) && decide (d < 2 ^ (n - 1))

/-- Fields (value, width) packed least significant bit first, as one number. -/
def packBits : List (Nat × Nat) → Nat
  | [] => 0
  | f :: r => f.1 % 2 ^ f.2 + 2 ^ f.2 * packBits r

/-- v rounded up to the 4 ns launch grain (R11). -/
def launchGrain (t : Nat) : Nat := roundUp t 4

/-- The elements of a list cut into runs of n, the last one possibly shorter. -/
def chunksFuel (n : Nat) {α : Type} : Nat → List α → List (List α)
  | 0, _ => []
  | f + 1, l => if l.isEmpty then [] else l.take n :: chunksFuel n f (l.drop n)

/-- The elements of a list cut into runs of n (n > 0). -/
def chunks {α : Type} (n : Nat) (l : List α) : List (List α) := chunksFuel n l.length l

/-- The element of l at i, changed by f. -/
def modAt {α : Type} (l : List α) (i : Nat) (f : α → α) : List α := l.modify i f

/-! Sparse maps: (key, value) lists in rising key order. -/

/-- The value at key a, or d. -/
def spGet {α : Type} (d : α) (m : List (Nat × α)) (a : Nat) : α :=
  match m.find? (fun e => e.1 == a) with
  | some e => e.2
  | none => d

/-- Is key a listed? -/
def spHas {α : Type} (m : List (Nat × α)) (a : Nat) : Bool := m.any (fun e => e.1 == a)

/-- m without key a. -/
def spDrop {α : Type} (m : List (Nat × α)) (a : Nat) : List (Nat × α) := m.filter (fun e => e.1 != a)

/-- m with (a, v) put in its place in the order. -/
def spInsert {α : Type} (a : Nat) (v : α) : List (Nat × α) → List (Nat × α)
  | [] => [(a, v)]
  | e :: r => if e.1 < a then e :: spInsert a v r else (a, v) :: e :: r

/-- m with v at key a. -/
def spSet {α : Type} (m : List (Nat × α)) (a : Nat) (v : α) : List (Nat × α) := spInsert a v (spDrop m a)

/-- m with v at key a, where an unlisted key reads d: writing d removes the entry. -/
def spPut {α : Type} [DecidableEq α] (d : α) (m : List (Nat × α)) (a : Nat) (v : α) : List (Nat × α) :=
  if v = d then spDrop m a else spSet m a v

/-- The keys rise strictly. -/
def keysRise {α : Type} : List (Nat × α) → Bool
  | [] => true
  | [_] => true
  | a :: b :: r => decide (a.1 < b.1) && keysRise (b :: r)

/-! Device memory and flash. -/

/-- What an unlisted byte of device memory reads: 0 (R367, R398; log entry 3). -/
def memUnlisted : Byte := 0

/-- What an unlisted byte of flash reads: 0xFF, an erased byte (R349; log entry 4). -/
def flashUnlisted : Byte := 0xFF#8

/-- The canonical form of a memory: addresses rise and no entry equals what an unlisted address reads. -/
def Memory.wf (d : Byte) (m : Memory) : Bool := keysRise m && m.all (fun e => e.2 != d)

/-- n bytes from address a. -/
def spGets {α : Type} (d : α) (m : List (Nat × α)) (a : Nat) : Nat → List α
  | 0 => []
  | n + 1 => spGet d m a :: spGets d m (a + 1) n

/-- The list's values written at a, a + 1, …. -/
def spPuts {α : Type} [DecidableEq α] (d : α) (m : List (Nat × α)) (a : Nat) : List α → List (Nat × α)
  | [] => m
  | b :: r => spPuts d (spPut d m a b) (a + 1) r

/-- m with every key in [lo, lo + n) dropped. -/
def spClear {α : Type} (m : List (Nat × α)) (lo n : Nat) : List (Nat × α) :=
  m.filter (fun e => decide (e.1 < lo) || decide (lo + n ≤ e.1))

/-- One byte of device memory. -/
def State.readByte (s : State) (a : Nat) : Byte := spGet memUnlisted s.mem a

/-- n bytes of device memory. -/
def State.readMem (s : State) (a n : Nat) : Bytes := spGets memUnlisted s.mem a n

/-- The poisoned granules that n bytes written from address a leave: one written whole is sound again (R339). -/
def unpoison (l : List Nat) (a n : Nat) : List Nat := l.filter (fun g => decide (32 * g < a) || decide (a + n < 32 * g + 32))

/-- Device memory with b stored from address a. -/
def State.writeMem (s : State) (a : Nat) (b : Bytes) : State :=
  { s with mem := spPuts memUnlisted s.mem a b, poisoned := unpoison s.poisoned a b.length }

/-- Device memory with n bytes from a set to zero. -/
def State.clearMem (s : State) (a n : Nat) : State :=
  { s with mem := spClear s.mem a n, poisoned := unpoison s.poisoned a n }

/-- n bytes of flash. -/
def State.readFlash (s : State) (a n : Nat) : Bytes := spGets flashUnlisted s.flash a n

/-- Flash with b programmed from offset a. -/
def State.writeFlash (s : State) (a : Nat) (b : Bytes) : State := { s with flash := spPuts flashUnlisted s.flash a b }

/-- Flash with n bytes from a erased. -/
def State.eraseFlash (s : State) (a n : Nat) : State := { s with flash := spClear s.flash a n }

/-! The address map (R7, R36 to R39). -/

/-- Base of the bonded DRAM window of level l. -/
def dramBase (l : Nat) : Nat := 0x010000000000 + l * 0x001000000000

/-- Populated bytes of a level's bonded DRAM: 3 GiB. -/
def dramBytes : Nat := 0xC0000000

/-- Base of the face-store window of physical face p. -/
def storeBase (p : Nat) : Nat := 0x020000000000 + p * 0x1000000

/-- Base of register space. -/
def regBase : Nat := 0x030000000000

/-- Address of a command-die register. -/
def cmdReg (off : Nat) : Nat := regBase + off

/-- Address of a register of level l. -/
def lvlReg (l off : Nat) : Nat := regBase + 0x100000 + l * 0x10000 + off

/-- Address of a register of drift (l, d). -/
def drfReg (l d off : Nat) : Nat := regBase + 0x200000 + (16 * l + d) * 0x1000 + off

/-- Address of a register of physical face p. -/
def fceReg (p off : Nat) : Nat := regBase + 0x1000000 + p * 0x1000 + off

/-- The block of R39 a register address falls in, with the offset in it. -/
inductive RegBlock where
  | cmd (off : Nat)
  | level (l off : Nat)
  | drift (l d off : Nat)
  | face (p off : Nat)
  | unmapped
  deriving DecidableEq, Repr

/-- The block of R39 that holds address a. Positions 17 to 31 name no face (R8), so their blocks are unmapped. -/
def regBlock (a : Nat) : RegBlock :=
  let o := a - regBase
  if a < regBase then .unmapped
  else if o < 0x100000 then .cmd o
  else if o < 0x140000 then .level ((o - 0x100000) / 0x10000) (o % 0x10000)
  else if o < 0x200000 then .unmapped
  else if o < 0x240000 then .drift ((o - 0x200000) / 0x10000) ((o - 0x200000) / 0x1000 % 16) (o % 0x1000)
  else if o < 0x1000000 then .unmapped
  else if o < 0x1800000 then
    let p := (o - 0x1000000) / 0x1000
    if p % 32 < 17 then .face p (o % 0x1000) else .unmapped
  else .unmapped

/-- The level of a physical face (R8). -/
def levelOf (p : Nat) : Nat := p / 512

/-- The drift of a physical face within its level. -/
def driftOf (p : Nat) : Nat := p / 32 % 16

/-- The position of a physical face within its drift. -/
def posOf (p : Nat) : Nat := p % 32

/-- The physical face at (level, drift, position). -/
def physFace (l d pos : Nat) : Nat := l * 512 + d * 32 + pos

/-! The register file. -/

/-- The reset value of the register at address a (the reset columns of the register tables; 0 for all others). -/
def regReset (a : Nat) : Word :=
  match regBlock a with
  | .cmd o => if o = 0x0B00 then 7 else 0
  | .face _ o => if o = 0x240 then 0x3403 else 0
  | .level _ o => if o = 0x310 then 0x4040 else 0
  | .drift _ _ _ => 0
  | .unmapped => 0

/-- The stored value of the register at address a. -/
def State.reg (s : State) (a : Nat) : Word := spGet (regReset a) s.regs a

/-- The register at address a set to v. -/
def State.setReg (s : State) (a : Nat) (v : Word) : State :=
  { s with regs := spPut (regReset a) s.regs a v }

/-- The register's value as a number. -/
def State.regNat (s : State) (a : Nat) : Nat := (s.reg a).toNat

/-- The register set to a number (its low 32 bits). -/
def State.setRegNat (s : State) (a v : Nat) : State := s.setReg a (BitVec.ofNat 32 v)

/-- Field [lo + n - 1 : lo] of a register. -/
def State.field (s : State) (a lo n : Nat) : Nat := bits (s.regNat a) lo n

/-- w with its field [lo + n - 1 : lo] set to v. -/
def putField (w lo n v : Nat) : Nat := w - bits w lo n * 2 ^ lo + v % 2 ^ n * 2 ^ lo

/-- The field [lo + n - 1 : lo] of a register set to v. -/
def State.setField (s : State) (a lo n v : Nat) : State := s.setRegNat a (putField (s.regNat a) lo n v)

/-- A counter that holds at 0xFFFF_FFFF, n more. -/
def State.bumpReg (s : State) (a n : Nat) : State := s.setRegNat a (min (s.regNat a + n) 0xFFFFFFFF)

/-- A field counter that holds at its greatest value, n more. -/
def State.bumpField (s : State) (a lo w n : Nat) : State := s.setField a lo w (min (s.field a lo w + n) (2 ^ w - 1))

/-- Every register of the list at its reset value. -/
def State.zeroRegs (s : State) : List Nat → State
  | [] => s
  | a :: r => (s.setReg a (regReset a)).zeroRegs r

/-- The registers whose address satisfies keep, the others at reset. -/
def State.keepRegs (s : State) (keep : Nat → Bool) : State := { s with regs := s.regs.filter (fun e => keep e.1) }

/-- W1C of a record register (VALID in bit 31): writing 1 to VALID returns the record's words to 0; writing 1 to a bit
of mask clears that bit. -/
def State.clearRecord (s : State) (validAt : Nat) (words : List Nat) (mask : Nat) (value : Word) : State :=
  if value.getLsbD 31 then s.zeroRegs words
  else s.setReg validAt (s.reg validAt &&& ~~~(value &&& BitVec.ofNat 32 mask))

/-! Access by unit. -/

/-- Physical face p. -/
def State.face (s : State) (p : Nat) : Face := spGet Face.zero s.faces p

/-- Physical face p set to f. -/
def State.setFace (s : State) (p : Nat) (f : Face) : State := { s with faces := spSet s.faces p f }

/-- Level l (0 to 3). -/
def State.level (s : State) (l : Nat) : Level := s.levels.getD l Level.zero

/-- Level l set to v. -/
def State.setLevel (s : State) (l : Nat) (v : Level) : State := { s with levels := s.levels.set l v }

/-- Engine e of face p. -/
def State.engine (s : State) (p e : Nat) : Engine := (s.face p).engines.getD e {}

/-- Engine e of face p set to v. -/
def State.setEngine (s : State) (p e : Nat) (v : Engine) : State :=
  let f := s.face p
  s.setFace p { f with engines := f.engines.set e v }

/-- Ring r of face p. -/
def State.ring (s : State) (p r : Nat) : Ring := (s.face p).rings.getD r {}

/-- Ring r of face p set to v. -/
def State.setRing (s : State) (p r : Nat) (v : Ring) : State :=
  let f := s.face p
  s.setFace p { f with rings := f.rings.set r v }

/-- The session slot, FREE where none is listed (R239). -/
def State.ses (s : State) (id : Nat) : Session := spGet {} s.sessions id

/-- Session slot id set to v. -/
def State.setSes (s : State) (id : Nat) (v : Session) : State := { s with sessions := spSet s.sessions id v }

/-- Session slot id FREE. -/
def State.freeSes (s : State) (id : Nat) : State := { s with sessions := spDrop s.sessions id }

/-- Session identifiers are 20 bits (R9). -/
def sesIdOk (id : Nat) : Bool := decide (id < 1048576)

/-- Model slot m. -/
def State.model (s : State) (m : Nat) : ModelSlot := spGet { state := 0, pkg := {} } s.models m

/-- Model slot m set to v. -/
def State.setModel (s : State) (m : Nat) (v : ModelSlot) : State := { s with models := spSet s.models m v }

/-- The package of the model in slot m. -/
def State.pkg (s : State) (m : Nat) : ModelPkg := (s.model m).pkg

/-- The job with identifier id. -/
def State.job (s : State) (id : Nat) : Option Job := s.jobs.find? (fun j => j.id == id)

/-- The job with j's identifier replaced by j. -/
def State.setJob (s : State) (j : Job) : State :=
  { s with jobs := s.jobs.map (fun k => if k.id == j.id then j else k) }

/-- The next free value: the draw number, and the state with it used. -/
def State.draw (s : State) : Nat × State := (s.draws, { s with draws := s.draws + 1 })

/-- A message sent to the world. -/
def State.send (s : State) (m : OutMsg) : State := { s with outbox := s.outbox ++ [m] }

/-- The counter at offset 4 × i of R245 of a session, n more; it holds at 0xFFFF_FFFF. -/
def Session.bump (x : Session) (i n : Nat) : Session :=
  { x with counters := (x.counters.set i (min (x.counters.getD i 0 + n) 0xFFFFFFFF)) }

/-- Session id's counter i, n more. -/
def State.bumpSes (s : State) (id i n : Nat) : State := s.setSes id ((s.ses id).bump i n)

/-! The remap tables (R43 to R47). -/

/-- The position bound to a slot of drift (l, d), or none while the slot is absent. -/
def State.slotPos (s : State) (l d slot : Nat) : Option Nat :=
  let w := s.regNat (drfReg l d (0x40 + 4 * slot))
  if bitAt w 8 then some (bits w 0 5) else none

/-- The reserve position of drift (l, d). -/
def State.reservePos (s : State) (l d : Nat) : Option Nat :=
  let w := s.regNat (drfReg l d 0)
  if bitAt w 5 then some (bits w 0 5) else none

/-- The physical face a logical face number names (R43), or none while the slot is absent. -/
def State.physOf (s : State) (logical : Nat) : Option Nat :=
  if logical < 1024 then
    (s.slotPos (logical / 256) (logical / 16 % 16) (logical % 16)).map
      (physFace (logical / 256) (logical / 16 % 16))
  else none

/-- The slot of its drift that physical face p is bound to. -/
def State.slotOf (s : State) (p : Nat) : Option Nat :=
  (List.range 16).find? (fun k => s.slotPos (levelOf p) (driftOf p) k == some (posOf p))

/-- Is physical face p an active face (bound to a slot)? -/
def State.activeFace (s : State) (p : Nat) : Bool := faceWf p && (s.slotOf p).isSome

/-- Is physical face p its drift's reserve face? -/
def State.isReserve (s : State) (p : Nat) : Bool :=
  faceWf p && s.reservePos (levelOf p) (driftOf p) == some (posOf p)

/-- The logical number of an active physical face (R43). -/
def State.logicalOf (s : State) (p : Nat) : Option Nat :=
  (s.slotOf p).map (fun k => levelOf p * 256 + driftOf p * 16 + k)

/-- All levels and drifts of the module. -/
def allDrifts : List (Nat × Nat) :=
  (List.range 4).flatMap (fun l => (List.range 16).map (fun d => (l, d)))

/-- The faces of drift (l, d) at their positions. -/
def driftFaces (l d : Nat) : List Nat := (List.range 17).map (physFace l d)

/-- The faces of a level. -/
def levelFaces (l : Nat) : List Nat := (List.range 16).flatMap (driftFaces l)

/-- Fold a state function over a list of units. -/
def State.each {α : Type} (s : State) (l : List α) (f : State → α → State) : State := l.foldl f s

/-- The outcome of a command that takes effect: the next state. -/
def ok (s : State) : Host.Outcome State Fault Refusal := .next s

/-- The outcome of an event that occurs only under a condition: where it does not hold, nothing happens (log entry 1). -/
def when (c : Bool) (s s' : State) : Host.Outcome State Fault Refusal := .next (if c then s' else s)

end Sys2Proof.Machine
end

