-- ==== Sys2Proof/Machine/Formats.lean ====
section
/-! DEFINITION. Numbers and formats (R84 to R93): exact values, widening and rounding with the flags of R101. -/

namespace Sys2Proof.Machine

open Sys2Proof

/-- A number as the arithmetic sees it: a NaN (grit: from a malformed Grit4 block; sig: signalling), an infinity, or
± mag × 2^exp, zeros keeping their sign. -/
inductive Num where
  | nan (grit sig : Bool)
  | inf (neg : Bool)
  | fin (neg : Bool) (mag : Nat) (exp : Int)
  deriving DecidableEq, Repr

/-- Flag NV of R101. -/
def fNV : Nat := 1
/-- Flag DZ of R101. -/
def fDZ : Nat := 2
/-- Flag OF of R101. -/
def fOF : Nat := 4
/-- Flag UF of R101. -/
def fUF : Nat := 8
/-- Flag NX of R101. -/
def fNX : Nat := 16
/-- Flag FE of R101. -/
def fFE : Nat := 32

/-- The stored formats, by the FORMAT numbers of R359: 0 FP16, 1 FP32, 2 Ore8, 3 Ore6, 4 Grit4, 5 U8Z, 6 signed 16-bit. -/
inductive Fmt where
  | fp16
  | fp32
  | ore8
  | ore6
  deriving DecidableEq, Repr

/-- +0. -/
def Num.zero : Num := .fin false 0 0

/-- An integer as a number. -/
def Num.ofInt (i : Int) : Num := .fin (decide (i < 0)) i.natAbs 0

/-- Is the number a zero? -/
def Num.isZero : Num → Bool
  | .fin _ m _ => m == 0
  | .inf _ => false
  | .nan _ _ => false

/-- Is the number a NaN? -/
def Num.isNan : Num → Bool
  | .nan _ _ => true
  | .inf _ => false
  | .fin _ _ _ => false

/-- FE of reading an element: its block is malformed (R89, R91). -/
def readFlag (x : Num) : Nat := if x == .nan true false then fFE else 0

/-- Is the number infinite? -/
def Num.isInf : Num → Bool
  | .inf _ => true
  | .nan _ _ => false
  | .fin _ _ _ => false

/-- The sign bit. -/
def Num.neg : Num → Bool
  | .fin n _ _ => n
  | .inf n => n
  | .nan _ _ => false

/-- The sign changed. -/
def Num.negate : Num → Num
  | .fin n m e => .fin (!n) m e
  | .inf n => .inf (!n)
  | .nan g q => .nan g q

/-- The magnitude. -/
def Num.abs : Num → Num
  | .fin _ m e => .fin false m e
  | .inf _ => .inf false
  | .nan g q => .nan g q

/-- An IEEE 754 code of 1 + ebits + fbits bits read (R85). -/
def ieeeDecode (ebits fbits code : Nat) : Num :=
  let f := bits code 0 fbits
  let e := bits code fbits ebits
  let n := bitAt code (ebits + fbits)
  let bias : Int := 2 ^ (ebits - 1) - 1
  if e = 2 ^ ebits - 1 then (if f = 0 then .inf n else .nan false (!(bitAt f (fbits - 1))))
  else if e = 0 then .fin n f (1 - bias - fbits)
  else .fin n (2 ^ fbits + f) ((e : Int) - bias - fbits)

/-- An FP16 code read. -/
def ofFp16 (code : Nat) : Num := ieeeDecode 5 10 code

/-- An FP32 code read. -/
def ofFp32 (code : Nat) : Num := ieeeDecode 8 23 code

/-- An Ore8 code read (R86). -/
def ofOre8 (code : Nat) : Num :=
  let m := bits code 0 3
  let e := bits code 3 4
  if code % 256 = 0x80 then .nan false false
  else if e = 0 then .fin (bitAt code 7) m (-11) else .fin (bitAt code 7) (8 + m) ((e : Int) - 12)

/-- An Ore6 code read (R87). -/
def ofOre6 (code : Nat) : Num :=
  let m := bits code 0 2
  let e := bits code 2 3
  if e = 0 then .fin (bitAt code 5) m (-4) else .fin (bitAt code 5) (4 + m) ((e : Int) - 5)

/-- A Grit4 nibble with block exponent byte bexp read (R88, R89). -/
def ofGrit4 (bexp nib : Nat) : Num :=
  let k := signedOf 8 bexp
  let q := signedOf 4 nib
  if k < -24 ∨ 12 < k then .nan true false else .fin (decide (q < 0)) q.natAbs k

/-- A U8Z byte with zero point z read (R90). -/
def ofU8z (u z : Nat) : Num := Num.ofInt ((u : Int) - z)

/-- mag × 2^exp in units of 2^q, rounded to nearest with ties to even: the count and whether it is inexact. -/
def roundQ (mag : Nat) (exp q : Int) : Nat × Bool :=
  if q ≤ exp then (mag * 2 ^ (exp - q).toNat, false)
  else
    let k := (q - exp).toNat
    let n := mag / 2 ^ k
    let r := mag % 2 ^ k
    let up := decide (2 ^ k < 2 * r) || (decide (2 * r = 2 ^ k) && decide (n % 2 = 1))
    (n + b2n up, decide (r ≠ 0))

/-- ⌊log2⌋ of a non-zero mag × 2^exp. -/
def ilog (mag : Nat) (exp : Int) : Int := (mag.log2 : Int) + exp

/-- Bits of precision, least normal exponent and greatest code of a format's magnitudes. -/
def Fmt.shape : Fmt → Nat × Int × Nat
  | .fp16 => (11, -14, 0x7C00)
  | .fp32 => (24, -126, 0x7F800000)
  | .ore8 => (4, -8, 0x80)
  | .ore6 => (3, -2, 0x20)

/-- The sign bit's weight in a format. -/
def Fmt.signBit : Fmt → Nat
  | .fp16 => 0x8000
  | .fp32 => 0x80000000
  | .ore8 => 0x80
  | .ore6 => 0x20

/-- The canonical quiet NaN of a format (R85, R93): Ore6 has none and takes 0x00. -/
def Fmt.nanCode : Fmt → Nat
  | .fp16 => 0x7E00
  | .fp32 => 0x7FC00000
  | .ore8 => 0x80
  | .ore6 => 0

/-- Does a magnitude above the greatest finite value saturate (R93) rather than become infinite (R92)? -/
def Fmt.saturates : Fmt → Bool
  | .fp16 => false
  | .fp32 => false
  | .ore8 => true
  | .ore6 => true

/-- A finite value rounded to a format: code and flags (R92, R93). -/
def roundFin (f : Fmt) (neg : Bool) (mag : Nat) (exp : Int) : Nat × Nat :=
  let sh := f.shape
  let sign := if neg then f.signBit else 0
  if mag = 0 then (if f = .ore8 then 0 else sign, 0)
  else
    let e := max (ilog mag exp) sh.2.1
    let r := roundQ mag exp (e - ((sh.1 : Int) - 1))
    let code := (e - sh.2.1).toNat * 2 ^ (sh.1 - 1) + r.1
    if sh.2.2 ≤ code then (if f.saturates then (sign + sh.2.2 - 1, fOF + fNX) else (sign + sh.2.2, fOF + fNX))
    else
      let tiny := if f.saturates then decide (code = 0) else decide (ilog mag exp < sh.2.1)
      let fl := if r.2 then (if tiny then fUF + fNX else fNX) else 0
      (if f = .ore8 ∧ code = 0 then 0 else sign + code, fl)

/-- A number converted to a format: code and flags (R92, R93). -/
def convert (f : Fmt) : Num → Nat × Nat
  | .nan _ _ => (f.nanCode, if f = .ore6 then fNV else 0)
  | .inf n =>
    let sign := if n then f.signBit else 0
    if f.saturates then (sign + f.shape.2.2 - 1, fOF + fNX) else (sign + f.shape.2.2, 0)
  | .fin n m e => roundFin f n m e

/-- A code of a format read. -/
def Fmt.decode : Fmt → Nat → Num
  | .fp16, c => ofFp16 c
  | .fp32, c => ofFp32 c
  | .ore8, c => ofOre8 c
  | .ore6, c => ofOre6 c

/-- The six-bit codes of Ore6 elements from a byte string: four elements in each little-endian 24-bit word (R87). -/
def ore6Codes (b : Bytes) : List Nat :=
  (chunks 3 b).flatMap (fun w => (List.range 4).map (fun j => bits (leNat w) (6 * j) 6))

/-- The nibbles of Grit4 elements from a byte string, the low nibble first (R88). -/
def nibbles (b : Bytes) : List Nat := b.flatMap (fun x => [x.toNat % 16, x.toNat / 16])

/-- Flags joined. -/
def orFlags (l : List Nat) : Nat := l.foldl Nat.lor 0

end Sys2Proof.Machine
end

