-- ==== Sys2Proof/Machine/Digest.lean ====
section
/-! DEFINITION. The check values and digests the spec names: CRC-32C (R53, R332), the Ethernet FCS (R418), the SMBus PEC
(R439), SHA3-256 and KMAC256 (R353, R444), and the SHAKE functions ML-DSA is built on. The algorithms are PRESUMED from the public standards
they name (log entry 10). -/

namespace Sys2Proof.Machine

open Sys2Proof

/-- One bit of a reflected CRC. -/
def crcBit (poly c : Nat) : Nat := if c % 2 = 1 then Nat.xor (c / 2) poly else c / 2

/-- One byte of a reflected CRC. -/
def crcByte (poly c : Nat) (b : Byte) : Nat :=
  (List.range 8).foldl (fun c _ => crcBit poly c) (Nat.xor c b.toNat)

/-- A reflected 32-bit CRC with initial value and final inversion of all ones. -/
def crc32 (poly : Nat) (b : Bytes) : Nat := Nat.xor (b.foldl (crcByte poly) 0xFFFFFFFF) 0xFFFFFFFF

/-- CRC-32C (Castagnoli), the tally of R332. -/
def crc32c (b : Bytes) : Nat := crc32 0x82F63B78 b

/-- The CRC-32 of IEEE 802.3, the FCS of an Ethernet frame. -/
def crcFcs (b : Bytes) : Nat := crc32 0xEDB88320 b

/-- One byte of the CRC-8 of the SMBus PEC, polynomial x^8 + x^2 + x + 1. -/
def pecByte (c : Nat) (b : Byte) : Nat :=
  (List.range 8).foldl (fun c _ => if 128 ≤ c then Nat.xor (c * 2 % 256) 7 else c * 2 % 256) (Nat.xor c b.toNat)

/-- The SMBus PEC over the bytes of a transfer. -/
def pec (b : Bytes) : Nat := b.foldl pecByte 0

/-- A 64-bit lane turned left by n bits. -/
def rol64 (v n : Nat) : Nat := (v * 2 ^ n) % 2 ^ 64 + v / 2 ^ (64 - n)

/-- The places the lanes are turned in, each with its triangular offset: from lane (x, y) the walk goes on to (y, 2x + 3y). -/
def turnWalk : Nat → Nat → Nat → Nat → List (Nat × Nat)
  | 0, _, _, _ => []
  | n + 1, t, x, y => (x + 5 * y, (t + 1) * (t + 2) / 2 % 64) :: turnWalk n (t + 1) y ((2 * x + 3 * y) % 5)

/-- How far each of the 25 lanes is turned; lane 0 is not. -/
def laneTurns : List Nat :=
  let w := turnWalk 24 0 1 0
  (List.range 25).map (fun i => ((w.find? (fun q => q.1 == i)).map (fun q => q.2)).getD 0)

/-- The generator of the round constants' bits: multiplication by x modulo x^8 + x^6 + x^5 + x^4 + 1. -/
def bitGen (r : Nat) : Nat := if r < 128 then 2 * r else Nat.xor (2 * r) 0x171

/-- n round constants from the generator's state r on: bit 2^j − 1 of each is the generator's next bit, j from 0 to 6. -/
def roundConsts : Nat → Nat → List Nat
  | 0, _ => []
  | n + 1, r =>
    let q := (List.range 7).foldl (fun (q : Nat × Nat) j => (q.1 + q.2 % 2 * 2 ^ (2 ^ j - 1), bitGen q.2)) (0, r)
    q.1 :: roundConsts n q.2

/-- The parities of the five columns of a state. -/
def columnParity (a : List Nat) : List Nat :=
  (List.range 5).map (fun x => (List.range 5).foldl (fun v y => Nat.xor v (a.getD (x + 5 * y) 0)) 0)

/-- Each lane with the parities of its two neighbouring columns added. -/
def mixColumns (a : List Nat) : List Nat :=
  let c := columnParity a
  let lift := (List.range 5).map (fun x => Nat.xor (c.getD ((x + 4) % 5) 0) (rol64 (c.getD ((x + 1) % 5) 0) 1))
  (List.range 25).map (fun i => Nat.xor (a.getD i 0) (lift.getD (i % 5) 0))

/-- The lanes turned, and moved: lane (x, y) is what stood at (x + 3y, x). -/
def turnLanes (a : List Nat) : List Nat :=
  let turned := (a.zip laneTurns).map (fun q => rol64 q.1 q.2)
  (List.range 25).map (fun i => turned.getD ((i % 5 + 3 * (i / 5)) % 5 + 5 * (i % 5)) 0)

/-- A row of five lanes, each with the product of the next one's complement and the one after it added. -/
def mixRow (r : List Nat) : List Nat :=
  (List.range 5).map (fun x =>
    Nat.xor (r.getD x 0) (Nat.land (2 ^ 64 - 1 - r.getD ((x + 1) % 5) 0) (r.getD ((x + 2) % 5) 0)))

/-- One round of Keccak-f[1600] on 25 lanes. -/
def keccakRound (a : List Nat) (rc : Nat) : List Nat :=
  let b := turnLanes (mixColumns a)
  (List.range 5).flatMap (fun y =>
    let row := mixRow ((b.drop (5 * y)).take 5)
    if y = 0 then Nat.xor (row.headD 0) rc :: row.drop 1 else row)

/-- Keccak-f[1600]. -/
def keccakF (a : List Nat) : List Nat := (roundConsts 24 1).foldl keccakRound a

/-- One block absorbed. -/
def keccakAbsorb (a : List Nat) (block : Bytes) : List Nat :=
  keccakF ((List.range 25).map (fun i => Nat.xor (a.getD i 0) (leAt block (8 * i) 8)))

/-- The message padded to a rate with a domain byte: the pad starts with it and ends with bit 7 of the last byte. -/
def keccakPad (rate dom : Nat) (m : Bytes) : Bytes :=
  let q := rate - m.length % rate
  if q = 1 then m ++ [BitVec.ofNat 8 (dom + 128)]
  else m ++ [BitVec.ofNat 8 dom] ++ zeros (q - 2) ++ [0x80]

/-- The output of n blocks squeezed. -/
def keccakSqueeze (rate : Nat) : Nat → List Nat → Bytes
  | 0, _ => []
  | n + 1, a => (a.flatMap (natLe 8)).take rate ++ keccakSqueeze rate n (keccakF a)

/-- The sponge: the first n bytes of output. -/
def sponge (rate dom : Nat) (m : Bytes) (n : Nat) : Bytes :=
  (keccakSqueeze rate ((n + rate - 1) / rate) ((chunks rate (keccakPad rate dom m)).foldl keccakAbsorb (List.replicate 25 0))).take n

/-- The sponge with rate 136. -/
def keccak (dom : Nat) (m : Bytes) (n : Nat) : Bytes := sponge 136 dom m n

/-- SHAKE256 (FIPS 202). -/
def shake256 (m : Bytes) (n : Nat) : Bytes := sponge 136 0x1F m n

/-- SHAKE128 (FIPS 202). -/
def shake128 (m : Bytes) (n : Nat) : Bytes := sponge 168 0x1F m n

/-- SHA3-256 (FIPS 202). -/
def sha3 (m : Bytes) : Bytes := keccak 6 m 32

/-- The bytes of n without leading zeros, at least one. -/
def shortBe (n : Nat) : Bytes :=
  if n < 256 then natBe 1 n else if n < 65536 then natBe 2 n else if n < 16777216 then natBe 3 n else natBe 4 n

/-- left_encode of SP 800-185. -/
def leftEncode (n : Nat) : Bytes := BitVec.ofNat 8 (shortBe n).length :: shortBe n

/-- right_encode of SP 800-185. -/
def rightEncode (n : Nat) : Bytes := shortBe n ++ [BitVec.ofNat 8 (shortBe n).length]

/-- encode_string of SP 800-185. -/
def encodeString (b : Bytes) : Bytes := leftEncode (8 * b.length) ++ b

/-- bytepad to the rate 136. -/
def bytepad (b : Bytes) : Bytes :=
  let h := leftEncode 136 ++ b
  h ++ zeros (roundUp h.length 136 - h.length)

/-- The ASCII bytes of a string. -/
def ascii (t : String) : Bytes := t.toList.map (fun c => BitVec.ofNat 8 c.toNat)

/-- KMAC256 with an n-byte output and customisation string custom (SP 800-185). -/
def kmac256 (key m : Bytes) (n : Nat) (custom : String) : Bytes :=
  keccak 4 (bytepad (encodeString (ascii "KMAC") ++ encodeString (ascii custom)) ++ bytepad (encodeString key) ++ m
    ++ rightEncode (8 * n)) n

end Sys2Proof.Machine
end

