-- ==== Sys2Proof/Machine/Wire.lean ====
section
/-! DEFINITION. What the stream ports put on the wire (R418, R419): Ethernet frames, IP packets, UDP datagrams, the next hop and how its
MAC address is found. -/

namespace Sys2Proof.Machine

open Sys2Proof

/-! Frames. -/

/-- The port record of the Plan, if one is loaded. -/
def State.port (s : State) (p : Nat) : Option PortRec := s.boot.plan.map (fun pl => pl.ports.getD p {})

/-- The MAC address of stream port p (R418). -/
def State.macOf (s : State) (p : Nat) : Nat := (s.rot.fuses.macBase + p) % 2 ^ 48

/-- Transmitted frames of a port that has a VLAN carry its tag with PCP 5 (R418). -/
def State.vlanTag (s : State) (p : Nat) : Bytes :=
  match s.port p with
  | some r => if r.vlan = 0 then [] else natBe 2 0x8100 ++ natBe 2 (0xA000 + r.vlan)
  | none => []

/-- An Ethernet frame of port p, padded, with its FCS; inverted where the frame is to be discarded (R335). -/
def State.ethFrame (s : State) (p : Nat) (dst : Bytes) (type : Nat) (body : Bytes) (good : Bool) : Bytes :=
  let b := dst ++ natBe 6 (s.macOf p) ++ s.vlanTag p ++ natBe 2 type ++ body
  let b1 := b ++ zeros (60 - b.length)
  b1 ++ natLe 4 (if good then crcFcs b1 else Nat.xor (crcFcs b1) 0xFFFFFFFF)

/-- 16-bit words of a byte string, a last odd byte padded with 0. -/
def words16 : Bytes → List Nat
  | [] => []
  | [a] => [a.toNat * 256]
  | a :: b :: r => (a.toNat * 256 + b.toNat) :: words16 r

/-- The Internet checksum of a byte string: the ones' complement of the ones' complement sum (RFC 1071). -/
def inetSum (b : Bytes) : Nat :=
  let t := (words16 b).foldl (fun n v => n + v) 0
  65535 - (if t = 0 then 0 else (t - 1) % 65535 + 1)

/-- Is an address IPv4 in the ::ffff:0:0/96 form (R419)? -/
def isV4 (a : Nat) : Bool := a / 2 ^ 32 == 0xFFFF

/-- The IPv4 form of a 32-bit address. -/
def v4In6 (a : Nat) : Nat := 0xFFFF * 2 ^ 32 + a % 2 ^ 32

/-- The EtherType of an IP packet to an address. -/
def ipType (a : Nat) : Nat := if isV4 a then 0x0800 else 0x86DD

/-- The pseudo-header of a UDP or ICMPv6 checksum. -/
def pseudo (src dst proto len : Nat) : Bytes :=
  if isV4 dst then natBe 4 src ++ natBe 4 dst ++ natBe 2 proto ++ natBe 2 len
  else natBe 16 src ++ natBe 16 dst ++ natBe 4 len ++ natBe 4 proto

/-- An IP packet. ttl and ident: header fields the spec gives no value. -/
def ipPacket (src dst proto ttl ident : Nat) (body : Bytes) : Bytes :=
  if isV4 dst then
    let h := fun (sum : Nat) => natBe 2 0x4500 ++ natBe 2 (20 + body.length) ++ natBe 2 ident ++ zeros 2 ++ natBe 1 ttl ++ natBe 1 proto ++
      natBe 2 sum ++ natBe 4 src ++ natBe 4 dst
    h (inetSum (h 0)) ++ body
  else natBe 4 0x60000000 ++ natBe 2 body.length ++ natBe 1 proto ++ natBe 1 ttl ++ natBe 16 src ++ natBe 16 dst ++ body

/-- A UDP datagram with its checksum (R418). -/
def udpDatagram (src dst srcUdp dstUdp : Nat) (body : Bytes) : Bytes :=
  let h := fun (sum : Nat) => natBe 2 srcUdp ++ natBe 2 dstUdp ++ natBe 2 (8 + body.length) ++ natBe 2 sum ++ body
  let c := inetSum (pseudo src dst 17 (8 + body.length) ++ h 0)
  h (if c = 0 then 65535 else c)

/-! Neighbours (R418, R419). -/

/-- A port's own address beside a destination: IPv4 or IPv6. -/
def PortRec.source (r : PortRec) (dst : Nat) : Nat := if isV4 dst then v4In6 r.ipv4 else r.ipv6

/-- Does a destination lie in the port's prefix (R419)? -/
def PortRec.onLink (r : PortRec) (dst : Nat) : Bool :=
  if isV4 dst then dst / 2 ^ (32 - r.prefix4) == v4In6 r.ipv4 / 2 ^ (32 - r.prefix4)
  else dst / 2 ^ (128 - r.prefix6) == r.ipv6 / 2 ^ (128 - r.prefix6)

/-- The next hop of a destination: itself in the port's prefix, else the port's gateway (R419). -/
def PortRec.nextHop (r : PortRec) (dst : Nat) : Nat :=
  if r.onLink dst then dst else if isV4 dst then v4In6 r.gateway4 else r.gateway6

/-- The MAC address of a multicast group, as the standards of IPv4 and IPv6 over Ethernet form it. -/
def groupMac (a : Nat) : Option Nat :=
  if isV4 a then (if a % 2 ^ 32 / 2 ^ 28 = 0xE then some (0x01005E000000 + a % 2 ^ 23) else none)
  else if a / 2 ^ 120 = 0xFF then some (0x333300000000 + a % 2 ^ 32) else none

/-- The MAC address a port's frames to a destination go to, where it is known. -/
def State.macFor (s : State) (p dst : Nat) : Option Nat :=
  (groupMac dst).orElse (fun _ =>
    (s.links.neigh.find? (fun q => q.1 == p && q.2.1 == ((s.port p).getD {}).nextHop dst)).map (fun q => q.2.2))

/-- The MAC address of a neighbour learnt. -/
def State.learnMac (s : State) (p ip mac : Nat) : State :=
  { s with links := { s.links with neigh := s.links.neigh.filter (fun q => !(q.1 == p && q.2.1 == ip)) ++ [(p, ip, mac)] } }

/-- The solicited-node group of an IPv6 address. -/
def solicitedNode (a : Nat) : Nat := 0xFF0200000000000000000001FF * 2 ^ 24 + a % 2 ^ 24

/-- The frame that asks for a hop's MAC address: an ARP request, or a neighbour solicitation. -/
def State.askFrame (s : State) (p hop : Nat) : Bytes :=
  let r := (s.port p).getD {}
  if isV4 hop then
    s.ethFrame p (natBe 6 0xFFFFFFFFFFFF) 0x0806
      (natBe 4 0x00010800 ++ natBe 4 0x06040001 ++ natBe 6 (s.macOf p) ++ natBe 4 r.ipv4 ++ zeros 6 ++ natBe 4 hop) true
  else
    let dst := solicitedNode hop
    let e := fun (c : Nat) => natBe 2 0x8700 ++ natBe 2 c ++ zeros 4 ++ natBe 16 hop ++ natBe 2 0x0101 ++ natBe 6 (s.macOf p)
    s.ethFrame p (natBe 6 (0x333300000000 + dst % 2 ^ 32)) 0x86DD
      (ipPacket r.ipv6 dst 58 255 0 (e (inetSum (pseudo r.ipv6 dst 58 32 ++ e 0)))) true

/-- What a port sends before a frame to a destination whose hop it does not know: the request for it (DESIGN CHOICE, log entry 105). -/
def State.asks (s : State) (p dst : Nat) : List OutMsg :=
  if (s.macFor p dst).isSome then [] else [.net p (s.askFrame p (((s.port p).getD {}).nextHop dst))]

/-- The Ethernet frame of a datagram a port sends (R418). A hop not yet known is the answer's to give, and the header fields the spec
gives no value are free (log entries 2 and 105). -/
def State.datagram (s : State) (p : Nat) (dst : NetAddr) (srcUdp : Nat) (body : Bytes) (good : Bool) : Bytes :=
  let src := ((s.port p).getD {}).source dst.ip
  let n := 3 * s.outbox.length
  s.ethFrame p (natBe 6 ((s.macFor p dst.ip).getD (Config.freeWire n))) (ipType dst.ip)
    (ipPacket src dst.ip 17 (Config.freeWire (n + 1) % 256) (Config.freeWire (n + 2) % 65536)
      (udpDatagram src dst.ip srcUdp dst.udp body)) good

/-- A message sent in a datagram: what it asks first, then itself. -/
def State.sendNet (s : State) (p dst : Nat) (m : OutMsg) : State := { s with outbox := s.outbox ++ s.asks p dst ++ [m] }

end Sys2Proof.Machine
end

