-- ==== Sys2Proof/Machine/Frames.lean ====
section
/-! DEFINITION. Control frames as the device sends them (R443 to R450): header, parts, tags, and the held responses. -/

namespace Sys2Proof.Machine

open Sys2Proof

/-- The key of a slot, or none while it holds no key (R451). -/
def State.key (s : State) (slot : Nat) : Option KeySlot := s.rot.keys.getD slot none

/-- Does the slot's ROLES mask hold role bit n (R451)? -/
def State.hasRole (s : State) (slot n : Nat) : Bool :=
  match s.key slot with
  | some k => k.roles.getLsbD n
  | none => false

/-- The port's MTU (R419); 9,000 while no Plan gives one. -/
def State.mtu (s : State) (port : Nat) : Nat :=
  match s.boot.plan with
  | some pl => (pl.ports.getD port { mtu := 9000 }).mtu
  | none => 9000

/-- The customisation string of R444 by KIND. -/
def ctrlCustom (kind : Nat) : String :=
  if kind = 0 then "ULN ctrl req" else if kind = 1 then "ULN ctrl rsp" else "ULN ctrl evt"

/-- The 32-byte header of R443. -/
def ctrlHeader (kind slot opcode part count : Nat) (epoch seq reqId status detail len : Nat) : Bytes :=
  natBe 1 1 ++ natBe 1 kind ++ natBe 1 slot ++ natBe 1 0 ++ natBe 2 opcode ++ natBe 1 part ++ natBe 1 count ++
    natBe 8 epoch ++ natBe 8 seq ++ natBe 4 reqId ++ natBe 1 status ++ natBe 1 detail ++ natBe 2 len

/-- The TAG of R444; 32 zero bytes for key slot 0xFF (R445). -/
def State.ctrlTag (s : State) (kind slot : Nat) (x : Bytes) : Bytes :=
  match s.key slot with
  | some k => if slot = 0xFF then zeros 32 else kmac256 k.key x 32 (ctrlCustom kind)
  | none => zeros 32

/-- The next SEQ of the device on a key slot (R446): from 1, one per datagram; 0 on no slot. -/
def State.nextSeq (s : State) (slot : Nat) : Nat × State :=
  match s.ctrl.windows[slot]? with
  | some w =>
    (w.tx + 1, { s with ctrl := { s.ctrl with windows := s.ctrl.windows.set slot { w with tx := w.tx + 1 } } })
  | none => (0, s)

/-- One part of a control frame, sent in a datagram from CTRL_UDP. -/
def State.sendPart (s : State) (port : Nat) (dst : NetAddr) (kind slot opcode reqId status detail : Nat)
    (count : Nat) (part : Nat × Bytes) : State :=
  let q := s.nextSeq slot
  let h := ctrlHeader kind slot opcode part.1 count s.rot.epoch.toNat q.1 reqId status detail part.2.length
  let tag := s.ctrlTag kind slot (h ++ part.2)
  q.2.sendNet port dst.ip (.ctrl port dst h part.2 tag
    (s.datagram port dst ((s.port port).getD {}).ctrlUdp (h ++ part.2 ++ tag) true))

/-- The parts of a response body (R448): runs of MTU − 112 bytes, numbered from 0; one part where the body is empty. -/
def ctrlParts (mtu : Nat) (body : Bytes) : List (Nat × Bytes) :=
  let p := if mtu ≤ 112 then [body] else if body.isEmpty then [[]] else chunks (mtu - 112) body
  (List.range p.length).zip p

/-- A response or event sent in parts. -/
def State.sendCtrl (s : State) (port : Nat) (dst : NetAddr) (kind slot opcode reqId status detail : Nat)
    (body : Bytes) : State :=
  let ps := ctrlParts (s.mtu port) body
  s.each ps (fun s p => s.sendPart port dst kind slot opcode reqId status detail ps.length p)

/-- The responses held for a slot, the newest 256 kept (R447). -/
def State.hold (s : State) (h : Held) : State :=
  if h.reqId = 0 || decide (65536 < h.resp.length) then s
  else
    let others := s.ctrl.held.filter (fun x => !(x.slot == h.slot && x.reqId == h.reqId))
    let mine := others.filter (fun x => x.slot == h.slot)
    let kept := if mine.length < 256 then others
      else match mine with
        | [] => others
        | oldest :: _ => others.erase oldest
    { s with ctrl := { s.ctrl with held := kept ++ [h] } }

/-- The response held under a slot and REQ_ID (R447). -/
def State.heldFor (s : State) (slot reqId : Nat) : Option Held :=
  if reqId = 0 then none else s.ctrl.held.find? (fun h => h.slot == slot && h.reqId == reqId)

/-- The held response resent with new SEQ values and tags (R447). -/
def State.resend (s : State) (rq : Req) (h : Held) : State :=
  s.sendCtrl rq.port rq.src 1 rq.slot h.opcode rq.reqId h.status h.detail h.resp

/-- The 32-byte record of R342, little-endian as the log stores it. -/
def eventBytes (e : EventRec) : Bytes :=
  natLe 8 e.time ++ natLe 4 (e.code + e.cls * 256 + e.level * 65536 + e.origin * 262144) ++ natLe 4 e.face ++
    natLe 4 (e.session + e.ctx * 1048576) ++ natLe 4 e.job ++ natLe 4 e.detail0.toNat ++ natLe 4 e.detail1.toNat

/-- A record sent most significant byte first, each field at its offset (R450). -/
def eventWire (e : EventRec) : Bytes :=
  natBe 8 e.time ++ natBe 4 (e.code + e.cls * 256 + e.level * 65536 + e.origin * 262144) ++ natBe 4 e.face ++
    natBe 4 (e.session + e.ctx * 1048576) ++ natBe 4 e.job ++ natBe 4 e.detail0.toNat ++ natBe 4 e.detail1.toNat

end Sys2Proof.Machine
end

