-- ==== Sys2Proof/Machine/Events.lean ====
section
/-! DEFINITION. Events: the log, the counters, the alert queue, the event frames and the class action (R341 to R343,
R465, R479). -/

namespace Sys2Proof.Machine

open Sys2Proof

/-- The same source of R342: ORIGIN, LEVEL, FACE, SESSION with CTX, and JOB. -/
def sameSource (a b : EventRec) : Bool :=
  a.origin == b.origin && a.level == b.level && a.face == b.face && a.session == b.session && a.ctx == b.ctx &&
    a.job == b.job

/-- The face field that names no face. -/
def noFace : Nat := 0x7FF

/-- An event record at the present time. -/
def State.mkEvent (s : State) (code cls origin level face : Nat) (owner : Option Ctx) (d0 d1 : Nat) : EventRec :=
  { time := s.now, code := code, cls := cls, level := level, origin := origin, face := face,
    session := match owner with | some (.session i) => i % 1048576 | some (.job _) => 0 | none => 0,
    ctx := match owner with | some (.job _) => 1 | some (.session _) => 0 | none => 0,
    job := match owner with | some (.job j) => j | some (.session _) => 0 | none => 0,
    detail0 := BitVec.ofNat 32 d0, detail1 := BitVec.ofNat 32 d1 }

/-- Is the record of e withheld: did its source write a record of its code less than 1 ms ago (R342)? -/
def EventLog.suppressed (l : EventLog) (e : EventRec) : Bool :=
  l.lastBy.any (fun r => r.code == e.code && sameSource r e && decide (e.time < r.time + 1000000))

/-- The record written at NEXT of CMD_EVENT_STAT, NEXT and WRAPPED moved on (R342, R347). -/
def State.writeLog (s : State) (e : EventRec) : State :=
  let next := s.field (cmdReg 0x0860) 0 10
  let wrapped := s.field (cmdReg 0x0860) 10 1 == 1 || spHas s.events.records next
  let log : EventLog :=
    { s.events with
      records := spSet s.events.records next e
      lastBy := s.events.lastBy.filter (fun r => !(r.code == e.code && sameSource r e)) ++ [e] }
  { s with events := log }.setRegNat (cmdReg 0x0860) ((next + 1) % 1024 + b2n wrapped * 1024)

/-- The alert queue of R479 with e added: 64 records, the oldest discarded and counted. -/
def State.alert (s : State) (e : EventRec) : State :=
  let q := s.rot.alerts
  if q.length < 64 then { s with rot := { s.rot with alerts := q ++ [e] } }
  else { s with rot := { s.rot with alerts := q.drop 1 ++ [e], alertsLost := min (s.rot.alertsLost + 1) 255 } }

/-- Does EVENT_FRAMES of the Plan select the class (R357, R465)? -/
def State.frameClass (s : State) (cls : Nat) : Bool :=
  match s.boot.plan with
  | some pl => bitAt pl.eventFrames cls
  | none => false

/-- Event frames to every subscriber (R465). -/
def State.eventFrames (s : State) (e : EventRec) : State :=
  if s.frameClass e.cls then
    s.each s.ctrl.subs (fun s u => s.sendCtrl u.port u.src 2 u.slot 0x0020 0 0 0 (eventWire e))
  else s

/-- The event's counter, one more (R342). -/
def State.countEvent (s : State) (code : Nat) : State :=
  { s with events := { s.events with counters := spSet s.events.counters code (spGet 0 s.events.counters code + 1) } }

/-- An event recorded: counter, log record unless withheld, alert queue, frames. Withholding keeps back only the log
record (R342). -/
def State.logEvent (s : State) (e : EventRec) : State :=
  let s1 := s.countEvent e.code
  let s2 := if s.events.suppressed e then s1.bumpReg (cmdReg 0x0864) 1 else s1.writeLog e
  let s3 := if 2 ≤ e.cls then s2.alert e else s2
  s3.eventFrames e

/-- An adaptation job ends FAULTED with an event code (R341, R459). -/
def State.faultJob (s : State) (id code : Nat) : State :=
  match s.job id with
  | some j =>
    if j.state = .running ∨ j.state = .suspending ∨ j.state = .suspended then
      s.setJob { j with state := .faulted, cause := code, endAt := s.now, stepping := false }
    else s
  | none => s

/-- The class 1 action of R341 on the event's owner: a session is reset at its next frame start, a job faulted. -/
def State.containClass (s : State) (code : Nat) : Option Ctx → State
  | some (.session i) =>
    if (s.ses i).state = .free then s else s.setSes i { s.ses i with resetDue := true }
  | some (.job j) => s.faultJob j code
  | none => s

/-- An event raised: recorded, and its class 1 action taken. The actions of classes 2 to 4 are the raising rules' own;
class 5 is taken where it is raised (R337, R416). -/
def State.raise (s : State) (code cls origin level face : Nat) (owner : Option Ctx) (d0 d1 : Nat) : State :=
  let s1 := s.logEvent (s.mkEvent code cls origin level face owner d0 d1)
  if cls = 1 then s1.containClass code owner else s1

end Sys2Proof.Machine
end

