-- ==== Sys2Proof/Machine/Flags.lean ====
section
/-! DEFINITION. Registers as software sees them: computed status fields, read-to-clear and write-1-to-clear effects (R5,
R6), access errors (R40 to R42), and the sticky flags (R101). -/

namespace Sys2Proof.Machine

open Sys2Proof

/-- The OR of the register at face offset off over the faces of level l that hold a non-reset value. -/
def State.orFaces (s : State) (l off : Nat) : Nat :=
  s.regs.foldl (fun acc e => match regBlock e.1 with
    | .face p o => if o = off && levelOf p == l then Nat.lor acc e.2.toNat else acc
    | _ => acc) 0

/-- The rings the Plan gives a logical face (R281, R356). -/
def State.faceRings (s : State) (logical : Nat) : FaceRings :=
  match s.boot.plan with
  | some pl => pl.rings.getD logical {}
  | none => {}

/-- The Plan's record of ring r of physical face p, by the logical face it is bound to. -/
def State.ringRec (s : State) (p r : Nat) : RingRec :=
  match s.logicalOf p with
  | some lf => (s.faceRings lf).rings.getD r {}
  | none => {}

/-- Occupancy of a ring: (TAIL − HEAD) mod 65,536 (R282). -/
def Ring.occ (g : Ring) : Nat := (g.tail + 65536 - g.head % 65536) % 65536

/-- A ring's capacity: reserved plus borrowed skips (R282, R295). -/
def State.ringCap (s : State) (p r : Nat) : Nat := (s.ringRec p r).reserve + (s.ring p r).pool.length

/-- HST_RINGn (R297). -/
def State.viewRing (s : State) (p r : Nat) : Nat :=
  let g := s.ring p r
  min g.occ 127 + min (s.ringCap p r) 127 * 256 + min g.pool.length 63 * 65536 + b2n g.waitSpace * 2 ^ 24 +
    b2n g.waitData * 2 ^ 25

/-- HST_ENGn_STAT (R297). Transactions complete within the step that issues them, so none is in flight between steps. -/
def State.viewEngine (s : State) (p e : Nat) : Nat :=
  let g := s.engine p e
  let st := if g.stopped then 4 else if g.queue.isEmpty then 0 else if g.waiting ≠ 0 then g.waiting else 1
  min g.queue.length 8 + st * 16

/-- MOT_STAT (R236). -/
def State.viewMotion (s : State) (p : Nat) : Nat :=
  let m := (s.face p).motion
  if m.busy then m.session % 1048576 + 2 ^ 20 + m.tile % 256 * 2 ^ 24 else 0

/-- The expected epoch of a physical face's position (R389, R409). -/
def State.expected (s : State) (p : Nat) : Nat :=
  s.field (drfReg (levelOf p) (driftOf p) (0x80 + 4 * posOf p)) 0 16

/-- Is the face stale: its epoch differs from the expected epoch (R390)? -/
def State.stale (s : State) (p : Nat) : Bool := (s.face p).epoch != s.expected p

/-- The lots of a ring of a coder job: FIRST and COUNT (R217). -/
def lotRing (v : Nat) : Nat × Nat := (bits v 0 6, bits v 8 4)

/-- The field of a coder descriptor that names lot ring w: 0 SLICE_DATA, 1 element records, 2 ŷ (R217). -/
def lotField (b : Bytes) (w : Nat) : Nat := if w = 0 then leAt b 12 2 else if w = 1 then leAt b 14 2 else leAt b 16 2

/-- Does a coder descriptor decode (DIR of R217)? -/
def coderDecodes (b : Bytes) : Bool := bitAt (leAt b 0 4) 20

/-- The lots of ring w of context x of coder c of level l: is it one of these, borrowed? -/
def lotOf (l c x w : Nat) (o : RingRef × Nat × Nat) : Bool := o.1 == .lot l c x w

/-- The bytes lot ring w of a context fills at most: its own lots, and those it has borrowed and need not return yet (R295). -/
def Level.lotCap (v : Level) (l c x w : Nat) : Nat :=
  65536 * (((((v.coders.getD c []).getD x {}).job.map (fun j => (lotRing (lotField j.desc w)).2)).getD 0) +
    v.sharedLots.countP (fun o => lotOf l c x w o && o.2.2 != 2 ^ 64))

/-- The bytes an encode context has written to DATA_RING: the eight of R220, then its SLICE_DATA. -/
def CoderCtx.wrote (v : CoderCtx) : Nat := if v.range.out.isEmpty then 0 else 8 + v.range.out.length

/-- The bytes a context's lot ring holds: SLICE_DATA brought in and not read, or written and not read by the faces; element records not
taken; ŷ the faces have not read (log entry 23). -/
def CoderCtx.lotFill (v : CoderCtx) (w : Nat) : Nat :=
  if w = 1 then 4 * ((v.job.map (fun j => j.records.length)).getD 0)
  else if w = 2 then 4 * (v.yhat.length - v.drained)
  else match v.job with
    | none => 0
    | some j => if coderDecodes j.desc then j.brought - v.range.read else v.wrote - v.drained

/-- Has a context no room where it writes: for a ŷ record, or in an encode job for its next bytes of SLICE_DATA (R225)? -/
def Level.noRoom (v : Level) (l c x : Nat) : Bool :=
  let k := (v.coders.getD c []).getD x {}
  match k.job with
  | none => false
  | some j =>
    if coderDecodes j.desc then decide (v.lotCap l c x 2 < k.lotFill 2 + 4)
    else k.need != 0 && decide (v.lotCap l c x 0 < k.lotFill 0 + k.need)

/-- Does a context wait for a record or for room (R216, R237)? -/
def Level.ctxWaits (v : Level) (l c x : Nat) : Bool :=
  let k := (v.coders.getD c []).getD x {}
  k.job.any (fun j => !k.filling && ((k.next == 2 && j.records.isEmpty) || (k.next != 0 && v.noRoom l c x) ||
    (!coderDecodes j.desc && v.noRoom l c x)))

/-- Is lot k held by a ring, its own or borrowed (R225, R295)? -/
def Level.lotHeld (v : Level) (k : Nat) : Bool := v.lotOwners.any (fun o => o.1 == k) || v.sharedLots.any (fun o => o.2.1 == k)

/-- Free lots of a level's slice buffer: those no ring holds (R237). -/
def Level.lotsFree (v : Level) : Nat := (List.range 64).countP (fun k => !v.lotHeld k)

/-- LOTS_MIN follows LOTS_FREE down (R237). -/
def State.lotsMin (s : State) (l : Nat) : State :=
  let f := (s.level l).lotsFree
  if f < s.field (lvlReg l 0x310) 8 7 then s.setField (lvlReg l 0x310) 8 7 f else s

/-- Sessions homed on level l in one of the states (R273). -/
def State.sesCount (s : State) (l : Nat) (sel : SesState → Bool) : Nat :=
  s.sessions.countP (fun e => e.1 / 262144 == l && sel e.2.state)

/-- ENT_CODERn_STAT of level l (R237). -/
def Level.coderStat (v : Level) (l c : Nat) : Nat :=
  let xs := v.coders.getD c []
  let at' := fun (f : Nat → Bool) => ((List.range xs.length).filter f).foldl (fun acc i => acc + 2 ^ i) 0
  at' (fun i => (xs.getD i {}).job.isSome) + at' (fun i => v.ctxWaits l c i) * 16 + at' (fun i => (xs.getD i {}).filling) * 256

/-- The kind code of a round (R324). -/
def Flip.kind : Flip → Nat
  | .remap _ => 1
  | .takeover .. => 2
  | .rejoin .. => 3
  | .swap => 4
  | .checkpoint _ => 5
  | .migration .. => 6
  | .licence => 7

/-- The controller of a round (R324): a level for a checkpoint, else the command die. -/
def Flip.controller : Flip → Option Nat
  | .checkpoint s => some (s / 262144)
  | .remap _ => none
  | .takeover .. => none
  | .rejoin .. => none
  | .swap => none
  | .migration .. => none
  | .licence => none

/-- Rounds armed on a controller. -/
def State.armedOn (s : State) (c : Option Nat) : Nat := s.rounds.countP (fun r => r.armed && r.flip.controller == c)

/-- FCE_ARITH_CTRL of face p: what Headframe wrote from the Plan, 0 without one (R115; log entry 13). -/
def State.arithCtrl (s : State) (p : Nat) : Nat :=
  match s.boot.plan with
  | some pl => Nat.land (Config.planArithCtrl pl.id p) 0x3F01
  | none => 0

/-- PHASE of CMD_BOOT_STAT. -/
def State.phase (s : State) : Nat := s.field (cmdReg 0x900) 0 4

/-- Have the PLLs of the dies locked: 40 ms into a cold start, 16 ms into a warm module reset at the latest (R367, R380), taken as those
times unless the start is past them in PHASE already (log entry 91)? -/
def State.pllsLocked (s : State) : Bool :=
  s.boot.hfRunning &&
    (decide (4 ≤ s.phase) || decide (s.boot.origin + (if s.boot.warmCause.isSome then 16000000 else 40000000) ≤ s.now))

/-- Is level l's PLL locked: with those of its start where it locks (R368), not while parked, from 4 ms into the return on, and 2 ms into a
level reset (R388, R394, R395, log entry 91)? -/
def State.levelLocked (s : State) (l : Nat) : Bool :=
  let v := s.level l
  s.pllsLocked && !s.boot.unlocked.contains l && (v.parked == 0 || (v.parked == 3 && decide (v.unparkAt + 4000000 ≤ s.now))) &&
    (!v.inReset || s.resets.any (fun r => r.width == 2 && r.unit == l && r.begun && decide (r.since + 2000000 ≤ s.now)))

/-- CLK_LEVELn_STAT (R35): the CORE clock runs while the level's PLL is locked and no reset stops it; during a change of step it runs at the
lower of the two frequencies. What STEP shows meanwhile R35 does not say: here it is the step the change began from (DESIGN CHOICE, log
entry 38). -/
def State.clockStat (s : State) (l : Nat) : Nat :=
  let v := s.level l
  let slow := max v.dvfs (v.dvfsNext.getD 0)
  (if s.levelLocked l && !v.inReset then 1800 - 100 * slow else 0) + v.dvfs % 16 * 2 ^ 12 + b2n (s.levelLocked l) * 2 ^ 16 +
    b2n v.thermal * 2 ^ 17 + b2n v.phaseLim * 2 ^ 18

/-- CLK_CMD_STAT (R35): the command die's NOC PLL, and the clocks of the ports, which a warm module reset leaves running (R380, log entry
91). -/
def State.cmdClocks (s : State) : Nat :=
  b2n s.pllsLocked + b2n (s.pllsLocked || s.boot.warmCause.isSome) * 126

/-- The fire time of the armed swap round (R237). -/
def State.swapTime (s : State) : Option Nat :=
  (s.rounds.find? (fun r => r.armed && decide (r.flip = .swap))).bind (fun r => r.timed)

/-- The stored word of a register with its computed fields in place. -/
def State.viewReg (s : State) (a : Nat) : Word :=
  let st := s.reg a
  match regBlock a with
  | .face p o =>
    if o = 0x204 then BitVec.ofNat 32 (s.arithCtrl p)
    else if o = 0x100 then BitVec.ofNat 32 ((s.face p).epoch + s.expected p * 65536)
    else if o = 0x300 then BitVec.ofNat 32 (s.viewMotion p)
    else if decide (0x480 ≤ o) && decide (o < 0x4C0) && o % 4 == 0 then BitVec.ofNat 32 (s.viewRing p ((o - 0x480) / 4))
    else if decide (0x400 ≤ o) && decide (o < 0x460) && o % 16 == 0 then
      BitVec.ofNat 32 (s.viewEngine p ((o - 0x400) / 16))
    else st
  | .drift _ _ _ => st
  | .level l o =>
    if o = 0x200 then BitVec.ofNat 32 (bits (s.orFaces l 0x200) 0 6 + bits (s.orFaces l 0x210) 31 1 * 256)
    else if o = 0x210 then BitVec.ofNat 32 (bits (s.orFaces l 0x290) 31 1 + bits (s.orFaces l 0x2B0) 31 1 * 2)
    else if o = 0x310 then
      BitVec.ofNat 32 ((s.level l).lotsFree + bits st.toNat 8 7 * 256 + min (s.level l).coderQ.length 256 * 65536)
    else if o = 0x304 then (s.swapTime.map (fun t => BitVec.ofNat 32 t)).getD st
    else if o = 0x308 then (s.swapTime.map (fun t => BitVec.ofNat 32 (t / 2 ^ 32))).getD st
    else if decide (0x400 ≤ o) && decide (o < 0x500) && o % 16 == 0 then
      BitVec.ofNat 32 ((s.level l).coderStat l ((o - 0x400) / 16))
    else if o = 0x500 then BitVec.ofNat 32 (s.sesCount l (fun x => x == .opening || x == .active || x == .parking ||
      x == .resuming))
    else if o = 0x504 then BitVec.ofNat 32 (s.sesCount l (fun x => x == .parked))
    else if o = 0x700 then BitVec.ofNat 32 (min (s.level l).blkQ.length 64 +
      ((List.range 4).foldl (fun acc u => acc + b2n ((s.level l).blkUnits.getD u none).isSome * 2 ^ u) 0) * 256)
    else if o = 0x800 then BitVec.ofNat 32 (s.armedOn (some l))
    else if o = 0xA00 then BitVec.ofNat 32 ((s.level l).parked % 4 + b2n (s.level l).inReset * 4 + bits st.toNat 8 16 * 256)
    else st
  | .cmd o =>
    if o = 0x800 then BitVec.ofNat 32 (s.armedOn none)
    else if o = 0xA04 then BitVec.ofNat 32 (s.pwr.volts % 65536 + s.pwr.watts % 65536 * 65536)
    else if o = 0xB08 then BitVec.ofNat 32 (s.now % 2 ^ 32)
    else if decide (0xF00 ≤ o) && decide (o < 0xF10) && o % 4 == 0 then BitVec.ofNat 32 (s.clockStat ((o - 0xF00) / 4))
    else if o = 0xF10 then BitVec.ofNat 32 s.cmdClocks
    else if o = 0xE00 then BitVec.ofNat 32 (min s.ctrl.queue.length 1024 + s.ctrl.subs.length % 8 * 4096 +
      ((List.range 8).foldl (fun acc k => acc + b2n (s.rot.keys.getD k none).isSome * 2 ^ k) 0) * 65536 +
      s.handles.length % 8 * 2 ^ 24)
    else st
  | .unmapped => 0

/-- Is the register at offset o of its block access RC? -/
def regRc (a : Nat) : Bool :=
  match regBlock a with
  | .face _ o => [0x230, 0x280, 0x284, 0x2A4, 0x2C0, 0x304, 0x308, 0x30C, 0x310, 0x404, 0x414, 0x424, 0x434, 0x444,
      0x454, 0x510, 0x520].contains o
  | .drift _ _ o => [0x014, 0x100, 0x104].contains o
  | .level _ o => [0x314, 0x318, 0x508, 0x50C, 0x608, 0x610, 0x620, 0x704, 0x708, 0x70C, 0x710, 0x804, 0x808, 0x820,
      0x824, 0x840].contains o || (decide (0x400 ≤ o) && decide (o < 0x500) && (o % 16 == 4 || o % 16 == 8))
  | .cmd o => [0x804, 0x808, 0x820, 0x824, 0x850, 0x854, 0x864, 0xC0C, 0xC1C, 0xC2C, 0xC3C, 0xD00, 0xD04, 0xD08, 0xD10,
      0xD14, 0xD18, 0xE0C, 0xE10, 0xE14].contains o
  | .unmapped => false

/-- The effect of reading the register at a: an RC register clears; TIM_NOW_LO latches TIM_NOW_HI (R441). -/
def State.readEffect (s : State) (a : Nat) : State :=
  if regRc a then s.setReg a 0
  else if a = cmdReg 0xB08 then s.setRegNat (cmdReg 0xB0C) (s.now / 2 ^ 32)
  else s

/-- The words a VALID bit guards, from base: n words. -/
def wordsFrom (base n : Nat) : List Nat := (List.range n).map (fun i => base + 4 * i)

/-- A write of FCE_ARITH_FLAGS: each 1 in bits [5:0] clears its flag (R115). -/
def State.clearFlags (s : State) (p : Nat) (v : Word) : State :=
  s.setReg (fceReg p 0x200) (s.reg (fceReg p 0x200) &&& ~~~(v &&& 0x3F))

/-- A write of the trap record's VALID (R104). -/
def State.clearTrap (s : State) (p : Nat) (v : Word) : State :=
  s.clearRecord (fceReg p 0x210) (wordsFrom (fceReg p 0x210) 8) 0 v

/-- A write of the spill record's VALID (R161, R169). -/
def State.clearSpill (s : State) (p : Nat) (v : Word) : State :=
  s.clearRecord (fceReg p 0x290) (wordsFrom (fceReg p 0x290) 5) 0 v

/-- A write of the tag fault record's VALID (R169). -/
def State.clearTag (s : State) (p : Nat) (v : Word) : State :=
  s.clearRecord (fceReg p 0x2B0) (wordsFrom (fceReg p 0x2B0) 4) 0 v

/-- A write of the bus error record's VALID (R297). -/
def State.clearHstErr (s : State) (p : Nat) (v : Word) : State :=
  s.clearRecord (fceReg p 0x500) (wordsFrom (fceReg p 0x500) 4) 0 v

/-- The base of a block that holds a record both on a level and on the command die. -/
def lvlOrCmd : Option Nat → Nat → Nat
  | none, o => cmdReg o
  | some l, o => lvlReg l o

/-- A write of an address error record's VALID or OVERFLOW (R42). -/
def State.clearAddrErr (s : State) (l : Option Nat) (v : Word) : State :=
  s.clearRecord (lvlOrCmd l 0x104) (wordsFrom (lvlOrCmd l 0x100) 2) (2 ^ 30) v

/-- A write of the cyclic wait record's VALID (R299). -/
def State.clearWait (s : State) (l : Nat) (v : Word) : State :=
  s.clearRecord (lvlReg l 0x600) (wordsFrom (lvlReg l 0x600) 2) 0 v

/-- A write of a round abort record's VALID (R346). -/
def State.clearAbort (s : State) (l : Option Nat) (v : Word) : State :=
  s.clearRecord (lvlOrCmd l 0x810) (wordsFrom (lvlOrCmd l 0x810) 2) 0 v

/-- A write of an ECC record's VALID (R346). -/
def State.clearEcc (s : State) (l : Option Nat) (v : Word) : State :=
  s.clearRecord (lvlOrCmd l 0x830) (wordsFrom (lvlOrCmd l 0x830) 3) 0 v

/-- A write of SES_TAKEOVER_FACE's VALID (R273). -/
def State.clearTakeover (s : State) (l : Nat) (v : Word) : State :=
  s.clearRecord (lvlReg l 0x51C) (wordsFrom (lvlReg l 0x514) 3) 0 v

/-- A write of PWR_PHASE_LAST's VALID, which clears that bit alone (R411). -/
def State.clearPhaseLast (s : State) (v : Word) : State :=
  s.setReg (cmdReg 0xA24) (s.reg (cmdReg 0xA24) &&& ~~~(v &&& 0x80000000#32))

/-- A write of v to the register at a: W1C bits and records clear, everything else ignores it (R5, R6). -/
def State.writeEffect (s : State) (a : Nat) (v : Word) : State :=
  match regBlock a with
  | .face p o =>
    if o = 0x200 then s.clearFlags p v
    else if o = 0x210 then s.clearTrap p v
    else if o = 0x290 then s.clearSpill p v
    else if o = 0x2B0 then s.clearTag p v
    else if o = 0x500 then s.clearHstErr p v
    else s
  | .drift _ _ _ => s
  | .level l o =>
    if o = 0x104 then s.clearAddrErr (some l) v
    else if o = 0x51C then s.clearTakeover l v
    else if o = 0x600 then s.clearWait l v
    else if o = 0x810 then s.clearAbort (some l) v
    else if o = 0x830 then s.clearEcc (some l) v
    else s
  | .cmd o =>
    if o = 0x104 then s.clearAddrErr none v
    else if o = 0x810 then s.clearAbort none v
    else if o = 0x830 then s.clearEcc none v
    else if o = 0xA24 then s.clearPhaseLast v
    else s
  | .unmapped => s

/-- Is the level's register, face-store and bonded DRAM space answering (R387, R394)? -/
def State.levelUp (s : State) (l : Nat) : Bool :=
  !((s.level l).inReset || (s.level l).parked == 2 || s.boot.warmCause.isSome)

/-- The KIND of the error an access to a register address meets, or none (R40 to R42, R387). -/
def State.regError (s : State) (a : Nat) (write : Bool) : Option Nat :=
  let miss := some (b2n write)
  if a % 4 ≠ 0 then some 2
  else match regBlock a with
    | .cmd _ => none
    | .level l o => if s.levelUp l || o == 0xA00 then none else miss
    | .drift l _ _ => if s.levelUp l then none else miss
    | .face p _ => if s.levelUp (levelOf p) then none else miss
    | .unmapped => miss

/-- The high word of an address error record (R42). -/
def addrErrHi (a src kind : Nat) (overflow : Bool) : Nat :=
  a / 2 ^ 32 % 65536 + src % 2048 * 2 ^ 16 + kind % 8 * 2 ^ 27 + b2n overflow * 2 ^ 30 + 2 ^ 31

/-- An unmapped access recorded for its requester and its event raised (R41, R42, R343): owner is the work it served. -/
def State.addrError (s : State) (l : Option Nat) (a src kind : Nat) (owner : Option Ctx) : State :=
  let full := s.field (lvlOrCmd l 0x104) 31 1 == 1
  let s1 := if full then s.setField (lvlOrCmd l 0x104) 30 1 1
    else (s.setRegNat (lvlOrCmd l 0x100) a).setRegNat (lvlOrCmd l 0x104) (addrErrHi a src kind false)
  let cls := match l with | some _ => 4 | none => 0
  s1.raise 0x40 cls (match l with | some _ => 0 | none => 1) (l.getD 0) (if src = 0x7FF then noFace else src) owner
    a (addrErrHi a src kind full)

/-- An uncorrectable error noted at a level (or the command die): ECC_UE, the record, the event (R337, R343, R346). recAddr: the
address the record carries. -/
def State.noteUe (s : State) (l : Option Nat) (memory recAddr addr face cls : Nat) (owner : Option Ctx) : State :=
  let s1 := s.bumpReg (lvlOrCmd l 0x824) 1
  let s2 := if s1.field (lvlOrCmd l 0x830) 31 1 = 1 then s1
    else ((s1.setRegNat (lvlOrCmd l 0x830) (memory + 2 ^ 31)).setRegNat (lvlOrCmd l 0x834) recAddr).setRegNat (lvlOrCmd l 0x838)
      (recAddr / 2 ^ 32 % 65536 + face % 2048 * 65536)
  s2.raise 0x18 cls (match l with | some _ => 0 | none => 1) (l.getD 0) face owner memory addr

/-- Registers a, a + 4, … read through a path of R2, up to n, stopping at the first that errs (R468): the words, the
KIND of the error, and the state. -/
def State.readRegs (s : State) (a : Nat) : Nat → List Word × Option Nat × State
  | 0 => ([], none, s)
  | n + 1 =>
    match s.regError a false with
    | some k => ([], some k, s.addrError none a 0x7FF k none)
    | none =>
      let r := (s.readEffect a).readRegs (a + 4) n
      (s.viewReg a :: r.1, r.2)

/-- One register written through a path of R2 (R468): the KIND of the error, and the state. -/
def State.writeReg (s : State) (a : Nat) (v : Word) : Option Nat × State :=
  match s.regError a true with
  | some k => (some k, s.addrError none a 0x7FF k none)
  | none => (none, s.writeEffect a v)

/-- Sticky flag bits of R101 set on a face; an ARITH_FLAG event where EVENT_MASK selects a bit that changed (R115). -/
def State.setFlags (s : State) (p flags : Nat) (owner : Option Ctx) : State :=
  let old := s.regNat (fceReg p 0x200)
  let new := Nat.lor old (flags % 64)
  let s1 := s.setRegNat (fceReg p 0x200) new
  let changed := Nat.land (new - old) (bits (s.arithCtrl p) 8 6)
  if changed = 0 then s1 else s1.raise 0x01 0 0 (levelOf p) p owner new 0

end Sys2Proof.Machine
end

