-- ==== Sys2Proof/Machine/UsfFormat.lean ====
section
/-! DEFINITION. The Uluine Stream Format: units, stream headers, frame headers, slicing (R50 to R63), and which package a
header names (R57, R358, R478). -/

namespace Sys2Proof.Machine

open Sys2Proof

/-- A unit: header, payload, CHECK (R50, R51). -/
def usfUnit (type seq : Nat) (payload : Bytes) : Bytes :=
  let b := natBe 1 (16 + type) ++ natBe 1 0 ++ natBe 2 seq ++ natBe 4 payload.length ++ payload
  b ++ natBe 4 (crc32c b)

/-- VERSION of a unit. -/
def usfVersion (u : Bytes) : Nat := bits (beAt u 0 1) 4 4

/-- TYPE of a unit. -/
def usfType (u : Bytes) : Nat := bits (beAt u 0 1) 0 4

/-- UNIT_SEQ of a unit. -/
def usfSeq (u : Bytes) : Nat := beAt u 2 2

/-- LENGTH of a unit. -/
def usfLength (u : Bytes) : Nat := beAt u 4 4

/-- The payload of a unit. -/
def usfPayload (u : Bytes) : Bytes := sub u 8 (usfLength u)

/-- Is the byte string as long as its LENGTH says (R51)? -/
def usfSized (u : Bytes) : Bool := decide (8 ≤ u.length) && u.length == 12 + usfLength u

/-- Does CHECK match (R51)? -/
def usfCheckOk (u : Bytes) : Bool := beAt u (8 + usfLength u) 4 == crc32c (u.take (8 + usfLength u))

/-- Is the LENGTH right for a defined type (R52)? -/
def usfLengthOk (u : Bytes) : Bool :=
  let n := usfLength u
  if usfType u = 1 then n == 40
  else if usfType u = 2 then n == 24
  else if usfType u = 3 then decide (8 ≤ n) && decide (n ≤ 0x00FFFFFF)
  else if usfType u = 4 then n == 20
  else n == 0

/-- Is the type defined (R52)? -/
def usfDefined (u : Bytes) : Bool := decide (1 ≤ usfType u) && decide (usfType u ≤ 5)

/-! Stream headers (R54, R55). h is the 40-byte payload. -/

/-- MEDIA: 1 video, 2 audio, 3 track. -/
def hdrMedia (h : Bytes) : Nat := beAt h 0 1

/-- STREAM_ID. -/
def hdrStreamId (h : Bytes) : Nat := beAt h 4 4

/-- WIDTH of video. -/
def hdrWidth (h : Bytes) : Nat := beAt h 24 2

/-- HEIGHT of video. -/
def hdrHeight (h : Bytes) : Nat := beAt h 26 2

/-- CHROMA of video. -/
def hdrChroma (h : Bytes) : Nat := beAt h 32 1

/-- DEPTH of video. -/
def hdrDepth (h : Bytes) : Nat := beAt h 33 1

/-- CHANNELS of audio or track. -/
def hdrChannels (h : Bytes) : Nat := if hdrMedia h = 2 then beAt h 28 1 else beAt h 24 2

/-- FRAME_SAMPLES of audio, FRAME_STEPS of track. -/
def hdrSamples (h : Bytes) : Nat := if hdrMedia h = 2 then beAt h 30 2 else beAt h 26 2

/-- The coded width of video (R61). -/
def codedWidth (h : Bytes) : Nat := roundUp (hdrWidth h) 64

/-- The coded height of video (R61). -/
def codedHeight (h : Bytes) : Nat := roundUp (hdrHeight h) 64

/-- SLICE_COUNT (R61). -/
def sliceCount (h : Bytes) : Nat := if hdrMedia h = 1 then codedHeight h / 64 else 1

/-- Numerator and denominator of the frame period in ns (R251). -/
def framePeriod (h : Bytes) : Nat × Nat :=
  if hdrMedia h = 1 then (1000000000 * beAt h 30 2, beAt h 28 2)
  else if hdrMedia h = 2 then (1000000000 * beAt h 30 2, beAt h 24 4)
  else (1000000000 * beAt h 26 2 * beAt h 30 2, beAt h 28 2)

/-- Is every field of the header valid (R54, R55)? -/
def hdrValid (h : Bytes) : Bool :=
  let m := hdrMedia h
  h.length == 40 && beAt h 1 1 == 1 && beAt h 8 4 != 0 &&
    (if m = 1 then
      decide (64 ≤ hdrWidth h) && decide (hdrWidth h ≤ 3840) && hdrWidth h % 2 == 0 && decide (64 ≤ hdrHeight h) &&
        decide (hdrHeight h ≤ 2160) && hdrHeight h % 2 == 0 && beAt h 28 2 != 0 && beAt h 30 2 != 0 &&
        decide (beAt h 28 2 ≤ 60 * beAt h 30 2) && decide (hdrChroma h ≤ 1) && (hdrDepth h == 8 || hdrDepth h == 10) &&
        (beAt h 34 1 == 1 || beAt h 34 1 == 9) && decide (beAt h 35 1 ≤ 1)
     else if m = 2 then
      [16000, 24000, 48000].contains (beAt h 24 4) && decide (1 ≤ hdrChannels h) && decide (hdrChannels h ≤ 8) &&
        decide (1 ≤ hdrSamples h)
     else
      m == 3 && decide (1 ≤ hdrChannels h) && decide (hdrChannels h ≤ 1024) && decide (1 ≤ hdrSamples h) &&
        decide (hdrSamples h ≤ 256) && beAt h 28 2 != 0 && beAt h 30 2 != 0 &&
        decide (beAt h 28 2 ≤ 1000 * beAt h 30 2))

/-- The fields of MEDIA_PARAMS by media kind: (byte offset, bytes). -/
def paramFields (media : Nat) : List (Nat × Nat) :=
  if media = 1 then [(24, 2), (26, 2), (28, 2), (30, 2), (32, 1), (33, 1), (34, 1), (35, 1)]
  else if media = 2 then [(24, 4), (28, 1), (30, 2)]
  else [(24, 2), (26, 2), (28, 2), (30, 2)]

/-- Does a field of the stream header, not a reserved one, hold byte i (R54, R55)? -/
def headerField (media i : Nat) : Bool :=
  ([(0, 2), (4, 10), (16, 8)] ++ paramFields media).any (fun f => decide (f.1 ≤ i) && decide (i < f.1 + f.2))

/-- A stream header as a sender writes it: 0 in every reserved byte (R53). -/
def cleanHeader (h : Bytes) : Bytes :=
  (List.range 40).map (fun i => if headerField (hdrMedia h) i then h.getD i 0 else 0)

/-- The package's media tensors of a role, in record order (R478). -/
def mediaTensors (k : ModelPkg) (role : Nat) : List TensorRec :=
  (k.tensors.filter (fun t => t.role == role)).take (if k.media = 1 then 3 else 1)

/-- Do the header's dimensions equal those the media tensors fix (R478)? -/
def mediaFits (k : ModelPkg) (h : Bytes) : Bool :=
  [2, 3].all (fun role => match mediaTensors k role with
    | [] => false
    | t :: r =>
      if k.media = 1 then r.all (fun u => u.yDiv == (if hdrChroma h = 0 then 2 else 1) && u.xDiv == u.yDiv)
      else t.c == hdrChannels h && t.x == hdrSamples h)

/-- Does the header name this package (R57, R358)? The package is little-endian, the stream header is not. -/
def pkgNamed (k : ModelPkg) (h : Bytes) : Bool :=
  k.id == beAt h 8 4 && k.version == beAt h 12 2 && k.d.take 8 == sub h 16 8 && k.media == hdrMedia h &&
    (paramFields k.media).all (fun f =>
      let p := sub k.mediaParams (f.1 - 24) f.2
      leNat p == 0 || leNat p == beAt h f.1 f.2) && mediaFits k h

/-! Frame headers (R58, R59). -/

/-- A frame header's fields. -/
structure FrameHdr where
  num       : Nat
  pts       : Nat
  inter     : Bool
  refresh   : Bool
  refSlot   : Nat
  storeMask : Nat
  ltMask    : Nat
  refNum    : Nat
  slices    : Nat
  ratePoint : Nat
  deriving DecidableEq, Repr

/-- The frame header its 24-byte payload holds. -/
def parseFrameHdr (b : Bytes) : FrameHdr :=
  { num := beAt b 0 4, pts := beAt b 4 8, inter := bitAt (beAt b 12 1) 0, refresh := bitAt (beAt b 12 1) 1,
    refSlot := bits (beAt b 13 1) 0 4, storeMask := beAt b 14 1, ltMask := beAt b 15 1, refNum := beAt b 16 4,
    slices := beAt b 20 1, ratePoint := beAt b 21 1 }

/-- The payload of a frame header. -/
def frameHdrBytes (f : FrameHdr) : Bytes :=
  natBe 4 f.num ++ natBe 8 f.pts ++ natBe 1 (b2n f.inter + 2 * b2n f.refresh) ++ natBe 1 f.refSlot ++
    natBe 1 f.storeMask ++ natBe 1 f.ltMask ++ natBe 4 f.refNum ++ natBe 1 f.slices ++ natBe 1 f.ratePoint ++ zeros 2

/-- Is the frame header well formed under stream header h (R59)? rates: the package's rate points, none while the model is
unknown. -/
def frameHdrOk (f : FrameHdr) (h : Bytes) (rates : Option Nat) : Bool :=
  (f.inter || f.refSlot == 15) && (!f.inter || decide (f.refSlot ≤ 7)) && !(f.refresh && f.inter) &&
    Nat.lor f.ltMask f.storeMask == f.storeMask && (f.inter || f.refNum == 0) && f.slices == sliceCount h &&
    (match rates with | some n => decide (f.ratePoint < n) | none => true)

/-- Is frame number a later than b (R60)? -/
def laterFrame (a b : Nat) : Bool := serialBefore 32 b a

/-! Tensors of a package at a stream's coded size (R61, R359). -/

/-- Rows of a tensor. -/
def tensorRows (t : TensorRec) (h : Bytes) : Nat := if t.yDiv = 0 then t.y else codedHeight h / t.yDiv

/-- Columns of a tensor. -/
def tensorCols (t : TensorRec) (h : Bytes) : Nat := if t.xDiv = 0 then t.x else codedWidth h / t.xDiv

/-- The rows of a coded tensor slice i owns: first row and count (R61). -/
def sliceRows (t : TensorRec) (h : Bytes) (i : Nat) : Nat × Nat :=
  if hdrMedia h = 1 ∧ t.yDiv ≠ 0 then (64 * i / t.yDiv, 64 / t.yDiv) else (0, tensorRows t h)

/-- Elements of a tensor. -/
def tensorElems (t : TensorRec) (h : Bytes) : Nat := t.n * t.c * tensorRows t h * tensorCols t h

/-- A tensor of zeros at the stream's size. -/
def zeroTensor (t : TensorRec) (h : Bytes) : Tensor :=
  { fmt := t.fmt, n := t.n, c := t.c, y := tensorRows t h, x := tensorCols t h,
    data := List.replicate (tensorElems t h) 0 }

end Sys2Proof.Machine
end

