-- ==== Sys2Proof/Machine/Areas.lean ====
section
/-! DEFINITION. What the memory of a session's working area and of its checkpoint copies reads as (R241, R243 to R245). -/

namespace Sys2Proof.Machine

open Sys2Proof

/-- The settings block as R244 lays it out. -/
def Settings.block (g : Settings) : Bytes :=
  [g.stillT, g.changeT, g.gateRefresh, g.refreshInterval, g.ltInterval, g.reportInterval, g.x0, g.x1, g.y0, g.y1].flatMap (natLe 2) ++
    natLe 1 (g.weight % 16) ++ zeros 43

/-- The settings block and the stream counter record (R241, R245). -/
def areaHead (g : Settings) (counters : List Nat) : Bytes :=
  g.block ++ (List.range 32).flatMap (fun i => natLe 4 (counters.getD i 0))

/-- Bytes of one generation of a session's cold planes (R203, R242): source picture and search planes of a video encode, the
package's cold planes. -/
def coldBytes (k : ModelPkg) (decode : Bool) (h : Bytes) : Nat :=
  let video := hdrMedia h == 1 && !decode
  let samples := hdrWidth h * hdrHeight h
  let chroma := if hdrChroma h = 1 then 2 * samples else samples / 2
  (if video then (samples + chroma) * (if hdrDepth h = 10 then 2 else 1) + 8 * samples else 0) +
    (k.tensors.filter (fun t => t.role == 5)).foldl (fun n t => n + 4 * tensorElems t h) 0

/-- Bytes of a checkpoint copy (R243). -/
def copyBytes (k : ModelPkg) (decode : Bool) (h : Bytes) : Nat := 192 + k.stateBytes + 2 * coldBytes k decode h

/-- A tensor's numbers. -/
def Tensor.content (t : Tensor) : List Nat :=
  t.data ++ t.scales.map (fun w => w.toNat) ++ t.bexps.map (fun w => w.toNat) ++ t.side.map (fun w => w.toNat)

/-- What an image holds, each tensor led by its kind, its slot and its number. -/
def Image.content (m : Image) : List (List Nat) :=
  m.hot.map (fun q => 0 :: 0 :: q.1 :: q.2.content) ++ m.refs.flatMap (fun r => r.2.map (fun q => 1 :: r.1 :: q.1 :: q.2.content)) ++
    m.gated.map (fun q => 2 :: 0 :: q.1 :: q.2.content)

/-- What generation g of the cold planes holds, each plane led by its number. -/
def coldContent (g : Nat) (l : List ColdPlane) : List (List Nat) :=
  l.map (fun c =>
    let p := if g = 0 then (c.gen0, c.cold0) else (c.gen1, c.cold1)
    c.num :: ((p.1.getD []).flatMap (fun q => q.samples) ++ (p.2.map Tensor.content).getD []))

/-- Byte a of a session's working area (R241): the settings block, the counter record, the committed half, and the other half, which holds the
pending image where there is one. The layout of the halves is the model package's own (log entry 93). -/
def Session.workByte (x : Session) (k : ModelPkg) (a : Nat) : Option Byte :=
  let half := fun (h : Nat) => x.workBase + 192 + h * x.stateBytes
  let inHalf := fun (h : Nat) => decide (half h ≤ a) && decide (a < half h + x.stateBytes)
  if x.workBase = 0 then none
  else if x.workBase ≤ a ∧ a < x.workBase + 192 then (areaHead x.settings x.counters)[a - x.workBase]?
  else if inHalf (b2n x.half) then some (Config.imageByte k.d x.committed.content (a - half (b2n x.half)))
  else if inHalf (1 - b2n x.half) then
    x.pending.map (fun m => Config.imageByte k.d m.content (a - half (1 - b2n x.half)))
  else none

/-- Byte a of a checkpoint copy of a session that lies at base (R243): settings block, counter record, image, cold generation 0, cold
generation 1. -/
def Session.copyByte (x : Session) (k : ModelPkg) (c : CkptCopy) (base a : Nat) : Option Byte :=
  let o := a - base
  let n := coldBytes k x.decode x.header
  if !c.present || decide (a < base) then none
  else if o < 192 then (areaHead c.settings c.counters)[o]?
  else if o < 192 + x.stateBytes then some (Config.imageByte k.d c.image.content (o - 192))
  else if o < 192 + x.stateBytes + n then some (Config.coldByte k.d (coldContent 0 c.cold) (o - 192 - x.stateBytes))
  else if o < 192 + x.stateBytes + 2 * n then some (Config.coldByte k.d (coldContent 1 c.cold) (o - 192 - x.stateBytes - n))
  else none

/-- Byte a of what a session keeps in memory. -/
def Session.byteAt (x : Session) (k : ModelPkg) (a : Nat) : Option Byte :=
  (x.workByte k a).orElse (fun _ => (x.copyByte k x.copyA x.ckptA a).orElse (fun _ => x.copyByte k x.copyB x.ckptB a))

/-- The bytes b at address a, with what the sessions keep there in their place. -/
def State.kept (s : State) (a : Nat) (b : Bytes) : Bytes :=
  b.zipIdx.map (fun q => (s.sessions.findSome? (fun e => e.2.byteAt (s.pkg e.2.modelSlot) (a + q.2))).getD q.1)

end Sys2Proof.Machine
end

