-- ==== Sys2Proof/Machine/Operands.lean ====
section
/-! DEFINITION. The operand forms a face's command stream holds: transfer descriptors (R274), fused stage commands (R289),
compute records (R290) and muster commands (R291), read from their bytes. -/

namespace Sys2Proof.Machine

open Sys2Proof

/-- A transfer descriptor of R274. -/
structure Desc where
  op      : Nat
  reshuf  : Nat
  elem    : Nat
  zc      : Nat
  zcOre   : Bool
  tagSet  : Bool
  rateEn  : Bool
  srcLog  : Bool
  share   : Nat
  ctr     : Nat
  dstLog  : Bool
  srcRing : Option Nat
  dstRing : Option Nat
  tag     : Nat
  param   : Nat
  src     : Nat
  dst     : Nat
  x       : Nat
  y       : Nat
  z       : Nat
  sy      : Int
  sz      : Int
  dy      : Int
  dz      : Int
  budget  : Nat
  auxSrc  : Nat
  auxDst  : Nat
  auxLen  : Nat
  auxKind : Nat
  deriving DecidableEq, Repr

/-- The element size in bytes. -/
def Desc.eb (d : Desc) : Nat := 2 ^ d.elem

/-- The bytes a descriptor transfers: element bytes × X × Y × Z (R274). -/
def Desc.count (d : Desc) : Nat := d.eb * d.x * d.y * d.z

/-- A ring field: 0 to 15, or none. -/
def ringField (v : Nat) : Option Nat := if v < 16 then some v else none

/-- The descriptor its 64 bytes hold. -/
def parseDesc (b : Bytes) : Desc :=
  let w := leAt b 0 4
  let r := leAt b 4 4
  { op := bits w 0 4, reshuf := bits w 4 4, elem := bits w 8 2, zc := bits w 10 2, zcOre := bitAt w 12,
    tagSet := bitAt w 13, rateEn := bitAt w 14, srcLog := bitAt w 15, share := bits w 16 8, ctr := bits w 24 4,
    dstLog := bitAt w 28, srcRing := ringField (bits r 0 5), dstRing := ringField (bits r 8 5), tag := bits r 16 4,
    param := bits r 24 8, src := leAt b 8 6, dst := leAt b 16 6, x := leAt b 0x18 3, y := leAt b 0x1C 2,
    z := leAt b 0x1E 2, sy := signedOf 32 (leAt b 0x20 4), sz := signedOf 32 (leAt b 0x24 4),
    dy := signedOf 32 (leAt b 0x28 4), dz := signedOf 32 (leAt b 0x2C 4), budget := leAt b 0x20 4,
    auxSrc := leAt b 0x30 6, auxDst := bits (leAt b 0x38 4) 0 21, auxLen := bits (leAt b 0x3C 4) 0 21,
    auxKind := bits (leAt b 0x3C 4) 24 3 }

/-- The rules of R274, R277 and R278 a descriptor must keep, for engine e. -/
def descOk (b : Bytes) (e : Nat) : Bool :=
  let d := parseDesc b
  let w := leAt b 0 4
  let r := leAt b 4 4
  let mover := decide (4 ≤ e)
  let ringOk := fun v => decide (v < 16) || v == 0x1F
  b.length == 64 && (d.op == 1 || d.op == 2 || (d.op == 3 && mover)) && decide (d.reshuf < 5) && decide (d.elem < 3) &&
    decide (d.zc < 3) && (!mover || (d.reshuf == 0 && d.zc == 0)) && (!d.zcOre || d.zc != 0) &&
    (if d.rateEn then d.share != 0 else d.share == 0) && bits w 29 3 == 0 &&
    ringOk (bits r 0 5) && ringOk (bits r 8 5) && (d.tagSet || d.tag == 0) &&
    leAt b 0x0E 2 == 0 && leAt b 0x16 2 == 0 && decide (d.auxKind < 5) &&
    (!d.srcLog || d.src / 2 ^ 40 == 2) && (!d.dstLog || d.dst / 2 ^ 40 == 2) &&
    (if d.reshuf == 1 || d.reshuf == 2 then
       decide (1 ≤ d.param) && decide (d.param ≤ 8 * d.eb) && decide (d.elem < 2) && d.x % 8 == 0 && d.z == 1
     else d.op == 3 || d.param == 0) &&
    (!(d.reshuf == 3 || d.reshuf == 4) || (decide (2 ≤ d.z) && decide (d.z ≤ 16))) &&
    (d.reshuf == 0 || d.zc == 0) &&
    (d.op != 3 || (d.y == 1 && d.z == 1 && !d.srcLog && !d.dstLog && d.dstRing.isSome && decide (1 ≤ d.budget) &&
      decide (d.budget ≤ 1000000)))

/-- One step of a fused stage command. -/
structure FusedStep where
  engine  : Nat
  inRing  : Option Nat
  outRing : Option Nat
  ptr     : Nat
  deriving DecidableEq, Repr

/-- Step n of the 40 bytes of a fused stage command (R289). -/
def fusedStep (b : Bytes) (n : Nat) : FusedStep :=
  let w := leAt b (8 + 8 * n) 8
  { engine := bits w 0 4, inRing := ringField (bits w 4 5), outRing := ringField (bits w 9 5), ptr := bits w 15 21 }

/-- STEPS, CTR and SKIPS of a fused stage command. -/
def fusedSteps (b : Bytes) : Nat := bits (leAt b 0 4) 0 3

/-- CTR of a fused stage command. -/
def fusedCtr (b : Bytes) : Nat := bits (leAt b 0 4) 8 4

/-- SKIPS of a fused stage command. -/
def fusedSkips (b : Bytes) : Nat := bits (leAt b 0 4) 16 16

/-- The steps of a fused stage command, in order. -/
def fusedList (b : Bytes) : List FusedStep := (List.range (fusedSteps b)).map (fusedStep b)

/-- Step word n of a fused stage command as it stands. -/
def fusedWord (b : Bytes) (n : Nat) : Nat := leAt b (8 + 8 * n) 8

/-- The rules of R289 a fused stage command must keep: 1 to 4 steps, engines 0 to 7 no two alike, rings 0 to 15 or none, rings that
join, reserved bits zero. What a step's transfer moves is checked where it starts. -/
def fusedOk (b : Bytes) : Bool :=
  let l := fusedList b
  let es : List Nat := l.map (fun x => x.engine)
  b.length == 40 && decide (1 ≤ l.length) && decide (l.length ≤ 4) && es.all (fun e => decide (e < 8)) &&
    decide es.Nodup && (List.zip l (l.drop 1)).all (fun q => q.1.outRing == q.2.inRing) &&
    (let w := leAt b 0 4; bits w 3 5 == 0 && bits w 12 4 == 0) && leAt b 4 4 == 0 &&
    (List.range l.length).all (fun n =>
      let v := fusedWord b n
      [bits v 4 5, bits v 9 5].all (fun r => decide (r < 16) || r == 0x1F) && bits v 14 1 == 0 && bits v 36 28 == 0)

/-- LAYER of a step's compute record (R290). -/
def opLayer (op : ComputeOp) : Nat := bits (leAt op.record 0 4) 0 16

/-- FUNC of a step's compute record. -/
def opFunc (op : ComputeOp) : Nat := bits (leAt op.record 0 4) 16 8

/-- AXIS of a step's compute record. -/
def opAxis (op : ComputeOp) : Nat := bits (leAt op.record 0 4) 24 2

/-- ROW_LEN of a step's compute record. -/
def opRowLen (op : ComputeOp) : Nat := bits (leAt op.record 4 4) 0 25

/-- The rules of R290 and R117 a compute record must keep: 16 bytes, ROW_LEN in range, FUNC no reserved code, reserved bits zero. -/
def computeOk (b : Bytes) : Bool :=
  let w := leAt b 0 4
  let v := leAt b 4 4
  b.length == 16 && decide (bits w 16 8 ≤ 13) && bits w 26 6 == 0 && decide (bits v 0 25 ≤ 16777216) && bits v 25 7 == 0 &&
    leAt b 8 8 == 0

/-- A muster command of R291. -/
structure MusterCmd where
  id        : Nat
  scope     : Nat
  parts     : Nat
  notBefore : Nat
  deriving DecidableEq, Repr

/-- The muster command its 16 bytes hold. -/
def parseMuster (b : Bytes) : MusterCmd :=
  let w := leAt b 0 4
  { id := bits w 0 6, scope := bits w 8 2, parts := bits w 16 11, notBefore := leAt b 8 8 }

/-- The rules of R291 a muster command must keep: 16 bytes, PARTICIPANTS in range, reserved bits zero. -/
def musterOk (b : Bytes) : Bool :=
  let w := leAt b 0 4
  b.length == 16 && decide (bits w 16 11 ≤ 1024) && bits w 6 2 == 0 && bits w 10 6 == 0 && bits w 27 5 == 0 && leAt b 4 4 == 0

end Sys2Proof.Machine
end

