-- ==== Sys2Proof/Machine/Zc.lean ====
section
/-! DEFINITION. Zero compression (R187 to R189): pages of 64 runs of 64 elements, a presence mask before each run. -/

namespace Sys2Proof.Machine

open Sys2Proof

/-- Element bytes of a zero-compressed tensor: FP16 or Ore8. -/
def zcElem (ore : Bool) : Nat := if ore then 1 else 2

/-- The bytes of a page's slot (R187). -/
def zcSlot (ore : Bool) : Nat := if ore then 4672 else 8768

/-- Elements of a page. -/
def zcPageElems : Nat := 4096

/-- The elements of a dense byte string. -/
def elemsOf (eb : Nat) (b : Bytes) : List Bytes := chunks eb b

/-- Is an element present: any code but all zeros (R187)? -/
def zcPresent (e : Bytes) : Bool := e.any (fun b => b != 0)

/-- One run: its mask, then its present elements padded to a multiple of 8 bytes. -/
def zcRun (es : List Bytes) : Bytes :=
  let mask := ((List.range es.length).zip es).foldl (fun m q => if zcPresent q.2 then m + 2 ^ q.1 else m) 0
  let data := (es.filter zcPresent).flatten
  natLe 8 mask ++ padTo (roundUp data.length 8) data

/-- One page of at most 4,096 elements. -/
def zcPage (eb : Nat) (dense : Bytes) : Bytes :=
  let body := ((chunks 64 (elemsOf eb dense)).map zcRun).flatten
  natLe 8 ((body.length + 8) / 8) ++ body

/-- The pages of a dense tensor in their slots, as (offset, bytes). -/
def zcPages (ore : Bool) (dense : Bytes) : List (Nat × Bytes) :=
  let ps := (chunks (zcPageElems * zcElem ore) dense).map (zcPage (zcElem ore))
  ((List.range ps.length).map (fun k => k * zcSlot ore)).zip ps

/-- The runs of a page read back: n elements left, from byte offset off. none where the page is malformed (R189). -/
def zcRuns (eb : Nat) (page : Bytes) : Nat → Nat → Nat → Option (Bytes × Nat)
  | 0, _, off => some ([], off)
  | fuel + 1, n, off =>
    if n = 0 then some ([], off)
    else
      let mask := leAt page off 8
      let m := min n 64
      if 2 ^ m ≤ mask then none
      else
        let step := (List.range m).foldl (fun (q : Bytes × Nat) j =>
          if bitAt mask j then (q.1 ++ sub page (off + 8 + q.2) eb, q.2 + eb) else (q.1 ++ zeros eb, q.2)) ([], 0)
        let next := off + 8 + roundUp step.2 8
        match zcRuns eb page fuel (n - m) next with
        | none => none
        | some r => some (step.1 ++ r.1, r.2)

/-- A page of n elements expanded, or none where it is malformed: its length differs from what its masks imply or exceeds
the slot, or a mask sets a bit past the end (R189). -/
def zcExpand (ore : Bool) (n : Nat) (page : Bytes) : Option Bytes :=
  let len := leAt page 0 2
  if zcSlot ore / 8 < len then none
  else match zcRuns (zcElem ore) page 65 n 8 with
    | none => none
    | some r => if r.2 = 8 * len then some r.1 else none

end Sys2Proof.Machine
end

