-- ==== Sys2Proof/Machine/Hoists.lean ====
section
/-! DEFINITION. Hoists and movers: descriptors, transactions, completions, bus errors (R274 to R288). -/

namespace Sys2Proof.Machine

open Sys2Proof

/-- Is face p at work: active, current, not stopped, its level up (R38, R287, R390)? -/
def State.faceUp (s : State) (p : Nat) : Bool :=
  s.activeFace p && !s.stale p && !(s.face p).failed && !(s.face p).inReset && !(s.face p).stopped && s.levelUp (levelOf p)

/-- Does face p's work go on: the face is at work and none of its engines has met a bus error? After one no skip is handed on and no
counter advances, before the face has stopped too (R287). -/
def State.faceRuns (s : State) (p : Nat) : Bool := s.faceUp p && (s.face p).engines.all (fun g => g.err.isNone)

/-- Is a work item's frame open: its session has a frame in progress with this deadline (R257), of a decode session the earliest not yet
committed (R256), or its job runs? -/
def State.workOpen (s : State) (w : Work) : Bool :=
  match w.ctx with
  | .session i => (s.ses i).frame.any (fun f => f.deadline == w.deadline) ||
      (s.ses i).dec.frames.head?.any (fun f => f.deadline == w.deadline)
  | .job j => (s.job j).any (fun k => decide (k.state = .running) || decide (k.state = .suspending))

/-- Is work numbered seq of an owner the face's turn: no other owner's work was issued before it (R257: a work item is never pre-empted by
another session)? -/
def Face.turn (f : Face) (c : Ctx) (seq : Nat) : Bool :=
  f.engines.all (fun g => g.queue.all (fun q => decide (q.work.ctx = c) || decide (seq < q.seq))) &&
    f.fused.all (fun u => decide (u.work.ctx = c) || decide (seq < u.seq))

/-- Is it a face's turn for an owner's work numbered seq: in the order of issue, and the face at no other owner's item whose frame is open
(R257: sessions change places on a face only at frame boundaries)? -/
def State.itsTurn (s : State) (p : Nat) (c : Ctx) (seq : Nat) : Bool :=
  (s.face p).turn c seq && (s.face p).item.all (fun i => decide (i.work.ctx = c) || !s.workOpen i.work)

/-- Are two pieces of work of one item: of a session's frame with one deadline, or of one job? -/
def sameItem (a b : Work) : Bool :=
  match a.ctx with
  | .session _ => decide (a = b)
  | .job _ => decide (a.ctx = b.ctx)

/-- The item of a piece of work on face p: the one the face is at, or one launched now. -/
def State.itemOf (s : State) (p : Nat) (w : Work) : WorkItem :=
  match (s.face p).item with
  | some i => if sameItem i.work w then i else { work := w, launch := s.now }
  | none => { work := w, launch := s.now }

/-- The face at a piece of work's item. -/
def State.atItem (s : State) (p : Nat) (w : Work) : State := s.setFace p { s.face p with item := some (s.itemOf p w) }

/-- The face's item over where the command at this offset of its store is the last of it. Which are, the Plan's schedules say, whose layout
the spec does not publish (R257, log entry 16). -/
def State.endItem (s : State) (p offset : Nat) : State :=
  let last := Config.endsItem ((s.boot.plan.map (fun pl => pl.d)).getD []) ((s.logicalOf p).getD 1024) offset
  s.setFace p { s.face p with item := if last then none else (s.face p).item }

/-- Is face p held at a muster: it has arrived, or waits to arrive at the next of the same identifier, and the release has not come (R291,
R292)? -/
def State.atMuster (s : State) (p : Nat) : Bool :=
  s.musters.any (fun m => (s.logicalOf p).any (fun lf => m.arrived.contains lf || m.waiting.any (fun w => w.face == lf)))

/-- Does face p wait to submit a descriptor to a full compressor queue (R311)? The 64 in the queue come first. -/
def State.blkWaits (s : State) (p : Nat) : Bool := ((s.level (levelOf p)).blkQ.drop 64).any (fun j => j.face == p)

/-- Does face p run no command: it is held at a muster, or waits to submit a compressor descriptor? -/
def State.faceHeld (s : State) (p : Nat) : Bool := s.atMuster p || s.blkWaits p

/-- The KIND of the error an access by face p meets at address a, or none where it reaches memory or a register (R36 to
R41, R226, R239, R387). A window that answers no access for two reasons is given the KIND of the first below (log entry 72). -/
def State.accessError (s : State) (a len : Nat) (write : Bool) : Option Nat :=
  let miss := some (b2n write)
  if a < 0x010000000000 then none
  else if a < 0x010000000000 + 4 * 0x001000000000 then
    let l := (a - 0x010000000000) / 0x001000000000
    let o := (a - 0x010000000000) % 0x001000000000
    if 0xBD000000 ≤ o || !s.levelUp l then miss else none
  else if a < 0x020000000000 then miss
  else if a < 0x020800000000 then
    let p := (a - 0x020000000000) / 0x1000000
    let o := a % 0x1000000
    if ¬ faceWf p then some 3
    else if !s.levelUp (levelOf p) then miss
    else if storeBytes ≤ o then miss
    else if s.activeFace p && !s.stale p then none else some 3
  else if a < regBase then miss
  else if len ≠ 4 then some 2
  else s.regError a write

/-- Is address a in the window of a face's store (R36)? -/
def inStore (a : Nat) : Bool := decide (0x020000000000 ≤ a) && decide (a < 0x020800000000)

/-- The physical face whose store window holds address a. -/
def storeOf (a : Nat) : Nat := (a - 0x020000000000) / 0x1000000

/-- Bytes read from address a, those in a zero tile as zeros (R188, R192; log entry 87). -/
def State.tiled (s : State) (a : Nat) (b : Bytes) : Bytes :=
  let ts := if inStore a then (s.face (storeOf a)).zeroTiles else []
  if ts = [] then b
  else (List.range b.length).map (fun i =>
    if ts.any (fun t => decide (t.1 ≤ a % 0x1000000 + i) && decide (a % 0x1000000 + i < t.1 + t.2)) then 0 else b.getD i 0)

/-- A range cut out of a list of ranges. -/
def cutRange (lo n : Nat) (l : List (Nat × Nat)) : List (Nat × Nat) :=
  l.flatMap (fun t =>
    let left := min (t.1 + t.2) lo - t.1
    let right := t.1 + t.2 - max t.1 (lo + n)
    (if left = 0 then [] else [(t.1, left)]) ++ if right = 0 then [] else [(t.1 + t.2 - right, right)])

/-- The zero tiles that n bytes written at a end. -/
def State.untile (s : State) (a n : Nat) : State :=
  if inStore a && !(s.face (storeOf a)).zeroTiles.isEmpty then
    let f := s.face (storeOf a)
    s.setFace (storeOf a) { f with zeroTiles := cutRange (a % 0x1000000) n f.zeroTiles }
  else s

/-- n bytes at a marked as a zero tile without being written (R188). -/
def State.tile (s : State) (a n : Nat) : State :=
  let f := (s.untile a n).face (storeOf a)
  (s.untile a n).setFace (storeOf a) { f with zeroTiles := f.zeroTiles ++ [(a % 0x1000000, n)] }

/-- The bytes memory reads as: a zero tile reads as zeros, a session's area as what the session keeps there. -/
def State.memBytes (s : State) (a len : Nat) : Bytes := s.kept a (s.tiled a (s.readMem a len))

/-- The bytes an access reads. -/
def State.busRead (s : State) (a len : Nat) : Bytes :=
  if regBase ≤ a then natLe 4 (s.viewReg a).toNat else s.memBytes a len

/-- The bytes of a list of runs, and the state their reading leaves: a register read to clear clears (R5). -/
def State.busTake (s : State) : List (Nat × Nat) → Bytes × State
  | [] => ([], s)
  | r :: l =>
    let q := (if regBase ≤ r.1 then s.readEffect r.1 else s).busTake l
    (s.busRead r.1 r.2 ++ q.1, q.2)

/-- The effect an access has when it writes. -/
def State.busWrite (s : State) (a : Nat) (b : Bytes) : State :=
  if regBase ≤ a then s.writeEffect a (BitVec.ofNat 32 (leNat b)) else (s.writeMem a b).untile a b.length

/-- An address with its logical face translated (R43, R275), or none while the slot is absent. -/
def State.translate (s : State) (log : Bool) (a : Nat) : Option Nat :=
  if log then (s.physOf (bits a 24 10)).map (fun p => storeBase p + a % 0x1000000) else some a

/-- Does a transfer go through its elements with z fastest? INTERLEAVE does in the order of its destination and DEINTERLEAVE in the
order of its source; a transfer goes in the order of its destination, but of its source where that is a ring (R283; log entry 19). -/
def Desc.zFirst (d : Desc) : Bool := if d.srcRing.isSome then d.reshuf == 4 else d.reshuf == 3

/-- (z, y, x, byte) of byte i of a transfer, in the order of R274 or R278. -/
def Desc.coord (d : Desc) (i : Nat) : Nat × Nat × Nat × Nat :=
  let q := i / d.eb
  if d.zFirst then (q % d.z, q / (d.z * d.x), q / d.z % d.x, i % d.eb)
  else (q / (d.x * d.y), q / d.x % d.y, q % d.x, i % d.eb)

/-- A signed offset added to a 48-bit address. -/
def addr48 (base : Nat) (off : Int) : Nat := (((base : Int) + off) % (2 ^ 48 : Nat)).toNat

/-- The source address of byte i (R274, R278). -/
def Desc.srcAddr (d : Desc) (i : Nat) : Nat :=
  let c := d.coord i
  if d.reshuf = 4 then addr48 d.src (c.2.1 * d.sy + ((c.2.2.1 * d.z + c.1) * d.eb + c.2.2.2 : Nat))
  else addr48 d.src (c.1 * d.sz + c.2.1 * d.sy + (c.2.2.1 * d.eb + c.2.2.2 : Nat))

/-- The destination address of byte i (R274, R278). -/
def Desc.dstAddr (d : Desc) (i : Nat) : Nat :=
  let c := d.coord i
  if d.reshuf = 3 then addr48 d.dst (c.2.1 * d.dy + ((c.2.2.1 * d.z + c.1) * d.eb + c.2.2.2 : Nat))
  else addr48 d.dst (c.1 * d.dz + c.2.1 * d.dy + (c.2.2.1 * d.eb + c.2.2.2 : Nat))

/-- Does the transfer interleave or deinterleave? -/
def Desc.weaves (d : Desc) : Bool := d.reshuf == 3 || d.reshuf == 4

/-- Source bytes that lie together with byte i: the rest of the row, or of the element under INTERLEAVE and DEINTERLEAVE. -/
def Desc.runLeft (d : Desc) (i : Nat) : Nat :=
  if d.weaves then d.eb - i % d.eb else d.x * d.eb - i % (d.x * d.eb)

/-- Destination bytes that lie together with byte i: the rest of the row written, or of the element where a ring is drained into an
interleaved place. -/
def Desc.destLeft (d : Desc) (i : Nat) : Nat :=
  let row := d.eb * (if d.weaves && d.srcRing.isSome then 1 else if d.reshuf = 3 then d.x * d.z else d.x)
  row - i % row

/-- Bytes to the end of the granule of address a (R30). -/
def granLeft (a : Nat) : Nat := 64 - a % 64

/-- The source addresses of n bytes from position i on, element by element, an element cut where it crosses into another granule (R30). -/
def Desc.gather (d : Desc) : Nat → Nat → Nat → List (Nat × Nat)
  | 0, _, _ => []
  | k + 1, i, n =>
    if n = 0 then []
    else
      let m := min (min n (d.eb - i % d.eb)) (granLeft (d.srcAddr i))
      (d.srcAddr i, m) :: d.gather k (i + m) (n - m)

/-- The store offset of a ring buffer: an own skip, or 128 + a pool skip (R281, R295). -/
def State.bufferAt (s : State) (p r place : Nat) : Nat :=
  let g := s.ringRec p r
  let f := s.faceRings ((s.logicalOf p).getD 1024)
  storeBase p + (if place < 128 then g.base + place * g.skipBytes else f.poolBase + (place - 128) * f.poolBytes)

/-- The buffer the next skip of a ring fills: the own skip in turn if free, else a free own skip, else a pool skip the
ring holds (R282, R295; log entry 11). -/
def State.nextPlace (s : State) (p r : Nat) : Option Nat :=
  let g := s.ring p r
  let n := (s.ringRec p r).reserve
  let used := g.skips.map (fun k => k.2.place)
  let own := g.tail % n :: List.range n
  let pool := if g.noBorrow then [] else g.pool.map (fun k => k.1 + 128)
  if n = 0 then none else (own ++ pool).find? (fun k => !used.contains k)

/-- The skip a consumer drains: the word at HEAD (R282, R283). -/
def Ring.headSkip (g : Ring) : Option SkipWord :=
  if g.occ = 0 then none else (g.skips.find? (fun k => k.1 == g.head % 65536)).map (fun k => k.2)

/-- The face whose ring a descriptor fills: that of the store DST lies in where it is a face of the level, else its own (R284; log entry
88). -/
def State.ringFace (s : State) (p : Nat) (d : Desc) : Nat :=
  match s.translate d.dstLog d.dst with
  | some a => if d.op != 3 && inStore a && faceWf (storeOf a) && levelOf (storeOf a) == levelOf p then storeOf a else p
  | none => p

/-- A transaction's piece: the runs of source bytes (none for FILL), destination, length. -/
structure Piece where
  src : List (Nat × Nat)
  dst : Nat
  len : Nat
  aux : Bool
  deriving DecidableEq, Repr

/-- Why no transaction issues now. -/
inductive NoPiece where
  | ring
  | bad (kind addr : Nat)
  deriving DecidableEq, Repr

/-- Where byte pos of the head descriptor is read: (address, bytes that lie together). -/
def State.srcLoc (s : State) (p : Nat) (g : Engine) (d : Desc) : Except NoPiece (Option (Nat × Nat)) :=
  if d.op = 2 then .ok none
  else match d.srcRing with
    | some r =>
      match (s.ring p r).headSkip with
      | none => .error .ring
      | some k => if k.bytes ≤ g.drain then .error .ring
        else .ok (some (s.bufferAt p r k.place + g.drain, k.bytes - g.drain))
    | none =>
      match s.translate d.srcLog (d.srcAddr g.pos) with
      | none => .error (.bad 0 (d.srcAddr g.pos))
      | some a => .ok (some (a, d.runLeft g.pos))

/-- The next place in the ring a descriptor fills: (address, bytes left in the skip). -/
def State.fillLoc (s : State) (p r : Nat) (g : Engine) (d : Desc) : Except NoPiece (Nat × Nat) :=
  let o := s.ringFace p d
  let n := (s.ringRec o r).skipBytes
  match (if g.fill = 0 then (if s.ringCap o r ≤ (s.ring o r).occ then none else s.nextPlace o r) else (s.ring o r).filling) with
  | none => .error .ring
  | some k => if n ≤ g.fill then .error .ring else .ok (s.bufferAt o r k + g.fill, n - g.fill)

/-- Where byte pos of the head descriptor is written. -/
def State.dstLoc (s : State) (p : Nat) (g : Engine) (d : Desc) : Except NoPiece (Nat × Nat) :=
  match d.dstRing with
  | some r => s.fillLoc p r g d
  | none =>
    match s.translate d.dstLog (d.dstAddr g.pos) with
    | none => .error (.bad 1 (d.dstAddr g.pos))
    | some a => .ok (a, d.destLeft g.pos)

/-- Runs of source bytes with their addresses translated, or the address that is not (R275). -/
def State.locate (s : State) (log write : Bool) : List (Nat × Nat) → Except NoPiece (List (Nat × Nat))
  | [] => .ok []
  | q :: r =>
    match s.translate log q.1, s.locate log write r with
    | none, _ => .error (.bad (b2n write) q.1)
    | some _, .error e => .error e
    | some a, .ok l => .ok ((a, q.2) :: l)

/-- What stands at byte pos of a stream of data bytes and its auxiliary plane of aux bytes: whether it is the plane's, which byte of the
data or of the plane it is, and how many bytes of the kind follow together. Cut into skips of n bytes, a skip holds data and then its part
of the plane; else the plane follows all the data (R274, R283; log entry 19). -/
def streamPart (total aux : Nat) (cut : Option Nat) (pos : Nat) : Bool × Nat × Nat :=
  let t := total + aux
  match cut with
  | some (m + 1) =>
    let n := m + 1
    let k := pos / n
    let cap := n - n * total / t
    let a := min (k * cap) aux
    let size := min n (t - k * n)
    let data := if t - k * n ≤ n then total - (k * n - a) else n - (min ((k + 1) * cap) aux - a)
    let r := pos % n
    if r < data then (false, k * n - a + r, data - r) else (true, a + (r - data), size - r)
  | _ => if pos < total then (false, pos, total - pos) else (true, pos - total, t - pos)

/-- The skip size that cuts a dense transfer with an auxiliary plane into skips, each with its part of the plane: that of the ring
drained, else of the ring filled; none where no ring is named. -/
def State.skipCut (s : State) (p : Nat) (d : Desc) : Option Nat :=
  if d.auxLen = 0 then none
  else match (if d.op = 2 then none else d.srcRing) with
    | some r => some (s.ringRec p r).skipBytes
    | none => d.dstRing.map (fun r => (s.ringRec (s.ringFace p d) r).skipBytes)

/-- The next piece of the auxiliary plane, from its byte o on (R274): read at AUX_SRC, or in the skip being drained; written at AUX_DST,
or into the skip being filled. -/
def State.auxPiece (s : State) (p : Nat) (g : Engine) (d : Desc) (o left : Nat) : Except NoPiece Piece :=
  let src : Except NoPiece (Option (Nat × Nat)) :=
    if d.srcRing.isSome && d.op != 2 then s.srcLoc p g d else .ok (some (d.auxSrc + o, left))
  let dst : Except NoPiece (Nat × Nat) :=
    if d.dstRing.isSome then s.dstLoc p g d else .ok (storeBase p + d.auxDst + o, left)
  match src, dst with
  | .error e, _ => .error e
  | _, .error e => .error e
  | .ok f, .ok t =>
    let a := f.getD (d.auxSrc + o, left)
    let n := min (min (min a.2 t.2) left) (min (granLeft a.1) (granLeft t.1))
    .ok { src := [(a.1, n)], dst := t.1, len := n, aux := true }

/-- The next piece of a dense descriptor at the engine's position. -/
def State.nextPiece (s : State) (p : Nat) (g0 : Engine) (d : Desc) : Except NoPiece Piece :=
  let w := streamPart d.count d.auxLen (s.skipCut p d) g0.pos
  let g := { g0 with pos := w.2.1 }
  if w.1 then s.auxPiece p g d w.2.1 w.2.2
  else if d.weaves && d.srcRing.isNone && d.op != 2 then
    match s.dstLoc p g d with
    | .error e => .error e
    | .ok t =>
      let n := min (min t.2 w.2.2) (granLeft t.1)
      match s.locate d.srcLog false (d.gather n g.pos n) with
      | .error e => .error e
      | .ok l => .ok { src := l, dst := t.1, len := n, aux := false }
  else
    match s.srcLoc p g d, s.dstLoc p g d with
    | .error e, _ => .error e
    | _, .error e => .error e
    | .ok none, .ok t => .ok { src := [], dst := t.1, len := min (min t.2 w.2.2) (granLeft t.1), aux := false }
    | .ok (some f), .ok t =>
      let n := min (min (min f.2 t.2) w.2.2) (min (granLeft f.1) (granLeft t.1))
      .ok { src := [(f.1, n)], dst := t.1, len := n, aux := false }

/-- The FILL pattern's bytes from position pos (R274: a 32-bit pattern in SRC[31:0]). -/
def fillBytes (d : Desc) (pos len : Nat) : Bytes :=
  (List.range len).map (fun i => BitVec.ofNat 8 (d.src % 2 ^ 32 / 2 ^ (8 * ((pos + i) % 4))))

/-- Is the written address in the store of a face that has failed and that a logical address still names (R46)? -/
def State.discarded (s : State) (log : Bool) (a : Nat) : Bool :=
  log && decide (0x020000000000 ≤ a) && (s.face ((a - 0x020000000000) / 0x1000000)).failed

/-- The rate credit brought up to now: 64 × SHARE a NOC cycle, two cycles a ns, up to the cap (R279, R32). -/
def Engine.accrue (g : Engine) (now share : Nat) : Engine :=
  { g with credit := min creditCap (g.credit + 64 * share * (2 * (now - g.creditAt))), creditAt := now }

/-- JOB_SLACK of the Plan (R285, R295). -/
def State.jobSlack (s : State) : Nat := (s.boot.plan.map (fun pl => pl.jobSlack)).getD 0

/-- The key of session or job traffic (R285): the frame's deadline, or the issue time plus JOB_SLACK. -/
def State.workKey (s : State) (w : Work) : Nat :=
  match w.ctx with
  | .session _ => w.deadline
  | .job _ => s.now + s.jobSlack

/-- The dry time of ring r of face p for an item launched at a time (R285). -/
def State.dryTime (s : State) (p r launch : Nat) : Nat := (s.ring p r).lastHead.getD launch + (s.ring p r).occ * (s.ringRec p r).tSkip

/-- The key of face q's fill of ring r of face p (R285): the earlier of the work item's deadline and the ring's dry time. -/
def State.fillKey (s : State) (q p r : Nat) (w : Work) : Nat := min (s.workKey w) (s.dryTime p r (s.itemOf q w).launch)

/-- Does key a come before key b: bits [41:10] in serial order (R60, R285)? -/
def keyBefore (a b : Nat) : Bool := serialBefore 32 (bits a 10 32) (bits b 10 32)

/-- The key of a transaction of an engine's head descriptor (R285); a chunk's injection fills no ring. -/
def State.transferKey (s : State) (p : Nat) (q : QueuedDesc) : Nat :=
  let d := parseDesc q.bytes
  match d.dstRing with
  | some r => if d.op = 3 then s.workKey q.work else s.fillKey p (s.ringFace p d) r q.work
  | none => s.workKey q.work

/-- The engine after a transaction that cost so much credit, moved len bytes, and drained and filled so many bytes of skips. -/
def Engine.moved (g : Engine) (d : Desc) (cost len drained filled : Nat) : Engine :=
  { g with pos := g.pos + len, waiting := 0, fill := g.fill + filled, drain := g.drain + drained,
           credit := if d.rateEn then g.credit - 256 * cost else g.credit }

/-- The tally check of a skip drained to its end: its place in the store where the bytes read do not match (R334, R335). -/
def State.tallyFails (s : State) (p : Nat) (g : Engine) (d : Desc) (len : Nat) : Option Nat :=
  match d.srcRing with
  | none => none
  | some r =>
    match (s.ring p r).headSkip with
    | none => none
    | some k =>
      let a := s.bufferAt p r k.place
      if len != 0 && g.drain + len == k.bytes && crc32c (s.readMem a k.bytes) != k.tally then some a else none

/-- A tally mismatch met while moving, at a skip's address (R335): a bus error of KIND 3, counted, and TALLY_MOVE. -/
def State.tallyMove (s : State) (p e a : Nat) : State :=
  let g := s.engine p e
  let s1 := (s.bumpReg (lvlReg (levelOf p) 0x840) 1).setEngine p e { g with err := some (3, a), errAt := s.now, waiting := 0 }
  s1.raise 0x13 1 0 (levelOf p) p (g.queue.head?.map (fun q => q.work.ctx)) e 0

/-- What else a transaction of engine e leaves once s1 holds its bytes: the ring's buffer being filled, the count in HST_ENGn_BYTES, the
engine's place, and where a skip's tally does not match, the bus error (R279, R283, R297, R334, R335). -/
def State.settle (s s1 : State) (p e : Nat) (g : Engine) (d : Desc) (cost len drained filled : Nat) : State :=
  let o := s.ringFace p d
  let s2 := match d.dstRing with
    | some r => if g.fill ≠ 0 ∨ filled = 0 then s1 else s1.setRing o r { s1.ring o r with filling := s.nextPlace o r }
    | none => s1
  let s3 := (s2.bumpReg (fceReg p (0x404 + 16 * e)) len).setEngine p e (g.moved d cost len drained filled)
  match s.tallyFails p g d drained with
  | some a => s3.tallyMove p e a
  | none => s3

/-- n where a ring is named. -/
def ifRing (r : Option Nat) (n : Nat) : Nat := if r.isSome then n else 0

/-- One transaction's bytes written at its destination (R275, R279, R297). -/
def State.movePiece (s s0 : State) (p e : Nat) (g : Engine) (d : Desc) (data : Bytes) (q : Piece) : State :=
  let n := data.length
  s.settle (s0.busWrite q.dst data) p e { g with auxPos := if q.aux then g.auxPos + n else g.auxPos } d n n
    (if d.op = 2 then 0 else ifRing d.srcRing n) (ifRing d.dstRing n)

/-- A transaction waits on a ring (R282): the ring filled has no skip free, the ring drained holds none, or a skip is not handed on
yet. -/
def State.waitRing (s : State) (p e : Nat) (g : Engine) (d : Desc) : State :=
  let s1 := s.setEngine p e { g with waiting := 2 }
  let s2 := match d.dstRing with
    | some r =>
      let o := s.ringFace p d
      if g.fill = 0 ∧ s.ringCap o r ≤ (s.ring o r).occ then s1.setRing o r { s1.ring o r with waitSpace := true } else s1
    | none => s1
  match d.srcRing with
  | some r => if (s.ring p r).occ = 0 then s2.setRing p r { s2.ring p r with waitData := true } else s2
  | none => s2

/-- An engine meets a bus error: kept until BUS_ERROR acts on it (R287). An error response is recorded in the address
error record of the face's level (R41). -/
def State.engineError (s : State) (p e : Nat) (g : Engine) (kind addr : Nat) (addrKind : Option Nat) : State :=
  let s1 := s.setEngine p e { g with err := some (kind, addr), errAt := s.now, waiting := 0 }
  match addrKind with
  | none => s1
  | some k => s1.addrError (some (levelOf p)) addr p k (g.queue.head?.map (fun q => q.work.ctx))

/-- The first run that an access meets an error at, with the KIND. -/
def State.runError (s : State) (write : Bool) (l : List (Nat × Nat)) : Option (Nat × Nat) :=
  l.findSome? (fun r => (s.accessError r.1 r.2 write).map (fun k => (r.1, k)))

/-- The level of the bonded DRAM at an address (R36). -/
def dramLevel (a : Nat) : Nat := (a - 0x010000000000) / 0x001000000000 % 4

/-- The first poisoned byte that reads of runs (address, bytes) meet (R339). -/
def State.poisonAt (s : State) (l : List (Nat × Nat)) : Option Nat :=
  l.findSome? (fun r => (s.poisoned.find? (fun g => decide (32 * g < r.1 + r.2) && decide (r.1 < 32 * g + 32))).map (fun g => max r.1 (32 * g)))

/-- An uncorrectable read of device memory on behalf of a face: ECC_UE on the memory's level (R337, R346); an LPDDR6 device with one is to be
declared faulted (R340). -/
def State.noteRead (s : State) (a p : Nat) (owner : Option Ctx) : State :=
  if a < 0x010000000000 then
    { s.noteUe (some (a / 2 ^ 36 % 16 / 4)) 4 a a p 1 owner with badReads := s.badReads ++ [a / 2 ^ 36 % 16] }
  else s.noteUe (some (dramLevel a)) 3 a a p 1 owner

/-- An engine meets an uncorrectable read: an error of KIND 3 (R287, R337). -/
def State.engineUe (s : State) (p e : Nat) (g : Engine) (addr : Nat) : State := s.engineError p e g 3 addr none

/-- What an engine does where its reads of runs (address, bytes) meet neither an error response nor a poisoned granule (R287, R337). -/
def State.whenReads (s : State) (p e : Nat) (g : Engine) (l : List (Nat × Nat)) (go : State) : State :=
  match s.runError false l with
  | some x => s.engineError p e g 1 x.1 (some x.2)
  | none =>
    match s.poisonAt l with
    | some a => (s.noteRead a p (g.queue.head?.map (fun q => q.work.ctx))).engineUe p e g a
    | none => go

/-- One piece moved, where the rate credit and the accesses allow it (R46, R279, R287). -/
def State.issuePiece (s : State) (p e : Nat) (g : Engine) (d : Desc) (q : Piece) : State :=
  if d.rateEn && decide (g.credit < 256 * q.len) then s.setEngine p e { g with waiting := 3 }
  else
    s.whenReads p e g q.src
      (if s.discarded (d.dstLog && (!q.aux || d.dstRing.isSome)) q.dst then s.engineError p e g 2 q.dst none
       else match s.accessError q.dst q.len true with
         | some k => s.engineError p e g 1 q.dst (some k)
         | none =>
           let t := s.busTake q.src
           s.movePiece t.2 p e g d (if q.src = [] then fillBytes d g.pos q.len else t.1) q)

/-- Is a chunk that face p sent still on its way to the face in whose store address a lies, so that a message of p in its direction comes
after it (R24)? Chunks go up the ring, and both ways while a segment is faulted (R294). -/
def State.chunkAhead (s : State) (p a : Nat) : Bool :=
  let q := storeOf a
  let up := q == physFace (levelOf p) (driftOf p) ((posOf p + 1) % 17)
  let down := q == physFace (levelOf p) (driftOf p) ((posOf p + 16) % 17)
  inStore a && (up || (down && s.field (drfReg (levelOf p) (driftOf p) 0x10) 0 17 != 0)) &&
    s.trams.any (fun c => c.home == p && !c.visited.contains q)

/-- Must a mover's piece let a chunk of its face go first (R24)? -/
def State.pieceBehind (s : State) (p e : Nat) (q : Piece) : Bool :=
  decide (4 ≤ e) && (s.chunkAhead p q.dst || q.src.any (fun r => s.chunkAhead p r.1))

/-- One transaction of a dense descriptor. A logical address whose slot is absent meets an error response at the address as it stands in
the descriptor, KIND 0 for the read and 1 for the write (log entry 71). -/
def State.issueDense (s : State) (p e : Nat) (g : Engine) (d : Desc) : State :=
  match s.nextPiece p g d with
  | .error .ring => s.waitRing p e g d
  | .error (.bad k a) => s.engineError p e g 1 a (some k)
  | .ok q => if s.pieceBehind p e q then s else s.issuePiece p e g d q

/-! Transfers that hold bytes before they write them: plane reshuffles by rows (R278), zero compression by pages (R187 to R189), and the
weave of one ring into another. Each goes unit by unit: the unit's bytes are taken in, transaction by transaction, then its result is
written likewise. -/

/-- Is it such a transfer? -/
def Desc.staged (d : Desc) : Bool :=
  d.reshuf == 1 || d.reshuf == 2 || d.zc == 1 ||
    (d.op != 2 && (d.zc == 2 || (d.weaves && d.srcRing.isSome && d.dstRing.isSome)))

/-- The dense bytes of a page of elements. -/
def Desc.pageBytes (d : Desc) : Nat := zcPageElems * zcElem d.zcOre

/-- The units of the transfer: rows, pages, or all of it. -/
def Desc.units (d : Desc) : Nat :=
  if d.zc != 0 then (d.count + d.pageBytes - 1) / d.pageBytes else if d.weaves then 1 else d.y

/-- Bytes of the planes of a row. -/
def Desc.planeRow (d : Desc) : Nat := d.param * (d.x / 8)

/-- The bytes unit u takes in: all of a page's slot where a ring brings it. -/
def Desc.unitIn (d : Desc) (u : Nat) : Nat :=
  if d.zc = 1 then min d.pageBytes (d.count - u * d.pageBytes)
  else if d.zc = 2 then zcSlot d.zcOre
  else if d.reshuf = 1 then d.x * d.eb
  else if d.reshuf = 2 then d.planeRow
  else d.count

/-- The bytes of unit u's result; all of a page's slot where a ring takes it. -/
def Desc.unitOut (d : Desc) (u : Nat) : Nat :=
  if d.zc = 1 then zcSlot d.zcOre
  else if d.zc = 2 then min d.pageBytes (d.count - u * d.pageBytes)
  else if d.reshuf = 1 then d.planeRow
  else if d.reshuf = 2 then d.x * d.eb
  else d.count

/-- The bytes of all the units on the source side, and on the destination side. -/
def Desc.streamIn (d : Desc) : Nat := if d.units = 0 then 0 else (d.units - 1) * d.unitIn 0 + d.unitIn (d.units - 1)

/-- The bytes of all the units' results. -/
def Desc.streamOut (d : Desc) : Nat := if d.units = 0 then 0 else (d.units - 1) * d.unitOut 0 + d.unitOut (d.units - 1)

/-- The address of byte o of a row's planes, with the bytes of the plane that follow. -/
def Desc.planeAddr (d : Desc) (base : Nat) (sz sy : Int) (u o : Nat) : Nat × Nat :=
  let w := d.x / 8
  (addr48 base ((o / w : Nat) * sz + (u : Nat) * sy + (o % w : Nat)), w - o % w)

/-- Where byte o of unit u is read in memory, with the bytes that lie together. -/
def Desc.inRun (d : Desc) (u o : Nat) : Nat × Nat :=
  if d.zc = 2 then (addr48 d.src (u * zcSlot d.zcOre + o : Nat), zcSlot d.zcOre - o)
  else if d.reshuf = 2 then d.planeAddr d.src d.sz d.sy u o
  else (d.srcAddr (u * d.unitIn 0 + o), d.runLeft (u * d.unitIn 0 + o))

/-- Where byte o of unit u's result is written in memory, with the bytes that lie together. -/
def Desc.outRun (d : Desc) (u o : Nat) : Nat × Nat :=
  if d.zc = 1 then (addr48 d.dst (u * zcSlot d.zcOre + o : Nat), zcSlot d.zcOre - o)
  else if d.reshuf = 1 then d.planeAddr d.dst d.dz d.dy u o
  else (d.dstAddr (u * d.unitOut 0 + o), d.destLeft (u * d.unitOut 0 + o))

/-- Bytes of the unit still to be taken in: of a page in memory its header granule, then as much as it names (R188). -/
def Desc.wants (d : Desc) (u : Nat) (page : Bytes) : Nat :=
  if d.op = 2 then 0
  else if d.zc = 2 ∧ d.srcRing.isNone then
    if page.length < 64 ∨ zcSlot d.zcOre / 8 < leAt page 0 2 then 64 - page.length else 8 * leAt page 0 2 - page.length
  else d.unitIn u - page.length

/-- Bit j of element i of a byte string of elements of eb bytes. -/
def elemBit (eb : Nat) (b : Bytes) (i j : Nat) : Nat := leAt b (i * eb) eb / 2 ^ j % 2

/-- Where plane j of the group of eight elements g stands among a row's planes: B bytes a group in a ring (log entry 19). -/
def Desc.planeAt (d : Desc) (ring : Bool) (g j : Nat) : Nat := if ring then g * d.param + j else j * (d.x / 8) + g

/-- The planes of a row of elements (R278). -/
def Desc.split (d : Desc) (row : Bytes) : Bytes :=
  let w := d.x / 8
  (List.range d.planeRow).map (fun o =>
    let g := if d.dstRing.isSome then o / d.param else o % w
    let j := if d.dstRing.isSome then o % d.param else o / w
    BitVec.ofNat 8 ((List.range 8).foldl (fun acc i => acc + elemBit d.eb row (8 * g + i) j * 2 ^ i) 0))

/-- The row of elements of its planes (R278). -/
def Desc.merge (d : Desc) (planes : Bytes) : Bytes :=
  (List.range d.x).flatMap (fun i => natLe d.eb ((List.range d.param).foldl (fun acc j =>
    acc + elemBit 1 planes (d.planeAt d.srcRing.isSome (i / 8) j) (i % 8) * 2 ^ j) 0))

/-- The elements of one ring in the order of the other (R278). -/
def Desc.weave (d : Desc) (b : Bytes) : Bytes :=
  (List.range (d.x * d.y * d.z)).flatMap (fun q =>
    let k := if d.reshuf = 3 then (q % d.z * d.y + q / (d.z * d.x)) * d.x + q / d.z % d.x
      else (q / d.x % d.y * d.x + q % d.x) * d.z + q / (d.x * d.y)
    sub b (k * d.eb) d.eb)

/-- The result of unit u, or none where it is a malformed page (R189). -/
def Desc.result (d : Desc) (u : Nat) (page : Bytes) : Option Bytes :=
  let b := if d.op = 2 then fillBytes d (u * d.unitIn 0) (d.unitIn u) else page
  if d.zc = 1 then
    let c := zcPage (zcElem d.zcOre) b
    some (if d.dstRing.isSome then padTo (zcSlot d.zcOre) c else c)
  else if d.zc = 2 then zcExpand d.zcOre (d.unitOut u / zcElem d.zcOre) b
  else if d.reshuf = 1 then some (d.split b)
  else if d.reshuf = 2 then some (d.merge b)
  else some (d.weave b)

/-- The ring whose skips cut the transfer and its auxiliary plane: is it the source's, its skip size, and the stream's data bytes. -/
def State.cutter (s : State) (p : Nat) (d : Desc) : Option (Bool × Nat × Nat) :=
  if d.auxLen = 0 then none
  else (s.skipCut p d).map (fun n => if d.srcRing.isSome ∧ d.op ≠ 2 then (true, n, d.streamIn) else (false, n, d.streamOut))

/-- What stands next in the stream of the ring that cuts the transfer: the plane's turn, and the bytes that follow of the kind. -/
def State.stagedPart (s : State) (p : Nat) (g : Engine) (d : Desc) : Option (Bool × Bool × Nat) :=
  (s.cutter p d).map (fun c =>
    let at' := if c.1 then g.unit * d.unitIn 0 + g.page.length else g.unit * d.unitOut 0 + g.sub
    let w := streamPart c.2.2 d.auxLen (some c.2.1) (at' + g.auxPos)
    (c.1, w.1, w.2.2))

/-- Is the next transaction the auxiliary plane's, and of how many bytes at most? -/
def State.auxTurn (s : State) (p : Nat) (g : Engine) (d : Desc) : Option Nat :=
  match s.stagedPart p g d with
  | some (side, aux, left) =>
    if d.units ≤ g.unit ∨ (aux = true ∧ (side = false ∨ d.wants g.unit g.page ≠ 0)) then some (min left (d.auxLen - g.auxPos)) else none
  | none => if d.units ≤ g.unit then some (d.auxLen - g.auxPos) else none

/-- How many bytes of data the ring's skip lets follow on one side. -/
def State.sideLeft (s : State) (p : Nat) (g : Engine) (d : Desc) (side : Bool) (n : Nat) : Nat :=
  match s.stagedPart p g d with
  | some (k, _, left) => if k == side then min n left else n
  | none => n

/-- The engines of a level with a descriptor at their heads: face, engine, and the descriptor. -/
def State.heads (s : State) (l : Nat) : List (Nat × Nat × Desc) :=
  (s.faces.filter (fun e => levelOf e.1 == l)).flatMap (fun e => (List.range 6).filterMap (fun k =>
    ((e.2.engines.getD k {}).queue.head?).map (fun q => (e.1, k, parseDesc q.bytes))))

/-- The engines that fill ring r of face p, of any face of its level (R284): face and engine. -/
def State.fillers (s : State) (p r : Nat) : List (Nat × Nat) :=
  ((s.heads (levelOf p)).filter (fun h => decide (h.2.2.dstRing = some r) && s.ringFace h.1 h.2.2 == p)).map (fun h => (h.1, h.2.1))

/-- A malformed page (R189): the stage and the stream that feeds it stop, and ZC_FORMAT is raised. -/
def State.zcFault (s : State) (p e : Nat) (page : Nat) : State :=
  let g := s.engine p e
  let owner := g.queue.head?.map (fun q => q.work.ctx)
  let srcRing := (g.queue.head?.map (fun q => (parseDesc q.bytes).srcRing)).getD none
  let s1 := s.setEngine p e { g with stopped := true, status := 2 }
  let s2 := match srcRing with
    | some r => s1.each (s1.fillers p r) (fun s k => s.setEngine k.1 k.2 { s.engine k.1 k.2 with stopped := true, status := 2 })
    | none => s1
  (s2.setFace p { s2.face p with stageStop := true }).raise 0x11 1 0 (levelOf p) p owner page e

/-- Where the next bytes of a unit are read: (address, bytes that lie together). -/
def State.takeLoc (s : State) (p : Nat) (g : Engine) (d : Desc) : Except NoPiece (Nat × Nat) :=
  match d.srcRing with
  | some r =>
    match (s.ring p r).headSkip with
    | none => .error .ring
    | some k => if k.bytes ≤ g.drain then .error .ring else .ok (s.bufferAt p r k.place + g.drain, k.bytes - g.drain)
  | none =>
    let t := d.inRun g.unit g.page.length
    match s.translate d.srcLog t.1 with
    | none => .error (.bad 0 t.1)
    | some a => .ok (a, t.2)

/-- Where the next bytes of a unit's result are written. -/
def State.putLoc (s : State) (p : Nat) (g : Engine) (d : Desc) : Except NoPiece (Nat × Nat) :=
  match d.dstRing with
  | some r => s.fillLoc p r g d
  | none =>
    let t := d.outRun g.unit g.sub
    match s.translate d.dstLog t.1 with
    | none => .error (.bad 1 t.1)
    | some a => .ok (a, t.2)

/-- Does an access to address a cross face p's mesh port (R280)? -/
def crosses (p a : Nat) : Bool := !(inStore a && storeOf a == p)

/-- Was the unit's input charged already, read through the port (log entry 19)? -/
def State.chargedIn (s : State) (p : Nat) (g : Engine) (d : Desc) : Bool :=
  d.op != 2 && d.srcRing.isNone && ((s.translate d.srcLog (d.inRun g.unit 0).1).map (crosses p)).getD false

/-- One transaction that takes in bytes of a unit (R30, R279). -/
def State.takeStaged (s : State) (p e : Nat) (g : Engine) (d : Desc) : State :=
  match s.takeLoc p g d with
  | .error .ring => s.waitRing p e g d
  | .error (.bad k a) => s.engineError p e g 1 a (some k)
  | .ok t =>
    let n := s.sideLeft p g d true (min (min t.2 (d.wants g.unit g.page)) (granLeft t.1))
    let cost := if s.chargedIn p g d then n else 0
    if d.rateEn && decide (g.credit < 256 * cost) then s.setEngine p e { g with waiting := 3 }
    else
      let q := s.busTake [(t.1, n)]
      s.whenReads p e g [(t.1, n)] (s.settle q.2 p e { g with page := g.page ++ q.1 } d cost 0 (ifRing d.srcRing n) 0)

/-- The engine with n more bytes of its unit's result of so many written. -/
def Engine.wrote (g : Engine) (n total : Nat) : Engine :=
  if total ≤ g.sub + n then { g with unit := g.unit + 1, page := [], sub := 0 } else { g with sub := g.sub + n }

/-- The bytes to the end of the run of 64 elements that byte o of a page's dense bytes stands in, and whether all of the run is absent:
every code the all-zero code (R187). -/
def zcRunAt (ore : Bool) (out : Bytes) (o : Nat) : Nat × Bool :=
  let r := 64 * zcElem ore
  let b := sub out (o / r * r) r
  (b.length - o % r, b.all (fun x => x == 0))

/-- One transaction that writes bytes of a unit's result; an all-absent run of a page read is marked in a face's store, not written (R188). -/
def State.putStaged (s : State) (p e : Nat) (g : Engine) (d : Desc) (out : Bytes) : State :=
  match s.putLoc p g d with
  | .error .ring => s.waitRing p e g d
  | .error (.bad k a) => s.engineError p e g 1 a (some k)
  | .ok t =>
    let z := if d.zc = 2 then zcRunAt d.zcOre out g.sub else (out.length - g.sub, false)
    let m := s.sideLeft p g d false (min z.1 t.2)
    if z.2 && inStore t.1 && !s.discarded d.dstLog t.1 && (s.accessError t.1 m true).isNone then
      s.settle (s.tile t.1 m) p e (g.wrote m out.length) d 0 0 0 (ifRing d.dstRing m)
    else
      let n := min m (granLeft t.1)
      let cost := if s.chargedIn p g d && !crosses p t.1 then 0 else n
      if d.rateEn && decide (g.credit < 256 * cost) then s.setEngine p e { g with waiting := 3 }
      else if s.discarded d.dstLog t.1 then s.engineError p e g 2 t.1 none
      else match s.accessError t.1 n true with
        | some k => s.engineError p e g 1 t.1 (some k)
        | none => s.settle (s.busWrite t.1 (sub out g.sub n)) p e (g.wrote n out.length) d cost n 0 (ifRing d.dstRing n)

/-- One transaction of a transfer by units. -/
def State.issueStaged (s : State) (p e : Nat) (g : Engine) (d : Desc) : State :=
  match s.auxTurn p g d with
  | some left =>
    match s.auxPiece p g d g.auxPos left with
    | .error .ring => s.waitRing p e g d
    | .error (.bad k a) => s.engineError p e g 1 a (some k)
    | .ok q => s.issuePiece p e g d q
  | none =>
    if d.wants g.unit g.page ≠ 0 then s.takeStaged p e g d
    else match d.result g.unit g.page with
      | none => s.zcFault p e g.unit
      | some out => s.putStaged p e g d out

/-- Has the engine moved all of a descriptor, its auxiliary plane included? An empty transfer has at once (R276). -/
def Engine.finished (g : Engine) (d : Desc) : Bool :=
  d.count == 0 || (if d.staged then decide (d.units ≤ g.unit) && decide (d.auxLen ≤ g.auxPos) else decide (d.count + d.auxLen ≤ g.pos))

/-- Does a TRAM descriptor of face p inject: its SRC lies in the face's own store (log entry 12)? -/
def tramInjects (p : Nat) (d : Desc) : Bool :=
  decide (storeBase p ≤ d.src) && decide (d.src < storeBase p + storeBytes)

/-- The engine after a transaction that read b of the chunk it sends; the chunk's injection begins with the first (R293). -/
def Engine.sent (g : Engine) (d : Desc) (now : Nat) (b : Bytes) : Engine :=
  { g.moved d b.length b.length 0 0 with page := g.page ++ b, sentAt := if g.pos = 0 then now else g.sentAt }

/-- The chunk a mover of face p has read whole goes upward (R293): DUE_BY is the injection time plus BUDGET. -/
def State.sendChunk (s : State) (p e : Nat) (g : Engine) (q : QueuedDesc) (rest : List QueuedDesc) : State :=
  let d := parseDesc q.bytes
  let c : TramChunk := { home := p, layer := q.layer, chunk := d.param, dueBy := g.sentAt + d.budget, data := g.page, key := g.key }
  let s1 : State := { s with trams := s.trams ++ [c] }
  (s1.setEngine p e { g with queue := { q with stored := true } :: rest, page := [] }).bumpReg (drfReg (levelOf p) (driftOf p) 0x100) 1

/-- One transaction of the injection of a chunk, where the rate credit and the access allow it (R279, R287, R293). -/
def State.inject (s : State) (p e : Nat) (g : Engine) (q : QueuedDesc) (rest : List QueuedDesc) : State :=
  let d := parseDesc q.bytes
  let a := d.src + g.pos
  let n := min (d.count - g.pos) (granLeft a)
  if d.rateEn && decide (g.credit < 256 * n) then s.setEngine p e { g with waiting := 3 }
  else
    let g1 := g.sent d s.now (s.memBytes a n)
    let s1 := s.bumpReg (fceReg p (0x404 + 16 * e)) n
    s.whenReads p e g [(a, n)] (if d.count ≤ g1.pos then s1.sendChunk p e g1 q rest else s1.setEngine p e g1)

/-- May engines of a face issue at a time: 16 NOC cycles have not passed since one met a bus error (R287, R32)? -/
def Face.mayIssue (f : Face) (now : Nat) : Bool := f.engines.all (fun g => g.err.isNone || decide (now < g.errAt + 8))

/-- One transaction of engine e of face p, where its head descriptor has bytes left and it is its owner's turn (R257, R275 to R279). -/
def State.issue (s : State) (p e : Nat) : State :=
  let g0 := s.engine p e
  match g0.queue with
  | [] => s
  | q :: rest =>
    let d := parseDesc q.bytes
    let g := { g0.accrue s.now (if d.rateEn then d.share else 0) with key := s.transferKey p q }
    if !s.faceUp p || g0.stopped || g0.err.isSome || !(s.face p).mayIssue s.now || !s.itsTurn p q.work.ctx q.seq then s
    else if d.op = 3 then
      if q.stored || !tramInjects p d || d.count == 0 then s else (s.atItem p q.work).inject p e g q rest
    else if g0.finished d then s
    else if d.staged then (s.atItem p q.work).issueStaged p e g d
    else (s.atItem p q.work).issueDense p e g d

/-- The descriptor at a face store offset, queued on an engine; beyond eight it waits its turn to be outstanding (R21). The spec does not
say when the 64 bytes of one that waits are fetched: they are read as its command acts (DESIGN CHOICE, log entry 97). -/
def State.queueDesc (s : State) (p e offset layer : Nat) (work : Work) : State :=
  let g := s.engine p e
  let b := s.readMem (storeBase p + offset) 64
  let q : QueuedDesc := { offset, bytes := b, work, layer, stored := false, seq := (s.face p).workSeq }
  let s1 := s.setEngine p e { g with queue := g.queue ++ [q] }
  s1.setFace p { s1.face p with gated := false, lastWork := s.now, workSeq := (s.face p).workSeq + 1 }

/-- The faces whose stores face p's movers reach: its own and its two ring neighbours' (R23, R277). -/
def moverReach (p : Nat) : List Nat :=
  [p, physFace (levelOf p) (driftOf p) ((posOf p + 1) % 17), physFace (levelOf p) (driftOf p) ((posOf p + 16) % 17)]

/-- Does a mover's SRC or DST lie where it may (R277)? A FILL's SRC is its pattern; of a side that a ring serves the field addresses no
byte, but names the ring's face where it lies in a store, and must then name one the mover reaches (log entries 19 and 88). -/
def State.moverOk (s : State) (p e : Nat) (d : Desc) : Bool :=
  let near := fun (log : Bool) (a : Nat) => (s.translate log a).any (fun b => inStore b && (moverReach p).contains (storeOf b))
  let ringNear := fun (log : Bool) (a : Nat) => (s.translate log a).any (fun b => !inStore b || (moverReach p).contains (storeOf b))
  decide (e < 4) || ((d.op == 2 || (if d.srcRing.isSome then ringNear d.srcLog d.src else near d.srcLog d.src)) &&
    (if d.dstRing.isSome then ringNear d.dstLog d.dst else near d.dstLog d.dst))

/-- May engine e of face p take a descriptor of operation op at this offset? -/
def State.canQueue (s : State) (p e offset op : Nat) (work : Work) : Bool :=
  let b := s.readMem (storeBase p + offset) 64
  faceWf p && s.faceRuns p && !s.faceHeld p && s.workOpen work && decide (e < 6) && decide (offset + 64 ≤ storeBytes) &&
    offset % 64 == 0 && (parseDesc b).op == op && descOk b e && s.moverOk p e (parseDesc b)

/-- HOIST_COPY (R274): an engine takes a COPY descriptor. -/
def execHoistCopy (p engine offset : Nat) (work : Work) (s : State) : Host.Outcome State Fault Refusal :=
  when (s.canQueue p engine offset 1 work) s (s.queueDesc p engine offset 0 work)

/-- HOIST_FILL (R274): an engine takes a FILL descriptor. -/
def execHoistFill (p engine offset : Nat) (work : Work) (s : State) : Host.Outcome State Fault Refusal :=
  when (s.canQueue p engine offset 2 work) s (s.queueDesc p engine offset 0 work)

/-- Completion counter c of face p, one more. -/
def State.bumpCtr (s : State) (p c : Nat) : State :=
  let f := s.face p
  s.setFace p { f with counters := f.counters.set c ((f.counters.getD c 0 + 1) % 2 ^ 32) }

/-- The engine at the start of its head descriptor. -/
def Engine.rewind (g : Engine) : Engine :=
  { g with pos := 0, fill := 0, drain := 0, handed := 0, unit := 0, page := [], sub := 0, auxPos := 0, waiting := 0 }

/-- The head descriptor ended with a status, the next one at its start. -/
def Engine.next (g : Engine) (status : Nat) : Engine := { g.rewind with queue := g.queue.drop 1, status := status }

/-- Has the head descriptor done everything it moves, every skip it filled handed on and every skip it drained released (R29, R276, R283,
R293)? -/
def State.headDone (s : State) (p e : Nat) : Bool :=
  let g := s.engine p e
  match g.queue with
  | [] => false
  | q :: _ =>
    let d := parseDesc q.bytes
    if d.op = 3 then q.stored || d.count == 0 else g.finished d && g.fill == 0 && g.drain == 0

/-- A fused command ends: its counter advances (R289). -/
def State.endFused (s : State) (p : Nat) (c : Fused) : State :=
  ((s.setFace p { s.face p with fused := none }).bumpCtr p (fusedCtr c.bytes)).endItem p c.offset

/-- A fused command whose last step is this engine's descriptor and takes from no ring completes with it (R289). -/
def State.fusedByEngine (s : State) (p e offset : Nat) : State :=
  match (s.face p).fused with
  | none => s
  | some c =>
    match (fusedList c.bytes).getLast? with
    | some st => if st.engine = e ∧ st.inRing = none ∧ st.ptr = offset then s.endFused p c else s
    | none => s

/-- DESCRIPTOR_COMPLETE (R29): the head descriptor's completion, its counter advanced. -/
def execDescriptorComplete (p engine : Nat) (s : State) : Host.Outcome State Fault Refusal :=
  let g := s.engine p engine
  when (faceWf p && decide (engine < 6) && s.faceRuns p && !g.stopped && s.headDone p engine) s
    (let ctr := (g.queue.head?.map (fun q => (parseDesc q.bytes).ctr)).getD 0
     let off := (g.queue.head?.map (fun q => q.offset)).getD 0
     let s1 := (s.setEngine p engine (g.next 0)).bumpCtr p ctr
     ((s1.setFace p { s1.face p with lastWork := s.now }).fusedByEngine p engine off).endItem p off)

/-- Every other engine of the face stopped on an owner's work, STOPPED on the descriptors at their heads; compute stages stopped too
(R287). -/
def State.stopFace (s : State) (p : Nat) (owner : Option Ctx) : State :=
  let f := s.face p
  let stop := fun (g : Engine) =>
    { g with stopped := true, status := if g.err.isSome then 1 else if g.queue.isEmpty then g.status else 2 }
  s.setFace p { f with stopped := true, stageStop := true, stopWork := owner, engines := f.engines.map stop }

/-- The class of HOIST_BUS by KIND (R343): 0 for a discarded write, 4 for an error response, 1 for an uncorrectable read
that a hoist meets (R337). -/
def busClass (kind : Nat) : Nat := if kind = 2 then 0 else if kind = 1 then 4 else 1

/-- The record of the bus error an engine of face p has met, filled or counted as missed, and HOIST_BUS (R287, R297). -/
def State.noteBus (s : State) (p e : Nat) : State :=
  let g := s.engine p e
  let er := g.err.getD (1, 0)
  let q := g.queue.head?
  let owner := q.map (fun q => q.work.ctx)
  let off := (q.map (fun q => q.offset)).getD 0
  let w0 := e + er.1 * 16 + 2 ^ 31
  let w3 := match owner with
    | some (.session i) => i % 2 ^ 20
    | some (.job _) => 2 ^ 20
    | none => 0
  let s1 := if s.field (fceReg p 0x500) 31 1 = 1 then s.bumpReg (fceReg p 0x510) 1
    else (((s.setRegNat (fceReg p 0x500) w0).setRegNat (fceReg p 0x504) er.2).setRegNat (fceReg p 0x508)
      (er.2 / 2 ^ 32 % 2 ^ 16 + off / 64 % 2 ^ 15 * 2 ^ 16)).setRegNat (fceReg p 0x50C) w3
  s1.raise 0x16 (busClass er.1) 0 (levelOf p) p owner w0 er.2

/-- The engines of face p that have met a bus error, in the order they met it; of one time the lower engine number first (R287). -/
def State.erring (s : State) (p : Nat) : List Nat :=
  let late := fun (a b : Nat) => decide ((s.engine p b).errAt < (s.engine p a).errAt)
  ((List.range 6).filter (fun e => (s.engine p e).err.isSome)).foldl (fun l e => l.filter (fun k => !late k e) ++ e :: l.filter (fun k => late k e)) []

/-- BUS_ERROR (R287): the face stops on the work of the engine that erred first, and each error is recorded or counted in turn. -/
def State.busError (s : State) (p : Nat) : State :=
  match s.erring p with
  | [] => s
  | e :: l => (s.stopFace p ((s.engine p e).queue.head?.map (fun q => q.work.ctx))).each (e :: l) (fun s k => s.noteBus p k)

/-- BUS_ERROR: takes place while an engine of a running face holds an error. -/
def execBusError (p engine : Nat) (s : State) : Host.Outcome State Fault Refusal :=
  when (faceWf p && s.faceUp p && (s.engine p engine).err.isSome) s (s.busError p)

end Sys2Proof.Machine
end

