-- ==== Sys2Proof/Machine/Compressor.lean ====
section
/-! DEFINITION. The block compressor (R300 to R321): block and segment codes, jobs, stop and resume. -/

namespace Sys2Proof.Machine

open Sys2Proof

/-! Blocks. -/

/-- Input bytes of a block (R300). -/
def blkBytes : Nat := 768

/-- b of a fixed-ratio mode (R301). -/
def blkB (mode : Nat) : Nat := if mode = 1 then 7 else if mode = 2 then 4 else 3

/-- Block bytes of a fixed-ratio mode (R301). -/
def blkLen (mode : Nat) : Nat := if mode = 1 then 384 else if mode = 2 then 256 else 192

/-- The 16-bit little-endian words of a byte string. -/
def halves (b : Bytes) : List Nat := (chunks 2 b).map leNat

/-- The bytes of 16-bit words. -/
def ofHalves (l : List Nat) : Bytes := l.flatMap (natLe 2)

/-- q × 2^e as FP16: a magnitude above 65,504 becomes ±65,504, a zero result is +0 (R304). -/
def blkRecon (q e : Int) : Nat :=
  let c := (roundFin .fp16 (decide (q < 0)) q.natAbs e).1
  if bits c 0 15 = 0 then 0 else if 0x7C00 ≤ bits c 0 15 then bits c 15 1 * 0x8000 + 0x7BFF else c

/-- A coded sub-block: exponent byte, value fields, canonical reconstruction, and whether step 1 of R303 stored it. -/
structure SubBlock where
  expByte : Nat
  fields  : List Nat
  recon   : List Nat
  nonfin  : Bool
  deriving DecidableEq, Repr

/-- A finite FP16 magnitude in units of 2^−29. -/
def fineUnits : Num → Nat
  | .fin _ m e => m * 2 ^ (e + 29).toNat
  | .inf _ => 0
  | .nan _ _ => 0

/-- x × 2^−e rounded to the nearest integer, ties to even. -/
def scaledInt (x : Num) (e : Int) : Int :=
  match x with
  | .fin n m ex => if n then -((roundQ m ex e).1 : Int) else (roundQ m ex e).1
  | .inf _ => 0
  | .nan _ _ => 0

/-- One sub-block of 16 FP16 codes coded with b bits (R303). -/
def codeSub (b : Nat) (codes : List Nat) : SubBlock :=
  let xs := codes.map ofFp16
  let q := 2 ^ (b - 1) - 1
  if xs.any (fun x => x.isNan || x.isInf) then
    { expByte := 0x80, fields := codes.map (fun _ => 0), recon := codes.map (fun _ => 0x7E00), nonfin := true }
  else
    let top := (xs.map fineUnits).foldl max 0
    if top = 0 then { expByte := 0, fields := codes.map (fun _ => 0), recon := codes.map (fun _ => 0), nonfin := false }
    else
      let e : Int := (((List.range 46).find? (fun i => decide (top ≤ q * 2 ^ i))).getD 45 : Int) - 29
      let qs := xs.map (fun x => scaledInt x e)
      { expByte := codeOf 8 e, fields := qs.map (codeOf b), recon := qs.map (fun v => blkRecon v e), nonfin := false }

/-- A coded block: its bytes, its canonical reconstruction as 768 bytes, sub-blocks of step 1, and whether it is raw. -/
structure CodedBlock where
  bytes  : Bytes
  recon  : Bytes
  nonfin : Nat
  raw    : Bool
  deriving DecidableEq, Repr

/-- CHECK of R307. -/
def blkCheck (mode format index segNum : Nat) (recon : Bytes) : Bytes :=
  (sha3 (natLe 1 mode ++ natLe 1 format ++ natLe 1 index ++ natLe 1 0 ++ natLe 4 segNum ++ recon)).take 4

/-- The header of R302. -/
def blkHeader (check : Bytes) (kind len : Nat) : Bytes := check ++ natLe 1 kind ++ natLe 1 0 ++ natLe 2 len

/-- A fixed-ratio block of 768 bytes (R301, R303, R307). -/
def codeFixed (mode index segNum : Nat) (b : Bytes) : CodedBlock :=
  let subs := (chunks 16 (halves b)).map (codeSub (blkB mode))
  let recon := ofHalves (subs.flatMap (fun x => x.recon))
  let vals := packBits (subs.flatMap (fun x => x.fields.map (fun f => (f, blkB mode))))
  let body := subs.flatMap (fun x => natLe 1 x.expByte) ++ natLe (48 * blkB mode) vals
  { bytes := padTo (blkLen mode) (blkHeader (blkCheck mode 0 index segNum recon) mode (blkLen mode) ++ body),
    recon := recon, nonfin := subs.countP (fun x => x.nonfin), raw := false }

/-- z of R306 for the difference d. -/
def zig (d : Nat) : Nat := if d < 0x8000 then 2 * d else (0xFFFF - d) * 2 + 1

/-- The difference of z. -/
def unzig (z : Nat) : Nat := if z % 2 = 0 then z / 2 else 0xFFFF - z / 2

/-- z[0 ..] of the words, from history h (R306). -/
def zigAll : Nat → List Nat → List Nat
  | _, [] => []
  | h, w :: r => zig ((w + 0x10000 - h) % 0x10000) :: zigAll w r

/-- The words of z[0 ..], from history h. -/
def unzigAll : Nat → List Nat → List Nat
  | _, [] => []
  | h, z :: r =>
    let w := (h + unzig z) % 0x10000
    w :: unzigAll w r

/-- The bit length of a number. -/
def bitLen (v : Nat) : Nat := if v = 0 then 0 else v.log2 + 1

/-- The coded length the widths imply (R306). -/
def codedLen (ws : List Nat) : Nat := roundUp (8 + (120 + 16 * ws.foldl (· + ·) 0 + 7) / 8) 8

/-- A lossless block from history h (R306, R307). -/
def codeLossless (format index segNum h : Nat) (b : Bytes) : CodedBlock :=
  let zs := chunks 16 (zigAll h (halves b))
  let ws := zs.map (fun z => bitLen (z.foldl max 0))
  let len := codedLen ws
  let check := blkCheck 4 format index segNum b
  if len ≤ 776 then
    let fields := ws.map (fun w => (w, 5)) ++ (zs.zip ws).flatMap (fun q => q.1.map (fun z => (z, q.2)))
    { bytes := blkHeader check 4 len ++ natLe (len - 8) (packBits fields), recon := b, nonfin := 0, raw := false }
  else { bytes := blkHeader check 5 776 ++ b, recon := b, nonfin := 0, raw := true }

/-! Segments. -/

/-- A segment built by COMPRESS: its bytes, input bytes, sub-blocks of step 1, raw blocks, blocks. -/
structure Segment where
  bytes  : Bytes
  input  : Nat
  nonfin : Nat
  raws   : Nat
  blocks : Nat
  deriving DecidableEq, Repr

/-- The last 16-bit word of a byte string. -/
def lastWord (b : Bytes) : Nat := (halves b).getLastD 0

/-- The blocks of a segment coded in order: index, history. -/
def codeBlocks (mode format segNum : Nat) : Nat → Nat → List Bytes → List CodedBlock
  | _, _, [] => []
  | i, h, b :: r =>
    (if mode = 4 then codeLossless format i segNum h b else codeFixed mode i segNum b) ::
      codeBlocks mode format segNum (i + 1) (lastWord b) r

/-- The segment header of R308. -/
def segHeader (mode format blocks lastBytes units segNum : Nat) : Bytes :=
  let h := natLe 1 mode ++ natLe 1 format ++ natLe 1 blocks ++ natLe 1 0 ++ natLe 2 lastBytes ++ natLe 2 units ++
    natLe 4 segNum
  h ++ natLe 4 (crc32c h)

/-- A segment of its input bytes (R300, R308). -/
def codeSegment (mode format segNum : Nat) (input : Bytes) : Segment :=
  let bs := (chunks blkBytes input).map (padTo blkBytes)
  let cs := codeBlocks mode format segNum 0 0 bs
  let body := cs.flatMap (fun c => c.bytes)
  let len := roundUp (16 + body.length) 64
  let lastB := input.length - (bs.length - 1) * blkBytes
  { bytes := padTo len (segHeader mode format bs.length lastB (len / 64) segNum ++ body), input := input.length,
    nonfin := cs.foldl (fun n c => n + c.nonfin) 0, raws := cs.countP (fun c => c.raw), blocks := bs.length }

/-- A ROLE 4 tensor as the reference state holds it: the canonical reconstruction of R303 and R304 where the package holds it
fixed-ratio (R305). -/
def heldTensor (k : ModelPkg) (n : Nat) (t : Tensor) : Tensor :=
  let mode := (k.tensors.getD n {}).hold
  if mode = 0 then t
  else
    let bs := (chunks blkBytes (ofHalves t.data)).map (fun b => (codeFixed mode 0 0 (padTo blkBytes b)).recon)
    { t with data := (halves (bs.flatMap (fun b => b))).take t.data.length }

/-! Decoding. -/

/-- A decoded fixed-ratio sub-block, or none where reason 5 holds (R304, R316). -/
def decodeSub (b e : Nat) (fields : List Nat) : Option (List Nat) :=
  let k := signedOf 8 e
  if fields.contains (2 ^ (b - 1)) then none
  else if e = 0x80 then (if fields.all (fun f => f == 0) then some (fields.map (fun _ => 0x7E00)) else none)
  else if k < -29 ∨ 15 < k then none
  else some (fields.map (fun f => blkRecon (signedOf b f) k))

/-- The sub-blocks of a fixed-ratio block decoded. -/
def decodeSubs (b : Nat) : List Nat → List (List Nat) → Option (List Nat)
  | [], _ => some []
  | _ :: _, [] => some []
  | e :: es, f :: fs =>
    match decodeSub b e f, decodeSubs b es fs with
    | some x, some y => some (x ++ y)
    | none, _ => none
    | some _, none => none

/-- Fields of the given widths read from a number, least significant bit first. -/
def unpackBits (v : Nat) : List Nat → List Nat
  | [] => []
  | w :: r => v % 2 ^ w :: unpackBits (v / 2 ^ w) r

/-- A fixed-ratio block's reconstruction, or the reason it fails (R316). -/
def decodeFixed (mode : Nat) (b : Bytes) : Except Nat Bytes :=
  let w := blkB mode
  let exps := (sub b 8 24).map (fun x => x.toNat)
  let vals := unpackBits (leNat (sub b 32 (48 * w))) (List.replicate 384 w)
  if (b.drop (32 + 48 * w)).any (fun x => x != 0) then .error 5
  else match decodeSubs w exps (chunks 16 vals) with
    | none => .error 5
    | some l => .ok (ofHalves l)

/-- A lossless coded block's 768 bytes from history h, or the reason it fails (R306, R316). -/
def decodeLossless (h : Nat) (b : Bytes) : Except Nat Bytes :=
  let v := leNat (b.drop 8)
  let ws := unpackBits v (List.replicate 24 5)
  let n := 120 + 16 * ws.foldl (· + ·) 0
  if ws.any (fun w => decide (16 < w)) then .error 6
  else if codedLen ws ≠ b.length ∨ v / 2 ^ n ≠ 0 then .error 6
  else .ok (ofHalves (unzigAll h (unpackBits (v / 2 ^ 120) (ws.flatMap (fun w => List.replicate 16 w)))))

/-- One block at the front of b: its length and 768 reconstructed bytes, or the reason it fails (R316). limit: bytes of
the segment that lie within its bounds. -/
def decodeBlock (mode format index segNum h : Nat) (b : Bytes) : Except Nat (Nat × Bytes) :=
  let kind := leAt b 4 1
  let len := leAt b 6 2
  let kindOk := if mode = 4 then kind == 4 || kind == 5 else kind == mode
  let lenOk := if kind = 4 then decide (24 ≤ len) && decide (len ≤ 776) && len % 8 == 0
    else if kind = 5 then len == 776 else len == blkLen mode
  if b.length < 8 then .error 8
  else if !(kindOk && lenOk && leAt b 5 1 == 0) then .error 4
  else if b.length < len then .error 8
  else
    let body := b.take len
    match (if kind = 4 then decodeLossless h body else if kind = 5 then .ok (body.drop 8) else decodeFixed mode body) with
    | .error r => .error r
    | .ok recon =>
      if blkCheck mode format index segNum recon ≠ body.take 4 then .error 7 else .ok (len, recon)

/-- n blocks of a segment decoded in order: the bytes they took and their reconstructions, or (reason, BAD_BLOCK, blocks verified
before). -/
def decodeBlocks (mode format segNum : Nat) : Nat → Nat → Nat → Bytes → Except (Nat × Nat × Nat) (Nat × Bytes)
  | 0, _, _, _ => .ok (0, [])
  | n + 1, i, h, b =>
    match decodeBlock mode format i segNum h b with
    | .error r => .error (r, if r = 8 then 0 else i, i)
    | .ok x =>
      match decodeBlocks mode format segNum n (i + 1) (lastWord x.2) (b.drop x.1) with
      | .error e => .error e
      | .ok y => .ok (x.1 + y.1, x.2 ++ y.2)

/-- A segment decoded (R316): its length and output bytes, or (reason, BAD_BLOCK, blocks verified). b: the bytes that lie within its bounds, as far as a
segment reaches; lastOf: whether a segment of so many bytes is the job's last. -/
def decodeSegment (mode format segBlocks segNum : Nat) (b : Bytes) (lastOf : Nat → Bool) : Except (Nat × Nat × Nat) (Nat × Bytes) :=
  let blocks := leAt b 2 1
  let lastB := leAt b 4 2
  let len := 64 * leAt b 6 2
  if b.length < 16 then .error (8, 0, 0)
  else if leAt b 12 4 ≠ crc32c (b.take 12) then .error (1, 0, 0)
  else if leAt b 0 1 ≠ mode ∨ leAt b 1 1 ≠ format ∨ leAt b 3 1 ≠ 0 ∨ blocks = 0 ∨ segBlocks < blocks ∨
      (blocks ≠ segBlocks ∧ lastOf len = false) ∨ lastB = 0 ∨ 768 < lastB then .error (2, 0, 0)
  else if leAt b 8 4 ≠ segNum then .error (3, 0, 0)
  else
    match decodeBlocks mode format segNum blocks 0 0 ((b.take len).drop 16) with
    | .error e => .error e
    | .ok x =>
      if b.length < len ∨ roundUp (16 + x.1) 64 ≠ len then .error (8, 0, blocks)
      else .ok (len, x.2.take ((blocks - 1) * blkBytes + lastB))

/-! Jobs. -/

/-- A compressor descriptor of R310. -/
structure BlkDesc where
  op        : Nat
  mode      : Nat
  format    : Nat
  resume    : Bool
  skip      : Bool
  indexEn   : Bool
  ctr       : Nat
  segBlocks : Nat
  owner     : Nat
  isJob     : Bool
  src       : Nat
  dst       : Nat
  srcBytes  : Nat
  limit     : Nat
  index     : Nat
  save      : Nat
  firstSeg  : Nat
  segCount  : Nat
  deriving DecidableEq, Repr

/-- The descriptor its 64 bytes hold. -/
def parseBlk (b : Bytes) : BlkDesc :=
  let w := leAt b 0 4
  let o := leAt b 4 4
  { op := bits w 0 2, mode := bits w 4 3, format := bits w 8 2, resume := bitAt w 10, skip := bitAt w 11,
    indexEn := bitAt w 12, ctr := bits w 16 4, segBlocks := bits w 20 7,
    owner := bits o 0 20, isJob := bitAt o 20, src := leAt b 8 6, dst := leAt b 16 6,
    srcBytes := bits (leAt b 0x18 8) 0 40, limit := bits (leAt b 0x20 8) 0 40, index := bits (leAt b 0x28 8) 0 48,
    save := bits (leAt b 0x30 8) 0 48, firstSeg := leAt b 0x38 4, segCount := leAt b 0x3C 4 }

/-- The rules of R310 a descriptor must keep; one that does not is refused. -/
def blkOk (b : Bytes) : Bool :=
  let d := parseBlk b
  let w := leAt b 0 4
  b.length == 64 && d.op != 0 && bits w 2 2 == 0 && bits w 7 1 == 0 && bits w 13 3 == 0 && bits w 27 5 == 0 &&
    decide (1 ≤ d.mode) && decide (d.mode ≤ 4) && (d.mode == 4 || d.format == 0) && decide (1 ≤ d.segBlocks) &&
    decide (d.segBlocks ≤ 64) && (!d.skip || (d.resume && d.op == 2)) && leAt b 0x0E 2 == 0 && leAt b 0x16 2 == 0 &&
    (d.op != 1 || d.dst % 64 == 0) && d.index % 8 == 0 && d.save % 32 == 0

/-- Is a decode read through the index? -/
def BlkDesc.indexed (d : BlkDesc) : Bool := d.indexEn && d.op != 1

/-- The event code of BLOCK_CORRUPT and of BLOCK_BUS (R343). -/
def evBlkCorrupt : Nat := 0x12
/-- BLOCK_BUS. -/
def evBlkBus : Nat := 0x17

/-- The state record of R314. -/
def blkRecord (j : BlkJob) (status reason badBlock : Nat) : Bytes :=
  natLe 4 (status + reason * 256) ++ natLe 4 j.nextSeg ++ natLe 8 (j.consumed % 2 ^ 40) ++
    natLe 8 (j.produced % 2 ^ 40) ++ natLe 4 badBlock ++ natLe 4 (min j.nonfinite 0xFFFFFFFF)

/-- The first error a run of accesses meets, 64 bytes at a time. -/
def State.rangeError (s : State) (a len : Nat) (write : Bool) : Option (Nat × Nat) :=
  ((List.range (if len = 0 then 0 else (a % 64 + len + 63) / 64)).map (fun i => a / 64 * 64 + 64 * i)).findSome? (fun g =>
    (s.accessError g 64 write).map (fun k => (g, k)))

/-- A job's completion counter advances, but on a face that has met a bus error (R287, R311). -/
def State.countBlk (s : State) (p c : Nat) : State :=
  if (s.face p).stopped || (s.face p).engines.any (fun g => g.err.isSome) then s else s.bumpCtr p c

/-- A job completes: its record first, then CTR (R311, R314); a record that cannot be written is a bus error of the job (R319). -/
def State.endBlk (s : State) (j : BlkJob) (status reason badBlock : Nat) : State :=
  let d := parseBlk j.desc
  let l := levelOf j.face
  let s1 := match s.rangeError d.save 32 true with
    | none => s.busWrite d.save (blkRecord j status reason badBlock)
    | some b => (s.addrError (some l) b.1 0x7FF b.2 (some j.ctx)).raise evBlkBus (busClass 1) 0 l j.face (some j.ctx) 1 b.1
  s1.countBlk j.face d.ctr

/-- A refused job: STATUS REFUSED, nothing else written (R319); a refused resume leaves its record (R315). -/
def State.refuseBlk (s : State) (j : BlkJob) : State :=
  let d := parseBlk j.desc
  let s1 := if (s.rangeError d.save 32 true).isNone && d.save % 32 == 0 then s.busWrite d.save (natLe 4 5) else s
  s1.countBlk j.face d.ctr

/-- A job ends on a bus error: STATUS BUS_ERROR and BLOCK_BUS (R319, R343). kind: 1 an error response, 3 a poisoned or
failing read. -/
def State.blkBus (s : State) (l : Nat) (j : BlkJob) (kind addr : Nat) : State :=
  (s.endBlk j 3 0 0).raise evBlkBus (busClass kind) 0 l j.face (some j.ctx) kind addr

/-- An access of a job meets an error response: recorded in the level's address error record (R41), and the job ends. -/
def State.blkMiss (s : State) (l : Nat) (j : BlkJob) (bad : Nat × Nat) : State :=
  (s.addrError (some l) bad.1 0x7FF bad.2 (some j.ctx)).blkBus l j 1 bad.1

/-- A job's read meets a poisoned granule: an uncorrectable read (R319, R337, R339). -/
def State.blkPoison (s : State) (l : Nat) (j : BlkJob) (a : Nat) : State :=
  (s.noteRead a j.face (some j.ctx)).blkBus l j 3 a

/-- What a job does where its reads of runs (address, bytes) meet neither an error response nor a poisoned granule (R319). -/
def State.blkReads (s : State) (l : Nat) (j : BlkJob) (runs : List (Nat × Nat)) (go : State) : State :=
  match runs.findSome? (fun r => s.rangeError r.1 r.2 false) with
  | some b => s.blkMiss l j b
  | none =>
    match s.poisonAt runs with
    | some a => s.blkPoison l j a
    | none => go

/-- A job with the counts of its record taken over (R315). -/
def State.blkResumed (s : State) (j : BlkJob) : BlkJob :=
  let d := parseBlk j.desc
  let r := s.busRead d.save 32
  if d.resume then { j with nextSeg := leAt r 4 4, consumed := leAt r 8 5, produced := leAt r 16 5, nonfinite := leAt r 28 4 }
  else { j with nextSeg := d.firstSeg }

/-- Does a resume carry what the job began with (R315)? Where the part holds no beginning, nothing differs. -/
def State.blkSame (s : State) (d : BlkDesc) : Bool :=
  match s.blkFirst.find? (fun e => e.1 == d.save) with
  | none => true
  | some e =>
    let o := parseBlk e.2
    o.op == d.op && o.mode == d.mode && o.format == d.format && o.segBlocks == d.segBlocks && o.src == d.src &&
      o.firstSeg == d.firstSeg

/-- Segments an indexed job has still to read. -/
def blkSegsLeft (d : BlkDesc) (j : BlkJob) : Nat := d.segCount - (j.nextSeg + 2 ^ 32 - d.firstSeg) % 2 ^ 32

/-- Has the job input left? -/
def blkWork (d : BlkDesc) (j : BlkJob) : Bool :=
  if d.indexed then decide (0 < blkSegsLeft d j) else decide (j.consumed < d.srcBytes)

/-- The address of the index entry of a segment. -/
def BlkDesc.entryAt (d : BlkDesc) (seg : Nat) : Nat := d.index + 8 * ((seg + 2 ^ 32 - d.firstSeg) % 2 ^ 32)

/-- The index entry of a segment: address and length in bytes. -/
def State.blkEntry (s : State) (d : BlkDesc) (seg : Nat) : Nat × Nat :=
  let e := leNat (s.busRead (d.entryAt seg) 8)
  (bits e 0 48, 64 * bits e 48 16)

/-- The fixed-ratio stride of R308. -/
def blkStride (d : BlkDesc) : Nat := 64 * ((16 + d.segBlocks * blkLen d.mode + 63) / 64)

/-- SKIP of R318: the segment NEXT_SEG stepped over. -/
def State.blkSkip (s : State) (j : BlkJob) : State × BlkJob :=
  let d := parseBlk j.desc
  let n := min (d.segBlocks * blkBytes) d.limit
  let adv := if d.indexed then (s.blkEntry d j.nextSeg).2 else blkStride d
  (s.busWrite d.dst (zeros n),
   { j with produced := j.produced + n, outHere := n, consumed := j.consumed + adv, nextSeg := (j.nextSeg + 1) % 2 ^ 32 })

/-- The unit u of level l set. -/
def State.setUnit (s : State) (l u : Nat) (j : Option BlkJob) : State :=
  s.setLevel l { s.level l with blkUnits := (s.level l).blkUnits.set u j }

/-- A job ends CORRUPT (R316, R317, R321, R343). -/
def State.blkCorrupt (s : State) (l : Nat) (j : BlkJob) (reason badBlock : Nat) : State :=
  ((s.endBlk j 2 reason badBlock).bumpReg (lvlReg l 0x710) 1).raise evBlkCorrupt 1 0 l j.face (some j.ctx) reason j.nextSeg

/-- A job's descriptor noted as the one it began with, where it begins it (R315). -/
def State.noteFirst (s : State) (j : BlkJob) : State :=
  let d := parseBlk j.desc
  if d.resume then s else { s with blkFirst := spSet s.blkFirst d.save j.desc }

/-- The job stands at its first segment: the completions of R312, else it waits for its segments. -/
def State.startBlk (s : State) (l u : Nat) (j : BlkJob) : State :=
  let d := parseBlk j.desc
  if d.op != 1 && !d.indexed && decide (d.srcBytes < 16) then s.blkCorrupt l j 8 0
  else if !blkWork d j then s.endBlk j 0 0 0
  else if d.limit = 0 then (s.endBlk j 1 0 0).bumpReg (lvlReg l 0x70C) 1
  else s.setUnit l u (some j)

/-- A resume that steps over a segment first (R318). -/
def State.skipBlk (s : State) (l u : Nat) (j : BlkJob) : State :=
  let d := parseBlk j.desc
  match s.rangeError d.dst (min (d.segBlocks * blkBytes) d.limit) true with
  | some b => s.blkMiss l j b
  | none => s.blkReads l j (if d.indexed then [(d.entryAt j.nextSeg, 8)] else []) ((s.blkSkip j).1.startBlk l u (s.blkSkip j).2)

/-- A job begins on unit u: the completions R312, R315, R318 and R319 give at once, else it waits for its segments. -/
def State.beginBlk (s : State) (l u : Nat) (j0 : BlkJob) : State :=
  let d := parseBlk j0.desc
  let old := bits (leAt (s.busRead d.save 4) 0 4) 0 4
  let j1 := s.blkResumed j0
  if !blkOk j0.desc then s.refuseBlk j0
  else s.blkReads l j0 (if d.resume then [(d.save, 32)] else [])
    (if d.resume && (old == 0 || old == 5 || !s.blkSame d) then s.countBlk j0.face d.ctr
     else if d.skip && d.mode == 4 && !d.indexed then s.refuseBlk j0
     else if d.skip then s.skipBlk l u j1
     else (s.noteFirst j0).startBlk l u j1)

/-- A descriptor queued on the face's level; beyond 64 the submitting face waits (R311). key: R285. -/
def State.queueBlk (s : State) (p offset : Nat) (work : Work) : State :=
  let l := levelOf p
  let v := s.level l
  let b := s.readMem (storeBase p + offset) 64
  let j : BlkJob := { face := p, ctx := work.ctx, desc := b, key := s.workKey work, seq := v.blkSeq }
  let s1 := s.setLevel l { v with blkQ := v.blkQ ++ [j], blkSeq := v.blkSeq + 1 }
  s1.setFace p { s1.face p with gated := false, lastWork := s.now }

/-- Does the descriptor name this owner (R310)? -/
def BlkDesc.names (d : BlkDesc) (c : Ctx) : Bool :=
  match c with
  | .session i => !d.isJob && d.owner == i
  | .job j => d.isJob && d.owner == j % 2 ^ 20

/-- May face p submit a compressor descriptor with this OP (R257, R310)? One of OP 0, which no row is for and the unit refuses, goes with any
(log entry 66). -/
def State.canBlk (s : State) (p offset op : Nat) (work : Work) : Bool :=
  faceWf p && s.faceRuns p && !s.faceHeld p && s.workOpen work && decide (offset + 64 ≤ storeBytes) && offset % 64 == 0 &&
    [op, 0].contains (parseBlk (s.readMem (storeBase p + offset) 64)).op && (parseBlk (s.readMem (storeBase p + offset) 64)).names work.ctx

/-- COMPRESS (R310, R311). -/
def execCompress (p offset : Nat) (work : Work) (s : State) : Host.Outcome State Fault Refusal :=
  when (s.canBlk p offset 1 work) s (s.queueBlk p offset work)

/-- DECOMPRESS (R310, R311). -/
def execDecompress (p offset : Nat) (work : Work) (s : State) : Host.Outcome State Fault Refusal :=
  when (s.canBlk p offset 2 work) s (s.queueBlk p offset work)

/-- VERIFY (R310, R311). -/
def execVerify (p offset : Nat) (work : Work) (s : State) : Host.Outcome State Fault Refusal :=
  when (s.canBlk p offset 3 work) s (s.queueBlk p offset work)

/-- Does job a go before job b (R285, R286)? -/
def blkFirstOf (a b : BlkJob) : Bool :=
  keyBefore a.key b.key || (!keyBefore b.key a.key && (decide (a.face < b.face) || (a.face == b.face && decide (a.seq < b.seq))))

/-- The queued job that goes first. -/
def blkHead : List BlkJob → Option BlkJob
  | [] => none
  | j :: r => some (r.foldl (fun b x => if blkFirstOf x b then x else b) j)

/-- The first free compressor unit of a level in service (R311, R368). -/
def State.freeBlkUnit (s : State) (l : Nat) : Option Nat :=
  (List.range 4).find? (fun u => ((s.level l).blkUnits.getD u none).isNone &&
    !s.boot.disabled.contains { kind := 4, index := 4 * l + u })

/-- A free unit takes, of the queue's 64, the job with the earliest key (R311). -/
def State.dispatchBlk (s : State) (level : Nat) : State :=
  let v := s.level level
  match blkHead (v.blkQ.take 64), s.freeBlkUnit level with
  | some j, some u => (s.setLevel level { v with blkQ := v.blkQ.erase j }).beginBlk level u j
  | none, _ => s
  | some _, none => s

/-- The job of unit u ends: the unit is free. -/
def State.freeUnit (s : State) (l u : Nat) : State := s.setUnit l u none

/-- A whole segment is done: the counts advance; the job ends where no input is left (R313). -/
def State.segDone (s : State) (l u : Nat) (j : BlkJob) : State :=
  if blkWork (parseBlk j.desc) j then s.setUnit l u (some j) else (s.freeUnit l u).endBlk j 0 0 0

/-- The job stops OUT_FULL (R313). -/
def State.outFull (s : State) (l u : Nat) (j : BlkJob) : State :=
  ((s.freeUnit l u).endBlk j 1 0 0).bumpReg (lvlReg l 0x70C) 1

/-- One segment of a COMPRESS job (R308, R309, R313). -/
def State.compressSeg (s : State) (l u : Nat) (j : BlkJob) : State :=
  let d := parseBlk j.desc
  let a := d.src + j.consumed
  let n := min (d.segBlocks * blkBytes) (d.srcBytes - j.consumed)
  let g := codeSegment d.mode d.format j.nextSeg (s.busRead a n)
  let s1 := (s.bumpReg (lvlReg l 0x704) g.blocks).bumpReg (lvlReg l 0x708) g.raws
  let dst := d.dst + j.outHere
  let entry := d.entryAt j.nextSeg
  (s.freeUnit l u).blkReads l j [(a, n)]
   (if d.limit < j.outHere + g.bytes.length then s1.outFull l u j
    else match s.rangeError dst g.bytes.length true with
      | some b => (s1.freeUnit l u).blkMiss l j b
      | none =>
        let s2 := s1.busWrite dst g.bytes
        match (if d.indexEn then s.rangeError entry 8 true else none) with
        | some b => (s2.freeUnit l u).blkMiss l j b
        | none =>
          let s3 := if d.indexEn then s2.busWrite entry (natLe 6 dst ++ natLe 2 (g.bytes.length / 64)) else s2
          s3.segDone l u
            { j with nextSeg := (j.nextSeg + 1) % 2 ^ 32, consumed := j.consumed + g.input, produced := j.produced + g.bytes.length,
                     outHere := j.outHere + g.bytes.length, nonfinite := j.nonfinite + g.nonfin })

/-- The bytes at a, of left that may be read, that the unit reads of a segment: its header, and where that is sound (HCHECK) as many as
SEG_UNITS says, or as a segment can reach. -/
def State.segReach (s : State) (d : BlkDesc) (a left : Nat) : Nat :=
  let h := s.busRead a 16
  if left < 16 then left
  else if leAt h 12 4 ≠ crc32c (h.take 12) then 16
  else min left (min (roundUp (16 + d.segBlocks * 776) 64 + 64) (max 16 (64 * leAt h 6 2)))

/-- A segment's bytes decoded, checked and written (R313, R316, R317); the blocks verified before a failure count (R321). -/
def State.putSegment (s : State) (l u : Nat) (j : BlkJob) (a n left : Nat) : State :=
  let d := parseBlk j.desc
  match decodeSegment d.mode d.format d.segBlocks j.nextSeg (s.busRead a n)
      (fun len => if d.indexed then blkSegsLeft d j == 1 else decide (left ≤ len)) with
  | .error r => ((s.freeUnit l u).bumpReg (lvlReg l 0x704) r.2.2).blkCorrupt l j r.1 r.2.1
  | .ok x =>
    let s1 := s.bumpReg (lvlReg l 0x704) ((x.2.length + 767) / 768)
    let out := if d.op = 2 then x.2.length else 0
    let dst := d.dst + j.outHere
    if d.limit < j.outHere + out then s1.outFull l u j
    else match s.rangeError dst out true with
      | some b => (s1.freeUnit l u).blkMiss l j b
      | none =>
        (if d.op = 2 then s1.busWrite dst x.2 else s1).segDone l u
          { j with nextSeg := (j.nextSeg + 1) % 2 ^ 32, consumed := j.consumed + x.1, produced := j.produced + x.2.length,
                   outHere := j.outHere + out }

/-- One segment of a DECOMPRESS or VERIFY job (R313, R316, R317): its index entry, its header, then the rest are read. -/
def State.decompressSeg (s : State) (l u : Nat) (j : BlkJob) : State :=
  let d := parseBlk j.desc
  let e := s.blkEntry d j.nextSeg
  let a := if d.indexed then e.1 else d.src + j.consumed
  let left := if d.indexed then e.2 else d.srcBytes - j.consumed
  let n := s.segReach d a left
  let f := s.freeUnit l u
  f.blkReads l j (if d.indexed then [(d.entryAt j.nextSeg, 8)] else [])
    (f.blkReads l j [(a, min left 16)] (f.blkReads l j [(a, n)] (s.putSegment l u j a n left)))

/-- The unit's next segment is staged whole, then written, or the job stops (R313). -/
def State.segment (s : State) (level unit : Nat) : State :=
  match (s.level level).blkUnits.getD unit none with
  | none => s
  | some j => if (parseBlk j.desc).op = 1 then s.compressSeg level unit j else s.decompressSeg level unit j

/-- The compressor jobs of an owner end CANCELLED, queued and running, counts at the last whole segment (R319). -/
def State.cancelBlk (s : State) (l : Nat) (c : Ctx) : State :=
  let v := s.level l
  let mine := fun (j : BlkJob) => decide (j.ctx = c)
  let running := v.blkUnits.filterMap (fun o => o.filter mine)
  let queued := (v.blkQ.filter mine).map s.blkResumed
  let s0 := s.each ((v.blkQ.filter mine).filter (fun j => blkOk j.desc)) State.noteFirst
  let s1 := s0.setLevel l { v with
    blkQ := v.blkQ.filter (fun j => !mine j), blkUnits := v.blkUnits.map (fun o => o.filter (fun j => !mine j)) }
  s1.each (running ++ queued) (fun s j => s.endBlk j 4 0 0)

end Sys2Proof.Machine
end

