-- ==== Sys2Proof/Machine/Dots.lean ====
section
/-! DEFINITION. The reference arithmetic: dot products in native, split and compatibility mode, and the element-wise
operations (R94 to R102, R106, R107, R111 to R114). -/

namespace Sys2Proof.Machine

open Sys2Proof

/-- A signed exact value: m × 2^e. -/
abbrev Dyadic := Int × Int

/-- A finite number as a signed exact value; 0 for the others. -/
def Num.dy : Num → Dyadic
  | .fin n m e => (if n then -(m : Int) else (m : Int), e)
  | .inf _ => (0, 0)
  | .nan _ _ => (0, 0)

/-- An exact value as a number; zero takes the sign given. -/
def ofDy (zeroNeg : Bool) (d : Dyadic) : Num :=
  if d.1 = 0 then .fin zeroNeg 0 0 else .fin (decide (d.1 < 0)) d.1.natAbs d.2

/-- The exact product. -/
def dyMul (a b : Dyadic) : Dyadic := (a.1 * b.1, a.2 + b.2)

/-- The exact sum. -/
def dyAdd (a b : Dyadic) : Dyadic :=
  if a.1 = 0 then b
  else if b.1 = 0 then a
  else
    let e := min a.2 b.2
    (a.1 * 2 ^ (a.2 - e).toNat + b.1 * 2 ^ (b.2 - e).toNat, e)

/-- ⌊log2⌋ of a non-zero exact value's magnitude. -/
def dyLog (a : Dyadic) : Int := ilog a.1.natAbs a.2

/-- An exact value truncated towards zero to a multiple of 2^q, in units of 2^q. -/
def dyTrunc (q : Int) (a : Dyadic) : Int :=
  if q ≤ a.2 then a.1 * 2 ^ (a.2 - q).toNat else Int.tdiv a.1 (2 ^ (q - a.2).toNat)

/-- One group reduced (R96). -/
def reduceGroup (t : List Dyadic) : Dyadic :=
  match t.filter (fun a => a.1 != 0) with
  | [] => (0, 0)
  | a :: r =>
    let q := r.foldl (fun m b => max m (dyLog b)) (dyLog a) - 64
    ((a :: r).foldl (fun acc b => acc + dyTrunc q b) 0, q)

/-- The levels of the tree above level 0 (R95). -/
def reduceTree : Nat → List Dyadic → Dyadic
  | 0, l => l.headD (0, 0)
  | f + 1, l =>
    match l with
    | [] => (0, 0)
    | [a] => a
    | a :: b :: r => reduceTree f ((chunks 16 (a :: b :: r)).map reduceGroup)

/-- The root of level-0 groups and an optional addend (R95, R98). -/
def dotRoot (groups : List (List Dyadic)) (addend : Option Dyadic) : Dyadic :=
  let l0 := groups.map reduceGroup
  let root := reduceTree 8 l0
  match addend with
  | none => root
  | some c => if groups.isEmpty then c else reduceGroup [root, c]

/-- How a dot product multiplies FP32 operands (R107). -/
inductive Split where
  | native
  | split2
  | split3
  deriving DecidableEq, Repr

/-- The 24-bit significand and exponent of a finite non-zero FP32 operand as R106 takes them: x = ±S × 2^(e − 23). -/
def sigOf (mag : Nat) (exp : Int) : Nat × Int :=
  let e := max (ilog mag exp) (-126)
  ((roundQ mag exp (e - 23)).1, e)

/-- The pieces h, m, l of an operand at their weights (R106). -/
def pieces : Num → List Dyadic
  | .fin n mag exp =>
    if mag = 0 then [(0, 0), (0, 0), (0, 0)]
    else
      let s := sigOf mag exp
      let sg := fun (v : Nat) => if n then -(v : Int) else (v : Int)
      [(sg (s.1 / 8192), s.2 - 10), (sg (s.1 / 4 % 2048), s.2 - 21), (sg (s.1 % 4), s.2 - 23)]
  | .inf _ => [(0, 0), (0, 0), (0, 0)]
  | .nan _ _ => [(0, 0), (0, 0), (0, 0)]

/-- The products of one term that enter its group (R94, R107). -/
def termProducts (m : Split) (a b : Num) : List Dyadic :=
  let x := pieces a
  let y := pieces b
  let pr := fun (i j : Nat) => dyMul (x.getD i (0, 0)) (y.getD j (0, 0))
  match m with
  | .native => [dyMul a.dy b.dy]
  | .split2 => [pr 0 0, pr 0 1, pr 1 0]
  | .split3 => [pr 0 0, pr 0 1, pr 1 0, pr 1 1, pr 0 2, pr 2 0]

/-- A result before it is converted: the number, its flags, and CAUSE and GROUP where it is a NaN (R105). -/
structure Res where
  num   : Num
  flags : Nat
  trap  : Option (Nat × Nat)
  deriving DecidableEq, Repr

/-- A result without flags. -/
def Res.ofNum (n : Num) : Res := { num := n, flags := 0, trap := none }

/-- A NaN result: CAUSE and GROUP for the record. -/
def Res.nan (cause group : Nat) (flags : Nat) : Res := { num := .nan false false, flags := flags, trap := some (cause, group) }

/-- GROUP of a result that is no dot product (R105). -/
def noGroup : Nat := 0xFFFFFF

/-- Is the product of two operands 0 × ∞? -/
def badProduct (a b : Num) : Bool := (a.isZero && b.isInf) || (a.isInf && b.isZero)

/-- Is the product of two operands infinite? -/
def infProduct (a b : Num) : Bool := (a.isInf || b.isInf) && !badProduct a b

/-- The level-0 group of the first term that satisfies f, or the index after the last group (R105). -/
def groupOf (l : List (Num × Num)) (f : Num × Num → Bool) : Nat :=
  match l.findIdx? f with
  | some i => i / 16
  | none => (l.length + 15) / 16

/-- The classification of R100: the result of rows 1 to 4, or none for row 5. -/
def classify (l : List (Num × Num)) (c : Option Num) : Option Res :=
  let nanTerm := fun (t : Num × Num) => t.1.isNan || t.2.isNan
  let grit := fun (n : Num) => n == .nan true false
  let infs := (l.filter (fun t => infProduct t.1 t.2)).map (fun t => t.1.neg != t.2.neg) ++
    (match c with | some x => if x.isInf then [x.neg] else [] | none => [])
  if l.any nanTerm || c.any Num.isNan then
    let g := l.any (fun t => grit t.1 || grit t.2) || c.any grit
    some (Res.nan (if g then 5 else 1) (groupOf l nanTerm) fNV)
  else if l.any (fun t => badProduct t.1 t.2) then
    some (Res.nan 2 (groupOf l (fun t => badProduct t.1 t.2)) fNV)
  else match infs with
    | [] => none
    | n :: r => if r.all (fun b => b == n) then some (Res.ofNum (.inf n))
      else some (Res.nan 3 (groupOf l (fun t => infProduct t.1 t.2)) fNV)

/-- A native or split dot product (R95 to R100, R107). Where split mode lists no piece of a product that is not zero, the sign of
that product under R97 is taken to be that of its operands (log entry 74). -/
def dot (m : Split) (l : List (Num × Num)) (c : Option Num) : Res :=
  match classify l c with
  | some r => r
  | none =>
    let groups := (chunks 16 l).map (fun g => g.flatMap (fun t => termProducts m t.1 t.2))
    let allNeg := l.all (fun t => t.1.neg != t.2.neg) && c.all Num.neg && !(l.isEmpty && c.isNone)
    Res.ofNum (ofDy allNeg (dotRoot groups (c.map Num.dy)))

/-- The sum of a row: a dot product with 1.0 (R99). -/
def rowSum (l : List Num) : Res := dot .native (l.map (fun x => (x, Num.ofInt 1))) none

/-! Compatibility mode. -/

/-- An operand of compatibility mode: a subnormal reads as a zero of its own sign (R113). -/
def flushIn (f : Fmt) : Num → Num
  | .fin n m e => if m ≠ 0 ∧ ilog m e < f.shape.2.1 then .fin n 0 0 else .fin n m e
  | .inf n => .inf n
  | .nan g q => .nan g q

/-- A finite result of compatibility mode rounded to binary32 or FP16, a subnormal one flushed with UF and NX (R113). -/
def roundCompat (f : Fmt) (x : Num) : Num × Nat :=
  match x with
  | .fin n m e =>
    let r := roundFin f n m e
    let d := f.decode r.1
    match d with
    | .fin _ m' e' => if m' ≠ 0 ∧ ilog m' e' < f.shape.2.1 then (.fin n 0 0, fUF + fNX) else (d, r.2)
    | .inf k => (.inf k, r.2)
    | .nan g q => (.nan g q, r.2)
  | .inf n => (.inf n, 0)
  | .nan _ _ => (.nan false false, 0)

/-- A result's code in FP16 or FP32, with flags: in compatibility mode a subnormal one is a zero (R92, R113). -/
def floatCode (compat : Bool) (f : Fmt) (x : Num) : Nat × Nat :=
  if compat then ((convert f (roundCompat f x).1).1, (roundCompat f x).2) else convert f x

/-- Does a NaN operand set NV in compatibility mode: only a signalling one (R112)? -/
def sigNan : Num → Bool
  | .nan _ q => q
  | .inf _ => false
  | .fin _ _ _ => false

/-- The exact sum of two numbers under IEEE 754-2019, with the invalid operation (R102). -/
def addNum (a b : Num) : Num × Bool :=
  if a.isNan || b.isNan then (.nan (a == .nan true false || b == .nan true false) false, false)
  else if a.isInf && b.isInf && a.neg != b.neg then (.nan false false, true)
  else if a.isInf then (a, false)
  else if b.isInf then (b, false)
  else (ofDy (a.neg && b.neg && a.isZero && b.isZero) (dyAdd a.dy b.dy), false)

/-- The exact product of two numbers under IEEE 754-2019, with the invalid operation. -/
def mulNum (a b : Num) : Num × Bool :=
  if a.isNan || b.isNan then (.nan (a == .nan true false || b == .nan true false) false, false)
  else if badProduct a b then (.nan false false, true)
  else if a.isInf || b.isInf then (.inf (a.neg != b.neg), false)
  else (ofDy (a.neg != b.neg) (dyMul a.dy b.dy), false)

/-- One binary32 addition of compatibility mode, flags carried along. -/
def addCompat (a b : Num × Nat) : Num × Nat :=
  let r := addNum a.1 b.1
  let q := roundCompat .fp32 r.1
  (q.1, orFlags [a.2, b.2, q.2, if r.2 then fNV else 0])

/-- One binary32 product of compatibility mode. -/
def mulCompat (a b : Num) : Num × Nat :=
  let r := mulNum a b
  let q := roundCompat .fp32 r.1
  (q.1, orFlags [q.2, if r.2 then fNV else 0, if sigNan a || sigNan b then fNV else 0])

/-- One level of the pairwise tree of R111. -/
def pairUp : List (Num × Nat) → List (Num × Nat)
  | [] => []
  | [a] => [a]
  | a :: b :: r => addCompat a b :: pairUp r

/-- The sum of 16 terms by the pairwise tree. -/
def pairTree (l : List (Num × Nat)) : Num × Nat := (pairUp (pairUp (pairUp (pairUp l)))).headD (.fin false 0 0, 0)

/-- The place of the first term that meets a condition as a level-0 group, or the index after the last group (R105). -/
def firstGroup (l : List Bool) : Nat :=
  match l.findIdx? id with
  | some i => i / 16
  | none => (l.length + 15) / 16

/-- A dot product of compatibility mode (R111, R112); operands already flushed. A product that overflows binary32 is an infinite
product of R105; a NaN that overflowed sums alone lead to records CAUSE 3 with the index after the last group (log entry
74). -/
def dotCompat (l : List (Num × Num)) (c : Option Num) : Res :=
  let prods := l.map (fun t => mulCompat t.1 t.2)
  let sums := (chunks 16 prods).map (fun g => pairTree (g ++ List.replicate (16 - g.length) (.fin false 0 0, 0)))
  let start : Num × Nat := match c with
    | some x => (x, if sigNan x then fNV else 0)
    | none => (.fin false 0 0, 0)
  let r := sums.foldl addCompat start
  let nanTerm := fun (t : Num × Num) => t.1.isNan || t.2.isNan
  let trap := if r.1.isNan then
      (if l.any nanTerm || c.any Num.isNan then some (1, groupOf l nanTerm)
       else if l.any (fun t => badProduct t.1 t.2) then some (2, groupOf l (fun t => badProduct t.1 t.2))
       else some (3, firstGroup (prods.map (fun p => p.1.isInf))))
    else none
  { num := r.1, flags := r.2, trap := trap }

/-! Element-wise operations (R102). -/

/-- The operations of an element-wise layer. -/
inductive EwOp where
  | add
  | sub
  | mul
  | fma
  | min
  | max
  deriving DecidableEq, Repr

/-- minimum or maximum of IEEE 754-2019: −0 below +0. -/
def minMax (takeMax : Bool) (a b : Num) : Num :=
  let lt := match a, b with
    | .inf n, .inf k => n && !k
    | .inf n, .fin _ _ _ => n
    | .fin _ _ _, .inf k => !k
    | .fin n m e, .fin k m' e' =>
      if m = 0 ∧ m' = 0 then n && !k
      else decide ((dyAdd (Num.dy (.fin n m e)) (Num.dy (.fin (!k) m' e'))).1 < 0)
    | .nan _ _, _ => false
    | _, .nan _ _ => false
  if lt == takeMax then b else a

/-- The operands an operation takes. -/
def EwOp.arity : EwOp → Nat
  | .fma => 3
  | .add => 2
  | .sub => 2
  | .mul => 2
  | .min => 2
  | .max => 2

/-- An element-wise operation's exact result (R102): NaN operands and invalid operations set NV; in compatibility mode only
a signalling NaN operand or an invalid operation does (R112). -/
def elementWise (compat : Bool) (op : EwOp) (x : List Num) : Res :=
  let a := x.getD 0 Num.zero
  let b := x.getD 1 Num.zero
  let c := x.getD 2 Num.zero
  let ops := x.take op.arity
  if ops.any Num.isNan then
    let g := ops.any (fun n => n == .nan true false)
    Res.nan (if g then 5 else 1) noGroup (if !compat || ops.any sigNan then fNV else 0)
  else
    let r := match op with
      | .add => addNum a b
      | .sub => addNum a b.negate
      | .mul => mulNum a b
      | .fma =>
        let p := mulNum a b
        let q := addNum p.1 c
        (q.1, p.2 || q.2)
      | .min => (minMax false a b, false)
      | .max => (minMax true a b, false)
    if r.2 then Res.nan 4 noGroup fNV else Res.ofNum r.1

end Sys2Proof.Machine
end

