-- ==== Sys2Proof/Machine/Bounds.lean ====
section
/-! DEFINITION. The functions of R117 themselves, in fixed point with 1,200 fraction bits, and the bound R125 and R136 set on a
result before conversion. -/

namespace Sys2Proof.Machine

open Sys2Proof

/-- Fraction bits of the fixed point. -/
def fxBits : Nat := 1200

/-- 1 in fixed point. -/
def fxOne : Int := 2 ^ fxBits

/-- The product in fixed point. -/
def fxMul (a b : Int) : Int := a * b / fxOne

/-- The quotient in fixed point. -/
def fxDiv (a b : Int) : Int := a * fxOne / b

/-- An exact value in fixed point. -/
def fxOf (d : Dyadic) : Int := if 0 ≤ d.2 + fxBits then d.1 * 2 ^ (d.2 + fxBits).toNat else d.1 / 2 ^ (-(d.2 + fxBits)).toNat

/-- acc + Σ term × Π step over fuel steps: next gives the term after term number n. -/
def fxSeries (next : Nat → Int → Int) (weigh : Nat → Int → Int) : Nat → Nat → Int → Int → Int
  | 0, _, _, acc => acc
  | fuel + 1, n, term, acc => fxSeries next weigh fuel (n + 1) (next n term) (acc + weigh n term)

/-- Σ z^(2k+1) / (2k+1), the terms alternating in sign where alt. -/
def fxOdd (alt : Bool) (z : Int) : Int :=
  let q := fxMul z z
  fxSeries (fun _ t => if alt then -(fxMul t q) else fxMul t q) (fun k t => t / ((2 * k + 1 : Nat) : Int)) 420 0 z 0

/-- ln of a value from 1 to 2. -/
def fxLnUnit (m : Int) : Int := 2 * fxOdd false (fxDiv (m - fxOne) (m + fxOne))

/-- ln 2. -/
def fxLn2 : Int := fxLnUnit (2 * fxOne)

/-- ⌊log2⌋ of a positive value, and the value brought to 1 to 2. -/
def fxNorm (u : Int) : Int × Int :=
  let e := (u.toNat.log2 : Int) - fxBits
  (e, if 0 ≤ e then u / 2 ^ e.toNat else u * 2 ^ (-e).toNat)

/-- ln of a positive value. -/
def fxLn (u : Int) : Int :=
  let q := fxNorm u
  q.1 * fxLn2 + fxLnUnit q.2

/-- e^x. -/
def fxExp (x : Int) : Int :=
  let n := x / fxLn2
  let v := fxSeries (fun k t => fxMul t (x - n * fxLn2) / ((k + 1 : Nat) : Int)) (fun _ t => t) 220 0 fxOne 0
  if 0 ≤ n then v * 2 ^ n.toNat else v / 2 ^ (-n).toNat

/-- Newton's steps towards ⌊√n⌋ from above. -/
def rootSteps (n : Nat) : Nat → Nat → Nat
  | 0, x => x
  | fuel + 1, x => let y := (x + n / x) / 2
    if x ≤ y then x else rootSteps n fuel y

/-- √x. -/
def fxSqrt (x : Int) : Int :=
  let n := (x * fxOne).toNat
  if n = 0 then 0 else (rootSteps n 40 (2 ^ (n.log2 / 2 + 1)) : Nat)

/-- π, by Machin's formula. -/
def fxPi : Int := 16 * fxOdd true (fxOne / 5) - 4 * fxOdd true (fxOne / 239)

/-- erf x. -/
def fxErf (x : Int) : Int :=
  let q := fxMul x x
  let s := fxSeries (fun k t => -(fxMul t q) / ((k + 1 : Nat) : Int)) (fun k t => t / ((2 * k + 1 : Nat) : Int)) 1000 0 x 0
  2 * fxDiv s (fxSqrt fxPi)

/-- 1 / (1 + e^−x). -/
def fxSigmoid (x : Int) : Int := fxDiv fxOne (fxOne + fxExp (-x))

/-- f(x) of R117 for function code c, to within 2^-600. -/
def fxFunc (c : Nat) (d : Dyadic) : Int :=
  let x := fxOf d
  if c = 1 then fxExp (fxMul x fxLn2)
  else if c = 2 then fxExp x
  else if c = 3 then fxDiv (fxLn x) fxLn2
  else if c = 4 then fxLn x
  else if c = 5 then fxDiv fxOne x
  else if c = 6 then fxSqrt x
  else if c = 7 then fxDiv fxOne (fxSqrt x)
  else if c = 8 then fxSigmoid x
  else if c = 9 then 2 * fxSigmoid (2 * x) - fxOne
  else if c = 10 then fxErf x
  else if c = 11 then fxMul x (fxOne + fxErf (fxDiv x (fxSqrt (2 * fxOne)))) / 2
  else if c = 12 then fxMul x (fxSigmoid x)
  else fxLn (fxOne + fxExp x)

/-- The spacing of FP32 values at a value in fixed point, the subnormal spacing included. -/
def fxSpacing (f : Int) : Int :=
  let e : Int := if f = 0 then -126 else max ((f.natAbs.log2 : Int) - fxBits) (-126)
  fxOf (1, e - 23)

/-- A native result before conversion held to what R125 and R127 say of it. Where f(x) is a value of FP32 it is that value. Else it lies
strictly between the two that bracket f(x), less than half their spacing from f(x), and in the upper or the lower half of the bracket as f(x)
lies at or above one point of the bracket, which the spec does not give, or below it: so no result steps backward. A value of the ROM
that keeps this stands; the ROM holds no other (log entry 8). -/
def sfuHeld (c : Nat) (f : Int) (y : Dyadic) : Dyadic :=
  let gap := fxSpacing f
  let eps : Int := 2 ^ (fxBits - 600)
  let near := (f + gap / 2) / gap * gap
  let lo := f / gap * gap
  let mid := lo + gap / 2
  let fy := fxOf y
  let up := decide (lo + gap * ((Config.sfuTurn c (lo / gap) gap % 65536 : Nat) : Int) / 65536 ≤ f)
  let half := decide (2 * (fy - f) < gap) && decide (2 * (f - fy) < gap)
  if near - eps < f ∧ f < near + eps then (near, -(fxBits : Int))
  else if half ∧ lo < fy ∧ fy + 1 < lo + gap ∧ (if up then mid < fy else fy + 1 < mid) then y
  else (if up then max f (mid + eps) else min f (mid - eps), -(fxBits : Int))

/-- A result before conversion held to its bound: natively to R125 and R127, with set 52 to at most 2 spacings from f(x) (R136), where a
value of the ROM within it stands. -/
def sfuBound (set c : Nat) (x y : Dyadic) : Dyadic :=
  let f := fxFunc c x
  let room := 2 * fxSpacing f + 2 ^ (fxBits - 600)
  let far := fun (k : Int) => dyAdd y (-(f + k), -(fxBits : Int))
  if set ≠ 52 then sfuHeld c f y
  else if (far room).1 ≤ 0 ∧ 0 ≤ (far (-room)).1 then y
  else (f, -(fxBits : Int))

end Sys2Proof.Machine
end

