-- ==== Sys2Proof/Machine/Sfu.lean ====
section
/-! DEFINITION. The special-function unit (R117 to R138): functions, soft maximum, normalisations. -/

namespace Sys2Proof.Machine

open Sys2Proof

/-! Exact values. -/

/-- LOG2E of R117. -/
def log2e : Dyadic := (0xB8AA3B295C17F0BB, -63)

/-- LN2 of R117. -/
def ln2 : Dyadic := (0xB17217F7D1CF79AB, -64)

/-- ⌊d⌋. -/
def dyFloor (d : Dyadic) : Int := if 0 ≤ d.2 then d.1 * 2 ^ d.2.toNat else d.1 / 2 ^ (-d.2).toNat

/-- Is a below b? -/
def dyLt (a b : Dyadic) : Bool := decide ((dyAdd a (-b.1, b.2)).1 < 0)

/-- 2^e. -/
def dyPow (e : Int) : Dyadic := (1, e)

/-- num / den as a number of at least 96 bits whose last bit is sticky: every rounding to a format is that of the exact
quotient. -/
def quotient (neg : Bool) (num : Nat) (numExp : Int) (den : Nat) (denExp : Int) : Num :=
  if num = 0 ∨ den = 0 then .fin neg 0 0
  else
    let k := 96 + den.log2 + 1 - num.log2
    let q := num * 2 ^ k / den
    let r := num * 2 ^ k % den
    .fin neg (2 * q + b2n (decide (r ≠ 0))) (numExp - denExp - k - 1)

/-! Coefficient sets (R121, R122). -/


/-- The segment record of function code c: coefficients C0 to C5, SE, DEG, YLO, YHI. -/
structure SegRec where
  coef : List Int
  se   : Int
  deg  : Nat
  ylo  : Int
  yhi  : Int
  deriving DecidableEq, Repr

/-- Is a segment's record all zero: of a reserved slot (R121), or of an argument the function never has (R118)? -/
def romZero (c seg : Nat) : Bool :=
  c == 0 || decide (14 ≤ c) || (decide (32 ≤ seg) && [1, 2, 5, 6, 7].contains c)

/-- Segment seg of function code c of a set: what the spec fixes of it (R118, R121, R136: zero records, DEG 0 to 5, no coefficient
above DEG, YLO at most YHI, and no clamp in set 52), and for the rest the free bytes of the set (log entry 8). -/
def segRec (set c seg : Nat) : SegRec :=
  if romZero c seg then { coef := List.replicate 6 0, se := 0, deg := 0, ylo := 0, yhi := 0 }
  else
    let b : Bytes := (List.range 64).map (fun i => Config.romSet set (c * 4096 + seg * 64 + i))
    let deg := bits (leAt b 37 1) 0 3 % 6
    let lo := signedOf 64 (leAt b 40 8)
    let hi := signedOf 64 (leAt b 48 8)
    { coef := (List.range 6).map (fun k => if k ≤ deg then signedOf 48 (leAt b (6 * k) 6) else 0), se := signedOf 8 (leAt b 36 1),
      deg := deg, ylo := if set = 52 then -(2 ^ 63) else min lo hi, yhi := if set = 52 then 2 ^ 63 - 1 else max lo hi }

/-- A segment record as the 64 bytes of R121. -/
def SegRec.image (r : SegRec) : Bytes :=
  r.coef.flatMap (fun v => natLe 6 (codeOf 48 v)) ++ natLe 1 (codeOf 8 r.se) ++ natLe 1 r.deg ++ zeros 2 ++
    natLe 8 (codeOf 64 r.ylo) ++ natLe 8 (codeOf 64 r.yhi) ++ zeros 8

/-- The 64 KiB of a set in ROM (R121). -/
def romImage (set : Nat) : Bytes := (List.range 16).flatMap (fun c => (List.range 64).flatMap (fun g => (segRec set c g).image))

/-- acc of R120 after the step for C[k], from k down to 0. -/
def segLoop (s : SegRec) (r : Nat) : Nat → Int → Int
  | 0, acc => acc
  | k + 1, acc => segLoop s r k (acc * r / 2 ^ 32 + s.coef.getD k 0)

/-- V of R120 for the local variable r. -/
def segValue (s : SegRec) (r : Nat) : Dyadic :=
  let acc := segLoop s r s.deg (s.coef.getD s.deg 0)
  (min (max acc s.ylo) s.yhi, s.se)

/-- The segment of |w| (R118), for layout exponent b. -/
def segIndex (b : Int) (w : Dyadic) : Nat :=
  if w.1 = 0 then 0 else (max 0 (dyLog w - b)).toNat

/-- The local variable r of R119. -/
def localVar (b : Int) (w : Dyadic) : Nat :=
  let j := segIndex b w
  let lo : Dyadic := if j = 0 then (0, 0) else (1, b + j)
  let width : Int := if j = 0 then b + 1 else b + j
  let d := dyAdd (w.1.natAbs, w.2) (-lo.1, lo.2)
  (dyFloor (d.1, d.2 + 32 - width)).toNat

/-- V at segment variable w of function code c (R118 to R120). -/
def sfuSegment (set c : Nat) (b : Int) (w : Dyadic) : Dyadic :=
  let j := segIndex b w
  segValue (segRec set c (if w.1 < 0 then 32 + j else j)) (localVar b w)

/-! The functions (R117, R124). -/

/-- The layout exponent B of a function code. -/
def sfuB (c : Nat) : Int :=
  if c ≤ 5 then -32 else if c ≤ 7 then -30 else if c = 8 then -25 else if c = 9 then -28 else if c = 10 then -29
  else if c = 11 then -28 else -25

/-- The segment variable w of a finite argument that falls under Segments (R117). -/
def sfuArg (c : Nat) (x : Dyadic) : Dyadic :=
  let m : Dyadic := (x.1.natAbs, x.2)
  let e := dyLog x
  let frac := fun (t : Dyadic) => dyAdd t (-(dyFloor t), 0)
  if c = 1 then frac x
  else if c = 2 then frac (dyMul x log2e)
  else if c = 3 ∨ c = 4 then (if e = 0 ∨ e = -1 then dyAdd x (-1, 0) else dyAdd (x.1, x.2 - e) (-1, 0))
  else if c = 5 then dyAdd (m.1, m.2 - e) (-1, 0)
  else if c = 6 ∨ c = 7 then dyAdd (m.1, m.2 - 2 * (e / 2)) (-1, 0)
  else x

/-- The result before conversion that V gives (R117). -/
def sfuForm (c : Nat) (x v : Dyadic) : Dyadic :=
  let e := dyLog x
  let log := if e = 0 ∨ e = -1 then v else dyAdd (e, 0) v
  if c = 1 then (v.1, v.2 + dyFloor x)
  else if c = 2 then (v.1, v.2 + dyFloor (dyMul x log2e))
  else if c = 3 then log
  else if c = 4 then dyMul log ln2
  else if c = 5 then (if x.1 < 0 then -v.1 else v.1, v.2 - e)
  else if c = 6 then (v.1, v.2 + e / 2)
  else if c = 7 then (v.1, v.2 - e / 2)
  else v

/-- V at the exact points of R126, natively: f = 0 of EXP2 and EXP, powers of 2 of LOG2 and LOG, of RCP, and powers of 4 of SQRT and
RSQRT. Set 52 promises none (R136). -/
def sfuExact (set c : Nat) (w : Dyadic) : Option Dyadic :=
  if set ≠ 3 then none
  else if w.1 = 0 ∧ (c = 3 ∨ c = 4) then some (0, 0)
  else if w.1 = 0 ∧ c ≤ 7 then some (1, 0)
  else if (dyAdd w (1, -1)).1 = 0 ∧ (c = 3 ∨ c = 4) then some (-1, 0)
  else none

/-- The value of a function of a finite argument that falls under Segments, before conversion (R117 to R120, R125, R126). -/
def sfuFinite (set c : Nat) (x : Dyadic) : Dyadic :=
  let w := sfuArg c x
  match sfuExact set c w with
  | some v => sfuForm c x v
  | none => sfuBound set c x (sfuForm c x (sfuSegment set c (sfuB c) w))

/-- A value with flags and no trap. -/
def Res.flagged (n : Num) (flags : Nat) : Res := { num := n, flags := flags, trap := none }

/-- A special-function NaN: CAUSE 1 for a NaN argument, else 4 (R124, R128). -/
def sfuNan (cause flags : Nat) : Res := Res.nan cause noGroup flags

/-- The rows of R124 for a zero argument. -/
def sfuZero (set c : Nat) (neg : Bool) : Res :=
  if c ≤ 2 then Res.ofNum (Num.ofInt 1)
  else if c ≤ 4 then Res.flagged (.inf true) fDZ
  else if c = 5 then Res.flagged (.inf neg) fDZ
  else if c = 6 then Res.ofNum (.fin neg 0 0)
  else if c = 7 then Res.flagged (.inf neg) fDZ
  else if c = 8 then Res.ofNum (.fin false 1 (-1))
  else if c ≤ 12 then Res.ofNum (.fin neg 0 0)
  else Res.ofNum (ofDy false (sfuFinite set c (0, 0)))

/-- The rows of R124 for an infinite argument. -/
def sfuInf (c : Nat) (neg : Bool) : Res :=
  let one := Num.ofInt 1
  if !neg then
    (if c = 5 ∨ c = 7 then Res.ofNum Num.zero
     else if c = 8 ∨ c = 9 ∨ c = 10 then Res.ofNum one
     else Res.ofNum (.inf false))
  else if c ≤ 2 ∨ c = 8 ∨ c = 13 then Res.ofNum Num.zero
  else if c = 3 ∨ c = 4 ∨ c = 6 ∨ c = 7 then sfuNan 4 fNV
  else if c = 5 then Res.ofNum (.fin true 0 0)
  else if c = 9 ∨ c = 10 then Res.ofNum one.negate
  else Res.ofNum (.fin true 0 0)

/-- The last column of R124: an argument beyond the segments, or none where it is within them. -/
def sfuBeyond (c : Nat) (x : Num) (d : Dyadic) : Option Res :=
  let big := !dyLt (d.1.natAbs, d.2) (dyPow (sfuB c + 32))
  let one := Num.ofInt 1
  if c = 1 ∨ c = 2 then
    (if !dyLt d (128, 0) then some (Res.flagged (.inf false) (fOF + fNX))
     else if !dyLt (if c = 1 then (-256, 0) else (-128, 0)) d then some (Res.flagged Num.zero (fUF + fNX))
     else none)
  else if c ≤ 7 ∨ !big then none
  else if c = 8 then some (if x.neg then Res.flagged Num.zero (fUF + fNX) else Res.flagged one fNX)
  else if c = 9 ∨ c = 10 then some (Res.flagged (if x.neg then one.negate else one) fNX)
  else if !x.neg then some (Res.flagged x fNX)
  else if c = 13 then some (Res.flagged Num.zero (fUF + fNX))
  else some (Res.flagged (.fin true 0 0) (fUF + fNX))

/-- A function of an argument, before conversion (R117, R124, R128, R136): set 3 natively, set 52 in compatibility mode,
where the caller has flushed the argument. -/
def sfu (compat : Bool) (c : Nat) (x : Num) : Res :=
  let set := if compat then 52 else 3
  match x with
  | .nan g q => sfuNan (if g then 5 else 1) (if !compat || q then fNV else 0)
  | .inf n => sfuInf c n
  | .fin n m e =>
    if m = 0 then sfuZero set c n
    else if n ∧ (c = 3 ∨ c = 4 ∨ c = 6 ∨ c = 7) then sfuNan 4 fNV
    else match sfuBeyond c x x.dy with
      | some r => r
      | none => Res.ofNum (ofDy false (sfuFinite set c (Num.dy (.fin n m e))))

/-! Steps rounded to FP32. -/

/-- Flags and the first trap of operands carried into a result. -/
def Res.after (r : Res) (args : List Res) : Res :=
  { r with flags := orFlags (r.flags :: args.map (fun a => a.flags)),
           trap := (args.findSome? (fun a => a.trap)).orElse (fun _ => r.trap) }

/-- A result rounded to a format, as a value again (R92, R113). -/
def Res.round (r : Res) (compat : Bool) (f : Fmt) : Res :=
  if compat then
    let q := roundCompat f r.num
    { r with num := q.1, flags := Nat.lor r.flags q.2 }
  else
    let q := convert f r.num
    { r with num := f.decode q.1, flags := Nat.lor r.flags q.2 }

/-- An element-wise step on results, rounded to FP32. -/
def ew32 (compat : Bool) (op : EwOp) (l : List Res) : Res :=
  ((elementWise compat op (l.map (fun a => a.num))).after l).round compat .fp32

/-- An element-wise step on results, exact. -/
def ewExact (compat : Bool) (op : EwOp) (l : List Res) : Res := (elementWise compat op (l.map (fun a => a.num))).after l

/-- A dot product of results (R95 to R97; R111 in compatibility mode). -/
def dotRes (compat : Bool) (l : List (Res × Res)) (c : Option Res) : Res :=
  let ns := l.map (fun t => (t.1.num, t.2.num))
  let r := if compat then dotCompat ns (c.map (fun a => a.num)) else dot .native ns (c.map (fun a => a.num))
  r.after (l.flatMap (fun t => [t.1, t.2]) ++ c.toList)

/-- A sum divided by N: once rounded, or in compatibility mode multiplied by the binary32 1/N (R138). Rounding 1/N is a conversion of
R92 like any other and sets its flag (log entry 75). -/
def divN (compat : Bool) (r : Res) (n : Nat) : Res :=
  if compat then
    ew32 true .mul [r, (Res.ofNum (quotient false 1 0 n 0)).round true .fp32]
  else match r.num with
    | .fin g m e => ({ r with num := quotient g m e n 0 }).round false .fp32
    | .inf _ => r
    | .nan _ _ => r

/-- A function result in FP32. -/
def sfu32 (compat : Bool) (c : Nat) (x : Res) : Res := ((sfu compat c x.num).after [x]).round compat .fp32

/-! Soft maximum (R129, R130, R138). -/

/-- trunc64 of R129. -/
def trunc64 (d : Dyadic) : Dyadic := (dyTrunc (-64) d, -64)

/-- n and q of a finite element (R129). -/
def softTerm (base2 : Bool) (x : Num) : Int × Dyadic :=
  let t := if base2 then x.dy else dyMul x.dy log2e
  let n := dyFloor t
  let v := sfuFinite 3 1 (dyAdd t (-n, 0))
  let q := dyLog v - 23
  (n, ((roundQ v.1.natAbs v.2 q).1, q))

/-- One chunk of the first pass: K and S from those so far. -/
def softChunk (acc : Option (Int × Dyadic)) (terms : List (Int × Dyadic)) : Option (Int × Dyadic) :=
  match terms with
  | [] => acc
  | t :: r =>
    let kc := r.foldl (fun k u => max k u.1) t.1
    let cc := dotRoot (chunks 16 ((t :: r).map (fun u => (u.2.1, u.2.2 + u.1 - kc)))) none
    match acc with
    | none => some (kc, trunc64 cc)
    | some a =>
      let k1 := max a.1 kc
      some (k1, dyAdd (trunc64 (a.2.1, a.2.2 + a.1 - k1)) (trunc64 (cc.1, cc.2 + kc - k1)))

/-- The second pass's result for one finite element. -/
def softOut (ks : Int × Dyadic) (t : Int × Dyadic) : Res :=
  Res.ofNum (quotient false t.2.1.natAbs (t.2.2 + t.1 - ks.1) ks.2.1.natAbs ks.2.2)

/-- Soft maximum in native mode of a row with no NaN and no +∞. -/
def softNative (base2 : Bool) (row : List Num) : List Res :=
  let term := fun (x : Num) => if x.isInf then none else some (softTerm base2 x)
  let ks := (chunks 64 (row.map term)).foldl (fun acc c => softChunk acc (c.filterMap id)) none
  (row.map term).map (fun t => match t, ks with
    | some u, some k => softOut k u
    | none, _ => Res.ofNum Num.zero
    | some _, none => Res.ofNum Num.zero)

/-- Soft maximum in compatibility mode (R138). An element that is −∞ takes no part (R130): in the sum of R111 it keeps its place as a +0 term,
where the spec does not say whether the places of the others close up (DESIGN CHOICE, log entry 102). -/
def softCompat (row : List Num) : List Res :=
  let m := row.foldl (minMax true) (row.headD Num.zero)
  let es := row.map (fun x => if x.isInf then Res.ofNum Num.zero
    else sfu32 true 2 (ew32 true .sub [Res.ofNum x, Res.ofNum m]))
  let total := dotRes true (es.map (fun e => (e, Res.ofNum (Num.ofInt 1)))) none
  let rc := sfu32 true 5 total
  (row.zip es).map (fun q => if q.1.isInf then Res.ofNum Num.zero else ewExact true .mul [q.2, rc])

/-- A soft maximum row (R130): the results before conversion. -/
def softmax (compat base2 : Bool) (row : List Num) : List Res :=
  let pinf := row.countP (fun x => x == .inf false)
  if row.any Num.isNan then
    let f := if !compat || row.any sigNan then fNV else 0
    row.map (fun _ => sfuNan (if row.contains (.nan true false) then 5 else 1) f)
  else if 0 < pinf then
    row.map (fun x => if x == .inf false then Res.ofNum (quotient false 1 0 pinf 0) else Res.ofNum Num.zero)
  else if row.all (fun x => x == .inf true) then row.map (fun _ => sfuNan 4 fNV)
  else if compat then softCompat row
  else softNative base2 row

/-! Normalisations (R132 to R134, R138). -/

/-- The kinds of normalisation, by SUBOP of R359. -/
inductive NormOp where
  | layer
  | rms
  | gdn
  | igdn
  | gdnL1
  | igdnL1
  deriving DecidableEq, Repr

/-- Layer and root-mean-square normalisation of a row (R132, R133): results before the last rounding. -/
def rowNorm (compat rms : Bool) (eps : Num) (gamma beta : List Num) (row : List Num) : List Res :=
  let xs := row.map Res.ofNum
  let one := Res.ofNum (Num.ofInt 1)
  let n := row.length
  let mu := divN compat (dotRes compat (xs.map (fun x => (x, one))) none) n
  let ds := if rms then xs else xs.map (fun x => ew32 compat .sub [x, mu])
  let v := divN compat (dotRes compat (ds.map (fun d => (d, d))) none) n
  let sc := sfu32 compat 7 (ew32 compat .add [v, Res.ofNum eps])
  ((List.range n).zip ds).map (fun q =>
    ewExact compat .fma [ew32 compat .mul [q.2, sc], Res.ofNum (gamma.getD q.1 (Num.ofInt 1)),
      Res.ofNum (beta.getD q.1 Num.zero)])

/-- Generalised divisive normalisation at one position (R134): gamma by rows. -/
def gdn (compat : Bool) (op : NormOp) (gamma : List (List Num)) (beta : List Num) (xs : List Num) : List Res :=
  let l1 := op == .gdnL1 || op == .igdnL1
  let ws := xs.map (fun x => if l1 then Res.ofNum x.abs else ew32 compat .mul [Res.ofNum x, Res.ofNum x])
  ((List.range xs.length).zip xs).map (fun q =>
    let row := (gamma.getD q.1 []).map Res.ofNum
    let u := (dotRes compat (row.zip ws) (some (Res.ofNum (beta.getD q.1 Num.zero)))).round compat .fp32
    let f := if op = .gdn then sfu32 compat 7 u else if op = .igdn then sfu32 compat 6 u
      else if op = .gdnL1 then sfu32 compat 5 u else u
    ewExact compat .mul [Res.ofNum q.2, f])

end Sys2Proof.Machine
end

