-- ==== Sys2Proof/Machine/Motion.lean ====
section
/-! DEFINITION. The motion engine (R203 to R215) and the region unit (R197 to R202). -/

namespace Sys2Proof.Machine

open Sys2Proof

/-- The number of a tensor among those of a role, in record order. -/
def roleIndex (k : ModelPkg) (n role : Nat) : Nat := (k.tensors.take n).countP (fun t => t.role == role)

/-! Planes. -/

/-- The cold plane numbered n of a session (R242). -/
def Session.coldPlane (x : Session) (n : Nat) : ColdPlane := (x.cold.find? (fun c => c.num == n)).getD { num := n }

/-- The stream header of a session's stream, or an empty one. -/
def Session.hdr (x : Session) : Bytes := if x.decode then x.dec.header.getD [] else x.header

/-- The stream header frame number n of a session runs under. -/
def Session.hdrFor (x : Session) (n : Nat) : Bytes :=
  match x.dec.frames.find? (fun f => f.num == n) with
  | some f => f.hdr
  | none => x.hdr

/-- The committed generation of cold plane n as picture planes: none where it is absent. -/
def Session.planes (x : Session) (n : Nat) : Option (List Plane) :=
  if x.gen.getLsbD n then (x.coldPlane n).gen1 else (x.coldPlane n).gen0

/-- An integer held to 0 to top. -/
def clampTo (top : Nat) (i : Int) : Nat := (max 0 (min (top : Int) i)).toNat

/-- A sample of a plane at the clamped position (R68, R206). -/
def Plane.at (pl : Plane) (row col : Int) : Nat :=
  pl.samples.getD (clampTo (pl.h - 1) row * pl.w + clampTo (pl.w - 1) col) 0

/-- Sum of absolute differences of two sample lists. -/
def sad (a b : List Nat) : Nat := ((a.zip b).map (fun q => (q.1 - q.2) + (q.2 - q.1))).foldl (· + ·) 0

/-- The samples of an n × m block of a plane at (row, col). -/
def Plane.block (pl : Plane) (row col : Int) (n m : Nat) : List Nat :=
  (List.range n).flatMap (fun (i : Nat) => (List.range m).map (fun (j : Nat) => pl.at (row + i) (col + j)))

/-- 8-bit luma of a picture of the given depth (R203). -/
def luma8 (depth : Nat) (pl : Plane) : Plane :=
  if depth = 10 then { pl with samples := pl.samples.map (fun v => v / 4) } else pl

/-! Classification. -/

/-- D of the still test for the 16 × 16 block at (row, col) in luma samples (R208). -/
def stillD (chroma : Nat) (cur prev : List Plane) (row col : Int) : Nat :=
  let part := fun (k : Nat) =>
    let a := cur.getD k {}
    let b := prev.getD k {}
    if k = 0 ∨ chroma = 1 then sad (a.block row col 16 16) (b.block row col 16 16)
    else sad (a.block (row / 2) (col / 2) 8 8) (b.block (row / 2) (col / 2) 8 8)
  min (part 0 + part 1 + part 2) (2 ^ 20 - 1)

/-- A sample of the search window held in the column slots, 0 where its block is not there (R206). -/
def MotionEngine.window (m : MotionEngine) (row col : Int) : Nat :=
  let j := col / 64
  match m.columns.find? (fun c => c.2.1 == j) with
  | none => 0
  | some c => c.2.2.getD (((row - (64 * (m.band : Int) - 64)) * 64 + (col - 64 * j)).toNat) 0

/-- The displaced sample at quarter position (qy, qx) (R209); a tap whose weight is 0 is not read. -/
def MotionEngine.quarter (m : MotionEngine) (qy qx : Int) : Nat :=
  let fy := (qy % 4).toNat
  let fx := (qx % 4).toNat
  let y := qy / 4
  let x := qx / 4
  let tap := fun (w : Nat) (dy dx : Int) => if w = 0 then 0 else w * m.window (y + dy) (x + dx)
  (tap ((4 - fy) * (4 - fx)) 0 0 + tap ((4 - fy) * fx) 0 1 + tap (fy * (4 - fx)) 1 0 + tap (fy * fx) 1 1 + 8) / 16

/-- The luma of the block at (row, col) in the tile buffer of tile t. -/
def MotionEngine.current (m : MotionEngine) (t : Nat) (row col : Nat) : List Nat :=
  match m.buffers.find? (fun b => b.1 == t % 2) with
  | none => []
  | some b => (List.range 16).flatMap (fun i => (List.range 16).map (fun j =>
      b.2.getD ((row + i) * 64 + (col + j)) 0))

/-- A position in quarters with its cost. -/
structure Pos where
  vy   : Int
  vx   : Int
  cost : Nat
  deriving DecidableEq, Repr

/-- Is position a better than b (R210)? -/
def Pos.better (a b : Pos) : Bool :=
  let m := fun (p : Pos) => p.vx.natAbs + p.vy.natAbs
  if a.cost ≠ b.cost then decide (a.cost < b.cost)
  else if m a ≠ m b then decide (m a < m b)
  else if a.vy ≠ b.vy then decide (a.vy < b.vy)
  else decide (a.vx < b.vx)

/-- The best of a list of positions. -/
def bestPos : List Pos → Option Pos
  | [] => none
  | p :: r => some (r.foldl (fun b x => if x.better b then x else b) p)

/-- Integers lo, lo + step, …, n of them. -/
def intRange (lo step : Int) (n : Nat) : List Int := (List.range n).map (fun (i : Nat) => lo + step * (i : Int))

/-- The cost of a vector in quarters for the block at pixel (row, col) over the samples a list picks (R209). -/
def MotionEngine.cost (m : MotionEngine) (cur : List Nat) (pick : List (Nat × Nat)) (row col : Int) (vy vx : Int) : Nat :=
  sad (pick.map (fun q => cur.getD (q.1 * 16 + q.2) 0))
    (pick.map (fun q => m.quarter ((row + q.1) * 4 + vy) ((col + q.2) * 4 + vx)))

/-- All samples of a block. -/
def allSamples : List (Nat × Nat) := (List.range 16).flatMap (fun i => (List.range 16).map (fun j => (i, j)))

/-- The samples of stage S1. -/
def coarseSamples : List (Nat × Nat) := [0, 4, 8, 12].flatMap (fun i => [0, 4, 8, 12].map (fun j => (i, j)))

/-- A vector in quarters shifted right to whole pixels and clamped to the range, in quarters (R209 S2). -/
def wholeVec (v : Int × Int) : Int × Int :=
  (max (-64) (min 64 (v.1 / 4)) * 4, max (-128) (min 128 (v.2 / 4)) * 4)

/-- The four-stage search of a block (R209, R210): neighbours are (vy, vx) in quarters. -/
def MotionEngine.search (m : MotionEngine) (cur : List Nat) (row col : Int) (neighbours : List (Int × Int)) : Pos :=
  let eval := fun (pick : List (Nat × Nat)) (l : List (Int × Int)) =>
    (bestPos (l.map (fun v => { vy := v.1, vx := v.2, cost := m.cost cur pick row col v.1 v.2 }))).getD
      { vy := 0, vx := 0, cost := 0 }
  let s1 := eval coarseSamples ((intRange (-256) 16 33).flatMap (fun y => (intRange (-512) 16 65).map (fun x => (y, x))))
  let s2 := eval allSamples (((0, 0) :: neighbours ++ [(s1.vy, s1.vx)]).map wholeVec)
  let box := fun (c : Pos) (step : Int) => (intRange (-3) 1 7).flatMap (fun y => (intRange (-3) 1 7).filterMap (fun x =>
    let q := (c.vy + y * step, c.vx + x * step)
    if q.1 < -256 ∨ 256 < q.1 ∨ q.2 < -512 ∨ 512 < q.2 then none else some q))
  let s3 := eval allSamples (box s2 4)
  eval allSamples (box s3 1)

/-! Bands and tiles. -/

/-- The block number at block row r, block column c of a frame with w block columns. -/
def blockNo (w r c : Nat) : Nat := r * w + c

/-- The session an engine works for, its frame, and its header. -/
def State.motionFrame (s : State) (p : Nat) : Option (Session × EncFrame × Bytes) :=
  let m := (s.face p).motion
  let x := s.ses m.session
  if m.busy then x.frame.map (fun f => (x, f, x.header)) else none

/-- Does the frame run a search: an inter frame that is not the first (R212)? -/
def EncFrame.searches (f : EncFrame) : Bool := f.inter && !f.first

/-- The 8-bit luma of tile t of a band, clamped (R206). -/
def tileLuma (h : Bytes) (f : EncFrame) (band t : Nat) : List Nat :=
  (luma8 (hdrDepth h) (f.source.getD 0 {})).block (64 * band : Nat) (64 * t : Nat) 64 64

/-- MOTION_BAND_START (R204, R207, R209): the engine takes a launched band of a video encode frame; the first tile buffers fill, and
the vector store holds the previous frame's final vectors, its flow in quarters. -/
def execMotionBandStart (p session band : Nat) (s : State) : Host.Outcome State Fault Refusal :=
  let x := s.ses session
  let f := s.face p
  match x.frame with
  | none => ok s
  | some fr =>
    let prev := (x.prevFlow.map (fun v => ({ block := v.1, vx := v.2.1 / 4, vy := v.2.2 / 4 } : BlockMotion)))
    let m : MotionEngine :=
      { busy := true, session := session, band := band, tile := 0, columns := [], vectors := [], previous := prev,
        buffers := [(0, tileLuma x.header fr band 0), (1, tileLuma x.header fr band 1)] }
    when (faceWf p && s.faceRuns p && !f.motion.busy && !x.decode && x.media == 1 && decide (band < sliceCount x.header) &&
      (fr.slices.getD band {}).st == 1) s
      (s.setFace p { f with motion := m, gated := false, lastWork := s.now })

/-- Tiles of a band (R204). -/
def tileCount (h : Bytes) : Nat := codedWidth h / 64

/-- Tiles the engine has searched. -/
def MotionEngine.tilesDone (m : MotionEngine) : Nat := m.vectors.length / 16

/-- May column block j be loaded now (R207)? -/
def MotionEngine.mayLoad (m : MotionEngine) (tiles : Nat) (j : Int) : Bool :=
  if m.vectors.isEmpty then decide (-2 ≤ j) && decide (j ≤ 2)
  else j == (m.tile : Int) + 3 && decide (m.tile + 1 < tiles)

/-- The samples of column block j of a band's window (R206). -/
def columnSamples (pl : Plane) (band : Nat) (j : Int) : List Nat := pl.block (64 * (band : Int) - 64) (64 * j) 192 64

/-- Column block j put into slot j mod 6 (R206). -/
def MotionEngine.load (m : MotionEngine) (pl : Plane) (j : Int) : MotionEngine :=
  let k := (j % 6).toNat
  { m with columns := m.columns.filter (fun c => c.1 != k) ++ [(k, j, columnSamples pl m.band j)] }

/-- COLUMN_BLOCK_LOAD (R207): a column block of the reference slot's search plane. -/
def execColumnBlockLoad (p : Nat) (block : Int) (s : State) : Host.Outcome State Fault Refusal :=
  match s.motionFrame p with
  | none => ok s
  | some q =>
    match q.1.planes (1 + q.2.1.refSlot) with
    | none => ok s
    | some pls =>
      let f := s.face p
      when (faceWf p && s.faceRuns p && q.2.1.searches && f.motion.mayLoad (tileCount q.2.2) block) s
        (s.setFace p { f with motion := f.motion.load (pls.getD 0 {}) block })

/-- Are the five column blocks of tile t there (R207)? -/
def MotionEngine.ready (m : MotionEngine) (t : Nat) : Bool :=
  [-2, -1, 0, 1, 2].all (fun (d : Int) => m.columns.any (fun c => c.2.1 == (t : Int) + d))

/-- The result of a block already done in this band. -/
def MotionEngine.doneAt (m : MotionEngine) (block : Nat) : Option BlockMotion := m.vectors.find? (fun v => v.block == block)

/-- One block classified (R208 to R212): its grid row and column, its row and column in the tile. -/
def Session.classify (x : Session) (f : EncFrame) (m : MotionEngine) (t r c : Nat) : BlockMotion :=
  let h := x.header
  let w := codedWidth h / 16
  let gr := 4 * m.band + r
  let gc := 4 * t + c
  let no := blockNo w gr gc
  let still := match (if f.first then none else x.planes 0) with
    | none => false
    | some prev => decide (stillD (hdrChroma h) f.source prev (16 * gr : Nat) (16 * gc : Nat) ≤ x.settings.stillT)
  if still then { block := no, cls := 0, vx := 0, vy := 0, cost := 0 }
  else if !f.searches then { block := no, cls := 2, vx := 0, vy := 0, cost := 0xFFFF }
  else
    let left := if gc = 0 then none else m.doneAt (no - 1)
    let above := if r = 0 then none else m.doneAt (no - w)
    let before := m.previous.find? (fun v => v.block == no)
    let ns := (left.toList ++ above.toList ++ before.toList).map (fun v => (v.vy, v.vx))
    let b := m.search (m.current t (16 * r) (16 * c)) (16 * gr : Nat) (16 * gc : Nat) ns
    { block := no, cls := if b.cost ≤ x.settings.changeT then 1 else 2, vx := b.vx, vy := b.vy, cost := b.cost }

/-- The sixteen blocks of tile t in row order. -/
def Session.tile (x : Session) (f : EncFrame) (m : MotionEngine) (t : Nat) : MotionEngine :=
  ((List.range 16).foldl (fun (m : MotionEngine) i =>
    { m with vectors := m.vectors ++ [x.classify f m t (i / 4) (i % 4)] }) m)

/-- Blocks of class k among a list. -/
def classCount (l : List BlockMotion) (k : Nat) : Nat := l.countP (fun v => v.cls == k)

/-- MOTION_TILE_START (R204, R207): the next tile, once its column blocks and its buffer are complete. -/
def execMotionTileStart (p : Nat) (s : State) : Host.Outcome State Fault Refusal :=
  match s.motionFrame p with
  | none => ok s
  | some q =>
    let f := s.face p
    let m := f.motion
    let t := m.tilesDone
    let m1 := q.1.tile q.2.1 { m with tile := t } t
    let new := m1.vectors.drop m.vectors.length
    let m2 := { m1 with buffers := m1.buffers.filter (fun b => b.1 != t % 2) ++ [(t % 2, tileLuma q.2.2 q.2.1 m.band (t + 2))] }
    let s1 := s.setFace p { f with motion := m2 }
    when (faceWf p && s.faceRuns p && decide (t < tileCount q.2.2) && (!q.2.1.searches || m.ready t)) s
      (((s1.bumpReg (fceReg p 0x304) (classCount new 0)).bumpReg (fceReg p 0x308) (classCount new 1)).bumpReg (fceReg p 0x30C)
        (classCount new 2))

/-- Entries of a block list replaced by those of another. -/
def mergeBlocks {α : Type} (old new : List (Nat × α)) : List (Nat × α) := new.foldl (fun m e => spSet m e.1 e.2) old

/-- The package's further ROLE 2 tensors, after the media tensors (R478). -/
def extraInputs (k : ModelPkg) : List Nat :=
  ((List.range k.tensors.length).filter (fun i => (k.tensors.getD i {}).role == 2)).drop (if k.media = 1 then 3 else 1)

/-- The package's map tensor: the first further ROLE 2 tensor of FORMAT 0 (R200, R478; log entry 14). -/
def mapTensor (k : ModelPkg) : Option Nat := (extraInputs k).find? (fun i => (k.tensors.getD i {}).fmt == 0)

/-- The package's flow tensor: the first further ROLE 2 tensor of FORMAT 6 with two channels (R185, R213; log entry 14). -/
def flowTensor (k : ModelPkg) : Option Nat :=
  (extraInputs k).find? (fun i => (k.tensors.getD i {}).fmt == 6 && (k.tensors.getD i {}).c == 2)

/-- The flow tensor of a frame over its block grid of w columns and h rows (R213). -/
def flowPlanes (w h : Nat) (flow : List (Nat × Int × Int)) : Tensor :=
  let at' := fun (i : Nat) => spGet ((0, 0) : Int × Int) flow i
  { fmt := 6, n := 1, c := 2, y := h, x := w,
    data := (List.range (w * h)).map (fun i => codeOf 16 (at' i).1) ++ (List.range (w * h)).map (fun i => codeOf 16 (at' i).2) }

/-- Class of block n of a skip map: two bits, four blocks a byte (R213). A block whose band is not published reads as changed. -/
def skipClass (m : Bytes) (n : Nat) : Nat := match m[n / 4]? with
  | some b => bits b.toNat (2 * (n % 4)) 2
  | none => 2

/-- The bytes a band's classes occupy, block 4m in bits [1:0] of byte m (R213). -/
def packClasses (l : List Nat) : Bytes :=
  (chunks 4 l).map (fun q => BitVec.ofNat 8 (packBits (q.map (fun v => (v, 2)))))

/-- A skip map with band b's classes put at its bytes, coded width / 16 of them (R213); a gap before it reads as changed. -/
def putBand (m : Bytes) (w b : Nat) (classes : List Nat) : Bytes :=
  let lo := b * (w / 16)
  let new := packClasses classes
  (m ++ List.replicate (lo - m.length) 0xAA).take lo ++ new ++ m.drop (lo + new.length)

/-- The classes of band b of a frame of coded width w, in block order, from its motion results; changed where one is missing. -/
def bandClasses (w b : Nat) (vs : List BlockMotion) : List Nat :=
  (List.range (w / 4)).map (fun i => ((vs.find? (fun v => v.block == b * (w / 4) + i)).map (fun v => v.cls)).getD 2)

/-- MOTION_BAND_PUBLISH (R213): the skip map, flow and cost of a finished band. -/
def execMotionBandPublish (p : Nat) (s : State) : Host.Outcome State Fault Refusal :=
  match s.motionFrame p with
  | none => ok s
  | some q =>
    let f := s.face p
    let m := f.motion
    let fr := q.2.1
    let fr1 := { fr with
      skipMap := putBand fr.skipMap (codedWidth q.2.2) m.band (bandClasses (codedWidth q.2.2) m.band m.vectors)
      flow := mergeBlocks fr.flow (m.vectors.map (fun v => (v.block, v.vx * 4, v.vy * 4)))
      cost := mergeBlocks fr.cost (m.vectors.map (fun v => (v.block, v.cost)))
      bandsDone := fr.bandsDone ++ [m.band] }
    let fr2 := match flowTensor (s.pkg q.1.modelSlot) with
      | some i => { fr1 with tensors := spSet fr1.tensors i (flowPlanes (codedWidth q.2.2 / 16) (codedHeight q.2.2 / 16) fr1.flow) }
      | none => fr1
    let s1 := s.setFace p { f with motion := { m with busy := false, previous := m.vectors, vectors := [] }, lastWork := s.now }
    when (faceWf p && s.faceRuns p && m.tilesDone == tileCount q.2.2) s
      (s1.setSes m.session { s1.ses m.session with frame := some fr2 })

/-- The motion work of a session ends on every face (R250). -/
def State.cancelMotion (s : State) (session : Nat) : State :=
  { s with faces := s.faces.map (fun e =>
      if e.2.motion.busy && e.2.motion.session == session then
        (e.1, { e.2 with motion := { e.2.motion with busy := false, vectors := [] } })
      else e) }

/-! The region unit. -/

/-- A box in pixels, half open, with its class, logit and candidate index. -/
structure RBox where
  x0    : Nat
  x1    : Nat
  y0    : Nat
  y1    : Nat
  cls   : Nat
  logit : Num
  cand  : Nat
  deriving DecidableEq, Repr

/-- A value rounded to FP32. -/
def toFp32 (compat : Bool) (x : Num) : Num := ((Res.ofNum x).round compat .fp32).num

/-- A delta of the detector as an operand: in compatibility mode a subnormal one is a zero (R113). -/
def regionDelta (compat : Bool) (d : Nat) : Num := if compat then flushIn .fp16 (ofFp16 d) else ofFp16 d

/-- A size: A × EXP(min(d, 4.0)) rounded once to FP32 (R198). -/
def regionSize (compat : Bool) (a d : Nat) : Num :=
  let e := (sfu compat 2 (minMax false (regionDelta compat d) (Num.ofInt 4))).num
  if (ofFp16 d).isNan then .nan false false else toFp32 compat (mulNum (Num.ofInt a) e).1

/-- A centre: A + d × S rounded once to FP32. -/
def regionCentre (compat : Bool) (a d size : Nat) : Num :=
  toFp32 compat (addNum (mulNum (regionDelta compat d) (Num.ofInt size)).1 (Num.ofInt a)).1

/-- ⌊c − w/2⌋ or ⌈c + w/2⌉, clipped to 0 to top. -/
def regionEdge (c w : Num) (upper : Bool) (top : Nat) : Nat :=
  let half := match w with
    | .fin n m e => Num.fin n m (e - 1)
    | .inf n => .inf n
    | .nan g q => .nan g q
  match (addNum c (if upper then half else half.negate)).1 with
  | .fin n m e =>
    let d := Num.dy (.fin n m e)
    clampTo top (if upper then -(dyFloor (-d.1, d.2)) else dyFloor d)
  | .inf n => if n then 0 else top
  | .nan _ _ => 0

/-- Is number a below b? -/
def numLt (a b : Num) : Bool :=
  match a, b with
  | .nan _ _, _ => false
  | _, .nan _ _ => false
  | .inf n, .inf k => n && !k
  | .inf n, .fin _ _ _ => n
  | .fin _ _ _, .inf k => !k
  | .fin n m e, .fin k m' e' => dyLt (Num.dy (.fin n m e)) (Num.dy (.fin k m' e'))

/-- One candidate decoded (R198): a box, discarded, or discarded as a NaN (true). -/
def decodeCandidate (compat : Bool) (r : RegionRec) (w h : Nat) (a : Nat × Nat × Nat × Nat) (d : Detection) (anchor cls : Nat) :
    Option RBox × Bool :=
  let logit := ofFp16 (d.logits.getD cls 0).toNat
  let bw := regionSize compat a.2.2.1 d.dw.toNat
  let bh := regionSize compat a.2.2.2 d.dh.toNat
  let cx := regionCentre compat a.1 d.dx.toNat a.2.2.1
  let cy := regionCentre compat a.2.1 d.dy.toNat a.2.2.2
  let edges := [(cx, bw), (cy, bh)]
  let nan := logit.isNan || edges.any (fun q => q.1.isNan || q.2.isNan || (q.1.isInf && q.2.isInf))
  let b : RBox :=
    { x0 := regionEdge cx bw false w, x1 := regionEdge cx bw true w, y0 := regionEdge cy bh false h,
      y1 := regionEdge cy bh true h, cls := cls, logit := logit, cand := anchor * r.classes + cls }
  if nan then (none, true)
  else if numLt logit (ofFp16 r.scoreT) ∨ b.x1 ≤ b.x0 ∨ b.y1 ≤ b.y0 then (none, false)
  else (some b, false)

/-- Does box a come before box b (R199)? -/
def RBox.before (a b : RBox) : Bool := numLt b.logit a.logit || (!numLt a.logit b.logit && decide (a.cand < b.cand))

/-- A box put in its place in the order. -/
def insertBox (b : RBox) : List RBox → List RBox
  | [] => [b]
  | x :: r => if b.before x then b :: x :: r else x :: insertBox b r

/-- The area of a box. -/
def RBox.area (b : RBox) : Nat := (b.x1 - b.x0) * (b.y1 - b.y0)

/-- The overlap of two boxes (R199). -/
def RBox.inter (a b : RBox) : Nat := (min a.x1 b.x1 - max a.x0 b.x0) * (min a.y1 b.y1 - max a.y0 b.y0)

/-- Does a kept box suppress b (R199)? -/
def suppresses (iou : Nat) (b kept : RBox) : Bool :=
  b.cls == kept.cls && decide (iou * (b.area + kept.area - b.inter kept) < b.inter kept * 256)

/-- Selection in falling order of logit (R199). -/
def selectBoxes (r : RegionRec) (l : List RBox) : List RBox :=
  (l.foldl (fun acc b => insertBox b acc) []).foldl (fun kept b =>
    if kept.length < r.maxKeep ∧ ¬ kept.any (suppresses r.iouT b) then kept ++ [b] else kept) []

/-- Every candidate of the anchors' detections decoded, in order of candidate index. -/
def RegionRec.candidates (r : RegionRec) (compat : Bool) (w h : Nat) (detections : List Detection) : List (Option RBox × Bool) :=
  (r.anchors.zip ((List.range detections.length).zip detections)).flatMap (fun q =>
    (List.range r.classes).map (fun c => decodeCandidate compat r w h q.1 q.2.2 q.2.1 c))

/-- The selected boxes with the weights they are painted with (R199, R200). -/
def RegionRec.painted (r : RegionRec) (cands : List (Option RBox × Bool)) : List (Nat × Nat × Nat × Nat × Nat) :=
  (selectBoxes r (cands.filterMap (fun c => c.1))).map (fun b => (b.x0, b.x1, b.y0, b.y1, r.weights.getD b.cls 0))

/-- The map's block values painted from boxes with weights (R200): (x0, x1, y0, y1, weight). -/
def paintMap (w h : Nat) (boxes : List (Nat × Nat × Nat × Nat × Nat)) : List Nat :=
  let bw := (w + 15) / 16
  let bh := (h + 15) / 16
  (List.range (bw * bh)).map (fun i =>
    let x := i % bw * 16
    let y := i / bw * 16
    (boxes.map (fun b =>
      if max b.1 x < min b.2.1 (x + 16) ∧ max b.2.2.1 y < min b.2.2.2.1 (y + 16) then b.2.2.2.2 else 0)).foldl max 0)

/-- Value of block n of a packed map: the even block in bits [3:0] (R200). -/
def mapValue (m : Bytes) (n : Nat) : Nat := bits (m.getD (n / 2) 0).toNat (4 * (n % 2)) 4

/-- The map as it is stored, two blocks a byte (R200). -/
def packMap (l : List Nat) : Bytes := (chunks 2 l).map (fun q => BitVec.ofNat 8 (packBits (q.map (fun v => (v, 4)))))

/-- The focus box of the settings as a painted box (R201). -/
def focusBox (g : Settings) (w h : Nat) : Nat × Nat × Nat × Nat × Nat := (min g.x0 w, min g.x1 w, min g.y0 h, min g.y1 h, g.weight)

/-- A session's map painted from boxes and the focus box, kept packed and as the FP16 tensor the network reads (R200, R201). -/
def Session.painted (x : Session) (k : ModelPkg) (f : EncFrame) (boxes : List (Nat × Nat × Nat × Nat × Nat)) : Session :=
  let w := hdrWidth x.header
  let h := hdrHeight x.header
  let map := paintMap w h (focusBox x.settings w h :: boxes)
  let t : Tensor :=
    { fmt := 0, n := 1, c := 1, y := (h + 15) / 16, x := (w + 15) / 16,
      data := map.map (fun (v : Nat) => (convert .fp16 (Num.ofInt v)).1) }
  let ts := match mapTensor k with
    | some i => spSet f.tensors i t
    | none => f.tensors
  { x with frame := some { f with rateMap := some (packMap map), tensors := ts } }

/-- REGION_MAP_PAINT (R197 to R202): detections decoded, suppressed and painted; a map that is late is painted from the focus
box alone. -/
def execRegionMapPaint (session : Nat) (detections : List Detection) (late : Bool) (s : State) :
    Host.Outcome State Fault Refusal :=
  let x := s.ses session
  let k := s.pkg x.modelSlot
  match x.frame, k.region with
  | some f, some r =>
    let w := hdrWidth x.header
    let h := hdrHeight x.header
    let cands := r.candidates (k.arith == 1) w h detections
    let nans := cands.countP (fun c => c.2)
    let x1 := x.painted k f (if late then [] else r.painted cands)
    when (!x.decode && x.media == 1 && f.rateMap.isNone) s
      (s.setSes session (if late then x1.bump 15 1 else x1.bump 14 nans))
  | none, _ => ok s
  | some _, none => ok s

end Sys2Proof.Machine
end

