-- ==== Sys2Proof/Machine/Streams.lean ====
section
/-! DEFINITION. Rings and skips, fused stage commands, musters, trams, borrowed buffers, the ring monitor and face idle
(R281 to R284, R289 to R296, R393). -/

namespace Sys2Proof.Machine

open Sys2Proof

/-- ⌊frame period⌋ of a session in ns (R251). -/
def Session.period (x : Session) : Nat := x.periodNum / x.periodDen

/-- The time a borrow or a muster allows its owner: a session's frame period, a job's JOB_SLACK (R295). -/
def State.slack (s : State) (c : Ctx) : Nat :=
  match c with
  | .session i => (s.ses i).period
  | .job _ => s.jobSlack

/-- A skip published on ring r: its metadata word, tally and TAIL (R282, R283, R332). place: the buffer that was filled. -/
def State.publish (s : State) (p r place bytes : Nat) (tag : Option (BitVec 4)) : State :=
  let g := s.ring p r
  let w : SkipWord :=
    { bytes := bytes, tag := (tag.map (fun t => t.toNat)).getD 0, tagged := tag.isSome,
      tally := crc32c (s.readMem (s.bufferAt p r place) bytes), place := place }
  s.setRing p r { g with tail := (g.tail + 1) % 65536, skips := spSet g.skips g.tail w, filling := none, waitData := false }

/-- The engines that fill ring r have their skip handed on: their next byte opens a new skip. -/
def State.refill (s : State) (p r : Nat) : State :=
  s.each (s.fillers p r) (fun s k =>
    let g := s.engine k.1 k.2
    s.setEngine k.1 k.2 { g with fill := 0, handed := if g.fill = 0 then g.handed else g.handed + 1 })

/-- The buffer being filled on ring r, or the next one to fill. -/
def State.fillPlace (s : State) (p r : Nat) : Option Nat :=
  match (s.ring p r).filling with
  | some k => some k
  | none => s.nextPlace p r

/-- Has the ring a buffer for another skip (R282)? -/
def State.ringRoom (s : State) (p r : Nat) : Bool := decide ((s.ring p r).occ < s.ringCap p r)

/-- The engine that has a skip of ring r of face p part filled: its face and number. -/
def State.fillerOf (s : State) (p r : Nat) : Option (Nat × Nat) := (s.fillers p r).find? (fun k => decide (0 < (s.engine k.1 k.2).fill))

/-- May an engine hand on a skip of bytes bytes with this tag: it is full or the transfer's last, holds what was filled, and carries TAG
of the descriptor plus its number with TAG_SET (R150, R283)? -/
def Engine.mayHand (g : Engine) (d : Desc) (n bytes : Nat) (tag : Option (BitVec 4)) : Bool :=
  bytes == g.fill && (g.fill == n || g.finished d) && !g.stopped &&
    tag == (if d.tagSet then some (BitVec.ofNat 4 (d.tag + g.handed)) else none)

/-- The number of the block a compute stage hands on next, making a layer's output for a frame or step in so many blocks: from 0 on with
each tensor (R150). -/
def Ring.nextBlock (g : Ring) (making : Nat × Nat × Nat) : Nat :=
  match g.made with
  | some m => if m.1 = making.1 ∧ m.2.1 = making.2.1 ∧ m.2.2 + 1 < making.2.2 then m.2.2 + 1 else 0
  | none => 0

/-- May a compute stage hand on a skip of a ring with this tag: tags on a tagged ring alone, each b mod 16 of the block's number (R150)? -/
def Ring.mayTag (g : Ring) (tagged : Bool) (making : Option (Nat × Nat × Nat)) (tag : Option (BitVec 4)) : Bool :=
  match tag with
  | none => !tagged
  | some t => tagged && making.any (fun m => t.toNat == g.nextBlock m % 16)

/-- The ring after a compute stage has handed on a tagged skip. -/
def State.noteBlock (s : State) (p r : Nat) (tag : Option (BitVec 4)) : State :=
  match tag, (s.face p).making with
  | some _, some m => s.setRing p r { s.ring p r with made := some (m.1, m.2.1, (s.ring p r).nextBlock m) }
  | none, _ => s
  | some _, none => s

/-- May a skip of bytes bytes with this tag be published on ring r of face p now (R150, R283, R284)? -/
def State.mayPublish (s : State) (p r bytes : Nat) (tag : Option (BitVec 4)) : Bool :=
  let c := s.ringRec p r
  decide (bytes ≤ c.skipBytes) && match s.fillerOf p r with
    | none => !(s.face p).stageStop && (s.ring p r).mayTag c.tagged (s.face p).making tag
    | some k => s.faceRuns k.1 && ((s.engine k.1 k.2).queue.head?).any (fun q =>
        (s.engine k.1 k.2).mayHand (parseDesc q.bytes) c.skipBytes bytes tag)

/-- A fused command whose last step takes from no ring has handed on a skip of its OUT_RING, or where it names none run once more: after
SKIPS of them it ends (R289). -/
def State.fusedCount (s : State) (p : Nat) (hit : FusedStep → Bool) : State :=
  match (s.face p).fused with
  | none => s
  | some c =>
    if (fusedList c.bytes).getLast?.any hit then
      if fusedSkips c.bytes ≤ c.drained + 1 then s.endFused p c
      else s.setFace p { s.face p with fused := some { c with drained := c.drained + 1 } }
    else s

/-- SKIP_PUBLISH (R282, R283, R287): a producer completes a skip and TAIL advances; on a full ring the producer waits. -/
def execSkipPublish (p ring bytes : Nat) (tag : Option (BitVec 4)) (s : State) : Host.Outcome State Fault Refusal :=
  when (faceWf p && decide (ring < 16) && s.faceRuns p && s.mayPublish p ring bytes tag) s
    (if s.ringRoom p ring then
      match s.fillPlace p ring with
      | some k => (((if (s.fillerOf p ring).isNone then s.noteBlock p ring tag else s).publish p ring k bytes tag).refill p ring).fusedCount p
          (fun st => decide (6 ≤ st.engine) && st.inRing.isNone && decide (st.outRing = some ring))
      | none => s.setRing p ring { s.ring p ring with waitSpace := true }
     else s.setRing p ring { s.ring p ring with waitSpace := true })

/-- The fused command whose last step drains ring r has drained one more skip (R289). -/
def State.fusedDrain (s : State) (p r : Nat) : State := s.fusedCount p (fun st => decide (st.inRing = some r))

/-- A skip released: HEAD advances, its buffer is free, a pool buffer goes back to the pool (R282, R295). -/
def State.release (s : State) (p r : Nat) : State :=
  let g := s.ring p r
  let place := (g.headSkip.map (fun k => k.place)).getD 0
  s.setRing p r { g with head := (g.head + 1) % 65536, skips := spDrop g.skips (g.head % 65536), lastHead := some s.now,
                         waitSpace := false, block := g.block + 1, taken := false,
                         pool := g.pool.filter (fun k => !(place == k.1 + 128)) }

/-- Engines that drain ring r start on its next skip. -/
def State.redrain (s : State) (p r : Nat) : State :=
  s.each (List.range 6) (fun s e =>
    let g := s.engine p e
    match g.queue with
    | q :: _ => if (parseDesc q.bytes).srcRing = some r then s.setEngine p e { g with drain := 0 } else s
    | [] => s)

/-- Is ring r the input of a compute step of the face's fused command? -/
def Face.stepTakes (f : Face) (r : Nat) : Bool :=
  f.fused.any (fun c => (fusedList c.bytes).any (fun st => decide (6 ≤ st.engine) && decide (st.inRing = some r)))

/-- May the skip at HEAD of ring r be released: every engine that drains the ring has drained it, or moved all of its transfer (R283), and
a fused compute step that takes it has run on it (R289)? -/
def State.mayRelease (s : State) (p r : Nat) : Bool :=
  let k := ((s.ring p r).headSkip.map (fun w => w.bytes)).getD 0
  (!(s.face p).stepTakes r || (s.ring p r).taken || decide ((s.ring p r).occ = 0)) && (List.range 6).all (fun e =>
    let g := s.engine p e
    match g.queue with
    | q :: _ =>
      let d := parseDesc q.bytes
      d.srcRing != some r || d.op == 2 || decide (k ≤ g.drain) || g.finished d
    | [] => true)

/-- SKIP_RELEASE (R282): a consumer releases a skip and HEAD advances; on an empty ring it waits. -/
def execSkipRelease (p ring : Nat) (s : State) : Host.Outcome State Fault Refusal :=
  when (faceWf p && decide (ring < 16) && s.faceRuns p && s.mayRelease p ring) s
    (if (s.ring p ring).occ = 0 then s.setRing p ring { s.ring p ring with waitData := true }
     else ((s.release p ring).redrain p ring).fusedDrain p ring)

/-- The LAYER of the compute record of a fused command, 0 where it has no compute step: a TRAM step's chunk is of that layer (R289, R293;
log entry 89). -/
def State.fusedLayer (s : State) (p : Nat) (l : List FusedStep) : Nat :=
  match l.find? (fun st => decide (6 ≤ st.engine)) with
  | some st => bits (leNat (s.readMem (storeBase p + st.ptr) 4)) 0 16
  | none => 0

/-- The descriptors of a fused command's engine steps, queued on their engines. -/
def State.queueSteps (s : State) (p : Nat) (work : Work) (layer : Nat) (l : List FusedStep) : State :=
  s.each l (fun s st => if st.engine < 6 then s.queueDesc p st.engine st.ptr layer work else s)

/-- The skips of n bytes that so many bytes fill. -/
def skipsOf (total n : Nat) : Nat := if n = 0 then 0 else (total + n - 1) / n

/-- The bytes a transfer drains from its ring, and those it fills into one, its auxiliary plane among them. -/
def Desc.drains (d : Desc) : Nat := (if d.staged then d.streamIn else d.count) + d.auxLen

/-- The bytes a transfer fills into a ring. -/
def Desc.fills (d : Desc) : Nat := (if d.staged then d.streamOut else d.count) + d.auxLen

/-- Does an engine step's transfer take from its IN_RING and fill its OUT_RING exactly SKIPS skips (R289)? Without a ring it moves none.
sizeIn, sizeOut: the bytes of a skip of the rings it drains and fills. -/
def stepMoves (d : Desc) (skips : Nat) (st : FusedStep) (sizeIn sizeOut : Nat → Nat) : Bool :=
  let inN := d.srcRing.map (fun r => skipsOf (if d.count = 0 then 0 else d.drains) (sizeIn r))
  let outN := d.dstRing.map (fun r => skipsOf (if d.count = 0 then 0 else d.fills) (sizeOut r))
  decide (d.srcRing = st.inRing) && decide (d.dstRing = st.outRing) && inN.all (fun k => k == skips) && outN.all (fun k => k == skips) &&
    (inN.isSome || outN.isSome || skips == 0)

/-- Does an engine step of a fused command of face p move what it must (R289)? -/
def State.stepFits (s : State) (p skips : Nat) (st : FusedStep) : Bool :=
  let d := parseDesc (s.readMem (storeBase p + st.ptr) 64)
  stepMoves d skips st (fun r => (s.ringRec p r).skipBytes) (fun r => (s.ringRec (s.ringFace p d) r).skipBytes)

/-- May every step of a fused command start: an engine takes its descriptor, a compute step's record is well formed (R289, R290)? -/
def State.stepsOk (s : State) (p : Nat) (b : Bytes) (work : Work) : Bool :=
  (fusedList b).all (fun st =>
    if st.engine < 6 then
      s.canQueue p st.engine st.ptr (parseDesc (s.readMem (storeBase p + st.ptr) 64)).op work && s.stepFits p (fusedSkips b) st
    else decide (st.ptr + 16 ≤ storeBytes) && computeOk (s.readMem (storeBase p + st.ptr) 16))

/-- FUSED_STAGE_COMMAND (R289): the chain starts; with SKIPS 0 it completes at once. -/
def execFusedStageCommand (p offset : Nat) (work : Work) (s : State) : Host.Outcome State Fault Refusal :=
  let b := s.readMem (storeBase p + offset) 40
  let c : Fused := { bytes := b, drained := 0, work := work, seq := (s.face p).workSeq, offset := offset }
  when (faceWf p && s.faceRuns p && !s.faceHeld p && s.workOpen work && decide (offset + 40 ≤ storeBytes) && (s.face p).fused.isNone &&
      fusedOk b && s.stepsOk p b work) s
    (if fusedSkips b = 0 then s.bumpCtr p (fusedCtr b)
     else (s.setFace p { s.face p with fused := some c, gated := false, lastWork := s.now, workSeq := (s.face p).workSeq + 1 }).queueSteps
      p work (s.fusedLayer p (fusedList b)) (fusedList b))

/-! Musters. -/

/-- The placement entry of a work item's session or job. -/
def State.placementOf (s : State) (c : Ctx) : Nat :=
  match c with
  | .session i => (s.ses i).placement
  | .job j => ((s.job j).map (fun x => x.placement)).getD 0

/-- The scope unit a face's muster runs in (R291). -/
def State.scopeUnit (s : State) (p scope : Nat) (c : Ctx) : Nat :=
  if scope = 0 then 16 * levelOf p + driftOf p
  else if scope = 1 then levelOf p
  else if scope = 2 then 0
  else s.placementOf c

/-- The logical faces a placement entry names (R356). -/
def State.placementFaces (s : State) (n : Nat) : List Nat :=
  match s.boot.plan with
  | some pl => (pl.placement.getD n {}).faces
  | none => []

/-- The spread of a muster's scope, ns (R291). -/
def State.spread (s : State) (scope unit : Nat) : Nat :=
  if scope = 0 then 100
  else if scope = 1 then 400
  else if scope = 2 then 1200
  else
    let fs := s.placementFaces unit
    match fs with
    | [] => 100
    | f :: r => if r.all (fun g => g / 16 == f / 16) then 100 else if r.all (fun g => g / 256 == f / 256) then 400 else 1200

/-- Has face p completed every descriptor and step it issued (R291)? -/
def State.quiet (s : State) (p : Nat) : Bool :=
  let f := s.face p
  f.engines.all (fun g => g.queue.isEmpty) && f.fused.isNone && f.missed.isEmpty

/-- Has face p a compressor or coder job that its level has not completed (R217, R310)? -/
def State.hasJobs (s : State) (p : Nat) : Bool :=
  let v := s.level (levelOf p)
  v.blkQ.any (fun j => j.face == p) || v.blkUnits.any (fun u => u.any (fun j => j.face == p)) || v.coderQ.any (fun j => j.face == p) ||
    v.coders.any (fun c => c.any (fun x => x.job.any (fun j => j.face == p)))

/-- Is m the muster of this scope, unit and identifier? -/
def sameMuster (scope unit id : Nat) (m : MusterState) : Bool := m.scope == scope && m.unit == unit && m.id == id

/-- Is a logical face in the scope of a muster (R291)? -/
def State.inScope (s : State) (scope unit lf : Nat) : Bool :=
  if scope = 0 then lf / 16 == unit else if scope = 1 then lf / 256 == unit else if scope = 2 then true
  else (s.placementFaces unit).contains lf

/-- Is a logical face a participant of a muster of a placement's work: one the placement names, in the scope (R291; log entry 90)? -/
def State.takesPart (s : State) (scope unit placement lf : Nat) : Bool :=
  s.inScope scope unit lf && (s.placementFaces placement).contains lf

/-- The participants whose slot became absent: they count as arrived (R292). -/
def State.absentIn (s : State) (scope unit placement : Nat) : List Nat := s.boot.absent.filter (s.takesPart scope unit placement)

/-- Does another unreleased muster hold or await face lf: one it issued has not completed (R291)? -/
def State.inMuster (s : State) (lf : Nat) (except : MusterState → Bool) : Bool :=
  s.musters.any (fun m => !except m && (m.arrived.contains lf || m.waiting.any (fun w => w.face == lf)))

/-- A face at a muster (R292): it arrives, or where it has arrived, or the muster has all its participants, waits for the release. -/
def MusterState.meet (m : MusterState) (w : MusterWait) (now : Nat) : MusterState :=
  if m.arrived.contains w.face || decide (m.parts ≤ m.arrived.length) then { m with waiting := m.waiting ++ [w] }
  else { m with arrived := m.arrived ++ [w.face], lastAt := now }

/-- A muster as its first face opens it. -/
def State.openMuster (s : State) (scope unit id : Nat) (w : MusterWait) : MusterState :=
  { scope, unit, id, parts := w.parts, notBefore := w.notBefore, arrived := (w.face :: s.absentIn scope unit w.placement).eraseDups,
    lastAt := s.now, deadline := w.deadline, placement := w.placement, waiting := [] }

/-- A face arrives at the muster of a scope, unit and identifier, which opens where none is unreleased. -/
def State.arriveAt (s : State) (scope unit id : Nat) (w : MusterWait) : State :=
  if s.musters.any (sameMuster scope unit id) then
    { s with musters := s.musters.map (fun m => if sameMuster scope unit id m then m.meet w s.now else m) }
  else { s with musters := s.musters ++ [s.openMuster scope unit id w] }

/-- MUSTER (R291, R292): the face arrives; where it must, it waits for the release of the muster of the same identifier. -/
def execMuster (p offset : Nat) (work : Work) (s : State) : Host.Outcome State Fault Refusal :=
  let b := s.readMem (storeBase p + offset) 16
  let c := parseMuster b
  let u := s.scopeUnit p c.scope work.ctx
  let lf := (s.logicalOf p).getD 0
  let w : MusterWait := { face := lf, parts := c.parts, notBefore := c.notBefore, deadline := work.deadline, placement := s.placementOf work.ctx }
  when (faceWf p && s.faceRuns p && s.quiet p && !s.hasJobs p && s.workOpen work && decide (offset + 16 ≤ storeBytes) && musterOk b &&
      !s.inMuster lf (sameMuster c.scope u c.id)) s ((s.arriveAt c.scope u c.id w).endItem p offset)

/-- The release tick of a muster whose participants have all arrived (R291). -/
def State.releaseTick (s : State) (m : MusterState) : Nat :=
  launchGrain (if m.parts = 0 then m.notBefore else max m.notBefore (m.lastAt + s.spread m.scope m.unit))

/-- The level whose LVL_MUSTER_LATE counts a muster: the scope's, or that of the first face to arrive. -/
def musterLevel (m : MusterState) : Nat :=
  if m.scope = 0 then m.unit / 16 else if m.scope = 1 then m.unit else (m.arrived.headD 0) / 256

/-- MUSTER_RELEASE (R291, R292): every participant resumes; the faces that waited arrive at the next muster. -/
def execMusterRelease (scope unit id : Nat) (s : State) : Host.Outcome State Fault Refusal :=
  match s.musters.find? (sameMuster scope unit id) with
  | none => ok s
  | some m =>
    let s1 : State := { s with musters := s.musters.filter (fun x => !sameMuster scope unit id x) }
    let s2 := if m.deadline < s.releaseTick m then s1.bumpReg (lvlReg (musterLevel m) 0x620) 1 else s1
    let s3 := s2.each m.waiting (fun s w => s.arriveAt scope unit id w)
    when (decide (m.parts ≤ m.arrived.length) && decide (s.releaseTick m ≤ s.now)) s s3

/-! Trams. -/

/-- Is an engine's descriptor a tram receive descriptor of (layer, chunk)? An empty transfer takes none (R276). -/
def matchesChunk (layer chunk : Nat) (q : QueuedDesc) : Bool :=
  let d := parseDesc q.bytes
  d.op == 3 && q.layer == layer && d.param == chunk && !q.stored && d.count != 0

/-- The receive descriptor of (layer, chunk) among those a mover of face p has outstanding (R21). -/
def Engine.receives (g : Engine) (p layer chunk : Nat) : Option QueuedDesc :=
  (g.queue.take 8).find? (fun q => matchesChunk layer chunk q && !tramInjects p (parseDesc q.bytes))

/-- TRAM (R293, R298): a mover takes a descriptor that injects its chunk when its turn comes, or waits to receive one. -/
def execTram (p engine offset : Nat) (layer : Nat) (work : Work) (s : State) : Host.Outcome State Fault Refusal :=
  when (s.canQueue p engine offset 3 work) s
    (let s1 := s.queueDesc p engine offset layer work
     if (s.engine p engine).queue.isEmpty then s1.issue p engine else s1)

/-- The mover of face p whose queue holds the receive descriptor of (layer, chunk). -/
def State.tramMover (s : State) (p layer chunk : Nat) : Option Nat :=
  [4, 5].find? (fun e => ((s.engine p e).receives p layer chunk).isSome)

/-- The receive descriptor of (layer, chunk) on engine e. -/
def State.tramDesc (s : State) (p e layer chunk : Nat) : Option Desc :=
  ((s.engine p e).receives p layer chunk).map (fun q => parseDesc q.bytes)

/-- The tag of a skip a tram descriptor fills (R150, R283). -/
def Desc.firstTag (d : Desc) : Option (BitVec 4) := if d.tagSet then some (BitVec.ofNat 4 d.tag) else none

/-- A queue with the first receive descriptor of (layer, chunk) marked done (R293). -/
def markStored (p layer chunk : Nat) : List QueuedDesc → List QueuedDesc
  | [] => []
  | q :: l => if matchesChunk layer chunk q && !tramInjects p (parseDesc q.bytes) then { q with stored := true } :: l
    else q :: markStored p layer chunk l

/-- The chunk's skip of n bytes handed on, its receive descriptor done (R293). -/
def State.tramDone (s : State) (p e r layer chunk place : Nat) (tag : Option (BitVec 4)) (n : Nat) : State :=
  let g := s.engine p e
  (s.setEngine p e { g with queue := markStored p layer chunk g.queue }).publish p r place n tag

/-- The chunk stored whole into a skip of the mover's ring as it passes (R293, log entry 92). -/
def State.tramStore (s : State) (p e r layer chunk place : Nat) (tag : Option (BitVec 4)) (data : Bytes) : State :=
  ((s.busWrite (s.bufferAt p r place) data).tramDone p e r layer chunk place tag data.length).bumpReg (fceReg p (0x404 + 16 * e)) data.length

/-- The face leaves the multicast of a chunk (R293): kept for the refetch, counted as a straggler. -/
def State.tramLeave (s : State) (p e layer chunk dueBy bytes : Nat) : State :=
  let f := s.face p
  let m : TramMissed := { engine := e, layer, chunk, dueBy, bytes }
  (s.setFace p { f with missed := f.missed ++ [m] }).bumpReg (drfReg (levelOf p) (driftOf p) 0x104) 1

/-- Ring segments from position a upward to position b (R23). -/
def segmentsUp (a b : Nat) : List Nat := (List.range ((b + 17 - a) % 17)).map (fun k => (a + k) % 17)

/-- Does a chunk from position a reach position b of drift (l, d): up the ring past no faulted segment, or, while one is faulted, down it
(R294)? -/
def State.tramReaches (s : State) (l d a b : Nat) : Bool :=
  let m := s.field (drfReg l d 0x10) 0 17
  (segmentsUp a b).all (fun k => !bitAt m k) || (m != 0 && (segmentsUp b a).all (fun k => !bitAt m k))

/-- The chunk that face p is to see next of those a home face has on their way: one source's messages arrive in the order sent (R24). -/
def State.nextChunk (s : State) (home p : Nat) : Option TramChunk := s.trams.find? (fun c => c.home == home && !c.visited.contains p)

/-- A chunk has reached face p; it is gone once it has reached every other face of its drift. -/
def State.chunkSeen (s : State) (c : TramChunk) (p : Nat) : State :=
  let v := { c with visited := c.visited ++ [p] }
  let done := (driftFaces (levelOf c.home) (driftOf c.home)).all (fun q => q == c.home || v.visited.contains q)
  { s with trams := if done then s.trams.erase c else s.trams.replace c v }

/-- What a face's ring stop does with a chunk (R293): a face with a matching receive descriptor stores it where it is at work, a skip is
free and the chunk is not late, else leaves the multicast; every other face forwards it. A skip that a refetch fills is not free. -/
def State.takeChunk (s : State) (p : Nat) (c : TramChunk) : State :=
  match s.tramMover p c.layer c.chunk with
  | none => s
  | some e =>
    match s.tramDesc p e c.layer c.chunk with
    | none => s
    | some d =>
      let r := d.dstRing.getD 0
      let room := s.faceRuns p && s.ringRoom p r && (s.ring p r).filling.isNone && decide (s.now ≤ c.dueBy) &&
        decide (c.data.length ≤ (s.ringRec p r).skipBytes)
      match s.nextPlace p r with
        | some k => if room then s.tramStore p e r c.layer c.chunk k d.firstTag c.data
          else s.tramLeave p e c.layer c.chunk c.dueBy c.data.length
        | none => s.tramLeave p e c.layer c.chunk c.dueBy c.data.length

/-- TRAM_CHUNK_ARRIVE (R24, R293): the first flit of the chunk at the head of its source's flow reaches the stop of face p. -/
def execTramChunkArrive (home p layer chunk dueBy : Nat) (data : Bytes) (s : State) : Host.Outcome State Fault Refusal :=
  match s.nextChunk home p with
  | none => ok s
  | some c =>
    when (faceWf p && faceWf home && p != home && levelOf p == levelOf home && driftOf p == driftOf home && c.layer == layer &&
        c.chunk == chunk && c.dueBy == dueBy && c.data == data && s.tramReaches (levelOf p) (driftOf p) (posOf home) (posOf p)) s
      ((s.takeChunk p c).chunkSeen c p)

/-- The first granule of n bytes from address a that an access meets an error at: its address there, and the KIND (R30). -/
def State.spanError (s : State) (a n : Nat) (write : Bool) : Option (Nat × Nat) :=
  (List.range ((a % 64 + n + 63) / 64)).findSome? (fun i =>
    let b := if i = 0 then a else a / 64 * 64 + 64 * i
    (s.accessError b (min (granLeft b) (a + n - b)) write).map (fun k => (b, k)))

/-- The bytes of a refetch from address a, n left, that move now, granule by granule: up to the first that errs, and as far as the rate
credit goes (R30, R279). -/
def State.refetchBytes (s : State) (g : Engine) (d : Desc) (a n : Nat) : Nat :=
  let lim := min ((s.spanError a n false).elim n (fun x => x.1 - a)) ((s.poisonAt [(a, n)]).elim n (fun x => x / 32 * 32 - a))
  if d.rateEn ∧ g.credit / 256 < lim then (a + g.credit / 256) / 64 * 64 - a else lim

/-- A refetch that has come to address a, where a poisoned granule stops its engine (R287, R339). -/
def State.refetchPoison (s : State) (p e a : Nat) : State :=
  match s.poisonAt [(a, 1)] with
  | some x => (s.noteRead x p ((s.engine p e).queue.head?.map (fun q => q.work.ctx))).engineUe p e (s.engine p e) x
  | none => s

/-- A refetch of a missed chunk into buffer k of ring r goes on (R293): what moves now is read from the home copy at AUX_SRC and written; at
its end the skip is handed on and the refetch counted; an error response stops the engine. -/
def State.refetch (s : State) (p e r k : Nat) (m : TramMissed) (d : Desc) : State :=
  let g := { (s.engine p e).accrue s.now (if d.rateEn then d.share else 0) with key := m.dueBy }
  let a := d.auxSrc + m.done
  let n := s.refetchBytes g d a (m.bytes - m.done)
  let g1 := { g with credit := if d.rateEn then g.credit - 256 * n else g.credit,
                     waiting := if m.done + n < m.bytes then 3 else 0 }
  let f := s.face p
  let m1 := { m with done := m.done + n }
  let whole := decide (m.bytes ≤ m1.done)
  let s1 := (s.setFace p { f with missed := if whole then f.missed.erase m else f.missed.replace m m1 }).setEngine p e g1
  let s2 := (s1.busWrite (s.bufferAt p r k + m.done) (s.memBytes a n)).bumpReg (fceReg p (0x404 + 16 * e)) n
  if whole then (s2.tramDone p e r m.layer m.chunk k d.firstTag m.bytes).bumpReg (fceReg p 0x520) 1
  else
    let s3 := s2.setRing p r { s2.ring p r with filling := some k }
    match s.spanError a (m.bytes - m.done) false with
    | some x => if x.1 = a + n then s3.engineError p e (s3.engine p e) 1 x.1 (some x.2) else s3.refetchPoison p e (a + n)
    | none => s3.refetchPoison p e (a + n)

/-- A refetch of the chunk a face missed (R293): the chunk read from its home copy into the next free skip, keyed by its DUE_BY (R285), transaction after
transaction as far as its rate credit goes. -/
def State.tramRefetch (s : State) (p engine : Nat) : State :=
  match (s.face p).missed.find? (fun m => m.engine == engine) with
  | none => s
  | some m =>
    match s.tramDesc p engine m.layer m.chunk with
    | none => s
    | some d =>
      match d.dstRing with
      | none => s
      | some r =>
        match (if m.done = 0 then s.nextPlace p r else (s.ring p r).filling) with
        | none => s
        | some k =>
          if (faceWf p && s.faceRuns p && s.ringRoom p r && !(s.engine p engine).stopped && (m.done != 0 || (s.ring p r).filling.isNone)) then
            s.refetch p engine r k m d
          else s

/-! Borrowed buffers. -/

/-- The face's pool skips that no ring holds. -/
def State.poolFree (s : State) (p : Nat) : List Nat :=
  let n := (s.faceRings ((s.logicalOf p).getD 1024)).poolCount
  let held := (s.face p).rings.flatMap (fun g => g.pool.map (fun k => k.1))
  (List.range n).filter (fun k => !held.contains k)

/-- May ring r of face p borrow, the order among rings apart (R295): BORROW set, sizes alike, full, below COUNT, not barred? -/
def State.borrows (s : State) (p r : Nat) : Bool :=
  let g := s.ring p r
  let d := s.ringRec p r
  let f := s.faceRings ((s.logicalOf p).getD 1024)
  d.borrow && d.skipBytes == f.poolBytes && g.occ == s.ringCap p r && decide (s.ringCap p r < d.count) && !g.noBorrow

/-- The key of the fill that ring r of face p waits with (R285). -/
def State.ringKey (s : State) (p r : Nat) : Nat :=
  match (s.fillers p r).head? with
  | some k => (((s.engine k.1 k.2).queue.head?).map (s.transferKey k.1)).getD s.now
  | none => ((s.face p).fused.map (fun u => s.fillKey p p r u.work)).getD s.now

/-- May ring r of face p take a free pool skip: no ring of the face that waits for one has an earlier key (R285, R295)? -/
def State.mayBorrow (s : State) (p r : Nat) : Bool :=
  s.borrows p r && !(s.poolFree p).isEmpty &&
    !(List.range 16).any (fun q => q != r && (s.ring p q).waitSpace && s.borrows p q && keyBefore (s.ringKey p q) (s.ringKey p r))

/-- Lots no ring of the level holds, no session reserves, and that are not disabled (R225, R237, R295, R368). -/
def State.freeLots (s : State) (l : Nat) : List Nat :=
  (List.range 64).filter (fun k => !(s.level l).lotHeld k && !s.boot.disabled.contains { kind := 6, index := 64 * l + k } &&
    !Config.lotReserved ((s.boot.plan.map (fun pl => pl.d)).getD []) l k)

/-- A coder context of a level. -/
def State.ctxAt (s : State) (l c x : Nat) : CoderCtx := ((s.level l).coders.getD c []).getD x {}

/-- The bytes lot ring w of a context fills at most. -/
def State.lotCap (s : State) (l c x w : Nat) : Nat := (s.level l).lotCap l c x w

/-- Is a lot ring full: no room for another record, for the next bytes its coder writes, or for more of a slice to decode? -/
def State.lotFull (s : State) (l c x w : Nat) : Bool :=
  let k := s.ctxAt l c x
  if w = 0 then k.job.any (fun j =>
    if coderDecodes j.desc then decide (j.brought < j.data.length) && decide (s.lotCap l c x 0 ≤ k.lotFill 0)
    else (s.level l).noRoom l c x)
  else decide (s.lotCap l c x w < k.lotFill w + 4)

/-- May a lot ring borrow, the order among rings apart (R295): its context has a job, it is full, and it has not had to return one during
the job? -/
def State.lotBorrows (s : State) (l c x w : Nat) : Bool :=
  (s.ctxAt l c x).job.isSome && s.lotFull l c x w && !(s.ctxAt l c x).barred.contains w

/-- As much of a decode context's SLICE_DATA brought into DATA_RING as it has room for (R225). -/
def State.bring (s : State) (l c x : Nat) : State :=
  let v := s.level l
  let k := s.ctxAt l c x
  let up := fun (j : CoderJob) => { j with brought := max j.brought (min j.data.length (k.range.read + v.lotCap l c x 0)) }
  s.setLevel l { v with coders := v.coders.set c ((v.coders.getD c []).set x { k with job := k.job.map up }) }

/-- Of its lots to be returned, those a ring still has data in, as many as its fill takes beyond the others (R295). -/
def State.lotsInUse (s : State) (l c x w : Nat) : Nat := ((s.ctxAt l c x).lotFill w - s.lotCap l c x w + 65535) / 65536

/-- The lots of a level that have to be returned and hold no data any more go back (R295). -/
def State.returnLots (s : State) (l : Nat) : State :=
  let v := s.level l
  let rank := fun (i : Nat) (o : RingRef × Nat × Nat) => (v.sharedLots.take i).countP (fun q => q.1 == o.1 && q.2.2 == 2 ^ 64)
  let stays := fun (i : Nat) (o : RingRef × Nat × Nat) => match o.1 with
    | .lot _ c x w => o.2.2 != 2 ^ 64 || decide (rank i o < s.lotsInUse l c x w)
    | .face .. => true
  let kept := ((List.range v.sharedLots.length).zip v.sharedLots).filter (fun q => stays q.1 q.2)
  s.setLevel l { v with sharedLots := kept.map (fun q => q.2) }

/-- The key a context's rings wait with: its job's deadline (R217, R285). -/
def State.ctxKey (s : State) (l c x : Nat) : Nat := ((s.ctxAt l c x).job.map (fun j => leAt j.desc 24 8)).getD 0

/-- Every lot ring of a level. -/
def lotRings : List (Nat × Nat × Nat) :=
  (List.range 16).flatMap (fun c => (List.range 4).flatMap (fun x => [0, 1, 2].map (fun w => (c, x, w))))

/-- May a lot ring take a shared lot: no ring of the level that waits for one has an earlier key (R285, R295)? -/
def State.mayBorrowLot (s : State) (l c x w : Nat) : Bool :=
  s.lotBorrows l c x w && !(s.freeLots l).isEmpty &&
    !lotRings.any (fun q => (q.1, q.2.1, q.2.2) != (c, x, w) && s.lotBorrows l q.1 q.2.1 q.2.2 &&
      keyBefore (s.ctxKey l q.1 q.2.1) (s.ctxKey l c x))

/-- Is a work item a session's, or a job's that learns from it? -/
def State.worksFor (s : State) (id : Nat) : Ctx → Bool
  | .session i => i == id
  | .job j => (s.job j).any (fun k => k.source == id)

/-- A frame start of a session: the rings its work borrowed for may borrow again (R295). -/
def State.mayBorrowAgain (s : State) (id : Nat) : State :=
  { s with faces := s.faces.map (fun e => (e.1, { e.2 with rings := e.2.rings.map (fun g =>
      if g.noBorrow && g.borrower.any (s.worksFor id) then { g with noBorrow := false } else g) })) }

/-- POOL_BORROW (R295): a full ring takes a free pool skip, a lot ring a shared lot, until RETURN_BY. -/
def execPoolBorrow (ring : RingRef) (ctx : Ctx) (s : State) : Host.Outcome State Fault Refusal :=
  let due := s.now + s.slack ctx
  match ring with
  | .face p r =>
    let g := s.ring p r
    let k := (s.poolFree p).headD 0
    when (faceWf p && decide (r < 16) && s.faceRuns p && s.mayBorrow p r) s
      (s.setRing p r { g with pool := g.pool ++ [(k, due)], borrower := some ctx, waitSpace := false })
  | .lot l c x w =>
    let v := s.level l
    let k := (s.freeLots l).headD 0
    when (ring.wf && s.levelUp l && s.mayBorrowLot l c x w) s
      ((((s.setLevel l { v with sharedLots := v.sharedLots ++ [(.lot l c x w, k, due)] })).bring l c x).lotsMin l)

/-- A lot ring's borrowed lots that are due: the ring borrows no more for its job and fills them no more (R295). -/
def State.dueLots (s : State) (l c x w : Nat) : State :=
  let v := s.level l
  let k := s.ctxAt l c x
  s.setLevel l { v with
    sharedLots := v.sharedLots.map (fun o => if lotOf l c x w o && decide (o.2.2 ≤ s.now) then (o.1, o.2.1, 2 ^ 64) else o)
    coders := v.coders.set c ((v.coders.getD c []).set x { k with barred := k.barred ++ [w] }) }

/-- BORROW_RETURN_BY (R295): the ring stops filling borrowed buffers, those that hold nothing go back; one due that still holds data
counts in LVL_REVOKED. -/
def execBorrowReturnBy (ring : RingRef) (s : State) : Host.Outcome State Fault Refusal :=
  match ring with
  | .face p r =>
    let g := s.ring p r
    let holds := fun (k : Nat × Nat) => g.skips.any (fun w => w.2.place == k.1 + 128) || g.filling == some (k.1 + 128)
    let due := fun (k : Nat × Nat) => decide (k.2 ≤ s.now)
    let kept := (g.pool.filter holds).map (fun k => if due k then (k.1, 2 ^ 64) else k)
    when (faceWf p && decide (r < 16) && g.pool.any due) s
      ((s.setRing p r { g with noBorrow := true, pool := kept }).bumpReg (lvlReg (levelOf p) 0x610)
        (g.pool.countP (fun k => holds k && due k)))
  | .lot l c x w =>
    let old := (s.level l).sharedLots.countP (fun o => lotOf l c x w o && o.2.2 == 2 ^ 64)
    let s1 := (s.dueLots l c x w).returnLots l
    let left := (s1.level l).sharedLots.countP (fun o => lotOf l c x w o && o.2.2 == 2 ^ 64)
    when (ring.wf && (s.level l).sharedLots.any (fun o => lotOf l c x w o && decide (o.2.2 ≤ s.now))) s
      (s1.bumpReg (lvlReg l 0x610) (left - old))

/-! The ring monitor. -/

/-- A wait on a ring of face p: its number, or, where lot names one, a lot ring's first lot; the stages that wait and are waited on,
numbered face × 8 + engine (6 for cells), and from 16,384 on the coder contexts; how far the ring has moved. -/
structure Wait where
  p    : Nat
  r    : Nat
  lot  : Option Nat := none
  src  : Nat
  dst  : Nat
  mark : Nat × Nat := (0, 0)
  deriving DecidableEq, Repr

/-- The stage of face p whose work satisfies f: an engine by its head descriptor, or a fused step. -/
def State.stageOf (s : State) (p : Nat) (byDesc : Desc → Bool) (byStep : FusedStep → Bool) : Option Nat :=
  let e := (List.range 6).find? (fun e => match (s.engine p e).queue with
    | q :: _ => byDesc (parseDesc q.bytes)
    | [] => false)
  match e with
  | some k => some (p * 8 + k)
  | none => match (s.face p).fused with
    | some c => ((fusedList c.bytes).find? byStep).map (fun st => p * 8 + st.engine)
    | none => none

/-- The producer stage of ring (p, r). -/
def State.producerOf (s : State) (p r : Nat) : Nat :=
  match (s.fillers p r).head? with
  | some k => k.1 * 8 + k.2
  | none => (s.stageOf p (fun d => d.dstRing == some r) (fun st => st.outRing == some r)).getD (p * 8 + 6)

/-- The consumer stage of ring (p, r). -/
def State.consumerOf (s : State) (p r : Nat) : Nat :=
  (s.stageOf p (fun d => d.srcRing == some r) (fun st => st.inRing == some r)).getD (p * 8 + 6)

/-- The waits of the rings of the faces sel picks (R296); the stages of a face that has stopped wait for nothing. -/
def State.ringWaits (s : State) (sel : Nat → Bool) : List Wait :=
  (s.faces.filter (fun e => sel e.1 && !e.2.stopped)).flatMap (fun e => (List.range 16).filterMap (fun r =>
    let g := s.ring e.1 r
    let m := (g.head, g.tail)
    if g.waitSpace then some { p := e.1, r := r, src := s.producerOf e.1 r, dst := s.consumerOf e.1 r, mark := m }
    else if g.waitData then some { p := e.1, r := r, src := s.consumerOf e.1 r, dst := s.producerOf e.1 r, mark := m }
    else none))

/-- The stage number of a coder context. -/
def ctxStage (l c x : Nat) : Nat := 16384 + (16 * l + c) * 4 + x

/-- The waits of a context's lot rings (R225, R296): the context waits for records of the face's stage, or for it to read ŷ; the face's
stage waits for room for its records. -/
def State.ctxWaits (s : State) (l c x : Nat) : List Wait :=
  let v := s.ctxAt l c x
  match v.job with
  | none => []
  | some j =>
    let me := ctxStage l c x
    let face := j.face * 8 + 6
    let at' := fun (w src dst a b : Nat) => ({ p := j.face, r := 0, lot := some (lotRing (lotField j.desc w)).1, src, dst, mark := (a, b) } : Wait)
    let waits := (s.level l).ctxWaits l c x
    let room := coderDecodes j.desc && (s.level l).noRoom l c x
    if (s.face j.face).stopped then []
    else (if waits && j.records.isEmpty && v.next == 2 && !room then [at' 1 me face v.done j.fed] else []) ++
      (if waits && room then [at' 2 me face v.drained v.done] else []) ++
      (if v.pressed then [at' 1 face me v.done j.fed] else [])

/-- The waits of every ring and lot ring of the levels and faces sel picks. -/
def State.waits (s : State) (sel : Nat → Bool) : List Wait :=
  s.ringWaits sel ++ ((List.range 4).filter (fun l => sel (512 * l))).flatMap (fun l =>
    (List.range 16).flatMap (fun c => (List.range 4).flatMap (fun x => s.ctxWaits l c x)))

/-- A path of waits from stage a to stage b, each wait used at most once. -/
def waitPath (ws : List Wait) (b : Nat) : Nat → Nat → List Wait → Option (List Wait)
  | 0, _, _ => none
  | fuel + 1, a, used =>
    if a = b ∧ used ≠ [] then some used
    else (ws.filter (fun w => w.src == a && !used.contains w)).findSome? (fun w =>
      waitPath ws b fuel w.dst (used ++ [w]))

/-- A wait's number: its face, then its ring or, after the rings, its lot. -/
def Wait.order (w : Wait) : Nat := w.p * 128 + (match w.lot with
  | none => w.r
  | some k => 16 + k)

/-- A cycle from its lowest-numbered member on (R299). -/
def fromLowest (c : List Wait) : List Wait :=
  let low := (c.map Wait.order).foldl min (((c.map Wait.order).head?).getD 0)
  let k := c.findIdx (fun w => w.order == low)
  c.drop k ++ c.take k

/-- The first cycle of waits, from the lowest-numbered face. -/
def waitCycle (ws : List Wait) : Option (List Wait) :=
  (ws.findSome? (fun w => waitPath ws w.src (ws.length + 1) w.src [])).map fromLowest

/-- The cycles of waits, no two with a wait in common. -/
def waitCycles : Nat → List Wait → List (List Wait)
  | 0, _ => []
  | n + 1, ws =>
    match waitCycle ws with
    | none => []
    | some c => c :: waitCycles n (ws.filter (fun w => !c.contains w))

/-- The cycles of waits a sample finds (R296). -/
def State.cycles (s : State) (sel : Nat → Bool) : List (List Wait) := waitCycles (s.waits sel).length (s.waits sel)

/-- What a sample keeps of a cycle: its rings with their HEAD and TAIL. -/
def cycleMark (c : List Wait) : List (Nat × Nat × Nat × Nat) :=
  c.map (fun w => (w.p, w.r + 64 * (w.lot.map (fun k => k + 1)).getD 0, w.mark.1, w.mark.2))

/-- The owner of the work on a face that was issued first. -/
def Face.owner (f : Face) : Option Ctx :=
  let all := f.engines.flatMap (fun g => g.queue.map (fun q => (q.seq, q.work.ctx))) ++ (f.fused.map (fun u => (u.seq, u.work.ctx))).toList
  (all.foldl (fun (b : Option (Nat × Ctx)) q => if b.all (fun x => decide (q.1 < x.1)) then some q else b) none).map (fun q => q.2)

/-- A cyclic wait declared (R296): its faces stop, the record is filled or counted as missed, CYCLIC_WAIT raised. -/
def State.cyclicWait (s : State) (c : List Wait) : State :=
  match c with
  | [] => s
  | w :: rest =>
    let n := rest.headD w
    let l := levelOf w.p
    let w0 := w.p % 2 ^ 11 + w.r % 16 * 2 ^ 12 + min c.length 255 * 2 ^ 16 + 2 ^ 31
    let w1 := match n.lot with
      | none => n.p % 2 ^ 11 + n.r % 16 * 2 ^ 12
      | some k => n.p % 2 ^ 11 + k % 64 * 2 ^ 16 + 2 ^ 22
    let s1 := s.each c (fun s x => s.stopFace x.p (s.face x.p).owner)
    let s2 := if s1.field (lvlReg l 0x600) 31 1 = 1 then s1.bumpReg (lvlReg l 0x608) 1
      else (s1.setRegNat (lvlReg l 0x600) w0).setRegNat (lvlReg l 0x604) w1
    s2.raise 0x41 4 0 l w.p none w0 w1

/-- Has a cycle been seen in the sample before, with no HEAD or TAIL moved since? -/
def seenCycle (seen : List (Nat × Nat × Nat × Nat)) (c : List Wait) : Bool := (cycleMark c).all (fun x => seen.contains x)

/-- One sample of the monitor: each cycle seen in the sample before is a cyclic wait; the others are remembered. -/
def State.sampleWaits (s : State) (sel : Nat → Bool) (seen : List (Nat × Nat × Nat × Nat)) :
    State × List (Nat × Nat × Nat × Nat) :=
  let cs := s.cycles sel
  (s.each (cs.filter (seenCycle seen)) (fun s c => s.cyclicWait c), (cs.filter (fun c => !seenCycle seen c)).flatMap cycleMark)

/-- RING_MONITOR_SAMPLE (R296): every 10 µs, each level. -/
def execRingMonitorSample (level : Nat) (s : State) : Host.Outcome State Fault Refusal :=
  let r := s.sampleWaits (fun p => levelOf p == level) (s.level level).waitSeen
  when (decide (level < 4) && s.levelUp level) s (r.1.setLevel level { r.1.level level with waitSeen := r.2 })

/-- WAIT_JOIN_SAMPLE (R296): every 1 ms, over all levels. -/
def execWaitJoinSample (s : State) : Host.Outcome State Fault Refusal :=
  let r := s.sampleWaits (fun _ => true) s.joinSeen
  ok { r.1 with joinSeen := r.2 }

/-! Idle faces. -/

/-- FACE_IDLE_GATE (R393): a face without work for 1 µs gates its clocks. No state is lost. -/
def execFaceIdleGate (p : Nat) (s : State) : Host.Outcome State Fault Refusal :=
  when (faceWf p && s.quiet p && decide ((s.face p).lastWork + 1000 ≤ s.now)) s
    (s.setFace p { s.face p with gated := true })

/-- FACE_UNGATE (R393). -/
def execFaceUngate (p : Nat) (s : State) : Host.Outcome State Fault Refusal :=
  when (faceWf p) s (s.setFace p { s.face p with gated := false })

end Sys2Proof.Machine
end

