-- ==== Sys2Proof/Machine/RoundOps.lean ====
section
/-! DEFINITION. Round controllers: what a round holds, arming, aborting and withdrawing (R322 to R331), the frame schedule
(R251), and the CDF banks' state (R234, R237). -/

namespace Sys2Proof.Machine

open Sys2Proof

/-! The schedule. -/

/-- S(k) of R251. -/
def Session.startOf (x : Session) (k : Nat) : Nat := x.start0 + launchGrain (k * x.periodNum / x.periodDen)

/-- D(k) of R251. -/
def Session.deadlineOf (x : Session) (k : Nat) : Nat := x.startOf k + x.deadlineOff

/-- Is the session live: neither FREE nor PARKED? -/
def SesState.live : SesState → Bool
  | .free => false
  | .parked => false
  | .opening => true
  | .active => true
  | .parking => true
  | .resuming => true
  | .closing => true

/-- The first frame start of a session at or after t, from the next frame start on: of a decode session, whose frames start as their headers
are accepted (R252), the start its period puts there after its latest one (log entry 94). -/
def Session.nextStart (x : Session) (t : Nat) : Nat :=
  let from' := if x.decode then x.dec.lastStart.getD t else x.start0
  let at' := fun k => from' + launchGrain (k * x.periodNum / x.periodDen)
  let k0 := (t - from') * x.periodDen / x.periodNum - 1
  let k := if x.decode then k0 else max x.frameIndex k0
  (([k, k + 1, k + 2, k + 3].map at').find? (fun v => decide (t ≤ v))).getD (launchGrain t)

/-! Levels in service. -/

/-- Is level l in service, neither parked nor in reset, and no warm module reset in progress? -/
def State.levelServes (s : State) (l : Nat) : Bool :=
  let v := s.level l
  v.inService && v.parked == 0 && !v.inReset && s.boot.warmCause.isNone

/-- Is id a session identifier, and do sessions run: no warm module reset is in progress (R380)? -/
def State.sesLive (s : State) (id : Nat) : Bool := sesIdOk id && s.boot.warmCause.isNone

/-- The levels that serve. -/
def State.servingLevels (s : State) : List Nat := (List.range 4).filter s.levelServes

/-- CUR_BANK, the same on every level in service (R399). -/
def State.curBank (s : State) : Nat := s.field (lvlReg (s.servingLevels.headD 0) 0x300) 0 1

/-- SHADOW_STATE, kept alike on every level in service. -/
def State.shadowState (s : State) : Nat := s.field (lvlReg (s.servingLevels.headD 0) 0x300) 1 3

/-- SHADOW_STATE of every level set. -/
def State.setShadow (s : State) (v : Nat) : State := s.each (List.range 4) (fun s l => s.setField (lvlReg l 0x300) 1 3 v)

/-- Is a swap round armed, told to fire, with its time at or before t? -/
def State.swapBy (s : State) (t : Nat) : Bool :=
  s.rounds.any (fun r => r.armed && r.decided && decide (r.flip = .swap) && r.timed.any (fun T => decide (T ≤ t)))

/-- Is the bank a frame takes that starts at t the one that is not current: the new one at or after the time of a swap that is about to
fire, the old one before the time of the last swap while that bank is held (R233, R235)? -/
def State.otherBank (s : State) (t : Nat) : Bool :=
  let a := lvlReg (s.servingLevels.headD 0)
  s.swapBy t || (s.shadowState == 4 && decide (t < s.regNat (a 0x304) + s.regNat (a 0x308) * 2 ^ 32))

/-- The bank a frame takes that starts at t. -/
def State.bankAt (s : State) (t : Nat) : Nat := if s.otherBank t then 1 - s.curBank else s.curBank

/-- OLD_FRAMES of every level set. -/
def State.setOldFrames (s : State) (v : Nat) : State :=
  s.each (List.range 4) (fun s l => s.setField (lvlReg l 0x300) 8 16 v)

/-- The frames of a session bound to the bank that was current before time t (R233, R234): open ones, encode frames until they are settled
and decode frames until they are closed, and encode frames whose start time lies before t but which are still to begin. -/
def Session.boundTo (x : Session) (bank t : Nat) : Nat :=
  let encode := b2n (x.frame.any (fun f => !f.ckpt && b2n f.bank == bank))
  let decode := x.dec.frames.countP (fun f => !f.closed && !f.unknown && b2n f.bank == bank)
  let next := x.frameIndex + b2n x.frame.isSome
  encode + decode + if x.state = .active ∧ x.decode = false then (List.range 5).countP (fun i => decide (x.startOf (next + i) < t)) else 0

/-- OLD_FRAMES of a swap at time t away from a bank. -/
def State.boundFrames (s : State) (bank t : Nat) : Nat := s.sessions.foldl (fun n e => n + e.2.boundTo bank t) 0

/-- The frames still bound to the old bank counted again, as one of them closes (R234): at 0 the shadow is idle. -/
def State.countOld (s : State) : State :=
  if s.shadowState = 4 then
    let a := lvlReg (s.servingLevels.headD 0)
    let n := s.boundFrames (1 - s.curBank) (s.regNat (a 0x304) + s.regNat (a 0x308) * 2 ^ 32)
    let s1 := s.setOldFrames n
    if n = 0 then s1.setShadow 0 else s1
  else s

/-! Flip members. -/

/-- A flip member: a drift's remap table, a logical face's schedule, CUR_BANK, a session's HALF, GEN and descriptor fields, its
PLACEMENT and DEGRADED, the feature enables (R324). -/
inductive FlipKey where
  | remap (level drift : Nat)
  | schedule (logical : Nat)
  | bank
  | image (session : Nat)
  | placement (session : Nat)
  | enables
  deriving DecidableEq, Repr

/-- The flip members of a round. -/
def State.flipKeys (s : State) : Flip → List FlipKey
  | .remap ls => ls.flatMap (fun l => (List.range 16).map (fun d => .remap l d))
  | .takeover l d slot _ _ => [.remap l d, .schedule (256 * l + 16 * d + slot)]
  | .rejoin p _ => [.remap (levelOf p) (driftOf p)]
  | .swap => [.bank]
  | .checkpoint i => [.image i]
  | .migration i pl =>
    .placement i :: (s.placementFaces (s.ses i).placement ++ s.placementFaces pl).map (fun f => .schedule f)
  | .licence => [.enables]

/-- The members of a round as it is requested: those that hold a transfer, or a flip member to prepare. A swap takes every level that is
not parked; one in reset cannot flip (R232). -/
def State.flipMembers (s : State) : Flip → List Member
  | .remap ls => ls.map (fun l => { die := l })
  | .takeover l _ _ _ _ => [{ die := l }]
  | .rejoin p _ => [{ die := levelOf p }, { die := levelOf p }]
  | .swap => ((List.range 4).filter (fun l => (s.level l).inService && (s.level l).parked == 0)).map (fun l =>
      { die := l, st := if s.levelServes l then 0 else 2 })
  | .checkpoint i => [{ die := i / 262144 }, { die := i / 262144 }]
  | .migration i pl =>
    let fs := s.placementFaces (s.ses i).placement ++ s.placementFaces pl
    ((i / 262144 :: fs.map (fun f => f / 256)).eraseDups).map (fun l => { die := l })
  | .licence => (s.servingLevels ++ [4]).map (fun l => { die := l })

/-- The subject of a round (R344). -/
def Flip.subject : Flip → Nat
  | .remap ls => 16 * ls.headD 0
  | .takeover l d _ _ _ => 16 * l + d
  | .rejoin p _ => 16 * levelOf p + driftOf p
  | .swap => 0
  | .checkpoint i => i
  | .migration i _ => i
  | .licence => 0

/-- The level a round's event names (R342). -/
def Flip.eventLevel : Flip → Nat
  | .remap ls => ls.headD 0
  | .takeover l _ _ _ _ => l
  | .rejoin p _ => levelOf p
  | .swap => 0
  | .checkpoint i => i / 262144
  | .migration i _ => i / 262144
  | .licence => 0

/-- The session a round's event names. -/
def Flip.owner : Flip → Option Ctx
  | .checkpoint i => some (.session i)
  | .migration i _ => some (.session i)
  | .remap _ => none
  | .takeover .. => none
  | .rejoin .. => none
  | .swap => none
  | .licence => none

/-! Aborting. -/

/-- The round with identifier id. -/
def State.round (s : State) (id : Nat) : Option Round := s.rounds.find? (fun r => r.id == id)

/-- The rounds without one. -/
def State.removeRound (s : State) (id : Nat) : State := { s with rounds := s.rounds.filter (fun r => r.id != id) }

/-- A round put in place of the one with its identifier. -/
def State.setRound (s : State) (r : Round) : State :=
  { s with rounds := s.rounds.map (fun q => if q.id == r.id then r else q) }

/-- The abort record of R346, filled while VALID is 0. -/
def State.abortRecord (s : State) (c : Option Nat) (kind reason subject : Nat) : State :=
  if s.field (lvlOrCmd c 0x810) 31 1 = 1 then s
  else (s.setRegNat (lvlOrCmd c 0x810) (kind + reason * 16 + 2 ^ 31)).setRegNat (lvlOrCmd c 0x814) (subject % 2 ^ 20)

/-- A round aborts (R329): no flip member changes, the abort is counted and recorded, ROUND_ABORT is raised. An aborted swap
leaves its shadow ready (R232); an aborted checkpoint round counts in SES_CKPT_ABORT (R273). A round still waiting to be
armed is only given up. -/
def State.dropRound (s : State) (r : Round) (reason : Nat) : State :=
  let c := r.flip.controller
  let s1 := s.removeRound r.id
  if !r.armed then s1
  else
    let s2 := ((s1.bumpReg (lvlOrCmd c 0x808) 1).abortRecord c r.flip.kind reason r.flip.subject)
    let s3 := match r.flip with
      | .swap => if s2.shadowState = 3 then s2.setShadow 2 else s2
      | .checkpoint i => s2.bumpReg (lvlReg (i / 262144) 0x50C) 1
      | .remap _ => s2
      | .takeover .. => s2
      | .rejoin .. => s2
      | .migration .. => s2
      | .licence => s2
    s3.raise 0x06 0 (if c.isSome then 0 else 1) r.flip.eventLevel noFace r.flip.owner (r.flip.kind + reason * 16) r.flip.subject

/-- Every round sel picks aborted with a reason. -/
def State.dropRounds (s : State) (sel : Round → Bool) (reason : Nat) : State :=
  s.each (s.rounds.filter sel) (fun s r => s.dropRound r reason)

/-- A die enters reset (R331): rounds with a member on it abort with DIE_RESET, unless they have been decided or completed. -/
def State.dieReset (s : State) (die : Nat) : State :=
  s.dropRounds (fun r => r.armed && !r.decided && r.doneAt.isNone && r.members.any (fun m => m.die == die)) 6

/-! Arming. -/

/-- Has the controller room for one more armed round (R323)? -/
def State.roundRoom (s : State) (c : Option Nat) : Bool :=
  decide (s.armedOn c < match c with
    | some _ => 65536
    | none => 256)

/-- Does an armed round hold one of these flip members (R330)? -/
def State.keysHeld (s : State) (ks : List FlipKey) : Bool :=
  s.rounds.any (fun r => r.armed && (s.flipKeys r.flip).any (fun k => ks.contains k))

/-- Is round r displaced by a takeover in drift (l, d): a rejoin or migration round that holds its remap table or the schedule
of one of its slots (R330)? -/
def State.displaced (s : State) (l d : Nat) (r : Round) : Bool :=
  match r.flip with
  | .rejoin p _ => r.armed && levelOf p == l && driftOf p == d
  | .migration .. => r.armed && (s.flipKeys r.flip).any (fun k => match k with
      | .schedule f => f / 16 == 16 * l + d
      | .remap _ _ => false
      | .bank => false
      | .image _ => false
      | .placement _ => false
      | .enables => false)
  | .remap _ => false
  | .takeover .. => false
  | .swap => false
  | .checkpoint _ => false
  | .licence => false

/-- A round requested: it waits to be armed (R323, R330). -/
def State.addRound (s : State) (f : Flip) (timed : Option Nat) (deadline : Nat) (members : List Member)
    (single hold : Bool) : State :=
  let r : Round :=
    { id := s.nextRound, flip := f, armed := false, armedAt := 0, timed := timed, deadline := deadline, members := members,
      doneAt := none, decided := false, single := single, hold := hold, asked := s.now }
  { s with rounds := s.rounds ++ [r], nextRound := s.nextRound + 1 }

/-- Round r preempted by a takeover (R330): it aborts, and its owner keeps it for after the fire. -/
def State.preempt (s : State) (r : Round) : State :=
  (s.dropRound r 4).addRound r.flip none 0 (s.flipMembers r.flip) false true

/-- The rounds a takeover displaces, preempted. -/
def State.preemptFor (s : State) : Flip → State
  | .takeover l d _ _ _ => s.each (s.rounds.filter (s.displaced l d)) (fun s r => s.preempt r)
  | .remap _ => s
  | .rejoin .. => s
  | .swap => s
  | .checkpoint _ => s
  | .migration .. => s
  | .licence => s

/-- The abort deadline of a completion-triggered round armed now (R326). -/
def State.roundDeadlineOf (s : State) (r : Round) : Nat :=
  match r.flip with
  | .checkpoint i => s.now + (s.ses i).period
  | .takeover .. => r.deadline
  | .remap _ => s.now + 100000000
  | .rejoin .. => s.now + 100000000
  | .swap => 0
  | .migration .. => 0
  | .licence => 0

/-- Is the kind triggered by time (R324)? -/
def Flip.byTime : Flip → Bool
  | .remap _ => false
  | .takeover .. => false
  | .rejoin .. => false
  | .swap => true
  | .checkpoint _ => false
  | .migration .. => true
  | .licence => true

/-- The fire time of a migration round asked for now: the session's first frame start at least 100 µs away (R266, R325). The frames of a
decode session start as their headers are accepted (R252), so it has none yet (log entry 94). -/
def State.migrationTime (s : State) : Flip → Option Nat
  | .migration i _ => if (s.ses i).decode then none else some (launchGrain ((s.ses i).nextStart (s.now + 100000)))
  | .remap _ => none
  | .takeover .. => none
  | .rejoin .. => none
  | .swap => none
  | .checkpoint _ => none
  | .licence => none

/-- A waiting round armed if its controller has room and no armed round holds its flip members. -/
def State.tryArm (s : State) (id : Nat) : State :=
  match s.round id with
  | none => s
  | some r =>
    if r.armed || r.hold then s
    else
      let s1 := s.preemptFor r.flip
      if s1.roundRoom r.flip.controller && !s1.keysHeld (s1.flipKeys r.flip) then
        s1.setRound { r with armed := true, armedAt := s.now, deadline := s.roundDeadlineOf r,
                             doneAt := if !r.flip.byTime && r.members.all (fun m => m.st == 1) then some s.now else none }
      else s1

/-- A round requested and armed at once where that can be. -/
def State.requestRound (s : State) (f : Flip) (timed : Option Nat) (deadline : Nat) : State :=
  (s.addRound f (timed.orElse (fun _ => s.migrationTime f)) deadline (s.flipMembers f) false false).tryArm s.nextRound

/-- A round that was kept back is asked for again. -/
def State.unhold (s : State) (r : Round) : State :=
  (s.setRound { r with hold := false, asked := s.now, timed := s.migrationTime r.flip }).tryArm r.id

/-- A round fires: counted on its controller and gone from it. -/
def State.roundFired (s : State) (r : Round) : State := (s.removeRound r.id).bumpReg (lvlOrCmd r.flip.controller 0x804) 1

end Sys2Proof.Machine
end

