-- ==== Sys2Proof/Machine/Checkpoint.lean ====
section
/-! DEFINITION. What a frame leaves behind and the checkpoint round that commits it (R77, R203, R241 to R243, R261), and the
dropping of encode slices (R259). -/

namespace Sys2Proof.Machine

open Sys2Proof

/-- What a frame hands to its checkpoint round: its number and type, the slots it stores, its CONCEALED mark, the tensors it
wrote, and its source picture (video encode). -/
structure FrameLeft where
  num       : Nat
  inter     : Bool
  refresh   : Bool
  storeMask : Nat
  ltMask    : Nat
  concealed : Bool
  tensors   : List (Nat × Tensor)
  source    : Option (List Plane)
  deriving DecidableEq, Repr

/-- What an encode frame leaves; one that never launched leaves the state as it was. -/
def EncFrame.left (f : EncFrame) : FrameLeft :=
  { num := f.num, inter := f.inter || !f.chosen, refresh := f.refresh, storeMask := f.storeMask, ltMask := f.ltMask, concealed := false,
    tensors := f.tensors, source := if f.chosen then some f.source else none }

/-- Is the decode frame CONCEALED (R79)? -/
def DecFrame.concealed (f : DecFrame) : Bool := f.grey || f.conc || f.slices.any (fun k => k.st == 3 || k.st == 4)

/-- What a decode frame leaves; one that was stopped leaves the state as it was (R338). -/
def DecFrame.left (f : DecFrame) : FrameLeft :=
  if f.stopped then
    { num := f.num, inter := true, refresh := false, storeMask := 0, ltMask := 0, concealed := f.concealed, tensors := [], source := none }
  else
    { num := f.num, inter := f.inter, refresh := f.refresh, storeMask := f.storeMask, ltMask := f.ltMask,
      concealed := f.concealed, tensors := f.tensors, source := none }

/-- The slot list of a session, eight entries. -/
def Session.slot (x : Session) (i : Nat) : RefSlot := x.slots.getD i {}

/-- The slots after a frame (R77): a refresh empties every slot without a long-term mark, then STORE_MASK's slots take the
frame. A slot that is written loses ACKED (R267). -/
def FrameLeft.slots (f : FrameLeft) (x : Session) : List RefSlot :=
  (List.range 8).map (fun i =>
    if bitAt f.storeMask i then
      { frame := f.num, held := true, long := bitAt f.ltMask i, acked := false, concealed := f.concealed }
    else if f.refresh && !(x.slot i).long then {}
    else x.slot i)

/-- Does slot i hold the same frame after the frame as before it? -/
def FrameLeft.keeps (f : FrameLeft) (x : Session) (i : Nat) : Bool :=
  !bitAt f.storeMask i && !(f.refresh && !(x.slot i).long)

/-- The hot state a frame leaves (R241): tensors it wrote, as the reference state holds them; after an inter frame the others
as they were, after an intra frame +0. -/
def FrameLeft.hot (f : FrameLeft) (k : ModelPkg) (old : List (Nat × Tensor)) : List (Nat × Tensor) :=
  ((List.range k.tensors.length).filter (fun n => (k.tensors.getD n {}).role == 4)).filterMap (fun n =>
    match f.tensors.find? (fun q => q.1 == n) with
    | some q => some (n, heldTensor k n q.2)
    | none => if f.inter then old.find? (fun q => q.1 == n) else none)

/-- The outputs of a package's gated layers (R194, R196). -/
def gatedOuts (k : ModelPkg) : List Nat :=
  ((k.layers.filter (fun l => l.opclass == 2 && bitAt l.flags 0 && (k.window.getD l.record {}).gated)).map (fun l =>
    l.out)).eraseDups

/-- The image a frame leaves behind (R241). -/
def FrameLeft.image (f : FrameLeft) (x : Session) (k : ModelPkg) : Image :=
  let old := x.committed
  let hot := f.hot k old.hot
  let kept := old.refs.filter (fun q => f.keeps x q.1)
  { hot := hot,
    refs := ((List.range 8).filter (bitAt f.storeMask)).foldl (fun m i => spSet m i hot) kept,
    gated := (gatedOuts k).filterMap (fun n => (f.tensors.find? (fun q => q.1 == n)).orElse (fun _ =>
      old.gated.find? (fun q => q.1 == n))) }

/-- The cold planes a frame replaces, each new plane in gen0 or cold0 (R203, R242): the source picture, the search plane of
every slot it stores, and the package's cold planes it wrote. -/
def FrameLeft.cold (f : FrameLeft) (x : Session) (k : ModelPkg) : List ColdPlane :=
  let motion := match f.source with
    | some p => if x.media = 1 ∧ ¬ x.decode then
        { num := 0, gen0 := some p } ::
          ((List.range 8).filter (bitAt f.storeMask)).map (fun i =>
            ({ num := 1 + i, gen0 := some [luma8 (hdrDepth x.hdr) (p.getD 0 {})] } : ColdPlane))
      else []
    | none => []
  motion ++ (f.tensors.filter (fun q => (k.tensors.getD q.1 {}).role == 5)).map (fun q =>
    ({ num := 9 + roleIndex k q.1 5, cold0 := some q.2 } : ColdPlane))

/-- A new plane written into the uncommitted generation, and GEN flipped (R242, R261). -/
def Session.flipCold (x : Session) (n : ColdPlane) : Session :=
  let old := x.coldPlane n.num
  let one := x.gen.getLsbD n.num
  let new : ColdPlane :=
    if one then { old with gen0 := n.gen0, cold0 := n.cold0 } else { old with gen1 := n.gen0, cold1 := n.cold0 }
  { x with cold := x.cold.filter (fun c => c.num != n.num) ++ [new], gen := x.gen ^^^ (1#32 <<< n.num) }

/-- The committed generation of a plane marked absent. -/
def Session.absentCold (x : Session) (n : Nat) : Session := { x with cold := x.cold.filter (fun c => c.num != n) }

/-! Copies. -/

/-- The LPDDR6 device an address lies on (R36). -/
def deviceOf (a : Nat) : Nat := a / 2 ^ 36 % 16

/-- Copy i of a session: 0 copy A, 1 copy B. -/
def Session.copy (x : Session) (i : Nat) : CkptCopy := if i = 0 then x.copyA else x.copyB

/-- Copy i of a session set. -/
def Session.setCopy (x : Session) (i : Nat) (c : CkptCopy) : Session :=
  if i = 0 then { x with copyA := c } else { x with copyB := c }

/-- The base address of copy i. -/
def Session.copyBase (x : Session) (i : Nat) : Nat := if i = 0 then x.ckptA else x.ckptB

/-- The base address of copy i set. -/
def Session.setCopyBase (x : Session) (i a : Nat) : Session := if i = 0 then { x with ckptA := a } else { x with ckptB := a }

/-- Can copy i be read: it holds the last checkpoint and its device is not faulted (R340)? -/
def State.copyReads (s : State) (x : Session) (i : Nat) : Bool :=
  (x.copy i).present && (x.copy i).ok && !s.boot.lpddrFaulty.contains (deviceOf (x.copyBase i))

/-- The members of a session's checkpoint round: one for each copy, done from the start where the copy is not allocated or
left out. -/
def State.ckptMembers (s : State) (id : Nat) (leave : List Nat) : List Member :=
  let x := s.ses id
  [0, 1].map (fun i => { die := id / 262144, st := if (x.copy i).present && !leave.contains i then 0 else 1 })

/-- The key of a session's checkpoint transfers: the start time of its next frame (R285). -/
def Session.ckptKey (x : Session) (now : Nat) : Nat :=
  if x.decode then x.nextStart (max now (x.dec.lastStart.getD 0 + 1)) else x.startOf (x.frameIndex + 1)

/-- The checkpoint round of a session armed with both copies, or with what is left of them (R261, R262). -/
def State.armCheckpoint (s : State) (id : Nat) (leave : List Nat) : State :=
  let n := s.nextRound
  let s1 := s.addRound (.checkpoint id) none 0 (s.ckptMembers id leave) (!leave.isEmpty) false
  let key := (s.ses id).ckptKey s.now
  ({ s1 with rounds := s1.rounds.map (fun r => if r.id == n then { r with key := key } else r) } : State).tryArm n

/-- The pending image of a frame formed and its checkpoint round armed. -/
def State.frameDone (s : State) (id : Nat) (f : FrameLeft) : State :=
  let x := s.ses id
  let k := s.pkg x.modelSlot
  (s.setSes id { x with pending := some (f.image x k), coldNew := f.cold x k }).armCheckpoint id []

/-! Encode slices. -/

/-- Where a frame of the session missed its deadline, SES_DEADLINE_MISS counts it (R245, R273). -/
def State.missLevel (s : State) (id : Nat) (missed : Bool) : State :=
  if missed then s.bumpReg (lvlReg (id / 262144) 0x508) 1 else s

/-- Are all slices of the session's encode frame emitted or dropped? -/
def EncFrame.settled (f : EncFrame) : Bool := f.slices.all (fun k => decide (3 ≤ k.st))

/-- The encode frame's last slice has been emitted or dropped: its bank is let go and its checkpoint round armed (R234,
R261). -/
def State.encodeSettled (s : State) (id : Nat) : State :=
  let x := s.ses id
  match x.frame with
  | none => s
  | some f =>
    if f.settled && !f.ckpt then
      (s.setSes id { x with frame := some { f with ckpt := true } }).countOld.frameDone id f.left
    else s

/-- Slice i of the session's encode frame dropped: SLICES_DROPPED, and once a frame DEADLINE_MISS and REFRESH_DUE (R259). -/
def Session.dropSlice (x : Session) (i : Nat) : Session :=
  match x.frame with
  | none => x
  | some f =>
    let st := (f.slices.getD i {}).st
    if 3 ≤ st then x
    else
      let f1 := { f with slices := f.slices.modify i (fun k => { k with st := 4, data := [] }), dropped := true }
      let x1 := { x with frame := some f1, refreshDue := true }.bump 20 1
      if f.dropped then x1 else x1.bump 17 1

/-- Slices of the session's encode frame dropped, and the frame settled where they were its last. -/
def State.dropSlices (s : State) (id : Nat) (l : List Nat) : State :=
  let x := l.foldl Session.dropSlice (s.ses id)
  let dropped := fun (x : Session) => x.frame.any (fun f => f.dropped)
  ((s.missLevel id (dropped x && !dropped (s.ses id))).setSes id x).encodeSettled id

/-- Every slice of the encode frame not yet emitted, dropped. -/
def State.dropRest (s : State) (id : Nat) : State :=
  match (s.ses id).frame with
  | none => s
  | some f => s.dropSlices id (List.range f.slices.length)

end Sys2Proof.Machine
end

