-- ==== Sys2Proof/Machine/Coder.lean ====
section
/-! DEFINITION. The entropy coders: range coder (R69, R70), values and tables (R73 to R75), jobs (R216 to R223), and what
their completions do to a frame's slices. The rows stand in CoderRows.lean. -/

namespace Sys2Proof.Machine

open Sys2Proof

/-! The range coder. -/

/-- The next byte of SLICE_DATA, or none where no byte remains (R69). -/
def nextByte (data : Bytes) (r : RangeState) : Option (Nat × RangeState) :=
  (data[r.read]?).map (fun b => (b.toNat, { r with read := r.read + 1 }))

/-- val with n more bytes read in. -/
def readIn (data : Bytes) : Nat → RangeState → Option RangeState
  | 0, r => some r
  | n + 1, r =>
    match nextByte data r with
    | none => none
    | some x => readIn data n { x.2 with val := (r.val * 256 + x.1) % 2 ^ 32 }

/-- start() of R69, or none where the slice is malformed. -/
def decStart (data : Bytes) : Option RangeState :=
  match readIn data 4 { val := 0, rng := 0xFFFFFFFF } with
  | none => none
  | some r => if r.rng ≤ r.val then none else some r

/-- Renormalisation of R69: rng rises to 2^24 in at most three steps. -/
def decNorm (data : Bytes) : Nat → RangeState → Option RangeState
  | 0, r => some r
  | n + 1, r =>
    if r.rng < 0x01000000 then
      match nextByte data r with
      | none => none
      | some x => decNorm data n { x.2 with rng := r.rng * 256, val := (r.val * 256 + x.1) % 2 ^ 32 }
    else some r

/-- decode(c, n) of R69: the symbol, and the coder's registers. -/
def decSymbol (data : Bytes) (c : List Nat) (n : Nat) (r : RangeState) : Option (Nat × RangeState) :=
  let u := r.rng / 2 ^ 15
  let q := min (r.val / u) 32767
  let s := ((List.range n).filter (fun j => decide (c.getD j 0 ≤ q))).foldl max 0
  let rng := if s < n - 1 then u * (c.getD (s + 1) 0 - c.getD s 0) else r.rng - u * c.getD s 0
  (decNorm data 4 { r with val := r.val - u * c.getD s 0, rng := rng }).map (fun x => (s, x))

/-- The two-symbol table of decode_bit(). -/
def bitTable : List Nat := [0, 16384, 32768]

/-- decode_bit() of R69. -/
def decBit (data : Bytes) (r : RangeState) : Option (Nat × RangeState) := decSymbol data bitTable 2 r

/-- The registers once no byte of SLICE_DATA remains. -/
def RangeState.spent (r : RangeState) (data : Bytes) : RangeState := { r with read := data.length }

/-- What decoding spends and leaves: the result, or none where the slice is malformed; the symbol and bit operations; the registers. -/
structure Decoded (α : Type) where
  value : Option α
  ops   : Nat
  range : RangeState
  deriving DecidableEq, Repr

/-- The escape prefix: zeros before the first 1, at most 15 (R73). -/
def decPrefix (data : Bytes) : Nat → Nat → RangeState → Decoded Nat
  | 0, _, r => { value := none, ops := 0, range := r }
  | n + 1, z, r =>
    match decBit data r with
    | none => { value := none, ops := 1, range := r.spent data }
    | some x =>
      if x.1 = 1 then { value := some z, ops := 1, range := x.2 }
      else
        let q := decPrefix data n (z + 1) x.2
        { q with ops := q.ops + 1 }

/-- z bits, most significant first. -/
def decBits (data : Bytes) : Nat → Nat → RangeState → Decoded Nat
  | 0, e, r => { value := some e, ops := 0, range := r }
  | n + 1, e, r =>
    match decBit data r with
    | none => { value := none, ops := 1, range := r.spent data }
    | some x =>
      let q := decBits data n (2 * e + x.1) x.2
      { q with ops := q.ops + 1 }

/-- The value of an escape: symbol s of a table of n symbols, magnitude e (R73). -/
def escaped (t : CdfRec) (n s e : Nat) : Int := if s = 0 then -(t.centre : Int) - e else ((n - 1 - t.centre : Nat) : Int) + e

/-- decode_value of R73. -/
def decValue (data : Bytes) (t : CdfRec) (r : RangeState) : Decoded Int :=
  let n := t.entries.length - 1
  match decSymbol data t.entries n r with
  | none => { value := none, ops := 1, range := r.spent data }
  | some x =>
    if 0 < x.1 ∧ x.1 < n - 1 then { value := some ((x.1 : Int) - t.centre), ops := 1, range := x.2 }
    else
      let z := decPrefix data 16 0 x.2
      let b : Decoded Nat := match z.value with
        | none => { value := none, ops := 0, range := z.range }
        | some k => decBits data k 0 z.range
      let v := z.value.bind (fun k => b.value.map (fun e => escaped t n x.1 (2 ^ k - 1 + e)))
      { value := v.filter (fun v => decide (-32768 ≤ v) && decide (v ≤ 32767)), ops := 1 + z.ops + b.ops, range := b.range }

/-- Bytes put out by shift_low() of R70, and its registers. -/
def shiftLow (r : RangeState) : RangeState :=
  if r.low < 0xFF000000 ∨ 0x100000000 ≤ r.low then
    let carry := r.low / 2 ^ 32
    let head : Bytes := if r.first then [] else [BitVec.ofNat 8 (r.cache + carry)]
    { r with out := r.out ++ head ++ List.replicate r.pending (BitVec.ofNat 8 (0xFF + carry)), first := false, pending := 0,
             cache := r.low / 2 ^ 24 % 256, low := r.low * 256 % 2 ^ 32 }
  else { r with pending := r.pending + 1, low := r.low * 256 % 2 ^ 32 }

/-- start() of R70. -/
def encStart : RangeState := { low := 0, rng := 0xFFFFFFFF, cache := 0, pending := 0, first := true }

/-- Renormalisation of R70. -/
def encNorm : Nat → RangeState → RangeState
  | 0, r => r
  | n + 1, r => if r.rng < 0x01000000 then encNorm n { shiftLow r with rng := r.rng * 256 } else r

/-- encode(c, n, s) of R70. -/
def encSymbol (c : List Nat) (n s : Nat) (r : RangeState) : RangeState :=
  let u := r.rng / 2 ^ 15
  let rng := if s < n - 1 then u * (c.getD (s + 1) 0 - c.getD s 0) else r.rng - u * c.getD s 0
  encNorm 4 { r with low := r.low + u * c.getD s 0, rng := rng }

/-- A list of bits coded. -/
def encBits (l : List Nat) (r : RangeState) : RangeState := l.foldl (fun r b => encSymbol bitTable 2 b r) r

/-- The bits of an order-0 Exp-Golomb magnitude e (R73). -/
def golombBits (e : Nat) : List Nat :=
  let z := (e + 1).log2
  List.replicate z 0 ++ [1] ++ ((List.range z).map (fun i => (e + 1) / 2 ^ (z - 1 - i) % 2))

/-- One value coded from a table (R73), and the operations spent. -/
def encValue (t : CdfRec) (v : Int) (r : RangeState) : Nat × RangeState :=
  let n := t.entries.length - 1
  let top : Int := (n : Int) - 2 - t.centre
  if 1 - (t.centre : Int) ≤ v ∧ v ≤ top then (1, encSymbol t.entries n (v + t.centre).toNat r)
  else
    let e := if v ≤ top then (-(t.centre : Int) - v).toNat else (v - top - 1).toNat
    let bs := golombBits e
    (1 + bs.length, encBits bs (encSymbol t.entries n (if v ≤ top then 0 else n - 1) r))

/-- close() of R70. -/
def encClose (r : RangeState) : RangeState := shiftLow (shiftLow (shiftLow (shiftLow (shiftLow r))))

/-- ŷ of R75: the FP32 value nearest to v + μ. -/
def yHat (v : Int) (mu : Nat) : Nat :=
  match ofFp16 mu with
  | .nan _ _ => 0x7FC00000
  | .inf n => if n then 0xFF800000 else 0x7F800000
  | .fin n m e =>
    let x : Int := v * 2 ^ 24 + (if n then -1 else 1) * (m * 2 ^ (e + 24).toNat : Nat)
    (roundFin .fp32 (decide (x < 0)) x.natAbs (-24)).1

/-- The index k of a σ in a threshold list (R74). -/
def sigmaIndex (thresholds : List Nat) (sigma : Nat) : Nat :=
  if bitAt sigma 15 || (bits sigma 10 5 == 31 && bits sigma 0 10 != 0) then 0
  else thresholds.countP (fun t => decide (t ≤ sigma))

/-- v of R475 from an element's value, with its flags. -/
def codedInt (x : Num) : Int × Nat :=
  match x with
  | .nan _ _ => (0, fNV)
  | .inf n => (if n then -32768 else 32767, fOF + fNX)
  | .fin n m e =>
    let r := roundQ m e 0
    let i : Int := if n then -(r.1 : Int) else r.1
    let c := max (-32768) (min 32767 i)
    let nx := if r.2 || c != i then fNX else 0
    (c, orFlags [nx, if c ≠ i then fOF else 0, if c = 0 ∧ m ≠ 0 then fUF else 0])

/-! The CDF pool (R226, R227). -/

/-- Byte address of entry e of a bank of level l. -/
def poolAt (l bank e : Nat) : Nat := dramBase l + 0xBF000000 + bank * 0x800000 + 2 * e

/-- Directory record g of a bank: KIND, COUNT, CENTRE, FIRST, OFFSET, and its entries. -/
def State.poolRec (s : State) (l bank g : Nat) : CdfRec :=
  let d := leNat (s.readMem (poolAt l bank (4 * g)) 8)
  let kind := bits d 22 2
  let n := if kind = 1 then bits d 24 8 + 2 else bits d 24 8
  { kind := kind, centre := bits d 32 8, first := bits d 40 15,
    entries := (List.range n).map (fun i => leNat (s.readMem (poolAt l bank (bits d 0 22 + i)) 2)) }

/-! Descriptors (R217). -/

/-- A coder descriptor. -/
structure CoderDesc where
  session : Nat
  decode  : Bool
  bank    : Nat
  slice   : Nat
  frame   : Nat
  model   : Nat
  inter   : Bool
  width64 : Nat
  data    : Nat
  elem    : Nat
  yhat    : Nat
  bytes   : Nat
  deadline : Nat
  deriving DecidableEq, Repr

/-- The descriptor its 32 bytes hold. -/
def parseCoder (b : Bytes) : CoderDesc :=
  let w0 := leAt b 0 4
  let w2 := leAt b 8 4
  let w3 := leAt b 12 4
  { session := bits w0 0 20, decode := bitAt w0 20, bank := bits w0 21 1, slice := bits w0 24 8, frame := leAt b 4 4,
    model := bits w2 0 12, inter := bitAt w2 12, width64 := bits w2 16 6, data := bits w3 0 16, elem := bits w3 16 16,
    yhat := leAt b 16 2, bytes := leAt b 20 4, deadline := leAt b 24 8 }

/-- The lots of a ring field. -/
def ringLots (v : Nat) : List Nat := (List.range (lotRing v).2).map (fun i => ((lotRing v).1 + i) % 64)

/-- The lots of a job. -/
def CoderDesc.lots (d : CoderDesc) : List Nat :=
  ringLots d.data ++ ringLots d.elem ++ (if d.decode then ringLots d.yhat else [])

/-- Does a job's BANK name a bank it may read (R235)? -/
def State.bankOk (s : State) (l bank : Nat) : Bool :=
  bank == s.field (lvlReg l 0x300) 0 1 || s.field (lvlReg l 0x300) 1 3 == 4 ||
    s.rounds.any (fun r => r.armed && r.decided && decide (r.flip = .swap) && r.timed.any (fun t => decide (t ≤ s.now)))

/-- The open frame a job names: its bank, whether it is inter, and its deadline (R217, R233). -/
def State.coderFrame (s : State) (d : CoderDesc) : Option (Bool × Bool × Nat) :=
  let x := s.ses d.session
  if d.decode then (x.dec.frames.find? (fun f => f.num == d.frame)).map (fun f => (f.bank, f.inter, f.deadline))
  else (x.frame.filter (fun f => f.num == d.frame)).map (fun f => (f.bank, f.inter, f.deadline))

/-- SLICE_DATA of a decode job: the bytes the session accepted for its slice (R62, R221). -/
def State.sliceData (s : State) (d : CoderDesc) : Bytes :=
  match (s.ses d.session).dec.frames.find? (fun f => f.num == d.frame) with
  | some f => (f.slices.getD d.slice {}).data
  | none => []

/-- The rules of R217 and R235 a descriptor must keep. -/
def State.coderOk (s : State) (l : Nat) (b : Bytes) : Bool :=
  let d := parseCoder b
  let h := (s.ses d.session).hdrFor d.frame
  let field := fun v => decide (2 ≤ (lotRing v).2) && decide ((lotRing v).2 ≤ 8) && bits v 6 2 == 0 && bits v 12 4 == 0
  b.length == 32 && bits (leAt b 0 4) 22 2 == 0 && bits (leAt b 8 4) 13 3 == 0 && bits (leAt b 8 4) 22 10 == 0 &&
    leAt b 18 2 == 0 && (s.model d.model).state == 3 && d.model == (s.ses d.session).modelSlot && decide (d.slice < sliceCount h) &&
    decide (s.coderFrame d = some (d.bank == 1, d.inter, d.deadline)) &&
    d.width64 == (if (s.pkg d.model).media = 1 then codedWidth h / 64 else 0) &&
    field d.data && field d.elem && (if d.decode then field d.yhat && d.bytes == (s.sliceData d).length else d.yhat == 0 && d.bytes == 0) &&
    decide d.lots.Nodup && s.bankOk l d.bank

/-- May a job start: of a decode session, its frame is the first that has not committed (R256)? -/
def State.coderReady (s : State) (j : CoderJob) : Bool :=
  let d := parseCoder j.desc
  !d.decode || ((s.ses d.session).dec.frames.head?.map (fun f => f.num == d.frame)).getD true

/-! The elements of a job (R66). -/

/-- A coded tensor of a job: its entry, its record, rows owned, columns. -/
structure JobTensor where
  entry : CodedRec
  shape : TensorRec
  row0  : Nat
  rows  : Nat
  cols  : Nat
  deriving DecidableEq, Repr

/-- Elements of a job's tensor. -/
def JobTensor.count (t : JobTensor) : Nat := t.shape.n * t.shape.c * t.rows * t.cols

/-- The coded tensors of a job's frame type. -/
def State.jobTensors (s : State) (d : CoderDesc) : List JobTensor :=
  let k := s.pkg d.model
  let h := (s.ses d.session).hdrFor d.frame
  (if d.inter then k.inter else k.intra).map (fun e =>
    let t := k.tensors.getD e.tensor {}
    { entry := e, shape := t, row0 := (sliceRows t h d.slice).1, rows := (sliceRows t h d.slice).2,
      cols := if t.xDiv = 0 then t.x else 64 * d.width64 / t.xDiv })

/-- Element i of a job: its tensor and its channel. -/
def elemAt : List JobTensor → Nat → Option (JobTensor × Nat)
  | [], _ => none
  | t :: r, i => if i < t.count then some (t, i / (t.rows * t.cols) % t.shape.c) else elemAt r (i - t.count)

/-- Global table numbers of a package's records (R228). -/
def State.globalOf (s : State) (m k : Nat) : Nat := (s.model m).globals.getD k 0

/-- The records a coded entry names: tables, and the threshold list of a conditional one (R229). -/
def entryRecs (k : ModelPkg) (e : CodedRec) : List Nat :=
  let t := k.tensors.getD e.tensor {}
  if e.prior = 1 then (List.range t.c).map (fun c => e.first + c)
  else e.list :: (List.range e.k).map (fun i => e.first + i)

/-- The table cache a job fills (R229). -/
def State.fillCache (s : State) (l : Nat) (d : CoderDesc) : List (Nat × CdfRec) :=
  let k := s.pkg d.model
  ((if d.inter then k.inter else k.intra).flatMap (entryRecs k)).map (fun r =>
    (s.globalOf d.model r, s.poolRec l d.bank (s.globalOf d.model r)))

/-- A record of the cache. -/
def cacheGet (c : List (Nat × CdfRec)) (g : Nat) : CdfRec := ((c.find? (fun e => e.1 == g)).map (fun e => e.2)).getD {}

/-- The table of an element (R74). -/
def State.elemTable (s : State) (d : CoderDesc) (cache : List (Nat × CdfRec)) (e : CodedRec) (ch sigma : Nat) : CdfRec :=
  if e.prior = 1 then cacheGet cache (s.globalOf d.model (e.first + ch))
  else
    let l := cacheGet cache (s.globalOf d.model e.list)
    cacheGet cache (l.first + sigmaIndex l.entries sigma)

/-! Running a context. -/

/-- What running does: the context, operations, bytes read or written. -/
structure CtxRun where
  ctx   : CoderCtx
  ops   : Nat
  deriving DecidableEq, Repr

/-- A context with one record taken from its ELEM_RING. -/
def CoderCtx.takeRecord (x : CoderCtx) : CoderCtx :=
  { x with job := x.job.map (fun j => { j with records := j.records.drop 1 }) }

/-- The records at hand. -/
def CoderCtx.records (x : CoderCtx) : List Word := (x.job.map (fun j => j.records)).getD []

/-- A decode slice found malformed: elements not yet written get ŷ = +0 (R222). -/
def CoderCtx.spoil (x : CoderCtx) : CoderCtx := { x with malformed := true }

/-- One element of a decode job: none where the context waits for a parameter record (R221, R222). -/
def State.decodeOne (s : State) (d : CoderDesc) (data : Bytes) (x : CoderCtx) (t : JobTensor) (ch : Nat) : Option CtxRun :=
  let cond := t.entry.prior ≠ 1
  match (if cond then x.records.head? else some 0) with
  | none => none
  | some w =>
    let x1 := if cond then x.takeRecord else x
    let mu := if cond then bits w.toNat 0 16 else 0
    if x1.malformed then some { ctx := { x1 with done := x.done + 1, yhat := x.yhat ++ [0] }, ops := 0 }
    else
      let r := decValue data (s.elemTable d x.cache t.entry ch (bits w.toNat 16 16)) x1.range
      let y := { x1 with done := x.done + 1, range := r.range }
      some { ctx := match r.value with
               | none => { y with yhat := x.yhat ++ [0], malformed := true }
               | some v => { y with yhat := x.yhat ++ [BitVec.ofNat 32 (yHat v mu)] },
             ops := r.ops }

/-- One element of an encode job: none where the context waits for a record (R220). -/
def State.encodeOne (s : State) (d : CoderDesc) (x : CoderCtx) (t : JobTensor) (ch : Nat) : Option CtxRun :=
  match x.records with
  | [] => none
  | w :: _ =>
    let r := encValue (s.elemTable d x.cache t.entry ch (bits w.toNat 16 16)) (signedOf 16 w.toNat) x.range
    some { ctx := { x.takeRecord with done := x.done + 1, range := r.2 }, ops := r.1 }

/-- The context with what its next element takes noted: in decode a factorised tensor's takes no record (R219). -/
def CoderCtx.look (x : CoderCtx) (decode : Bool) (ts : List JobTensor) : CoderCtx :=
  { x with next := match elemAt ts x.done with
      | none => 0
      | some e => if decode && e.1.entry.prior == 1 then 1 else 2 }

/-- The bytes by which one context's SLICE_DATA exceeds another's in DATA_RING. -/
def CoderCtx.grown (y x : CoderCtx) : Nat := y.wrote - x.wrote

/-- Elements run until none is left, a record is missing, or a ring the context writes is full: fuel is the elements left that its ŷ ring
has room for, room the bytes an encode job's DATA_RING has (R225). -/
def State.runElems (s : State) (d : CoderDesc) (data : Bytes) (ts : List JobTensor) (room : Nat) : Nat → CtxRun → CtxRun
  | 0, x => x
  | n + 1, x =>
    match elemAt ts x.ctx.done with
    | none => x
    | some e =>
      match (if d.decode then s.decodeOne d data x.ctx e.1 e.2 else s.encodeOne d x.ctx e.1 e.2) with
      | none => x
      | some y =>
        let k := y.ctx.grown x.ctx
        if d.decode then s.runElems d data ts room n { y with ops := x.ops + y.ops }
        else if room < k then { x with ctx := { x.ctx with need := k } }
        else s.runElems d data ts (room - k) n { ctx := { y.ctx with need := 0 }, ops := x.ops + y.ops }

/-- Elements of a job. -/
def jobElems (ts : List JobTensor) : Nat := ts.foldl (fun n t => n + t.count) 0

/-- Elements a context's ŷ ring has room for (R225); an encode job puts none out before it ends (R220). -/
def CoderCtx.room (x : CoderCtx) (decode : Bool) (cap left : Nat) : Nat := if decode then min left ((cap - x.lotFill 2) / 4) else left

/-- The lot ring a context writes: ŷ in decode, SLICE_DATA in encode (R217). -/
def CoderCtx.outRing (x : CoderCtx) : Nat := if x.job.any (fun j => coderDecodes j.desc) then 2 else 0

/-- A context run as far as its records and the ring it writes, of so many bytes, reach (R216, R220, R221). -/
def State.runCtx (s : State) (x : CoderCtx) (cap : Nat) : CtxRun :=
  match x.job with
  | none => { ctx := x, ops := 0 }
  | some j =>
    let d := parseCoder j.desc
    let ts := s.jobTensors d
    let r := s.runElems d j.data ts (cap - x.lotFill 0) (x.room d.decode cap (jobElems ts - x.done)) { ctx := x, ops := 0 }
    { r with ctx := r.ctx.look d.decode ts }

/-- Context x of coder c of level l set. -/
def State.setCtx (s : State) (l c x : Nat) (v : CoderCtx) : State :=
  let k := s.level l
  s.setLevel l { k with coders := k.coders.set c ((k.coders.getD c []).set x v) }

/-- The tensor's elements of rows [row0, row0 + rows) replaced by the codes of l, in the order of R66. -/
def putRows (t : Tensor) (row0 rows : Nat) (l : List Nat) : Tensor :=
  let at' := fun (i : Nat) =>
    let x := i % t.x
    let y := i / t.x % t.y
    let plane := i / (t.x * t.y)
    if row0 ≤ y ∧ y < row0 + rows then some (plane * rows * t.x + (y - row0) * t.x + x) else none
  { t with data := (List.range t.data.length).map (fun i => match at' i with
      | some k => l.getD k 0
      | none => t.data.getD i 0) }

/-- A job's ŷ put into the tensors of a frame. -/
def putYhat (ts : List JobTensor) (yhat : List Nat) (m : List (Nat × Tensor)) : List (Nat × Tensor) :=
  match ts with
  | [] => m
  | t :: r =>
    let old := spGet {} m t.entry.tensor
    putYhat r (yhat.drop t.count) (spSet m t.entry.tensor (putRows old t.row0 t.rows (yhat.take t.count)))

/-- The ŷ of a decode context that the faces have read from YHAT_RING: elements not read yet are +0 (R221). -/
def State.streamYhat (s : State) (v : CoderCtx) : State :=
  match v.job with
  | none => s
  | some j =>
    let d := parseCoder j.desc
    let x := s.ses d.session
    let ts := s.jobTensors d
    let hit := fun (f : DecFrame) => f.num == d.frame && (f.slices.getD d.slice {}).st == 1
    let fs := x.dec.frames.map (fun f => if hit f then { f with tensors := putYhat ts ((v.yhat.take v.drained).map (fun w => w.toNat)) f.tensors } else f)
    if d.decode && x.decode && x.dec.frames.any hit then s.setSes d.session { x with dec := { x.dec with frames := fs } } else s

/-- A context run in place, its operations and bytes counted (R237); what its rings let go of moves (R225, R295). -/
def State.runAt (s : State) (l c x : Nat) : State :=
  let v := s.ctxAt l c x
  let r := s.runCtx v (s.lotCap l c x v.outRing)
  let moved := (r.ctx.range.read - v.range.read) + (r.ctx.range.out.length - v.range.out.length)
  ((((s.setCtx l c x r.ctx).bumpReg (lvlReg l (0x404 + 16 * c)) r.ops).bumpReg (lvlReg l (0x408 + 16 * c)) moved).bring l c x).returnLots l

/-! Submission and dispatch. -/

/-- A completion delivered to the submitting face (R223); a stale face takes none (R390). -/
def State.portDone (s : State) (p session slice status bytes : Nat) : State :=
  let f := s.face p
  if s.stale p then s else s.setFace p { f with portDone := f.portDone ++ [(session, slice, status, bytes)] }

/-- Does job a go before job b (R218)? -/
def coderFirst (a b : CoderJob) : Bool :=
  let x := parseCoder a.desc
  let y := parseCoder b.desc
  if x.deadline ≠ y.deadline then decide (x.deadline < y.deadline)
  else if x.session ≠ y.session then decide (x.session < y.session)
  else if x.slice ≠ y.slice then decide (x.slice < y.slice)
  else decide (a.seq < b.seq)

/-- The queued job that goes first. -/
def coderHead : List CoderJob → Option CoderJob
  | [] => none
  | j :: r => some (r.foldl (fun b x => if coderFirst x b then x else b) j)

/-- The first free context of a level, on a coder in service (R218, R368). -/
def State.freeCtx (s : State) (l : Nat) : Option (Nat × Nat) :=
  ((List.range 16).flatMap (fun c => (List.range 4).map (fun x => (c, x)))).find? (fun q =>
    !s.boot.disabled.contains { kind := 3, index := 16 * l + q.1 } && (s.ctxAt l q.1 q.2).job.isNone)

/-! What a completion does to the frame. -/

/-- A slice of a decode frame set: its state. -/
def DecFrame.mark (f : DecFrame) (i st : Nat) : DecFrame := { f with slices := f.slices.modify i (fun x => { x with st := st }) }

/-- A decode slice's completion: its ŷ, or +0 over every element it owns, and USF_SLICE_MALFORMED counted once (R76, R222,
R231). -/
def State.decodeSliceDone (s : State) (d : CoderDesc) (yhat : List Nat) (bad : Bool) : State :=
  let x := s.ses d.session
  let ts := s.jobTensors d
  let ys := if bad then [] else yhat
  let hit := fun (f : DecFrame) => f.num == d.frame && (f.slices.getD d.slice {}).st == 1
  let fs := x.dec.frames.map (fun f =>
    if hit f then { f.mark d.slice (if bad then 3 else 2) with tensors := putYhat ts ys f.tensors } else f)
  let x1 := { x with dec := { x.dec with frames := fs } }
  if x.decode && x.dec.frames.any hit then s.setSes d.session (if bad then x1.bump 7 1 else x1) else s

/-- An encode slice's completion: its SLICE_DATA kept with its tally for emission, or dropped (R220, R231, R259, R332). -/
def State.encodeSliceDone (s : State) (d : CoderDesc) (data : Bytes) (bad : Bool) : State :=
  let x := s.ses d.session
  match x.frame with
  | none => s
  | some f =>
    if f.num ≠ d.frame ∨ (f.slices.getD d.slice {}).st ≠ 1 then s
    else if bad then s.dropSlices d.session [d.slice]
    else
      let f1 := { f with slices := f.slices.modify d.slice (fun k => { k with st := 2, data := data, tally := crc32c data }),
                         doneOrder := f.doneOrder ++ [d.slice] }
      s.setSes d.session { x with frame := some f1 }

/-- A job ends with a status: delivered to the face, its context and lots freed, the frame's slice settled (R222, R223). -/
def State.endCoder (s : State) (l c x status : Nat) : State :=
  let v := s.ctxAt l c x
  match v.job with
  | none => s
  | some j =>
    let d := parseCoder j.desc
    let n := if d.decode then d.bytes else v.range.out.length
    let s1 := s.setCtx l c x {}
    let k := s1.level l
    let s2 := s1.setLevel l { k with lotOwners := k.lotOwners.filter (fun o => o.2.1 != j.seq)
                                     sharedLots := k.sharedLots.filter (fun o => match o.1 with
                                       | .lot _ c2 x2 _ => !(c2 == c && x2 == x)
                                       | .face .. => true) }
    let s3 := s2.portDone j.face d.session d.slice status n
    if status = 4 then s3
    else if d.decode then s3.decodeSliceDone d (v.yhat.map (fun w => w.toNat)) (status != 0)
    else s3.encodeSliceDone d v.range.out (status != 0)

/-- A job meets an uncorrectable error in its tables and ends with POOL_ERROR (R231). -/
def State.poolError (s : State) (l c x bank : Nat) (owner : Option Ctx) : State :=
  ((s.bumpReg (lvlReg l 0x318) 1).raise 0x05 0 0 l noFace owner c bank).endCoder l c x 2

/-- An uncorrectable read of the CDF pool noted, at an address of the bank that the row does not say (R337; log entry 2). -/
def State.poolUe (s : State) (l bank : Nat) (owner : Option Ctx) : State :=
  let a := dramBase l + 0xBF000000 + bank * 0x800000 + Config.freeChoice s.draws % 0x800000
  { s with draws := s.draws + 1 }.noteUe (some l) 3 a a noFace 0 owner

/-- Can the context proceed: filled, with elements left, and waiting for nothing (R216)? -/
def Level.canProceed (v : Level) (l c x : Nat) : Bool :=
  let k := (v.coders.getD c []).getD x {}
  k.job.isSome && !k.filling && k.next != 0 && !v.ctxWaits l c x

/-- The contexts of a coder that can proceed, the one with the earliest deadline first (R216). -/
def State.switchTo (s : State) (l c : Nat) : Option Nat :=
  let cs := (List.range 4).filter (fun i => (s.level l).canProceed l c i)
  let due := fun i => ((s.ctxAt l c i).job.map (fun j => (parseCoder j.desc).deadline)).getD 0
  match cs with
  | [] => none
  | i :: r => some (r.foldl (fun b k => if due k < due b then k else b) i)

/-- The coder jobs of a session on a level end CANCELLED, queued and running (R223). -/
def State.cancelCoder (s : State) (l session : Nat) : State :=
  let mine := fun (j : CoderJob) => (parseCoder j.desc).session == session
  let at' := ((List.range 16).flatMap (fun c => (List.range 4).map (fun x => (c, x)))).filter (fun q =>
    (s.ctxAt l q.1 q.2).job.any mine)
  let s1 := s.each at' (fun s q => s.endCoder l q.1 q.2 4)
  let v := s1.level l
  let gone := v.coderQ.filter mine
  let s2 := s1.setLevel l { v with coderQ := v.coderQ.filter (fun j => !mine j),
                                   lotOwners := v.lotOwners.filter (fun o => !gone.any (fun j => j.seq == o.2.1)) }
  s2.each gone (fun s j => s.portDone j.face session (parseCoder j.desc).slice 4 0)

end Sys2Proof.Machine
end

