-- ==== Sys2Proof/Machine/Quant.lean ====
section
/-! DEFINITION. Tensors as values: reading elements with their scales (R140, R154), fitting exponents (R143), converting to
narrow formats on the fresh and the derived path (R144 to R167). -/

namespace Sys2Proof.Machine

open Sys2Proof

/-! Scale entries (R147). -/

/-- EXP of a scale entry. -/
def entryExp (e : Nat) : Int := signedOf 8 e

/-- ZP of a scale entry. -/
def entryZp (e : Nat) : Nat := bits e 8 8

/-- TAG of a scale entry. -/
def entryTag (e : Nat) : Nat := bits e 16 4

/-- A scale entry. index: its place in the scale tensor; blocks of 64 entries carry their number mod 16 as TAG (R150). -/
def scaleEntry (k : Int) (z index path : Nat) (reassay spill empty : Bool) : Nat :=
  codeOf 8 k + z * 2 ^ 8 + index / 64 % 16 * 2 ^ 16 + path * 2 ^ 20 + b2n reassay * 2 ^ 21 + b2n spill * 2 ^ 22 +
    b2n empty * 2 ^ 23

/-- A number times 2^k. -/
def Num.scale (x : Num) (k : Int) : Num :=
  match x with
  | .fin n m e => .fin n m (e + k)
  | .inf n => .inf n
  | .nan g q => .nan g q

/-- Is a tensor format narrow? -/
def narrowFmt (fmt : Nat) : Bool := fmt == 2 || fmt == 3 || fmt == 4 || fmt == 5

/-- The scale entry index of element i: its row, or its state block on the derived path (R146). -/
def entryIndex (sc : ScaleRec) (x i : Nat) : Nat := if sc.path = 1 then i / 4096 else i / x

/-- The place of an innermost index in the outlier list, on the fresh path (R153). -/
def outlierAt (sc : ScaleRec) (col : Nat) : Option Nat := if sc.path = 1 then none else sc.outliers.idxOf? col

/-- The value of element i (R84 to R91, R140, R155). -/
def Tensor.elem (t : Tensor) (sc : ScaleRec) (i : Nat) : Num :=
  let c := t.data.getD i 0
  if t.fmt = 0 then ofFp16 c
  else if t.fmt = 1 then ofFp32 c
  else if t.fmt = 6 then Num.ofInt (signedOf 16 c)
  else
    let e := ((t.scales.getD (entryIndex sc t.x i) 0)).toNat
    match outlierAt sc (i % t.x) with
    | some k => ofFp16 ((t.side.getD (i / t.x * sc.outliers.length + k) 0)).toNat
    | none =>
      if t.fmt = 4 then ofGrit4 ((t.bexps.getD (i / 32) 0).toNat) c
      else if t.fmt = 5 then (ofU8z c (entryZp e)).scale (entryExp e)
      else if t.fmt = 2 then (ofOre8 c).scale (entryExp e)
      else (ofOre6 c).scale (entryExp e)

/-! Fitting (R143). -/

/-- Is a ≤ b? -/
def dyLe (a b : Dyadic) : Bool := !dyLt b a

/-- The larger of two exact values. -/
def dyMax (a b : Dyadic) : Dyadic := if dyLt a b then b else a

/-- ⌈d⌉. -/
def dyCeil (d : Dyadic) : Int := -(dyFloor (-d.1, d.2))

/-- The finite values of a set. -/
def finites (l : List Num) : List Dyadic := l.filterMap (fun x => match x with
  | .fin n m e => some (Num.dy (.fin n m e))
  | .inf _ => none
  | .nan _ _ => none)

/-- hi and lo of R143. -/
def hiLo (l : List Num) : Dyadic × Dyadic :=
  (finites l).foldl (fun q v => (dyMax q.1 v, if dyLt v q.2 then v else q.2)) ((0, 0), (0, 0))

/-- Has the set a finite non-zero value? -/
def anyNonzero (l : List Num) : Bool := (finites l).any (fun d => d.1 != 0)

/-- Does exponent k meet the condition of R143 for a format? -/
def fitOk (fmt : Nat) (hi lo : Dyadic) (k : Int) : Bool :=
  let m := dyMax hi (-lo.1, lo.2)
  if fmt = 2 then dyLe m (120, k)
  else if fmt = 3 then dyLe m (28, k)
  else if fmt = 4 then dyLe hi (7, k) && dyLe (-8, k) lo
  else decide (dyCeil (hi.1, hi.2 - k) - dyFloor (lo.1, lo.2 - k) ≤ 255)

/-- The fitted exponent and zero point of a set of values (R143). -/
def fitExp (fmt : Nat) (l : List Num) : Int × Nat :=
  let q := hiLo l
  let lowK : Int := if fmt = 4 then -24 else -128
  let n := if fmt = 4 then 37 else 256
  if !anyNonzero l then (0, 0)
  else
    let k := lowK + (((List.range n).find? (fun (i : Nat) => fitOk fmt q.1 q.2 (lowK + i))).getD (n - 1) : Nat)
    (k, if fmt = 5 then (-(dyFloor (q.2.1, q.2.2 - k))).toNat else 0)

/-! Converting (R144, R145). -/

/-- A converted element: code, flags, saturation spill, underflow spill. -/
structure ElemOut where
  code  : Nat
  flags : Nat
  sat   : Bool
  und   : Bool
  deriving DecidableEq, Repr

/-- Is the number finite and not zero? -/
def Num.someFinite : Num → Bool
  | .fin _ m _ => m != 0
  | .inf _ => false
  | .nan _ _ => false

/-- An integer code q between bounds from a value (Grit4 and U8Z of R144): bias z. -/
def intConv (lo hi : Int) (z : Int) (v : Num) : Int × Nat :=
  match v with
  | .nan _ _ => (z, fNV)
  | .inf n => (if n then lo else hi, fOF + fNX)
  | .fin n m e =>
    let r := roundQ m e 0
    let q := z + (if n then -(r.1 : Int) else r.1)
    let c := max lo (min hi q)
    if c ≠ q then (c, fOF + fNX)
    else if q = z ∧ m ≠ 0 then (c, fUF + fNX)
    else (c, if r.2 then fNX else 0)

/-- A value converted to Ore8, Ore6, Grit4 or U8Z with exponent k and zero point z (R144). -/
def convElem (fmt : Nat) (k : Int) (z : Nat) (v : Num) : ElemOut :=
  let w := v.scale (-k)
  let r : Nat × Nat :=
    if fmt = 2 then convert .ore8 w
    else if fmt = 3 then convert .ore6 w
    else if fmt = 4 then (codeOf 4 (intConv (-8) 7 0 w).1, (intConv (-8) 7 0 w).2)
    else ((intConv 0 255 z w).1.toNat, (intConv 0 255 z w).2)
  let zero := if fmt = 5 then r.1 == z else if fmt = 3 then r.1 % 32 == 0 else r.1 == 0
  { code := r.1, flags := r.2, sat := bitAt r.2 2, und := v.someFinite && zero && !bitAt r.2 2 }

/-- The code that stands at an outlier position (R154). -/
def emptyCode (fmt z : Nat) : Nat := if fmt = 5 then z else 0

/-- A converted row or state block: elements, its scale entry, its side plane. -/
structure RowOut where
  elems : List ElemOut
  entry : Nat
  side  : List Nat
  deriving DecidableEq, Repr

/-- An element whose value is kept from before: no flag and no spill (R194). -/
def ElemOut.quiet (e : ElemOut) (kept : Bool) : ElemOut := if kept then { e with flags := 0, sat := false, und := false } else e

/-- A row converted on the fresh path (R143, R147, R154): index is the row's number; kept: the elements that take part with a value they
had before (R194, log entry 82). The side values of outliers are FP16 results (R113). -/
def freshRow (compat : Bool) (kept : Nat → Bool) (fmt : Nat) (sc : ScaleRec) (index : Nat) (vals : List Num) : RowOut :=
  let cols := List.range vals.length
  let plain := (cols.zip vals).filter (fun q => !sc.outliers.contains q.1)
  let fz := fitExp fmt (plain.map (fun q => q.2))
  let conv := fun (q : Nat × Num) =>
    (if sc.outliers.contains q.1 then
      { code := emptyCode fmt fz.2, flags := (floatCode compat .fp16 q.2).2, sat := false, und := false }
    else convElem fmt fz.1 fz.2 q.2).quiet (kept q.1)
  let es := (cols.zip vals).map conv
  let spill := es.any (fun e => e.sat || e.und)
  { elems := es, entry := scaleEntry fz.1 fz.2 index 0 false spill (!anyNonzero (plain.map (fun q => q.2))),
    side := sc.outliers.map (fun c => (floatCode compat .fp16 (vals.getD c Num.zero)).1) }

/-- A Grit4 block of up to 32 values converted: BEXP and elements (R143, R144). A value marked true stands at an outlier channel: it
takes no part in the fit and goes to the side plane (R154); kept as in freshRow. -/
def gritBlock (compat : Bool) (kept : Nat → Bool) (vals : List (Bool × Num)) : Nat × List ElemOut :=
  let plain := (vals.filter (fun v => !v.1)).map (fun v => v.2)
  let nan := plain.any Num.isNan
  let k := (fitExp 4 plain).1
  (if nan then 0x80 else codeOf 8 k, ((List.range vals.length).zip vals).map (fun q =>
    let v := q.2
    (if v.1 then { code := 0, flags := (floatCode compat .fp16 v.2).2, sat := false, und := false }
    else if nan then { code := 0, flags := if v.2.isNan then fNV else 0, sat := false, und := false }
    else convElem 4 k 0 v.2).quiet (kept q.1)))

/-! Stochastic rounding (R166, R167). -/

/-- XOR of two 32-bit words. -/
def xor32 (a b : Nat) : Nat := Nat.xor a b % 2 ^ 32

/-- One draw of a lane's generator: its next state. -/
def laneStep (s : Nat) : Nat :=
  let a := xor32 s (s * 2 ^ 13 % 2 ^ 32)
  let b := xor32 a (a / 2 ^ 17)
  xor32 b (b * 2 ^ 5 % 2 ^ 32)

/-- A lane's seed (R166). -/
def laneSeed (seed step tensor block lane : Nat) : Nat :=
  let m := fun (a c : Nat) => a * c % 2 ^ 32
  let s := xor32 (xor32 (xor32 (xor32 seed (m step 0x9E3779B9)) (m tensor 0x85EBCA6B)) (m block 0xC2B2AE35))
    (m lane 0x27D4EB2F)
  if s = 0 then 0x6D2B79F5 else s

/-- The state after n + 1 draws. -/
def laneAfter (s : Nat) : Nat → Nat
  | 0 => laneStep s
  | n + 1 => laneAfter (laneStep s) n

/-- The 12 bits element e of a state block draws. -/
def srDraw (seed step tensor block e : Nat) : Nat := laneAfter (laneSeed seed step tensor block (e % 64)) (e / 64) / 2 ^ 20

/-- The Ore8 magnitude of a code from 0 to 127. -/
def ore8Mag (c : Nat) : Dyadic := Num.dy (ofOre8 c)

/-- A value rounded stochastically to Ore8 with exponent k and draw d (R167). -/
def srElem (k : Int) (d : Nat) (v : Num) : ElemOut :=
  match v.scale (-k) with
  | .nan _ _ => { code := 0x80, flags := 0, sat := false, und := false }
  | .inf n => { code := 0x7F + (if n then 0x80 else 0), flags := fOF + fNX, sat := true, und := false }
  | .fin n m e =>
    let a : Dyadic := (m, e)
    let sign := if n then 0x80 else 0
    if dyLt (120, 0) a then { code := 0x7F + sign, flags := fOF + fNX, sat := true, und := false }
    else
      let lo := (((List.range 128).filter (fun c => dyLe (ore8Mag c) a)).getLast?).getD 0
      let la := ore8Mag lo
      if dyLe a la then { code := if lo = 0 then 0 else lo + sign, flags := 0, sat := false, und := false }
      else
        let hb := ore8Mag (lo + 1)
        let gap := dyAdd hb (-la.1, la.2)
        let off := dyAdd a (-la.1, la.2)
        let unit := min off.2 gap.2
        let t := off.1 * 4096 * 2 ^ (off.2 - unit).toNat / (gap.1 * 2 ^ (gap.2 - unit).toNat)
        let c := if (d : Int) < t then lo + 1 else lo
        if c = 0 then { code := 0, flags := fUF + fNX, sat := false, und := true }
        else { code := c + sign, flags := fNX, sat := false, und := false }

/-- A state block converted with exponent k (R157): seed, step, tensor, block for its draws. -/
def stateBlock (fmt : Nat) (sc : ScaleRec) (k : Int) (seed step tensor block : Nat) (vals : List Num) : List ElemOut :=
  ((List.range vals.length).zip vals).map (fun q =>
    if sc.sr then srElem k (srDraw seed step tensor block q.1) q.2 else convElem fmt k 0 q.2)

/-- The derived exponent at adaptation step t from the fits the block recorded, each with its step (R156). A block that recorded none
in the steps named keeps INIT_EXP (log entry 76). -/
def derivedExp (sc : ScaleRec) (t : Nat) (history : List (Nat × Int)) : Int :=
  match (history.filter (fun h => decide (t - sc.history ≤ h.1) && decide (h.1 < t))).map (fun h => h.2) with
  | [] => sc.initExp
  | h :: r => max (-128) (min 127 (r.foldl max h + sc.margin))

/-- Spills of a list of elements: saturations and underflows. -/
def spillCount (l : List ElemOut) : Nat × Nat := (l.countP (fun e => e.sat), l.countP (fun e => e.und))

/-- A state block's conversion: the elements that stand, the entry, the spills of every conversion made, the spills of the
first one, whether it was re-assayed, the exponent fitted. -/
structure BlockOut where
  elems  : List ElemOut
  entry  : Nat
  sat    : Nat
  und    : Nat
  first  : Nat × Nat
  again  : Bool
  fitted : Int
  flags  : Nat
  deriving DecidableEq, Repr

/-- A state block on the derived path, with re-assay (R156 to R159). -/
def derivedBlock (fmt : Nat) (sc : ScaleRec) (history : List (Nat × Int)) (seed step tensor block : Nat) (vals : List Num) :
    BlockOut :=
  let k := derivedExp sc step history
  let es := stateBlock fmt sc k seed step tensor block vals
  let c := spillCount es
  let fit := (fitExp fmt vals).1
  let fl := orFlags (es.map (fun e => e.flags))
  let again := sc.reassay && decide (sc.limit < c.1 + c.2)
  if again then
    let es2 := stateBlock fmt sc fit seed step tensor block vals
    let c2 := spillCount es2
    { elems := es2, entry := scaleEntry fit 0 block 0 true (decide (0 < c2.1 + c2.2)) (!anyNonzero vals), sat := c.1 + c2.1,
      und := c.2 + c2.2, first := c, again := true, fitted := fit, flags := Nat.lor fl (orFlags (es2.map (fun e => e.flags))) }
  else
    { elems := es, entry := scaleEntry (if anyNonzero vals then k else 0) 0 block 1 false (decide (0 < c.1 + c.2)) (!anyNonzero vals),
      sat := c.1, und := c.2,
      first := c, again := false, fitted := fit, flags := fl }

end Sys2Proof.Machine
end

