-- ==== Sys2Proof/Machine/Window.lean ====
section
/-! DEFINITION. Layers as functions of their operands: matrix products, window operators, element-wise, function, soft
maximum, normalisation and conversion layers (R171 to R186, R359), and 2:4 weights (R190). -/

namespace Sys2Proof.Machine

open Sys2Proof

/-- An operand tensor: its shape and its values by flat index. -/
structure Operand where
  n   : Nat
  c   : Nat
  y   : Nat
  x   : Nat
  fmt : Nat
  get : Nat → Num

/-- Flat index of (n, c, y, x). -/
def flatIx (c y x n' c' y' x' : Nat) : Nat := ((n' * c + c') * y + y') * x + x'

/-- The value at (n, c, y, x). -/
def Operand.at (o : Operand) (n c y x : Nat) : Num := o.get (flatIx o.c o.y o.x n c y x)

/-- Elements of an operand. -/
def Operand.size (o : Operand) : Nat := o.n * o.c * o.y * o.x

/-- The coordinates N, C, Y, X of flat index i in a shape. -/
def coordsOf (c y x i : Nat) : Nat × Nat × Nat × Nat := (i / (c * y * x), i / (y * x) % c, i / x % y, i % x)

/-! Window operators. -/

/-- fold of R178. -/
def mirrorFold (i : Int) (h : Nat) : Nat :=
  if h = 1 then 0
  else
    let p := 2 * h - 2
    let r := (i % (p : Int)).toNat
    if h ≤ r then p - r else r

/-- Is an index inside an axis of length h? -/
def insideAxis (i : Int) (h : Nat) : Bool := decide (0 ≤ i) && decide (i < h)

/-- The index a mirror or edge tap reads on one axis (R177). -/
def padIndex (mode : Nat) (i : Int) (h : Nat) : Nat :=
  if insideAxis i h then i.toNat else if mode = 2 then mirrorFold i h else (max 0 (min ((h : Int) - 1) i)).toNat

/-- The operand of a tap (R177). -/
def padTap (w : WindowRec) (o : Operand) (n c : Nat) (row col : Int) : Num :=
  if insideAxis row o.y && insideAxis col o.x then o.at n c row.toNat col.toNat
  else if w.padMode = 0 then Num.zero
  else if w.padMode = 1 then ofFp32 w.padValue
  else o.at n c (padIndex w.padMode row o.y) (padIndex w.padMode col o.x)

/-- Output length of an axis of a convolution or pooling (R176). -/
def convLen (h pa pb d k st : Nat) : Nat :=
  if h = 0 ∨ h + pa + pb < d * (k - 1) + 1 then 0 else (h + pa + pb - d * (k - 1) - 1) / st + 1

/-- Output length of an axis of a transposed convolution (R181). -/
def transLen (h pa pb d k st op : Nat) : Nat :=
  (((h : Int) - 1) * st + d * ((k : Int) - 1) + 1 - pa - pb + op).toNat

/-- The row a tap of a transposed convolution lands on, or none (R181). -/
def landRow (p pt u d st h : Nat) : Option Nat :=
  let t : Int := (p : Int) + pt - (u * d : Nat)
  if t < 0 ∨ t % st ≠ 0 ∨ (h : Int) ≤ t / st then none else some (t / st).toNat

/-- Reduction triples (c, u, v) in index order (R172). -/
def taps (cg kh kw : Nat) : List (Nat × Nat × Nat) :=
  (List.range cg).flatMap (fun c => (List.range kh).flatMap (fun u => (List.range kw).map (fun v => (c, u, v))))

/-- The input row or column of a tap (R175). -/
def tapPos (p st u d pad : Nat) : Int := (p * st + u * d : Nat) - (pad : Int)

/-- Terms of a convolution output (R175). -/
def convTerms (r : WindowRec) (x w : Operand) (outC n o p q : Nat) : List (Num × Num) :=
  let cg := x.c / r.groups
  let g := o / (outC / r.groups)
  (taps cg r.kh r.kw).map (fun t =>
    (padTap r x n (g * cg + t.1) (tapPos p r.sy t.2.1 r.dy r.pt) (tapPos q r.sx t.2.2 r.dx r.pl), w.at o t.1 t.2.1 t.2.2))

/-- Terms of a transposed convolution output; a tap that does not land is a structural zero (R182). -/
def transTerms (r : WindowRec) (x w : Operand) (outC n o p q : Nat) : List (Num × Num) :=
  let cg := x.c / r.groups
  let g := o / (outC / r.groups)
  (taps cg r.kh r.kw).map (fun t =>
    match landRow p r.pt t.2.1 r.dy r.sy x.y, landRow q r.pl t.2.2 r.dx r.sx x.x with
    | some y, some z => (x.at n (g * cg + t.1) y z, w.at o t.1 t.2.1 t.2.2)
    | none, _ => (Num.zero, Num.zero)
    | some _, none => (Num.zero, Num.zero))

/-- A dot product in the mode of a model (R95 to R100, R107, R111). -/
def dotOf (compat : Bool) (m : Split) (l : List (Num × Num)) (c : Option Num) : Res :=
  if compat then dotCompat l c else dot m l c

/-- Maximum pooling (R183). -/
def maxPool (compat : Bool) (l : List Num) : Res :=
  if l.any Num.isNan then
    Res.nan (if l.contains (.nan true false) then 5 else 1) noGroup (if !compat || l.any sigNan then fNV else 0)
  else match l with
    | [] => Res.ofNum Num.zero
    | a :: r => Res.ofNum (r.foldl (minMax true) a)

/-- An exact result divided by a count (R184). -/
def divExact (r : Res) (n : Nat) : Res :=
  match r.num with
  | .fin g m e => { r with num := quotient g m e n 0 }
  | .inf _ => r
  | .nan _ _ => r

/-- Average pooling (R184): taps with whether they lie inside. -/
def avgPool (compat : Bool) (countInside : Bool) (l : List (Num × Bool)) : Res :=
  let one := Num.ofInt 1
  let terms := l.map (fun t => if countInside && !t.2 then (Num.zero, Num.zero) else (t.1, one))
  let n := if countInside then l.countP (fun t => t.2) else l.length
  if n = 0 then Res.ofNum Num.zero else divExact (dotOf compat .native terms none) n

/-- The granularity FLOW_G names (R173). -/
def flowGrain (g : Nat) : Nat := if g = 0 then 1 else if g = 1 then 4 else if g = 2 then 8 else 16

/-- A signed integer operand's value. -/
def intOf (x : Num) : Int :=
  match x with
  | .fin n m e => (if n then -1 else 1) * (m * 2 ^ e.toNat : Nat)
  | .inf _ => 0
  | .nan _ _ => 0

/-- Terms of a warp output (R185). -/
def warpTerms (r : WindowRec) (x f : Operand) (n c p q : Nat) : List (Num × Num) :=
  let g := flowGrain r.flowG
  let vx := intOf (f.at n 0 (p / g) (q / g)) / 2 ^ r.flowSh
  let vy := intOf (f.at n 1 (p / g) (q / g)) / 2 ^ r.flowSh
  let sx : Int := 16 * q + vx
  let sy : Int := 16 * p + vy
  let ix := sx / 16
  let iy := sy / 16
  let fx := (sx - 16 * ix).toNat
  let fy := (sy - 16 * iy).toNat
  let tap := fun (w : Nat) (y z : Int) =>
    if w = 0 then (Num.zero, Num.zero) else (padTap r x n c y z, Num.fin false w (-8))
  [tap ((16 - fy) * (16 - fx)) iy ix, tap ((16 - fy) * fx) iy (ix + 1), tap (fy * (16 - fx)) (iy + 1) ix,
    tap (fy * fx) (iy + 1) (ix + 1)]

/-! Weights. -/

/-- The dense values of 2:4 weights (R190): vals and metadata of groups of four, per output channel length len. -/
def dense24 (len : Nat) (vals : List Nat) (meta4 : List Nat) (o i : Nat) : Nat :=
  let groups := (len + 3) / 4
  let g := o * groups + i / 4
  let nib := meta4.getD (g / 2) 0 / 16 ^ (g % 2) % 16
  if nib % 4 = i % 4 then vals.getD (2 * g) 0 else if nib / 4 = i % 4 then vals.getD (2 * g + 1) 0 else 0

/-- Elements of a stored plane by format. -/
def codesOf (fmt : Nat) (b : Bytes) : List Nat :=
  if fmt = 0 ∨ fmt = 6 then (chunks 2 b).map leNat
  else if fmt = 1 then (chunks 4 b).map leNat
  else if fmt = 3 then ore6Codes b
  else if fmt = 4 then nibbles b
  else b.map (fun x => x.toNat)

/-- The dense bytes of a plane of n elements that is stored zero-compressed (R187, R359); zeros where a page is malformed. -/
def zcPlane (ore : Bool) (n : Nat) (b : Bytes) : Bytes :=
  let slots := chunks (zcSlot ore) b
  ((List.range slots.length).zip slots).flatMap (fun q =>
    let m := min zcPageElems (n - zcPageElems * q.1)
    (zcExpand ore m q.2).getD (zeros (m * zcElem ore)))

/-! Layers. -/

/-- The operands of a layer and its parameters; rowLen: ROW_LEN of R290, 0 for the whole axis. -/
structure LayerIn where
  compat : Bool
  layer  : LayerRec
  func   : Nat
  axis   : Nat
  rowLen : Nat
  in0    : Operand
  in1    : Option Operand
  in2    : Option Operand
  weight : Option Operand
  bias   : Option Operand
  lambda : Option Operand
  window : WindowRec
  outN   : Nat
  outC   : Nat
  outY   : Nat
  outX   : Nat

/-- How a layer's dot products multiply (FLAGS of R359). -/
def LayerRec.split (l : LayerRec) : Split := if bitAt l.flags 2 then .split2 else if bitAt l.flags 3 then .split3 else .native

/-- A root times λ of its channel, formed exactly (R162). -/
def LayerIn.scaled (a : LayerIn) (ch : Nat) (r : Res) : Res :=
  match a.lambda with
  | none => r
  | some o => ewExact a.compat .mul [r, Res.ofNum (o.get ch)]

/-- The addend of a channel. -/
def LayerIn.addend (a : LayerIn) (ch : Nat) : Option Num := a.bias.map (fun o => o.get ch)

/-- One element of a matrix product (R171). -/
def LayerIn.matElem (a : LayerIn) (n c m k : Nat) : Res :=
  let b := (a.in1.orElse (fun _ => a.weight)).getD a.in0
  let bn := if b.n = 1 then 0 else n
  let bc := if b.c = 1 then 0 else c
  a.scaled k (dotOf a.compat a.layer.split ((List.range a.in0.x).map (fun i => (a.in0.at n c m i, b.at bn bc i k))) (a.addend k))

/-- One element of a window operator. -/
def LayerIn.winElem (a : LayerIn) (n c p q : Nat) : Res :=
  let r := a.window
  let w := a.weight.getD a.in0
  let pos := (List.range r.kh).flatMap (fun u => (List.range r.kw).map (fun v =>
    (tapPos p r.sy u r.dy r.pt, tapPos q r.sx v r.dx r.pl)))
  if r.op = 1 then a.scaled c (dotOf a.compat a.layer.split (convTerms r a.in0 w a.outC n c p q) (a.addend c))
  else if r.op = 2 then a.scaled c (dotOf a.compat a.layer.split (transTerms r a.in0 w a.outC n c p q) (a.addend c))
  else if r.op = 3 then maxPool a.compat (pos.map (fun t => padTap r a.in0 n c t.1 t.2))
  else if r.op = 4 then avgPool a.compat (r.countMode == 1) (pos.map (fun t =>
    (padTap r a.in0 n c t.1 t.2, insideAxis t.1 a.in0.y && insideAxis t.2 a.in0.x)))
  else a.scaled c (dotOf a.compat .native (warpTerms r a.in0 (a.in1.getD a.in0) n c p q) none)

/-- The element of a broadcast operand that meets an output position (R476). -/
def Operand.cast (o : Operand) (n c y x : Nat) : Num :=
  o.at (if o.n = 1 then 0 else n) (if o.c = 1 then 0 else c) (if o.y = 1 then 0 else y) (if o.x = 1 then 0 else x)

/-- The element-wise operation of a SUBOP (R359). -/
def ewOpOf (sub : Nat) : EwOp :=
  if sub = 1 then .add else if sub = 2 then .sub else if sub = 3 then .mul else if sub = 4 then .fma else if sub = 5 then .min
  else .max

/-- The values of IN0 along an axis through a position: 0 X, 1 Y, 2 C, 3 N (R290). -/
def Operand.row (o : Operand) (axis n c y x : Nat) : List Num :=
  if axis = 0 then (List.range o.x).map (fun i => o.at n c y i)
  else if axis = 1 then (List.range o.y).map (fun i => o.at n c i x)
  else if axis = 2 then (List.range o.c).map (fun i => o.at n i y x)
  else (List.range o.n).map (fun i => o.at i c y x)

/-- The place of a position along an axis. -/
def axisIx (axis n c y x : Nat) : Nat := if axis = 0 then x else if axis = 1 then y else if axis = 2 then c else n

/-- The row of IN0 through a position, and the position's place in it: N = ROW_LEN consecutive elements of the axis, counted from its
start (R131, log entry 77). -/
def LayerIn.rowAt (a : LayerIn) (n c y x : Nat) : List Num × Nat :=
  let full := a.in0.row a.axis n c y x
  let i := axisIx a.axis n c y x
  if a.rowLen = 0 then (full, i) else ((full.drop (i / a.rowLen * a.rowLen)).take a.rowLen, i % a.rowLen)

/-- All values of a vector operand. -/
def Operand.vec (o : Option Operand) : List Num := match o with
  | some v => (List.range v.size).map v.get
  | none => []

/-- One element of a normalisation (R132 to R134). -/
def LayerIn.normElem (a : LayerIn) (n c y x : Nat) : Res :=
  let k := a.layer.subop
  if k ≤ 2 then
    let eps := ofFp32 a.layer.eps
    let row := a.rowAt n c y x
    let gamma := Operand.vec a.weight
    let beta := Operand.vec a.bias
    let r := (rowNorm a.compat (k == 2) (if a.compat then flushIn .fp32 eps else eps) gamma beta row.1).getD row.2 (Res.ofNum Num.zero)
    { r with flags := orFlags [r.flags, readFlag (gamma.getD row.2 Num.zero), readFlag (beta.getD row.2 Num.zero)] }
  else
    let op : NormOp := if k = 3 then .gdn else if k = 4 then .igdn else if k = 5 then .gdnL1 else .igdnL1
    let gamma := chunks a.in0.c (Operand.vec a.weight)
    (gdn a.compat op gamma (Operand.vec a.bias) (a.in0.row 2 n c y x)).getD c (Res.ofNum Num.zero)

/-- A conversion's value: no flag of its own (R92), but NV of a signalling NaN in compatibility mode (R112); a malformed Grit4 element
records CAUSE 5 (R89). -/
def convRes (compat : Bool) (x : Num) : Res :=
  match x with
  | .nan g q => { num := .nan false false, flags := if compat && q then fNV else 0, trap := if g then some (5, noGroup) else none }
  | .inf n => Res.ofNum (.inf n)
  | .fin n m e => Res.ofNum (.fin n m e)

/-- Output height and width of a window operator (R175, R176, R181, R185). -/
def LayerIn.outSize (a : LayerIn) : Nat × Nat :=
  let r := a.window
  if r.op = 2 then (transLen a.in0.y r.pt r.pb r.dy r.kh r.sy r.opy, transLen a.in0.x r.pl r.pr r.dx r.kw r.sx r.opx)
  else if r.op = 5 then (a.in0.y, a.in0.x)
  else (convLen a.in0.y r.pt r.pb r.dy r.kh r.sy, convLen a.in0.x r.pl r.pr r.dx r.kw r.sx)

/-- Is the layer's output empty: an operand it works on element by element, or along rows, has a dimension of size zero, or the output of
its window operator has (R14, R176, R181)? A matrix product of reduction length 0 is none (R98). -/
def LayerIn.empty (a : LayerIn) : Bool :=
  let k := a.layer.opclass
  if k = 1 then a.in0.n * a.in0.c * a.in0.y == 0
  else if k = 2 then a.in0.size == 0 || a.outSize.1 == 0 || a.outSize.2 == 0
  else if k = 3 then ([some a.in0, a.in1, a.in2].filterMap id).any (fun o => o.size == 0)
  else a.in0.size == 0

/-- A result with FE where a malformed Grit4 operand decided it (R89, R105). -/
def Res.withFe (r : Res) : Res := if r.trap.any (fun t => t.1 == 5) then { r with flags := Nat.lor r.flags fFE } else r

/-- One output element of a layer, before conversion to the output format; FE where a malformed Grit4 operand decides it
(R89, R101). A position of the OUT record beyond the output of a window operator is +0 (log entry 78). -/
def LayerIn.elem (a : LayerIn) (i : Nat) : Res :=
  let q := coordsOf a.outC a.outY a.outX i
  let n := q.1
  let c := q.2.1
  let y := q.2.2.1
  let x := q.2.2.2
  let k := a.layer.opclass
  let r :=
    if k = 1 then a.matElem n c y x
    else if k = 2 then (if y < a.outSize.1 ∧ x < a.outSize.2 then a.winElem n c y x else Res.ofNum Num.zero)
    else if k = 3 then
      let l := [some a.in0, a.in1, a.in2].filterMap id
      elementWise a.compat (ewOpOf a.layer.subop) (l.map (fun o => o.cast n c y x))
    else if k = 4 then sfu a.compat a.func (a.in0.get i)
    else if k = 5 then
      (softmax a.compat (a.layer.subop == 1) (a.rowAt n c y x).1).getD (a.rowAt n c y x).2 (Res.ofNum Num.zero)
    else if k = 6 then a.normElem n c y x
    else convRes a.compat (a.in0.get i)
  r.withFe

end Sys2Proof.Machine
end

