-- ==== Sys2Proof/Machine/Compute.lean ====
section
/-! DEFINITION. Compute steps (R290): the tensors a layer reads, its results converted and written, and the flags, trap, spill
and tag records of the face (R101 to R105, R151, R158). -/

namespace Sys2Proof.Machine

open Sys2Proof

/-! What a work item's layers read. -/

/-- The work a layer belongs to: an encode or decode frame's session, or a job; the model slot, header, whether the frame is
inter, and the rate point. -/
structure Env where
  ctx   : Ctx
  dec   : Bool
  model : Nat
  hdr   : Bytes
  inter : Bool
  rate  : Nat
  deriving DecidableEq, Repr

/-- The decode frame in progress: the earliest not yet committed (R256). -/
def Session.decFrame (x : Session) : Option DecFrame := x.dec.frames.head?

/-- The work of a context, or none where it has no frame in progress and is no running job. -/
def State.envOf (s : State) (c : Ctx) : Option Env :=
  match c with
  | .session i =>
    let x := s.ses i
    if x.decode then
      (x.decFrame.filter (fun f => f.bound && !f.unknown)).map (fun f => { ctx := c, dec := true, model := x.modelSlot, hdr := f.hdr, inter := f.inter, rate := f.ratePoint })
    else
      (x.frame.filter (fun f => f.chosen)).map (fun f => { ctx := c, dec := false, model := x.modelSlot, hdr := x.hdr, inter := f.inter, rate := f.ratePoint })
  | .job j =>
    match s.job j with
    | some k => if k.state = .running ∧ k.stepping then
        some { ctx := c, dec := false, model := k.modelSlot, hdr := (s.ses k.source).hdr, inter := false, rate := (s.ses k.source).ratePoint }
      else none
    | none => none

/-- The tensors a work item has written so far. -/
def State.written (s : State) (e : Env) : List (Nat × Tensor) :=
  match e.ctx with
  | .session i =>
    let x := s.ses i
    if e.dec then (x.decFrame.map (fun f => f.tensors)).getD [] else (x.frame.map (fun f => f.tensors)).getD []
  | .job j => ((s.job j).map (fun k => k.tensors)).getD []

/-- The tensors of a work item set. -/
def State.setWritten (s : State) (e : Env) (ts : List (Nat × Tensor)) : State :=
  match e.ctx with
  | .session i =>
    let x := s.ses i
    if e.dec then
      match x.dec.frames with
      | f :: r => s.setSes i { x with dec := { x.dec with frames := { f with tensors := ts } :: r } }
      | [] => s
    else s.setSes i { x with frame := x.frame.map (fun f => { f with tensors := ts }) }
  | .job j =>
    match s.job j with
    | some k => s.setJob { k with tensors := ts }
    | none => s

/-- The hot-state tensors a frame's layers have written, each with the layer (R241). -/
def State.wrote (s : State) (e : Env) : List (Nat × Nat) :=
  match e.ctx with
  | .session i =>
    let x := s.ses i
    if e.dec then (x.decFrame.map (fun f => f.wrote)).getD [] else (x.frame.map (fun f => f.wrote)).getD []
  | .job _ => []

/-- A hot-state tensor written by a layer noted. -/
def State.noteWrote (s : State) (e : Env) (layer out : Nat) : State :=
  match e.ctx with
  | .session i =>
    let x := s.ses i
    let note := fun (l : List (Nat × Nat)) => if l.contains (out, layer) then l else l ++ [(out, layer)]
    if e.dec then
      match x.dec.frames with
      | f :: r => s.setSes i { x with dec := { x.dec with frames := { f with wrote := note f.wrote } :: r } }
      | [] => s
    else s.setSes i { x with frame := x.frame.map (fun f => { f with wrote := note f.wrote }) }
  | .job _ => s

/-- What a layer has made of its output kept. A hot-state tensor that a later layer in record order has written stays as that one wrote it
(R241). -/
def State.putWritten (s : State) (e : Env) (layer out : Nat) (t : Tensor) : State :=
  let hot := ((s.pkg e.model).tensors.getD out {}).role == 4
  if hot && (s.wrote e).any (fun q => q.1 == out && decide (layer < q.2)) then s
  else
    let s1 := s.setWritten e (spSet (s.written e) out t)
    if hot then s1.noteWrote e layer out else s1

/-- The bytes of a constant's data for a rate point (R359 FLAGS[1]). -/
def constBytes (k : ModelPkg) (t : TensorRec) (rate : Nat) : Bytes :=
  if bitAt t.flags 1 then
    let n := t.dataLen / k.ratePoints
    sub k.weights (t.dataOff + rate * n) n
  else sub k.weights t.dataOff t.dataLen

/-- A constant or learned tensor of a package (R359). The auxiliary plane of a Grit4 constant is its exponent plane (R88); that of an
Ore8, Ore6 or U8Z constant is taken to be its scale tensor, an entry of R147 for each row (log entry 18). -/
def constTensor (k : ModelPkg) (t : TensorRec) (h : Bytes) (rate : Nat) : Tensor :=
  let b := constBytes k t rate
  let n := tensorElems t h
  let data := if bitAt t.flags 0 then zcPlane (t.fmt == 2) n b else b
  let aux := sub k.weights t.auxOff t.auxLen
  { zeroTensor t h with data := codesOf t.fmt data, bexps := if t.fmt = 4 then aux else [],
                        scales := if t.fmt = 2 ∨ t.fmt = 3 ∨ t.fmt = 5 then (chunks 4 aux).map (fun e => BitVec.ofNat 32 (leNat e)) else [] }

/-- The values of an audio frame, channel by channel, or of a track frame, which arrives step by step (R424), in the order of the
input tensor's elements (R478). -/
def flatMedia (h : Bytes) (src : List Plane) : List Nat :=
  let v := src.flatMap (fun p => p.samples)
  if hdrMedia h = 2 then v
  else (List.range v.length).map (fun i => v.getD (i % hdrSamples h * hdrChannels h + i / hdrSamples h) 0)

/-- Media input tensor idx as the network takes it, and the flags of its conversion (R68, R478). -/
def mediaInput (h : Bytes) (t : TensorRec) (src : List Plane) (idx : Nat) : Tensor × Nat :=
  let rows := tensorRows t h
  let cols := tensorCols t h
  let pl := src.getD idx {}
  if hdrMedia h = 1 then
    let div := if idx ≠ 0 ∧ hdrChroma h = 0 then 2 else 1
    let q : Plane := { pl with w := hdrWidth h / div, h := hdrHeight h / div }
    let r := (List.range (rows * cols)).map (fun i =>
      convert .fp16 (quotient false (q.at ((i / cols : Nat) : Int) ((i % cols : Nat) : Int)) 0 (2 ^ hdrDepth h - 1) 0))
    let codes := r.map (fun q => if t.fmt = 1 then (convert .fp32 (ofFp16 q.1)).1 else q.1)
    ({ zeroTensor t h with data := codes }, orFlags (r.map (fun q => q.2)))
  else
    let r := (flatMedia h src).map (fun v => if t.fmt = 1 then (v, 0) else convert .fp16 (ofFp32 v))
    ({ zeroTensor t h with data := r.map (fun q => q.1) }, orFlags (r.map (fun q => q.2)))

/-- Elements of a learned tensor. -/
def learnedSize (k : ModelPkg) (n : Nat) : Nat :=
  let t := k.tensors.getD n {}
  t.n * t.c * t.y * t.x

/-- The tensors of ROLE 7 in the order of the parameter image of R461: by layer record, a layer's λ before its small parameter
sets. -/
def learnedTensors (k : ModelPkg) : List Nat :=
  ((k.layers.flatMap (fun l => [l.lambda, l.in0, l.in1, l.in2, l.weight, l.bias])).filter (fun n =>
    decide (n < k.tensors.length) && (k.tensors.getD n {}).role == 7)).eraseDups

/-- A job's own copy of a learned tensor, in FP32 (R162, R165). -/
def jobParams (k : ModelPkg) (j : Job) (n : Nat) : List Nat :=
  let off := ((learnedTensors k).takeWhile (fun m => m != n)).foldl (fun a m => a + learnedSize k m) 0
  ((j.params.drop off).take (learnedSize k n)).map (fun v => v.toNat)

/-! The grey reference (R78, R477). -/

/-- Is tensor n of a package reference state, which a slot holds, rather than other hot state? A held fixed-ratio one is (R305); of the
others no record of the package says which are (log entry 83). -/
def ModelPkg.isRef (k : ModelPkg) (n : Nat) : Bool := (k.tensors.getD n {}).hold != 0 || Config.referenceState k.d n

/-- Tensor n as the work produced it: values with the flags the read itself sets. grey supplies hot state of a missing
reference. A ROLE 6 tensor that no step of the job has written yet reads as zeros; the spec gives it no first value (DESIGN CHOICE, log
entry 98). -/
def State.readPlain (s : State) (e : Env) (grey : Option (List (Nat × Tensor))) (n : Nat) : Tensor × Nat :=
  let k := s.pkg e.model
  let t := k.tensors.getD n {}
  let done := s.written e
  let zero := zeroTensor t e.hdr
  if t.role = 1 then (constTensor k t e.hdr e.rate, 0)
  else if t.role = 7 then
    match e.ctx with
    | .session _ => (constTensor k t e.hdr e.rate, 0)
    | .job j => ({ zero with fmt := 1, data := ((s.job j).map (fun x => jobParams k x n)).getD [] }, 0)
  else if t.role = 4 then
    match e.ctx with
    | .job _ => (spGet zero done n, 0)
    | .session i =>
      let x := s.ses i
      let slot := if e.dec then (x.decFrame.map (fun f => f.refSlot)).getD 0 else (x.frame.map (fun f => f.refSlot)).getD 0
      if !e.inter then (zero, 0)
      else if !k.isRef n then (spGet zero x.committed.hot n, 0)
      else match grey with
        | some g => (spGet zero g n, 0)
        | none => (spGet zero (spGet [] x.committed.refs slot) n, 0)
  else if t.role = 5 then
    match e.ctx with
    | .job _ => (spGet zero done n, 0)
    | .session i =>
      let x := s.ses i
      let p := 9 + roleIndex k n 5
      let c := x.coldPlane p
      let t := (if x.gen.getLsbD p then c.cold1 else c.cold0).getD zero
      if !e.inter || t.data.length != zero.data.length then (zero, 0) else (t, 0)
  else if t.role = 2 ∧ roleIndex k n 2 < (if k.media = 1 then 3 else 1) then
    match e.ctx with
    | .job _ => (spGet zero done n, 0)
    | .session i =>
      match (s.ses i).frame with
      | some f => mediaInput e.hdr t f.source (roleIndex k n 2)
      | none => (zero, 0)
  else (spGet zero done n, 0)

/-- Tensor n as a layer reads it: of an encode frame's coded tensor whose records have been formed, ŷ, the value the synthesis
networks receive (R75). -/
def State.readTensor (s : State) (e : Env) (grey : Option (List (Nat × Tensor))) (n : Nat) : Tensor × Nat :=
  match e.ctx with
  | .job _ => s.readPlain e grey n
  | .session i =>
    match (if e.dec then none else (s.ses i).frame.bind (fun f => f.yhat.find? (fun q => q.1 == n))) with
    | some q => (q.2, 0)
    | none => s.readPlain e grey n

/-- The scale policy of a tensor. -/
def policyOf (k : ModelPkg) (n : Nat) : ScaleRec := k.scale.getD ((k.tensors.getD n {}).scaleRec) {}

/-- A tensor as an operand: in compatibility mode subnormal FP16 and FP32 operands, the side values of outliers among them, read as
zeros (R113, R155). -/
def operandOf (compat : Bool) (sc : ScaleRec) (t : Tensor) : Operand :=
  let flush := fun (i : Nat) (x : Num) =>
    if !compat then x
    else if t.fmt = 0 ∨ (narrowFmt t.fmt ∧ (outlierAt sc (i % t.x)).isSome) then flushIn .fp16 x
    else if t.fmt = 1 then flushIn .fp32 x
    else x
  { n := t.n, c := t.c, y := t.y, x := t.x, fmt := t.fmt, get := fun i => flush i (t.elem sc i) }

/-- 2:4 weights as the operand of their dense form (R190, R191): the record's C, Y and X give the reduction length. Their auxiliary
plane is the metadata, so Ore8 weights in this form carry no scale entries: scale exponent 0 (log entry 79). -/
def sparseOperand (compat : Bool) (k : ModelPkg) (t : TensorRec) (w : Tensor) : Operand :=
  let len := t.c * t.y * t.x
  let meta4 := (sub k.weights t.auxOff t.auxLen).map (fun b => b.toNat)
  let code := fun i => dense24 len w.data meta4 (i / len) (i % len)
  { n := t.n, c := t.c, y := t.y, x := t.x, fmt := t.fmt,
    get := fun i => if t.fmt = 2 then ofOre8 (code i) else if compat then flushIn .fp16 (ofFp16 (code i)) else ofFp16 (code i) }

/-- PAD_VALUE as the operand it is: in compatibility mode a subnormal of the input's format reads as zero (R113, R179). -/
def padOperand (compat : Bool) (fmt v : Nat) : Nat :=
  if compat then (convert .fp32 (flushIn (if fmt = 1 then .fp32 else .fp16) (ofFp32 v))).1 else v

/-- An optional tensor number: 0xFFFF names none. -/
def tensorNo (n : Nat) : Option Nat := if n = 0xFFFF then none else some n

/-- The operands of a layer. -/
def State.layerIn (s : State) (e : Env) (grey : Option (List (Nat × Tensor))) (l : LayerRec) (func axis rowLen : Nat) : LayerIn :=
  let k := s.pkg e.model
  let compat := k.arith == 1
  let rd := fun n => operandOf compat (policyOf k n) (s.readTensor e grey n).1
  let w0 := k.window.getD l.record {}
  let w := { w0 with padValue := padOperand compat (k.tensors.getD l.in0 {}).fmt w0.padValue }
  let out := k.tensors.getD l.out {}
  { compat := compat, layer := l, func := func, axis := axis, rowLen := rowLen, in0 := rd l.in0, in1 := (tensorNo l.in1).map rd,
    in2 := (tensorNo l.in2).map rd,
    weight := (tensorNo l.weight).map (fun n =>
      if w.sparse && l.opclass == 2 then sparseOperand compat k (k.tensors.getD n {}) (s.readTensor e grey n).1 else rd n),
    bias := (tensorNo l.bias).map rd, lambda := if bitAt l.flags 1 then (tensorNo l.lambda).map rd else none, window := w,
    outN := out.n, outC := out.c, outY := tensorRows out e.hdr, outX := tensorCols out e.hdr }

/-- A result's code in a wide format, with the flags of its conversion (R92, R113, R475). In compatibility mode too it is rounded once,
from the exact value to the output format (log entry 80). -/
def wideCode (compat : Bool) (fmt : Nat) (r : Res) : Nat × Nat :=
  if fmt = 6 then
    let q := codedInt r.num
    (codeOf 16 q.1, q.2)
  else floatCode compat (if fmt = 1 then .fp32 else .fp16) r.num

/-- What a step's conversion leaves: codes from the first index, scale entries, exponents, side values, flags, and the spills
of each row or block: (index, path, saturations, underflows, re-assayed, saturations and underflows that count). -/
structure StepOut where
  codes  : List Nat := []
  scales : List (Nat × Word) := []
  bexps  : List (Nat × Byte) := []
  side   : List (Nat × BitVec 16) := []
  flags  : Nat := 0
  spills : List (Nat × Nat × Nat × Bool × Nat × Nat) := []
  fits   : List (Nat × Int) := []
  deriving DecidableEq, Repr

/-- Which elements of an output keep the value the tensor held, by flat index, and that tensor (R194). -/
structure Kept where
  at'  : Nat → Bool := fun _ => false
  held : Tensor := {}

/-- Do all n elements from a keep theirs? -/
def Kept.all (q : Kept) (a n : Nat) : Bool := decide (n ≠ 0) && (List.range n).all (fun i => q.at' (a + i))

/-- Results converted on the fresh path, row by row: first is the number of the first row (R146 to R154). A row all of whose elements
keep their values stays as it is held (R194). -/
def freshRows (compat : Bool) (fmt : Nat) (sc : ScaleRec) (q : Kept) (first : Nat) : List (List Num) → StepOut → StepOut
  | [], o => o
  | r :: rest, o =>
    let n := r.length
    let no := sc.outliers.length
    if q.all (first * n) n then
      freshRows compat fmt sc q (first + 1) rest
        { o with codes := o.codes ++ (List.range n).map (fun i => q.held.data.getD (first * n + i) 0),
                 scales := o.scales ++ [(first, q.held.scales.getD first 0)],
                 side := o.side ++ (List.range no).map (fun i => (first * no + i, q.held.side.getD (first * no + i) 0)) }
    else
    let k := q
    let q := freshRow compat (fun i => k.at' (first * n + i)) fmt sc first r
    let c := spillCount q.elems
    freshRows compat fmt sc k (first + 1) rest
      { o with codes := o.codes ++ q.elems.map (fun e => e.code), scales := o.scales ++ [(first, BitVec.ofNat 32 q.entry)],
               side := o.side ++ ((List.range no).map (fun i => first * no + i)).zip (q.side.map (BitVec.ofNat 16)),
               flags := orFlags (o.flags :: q.elems.map (fun e => e.flags)),
               spills := o.spills ++ [(first, c.1, c.2, false, c.1, c.2)] }

/-- Results converted to Grit4, block by block from element index lo; spills are counted by row of x elements (R88, R158); outlier
channels go to the side plane (R154); a block all of whose elements keep their values stays as it is held (R194). -/
def gritBlocks (compat : Bool) (sc : ScaleRec) (k : Kept) (x lo : Nat) (vals : List Num) : StepOut :=
  let no := sc.outliers.length
  let mark := ((List.range vals.length).zip vals).map (fun q => ((outlierAt sc ((lo + q.1) % x)).isSome, q.2))
  let side := ((List.range vals.length).zip vals).filterMap (fun q =>
    (outlierAt sc ((lo + q.1) % x)).map (fun k => ((lo + q.1) / x * no + k, BitVec.ofNat 16 (floatCode compat .fp16 q.2).1)))
  let parts := chunks 32 mark
  let bs := ((List.range parts.length).zip parts).map (fun q =>
    let a := lo + 32 * q.1
    if k.all a q.2.length then
      ((k.held.bexps.getD (a / 32) 0).toNat, (List.range q.2.length).map (fun i =>
        { code := k.held.data.getD (a + i) 0, flags := 0, sat := false, und := false }))
    else gritBlock compat (fun i => k.at' (a + i)) q.2)
  let es := bs.flatMap (fun b => b.2)
  let at' := (List.range es.length).zip es
  let rows := (List.range es.length).map (fun i => (lo + i) / x)
  let spill := rows.eraseDups.map (fun r =>
    let mine := (at'.filter (fun q => (lo + q.1) / x == r)).map (fun q => q.2)
    let c := spillCount mine
    (r, c.1, c.2, false, c.1, c.2))
  { codes := es.map (fun e => e.code), flags := orFlags (es.map (fun e => e.flags)), spills := spill, side := side,
    bexps := ((List.range bs.length).map (fun i => lo / 32 + i)).zip (bs.map (fun b => BitVec.ofNat 8 b.1)) }

/-- Results converted on the derived path, state block by state block (R156 to R159). The tensor number within the job of R166, 0 to
255, is taken to be the package's tensor index modulo 256 (log entry 81). -/
def derivedBlocks (fmt : Nat) (sc : ScaleRec) (hist : Nat → List (Nat × Int)) (seed step tensor : Nat) :
    Nat → List (List Num) → StepOut → StepOut
  | _, [], o => o
  | b, v :: rest, o =>
    let q := derivedBlock fmt sc (hist b) seed step (tensor % 256) b v
    derivedBlocks fmt sc hist seed step tensor (b + 1) rest
      { o with codes := o.codes ++ q.elems.map (fun e => e.code), scales := o.scales ++ [(b, BitVec.ofNat 32 q.entry)],
               flags := Nat.lor o.flags q.flags, spills := o.spills ++ [(b, q.first.1, q.first.2, q.again, q.sat, q.und)],
               fits := o.fits ++ [(b, q.fitted)] }

/-- The fitted exponents a job recorded for a state block, each with its step (R156). -/
def jobHistory (j : Option Job) (tensor block : Nat) : List (Nat × Int) :=
  match j with
  | some k => ((k.history.find? (fun h => h.1 == tensor && h.2.1 == block)).map (fun h => h.2.2)).getD []
  | none => []

/-- A result on its way to a narrow format, and flags: it is rounded once, there; in compatibility mode one that binary32 holds as
a subnormal is a zero of its own sign first (R102, R113). -/
def narrowIn (compat : Bool) (r : Res) : Num × Nat :=
  let q := roundCompat .fp32 r.num
  if compat && q.1.isZero && !r.num.isZero then q else (r.num, 0)

/-- The record of a tensor as a work item writes it: an adaptation job holds learned parameters in FP32 (R165). -/
def State.outRec (s : State) (e : Env) (n : Nat) : TensorRec :=
  let t := (s.pkg e.model).tensors.getD n {}
  match e.ctx with
  | .job _ => if t.role = 7 then { t with fmt := 1 } else t
  | .session _ => t

/-- Results converted to the output tensor's format, from flat index lo; elements that keep their values are given as results too, and
in a narrow row or block shared with formed ones enter its conversion (R194, log entry 82). -/
def State.convertOut (s : State) (e : Env) (n lo : Nat) (compat : Bool) (x : Nat) (kept : Kept) (rs : List Res) : StepOut :=
  let k := s.pkg e.model
  let t := s.outRec e n
  let sc := policyOf k n
  let ins := rs.map (narrowIn compat)
  let vals := ins.map (fun q => q.1)
  let more := fun (o : StepOut) (fl : List Nat) => { o with flags := orFlags (o.flags :: fl) }
  let j := match e.ctx with
    | .job i => s.job i
    | .session _ => none
  if t.fmt = 4 then more (gritBlocks compat sc kept x lo vals) (ins.map (fun q => q.2))
  else if narrowFmt t.fmt && sc.path == 1 then
    let held := rs.map (fun r => { r with flags := 0 }.round compat .fp32)
    more (derivedBlocks t.fmt sc (jobHistory j n) (j.elim 0 (fun q => q.seed.toNat)) (j.elim 0 (fun q => q.step)) n (lo / 4096)
      (chunks 4096 (held.map (fun r => r.num))) {}) (held.map (fun r => r.flags))
  else if narrowFmt t.fmt then more (freshRows compat t.fmt sc kept (lo / x) (chunks x vals) {}) (ins.map (fun q => q.2))
  else
    let q := rs.map (wideCode compat t.fmt)
    { codes := q.map (fun c => c.1), flags := orFlags (q.map (fun c => c.2)) }

/-- The values of a list replaced from position lo. -/
def splice {α : Type} (d : α) (old : List α) (lo : Nat) (new : List α) : List α :=
  (old ++ List.replicate (lo - old.length) d).take lo ++ new ++ old.drop (lo + new.length)

/-- Entries put at their places in a list. -/
def putAll {α : Type} (d : α) (old : List α) (l : List (Nat × α)) : List α := l.foldl (fun m q => splice d m q.1 [q.2]) old

/-- A tensor with a step's output put in. -/
def Tensor.put (t : Tensor) (lo : Nat) (o : StepOut) : Tensor :=
  { t with data := splice 0 t.data lo o.codes, scales := putAll 0 t.scales o.scales, bexps := putAll 0 t.bexps o.bexps,
           side := putAll 0 t.side o.side }

/-- Does a layer run in the frame type (FLAGS[4], FLAGS[5] of R359)? -/
def LayerRec.runs (l : LayerRec) (inter : Bool) : Bool := if inter then bitAt l.flags 5 else bitAt l.flags 4

/-- Layers run in record order over their whole output, each with its number: the tensors written, and each layer's results
(R359, R78). -/
def State.runLayers (s : State) (e : Env) : List (Nat × LayerRec) → List (Nat × Tensor) × List (Nat × List Res) →
    List (Nat × Tensor) × List (Nat × List Res)
  | [], acc => acc
  | q :: rest, acc =>
    let l := q.2
    let k := s.pkg e.model
    let s1 := s.setWritten e acc.1
    let out := k.tensors.getD l.out {}
    let a := s1.layerIn e none l l.func l.axis 0
    let rs := (List.range (tensorElems out e.hdr)).map a.elem
    let t := (zeroTensor out e.hdr).put 0 (s1.convertOut e l.out 0 a.compat (tensorCols out e.hdr) {} rs)
    s.runLayers e rest (if a.empty then acc else (spSet acc.1 l.out t, acc.2 ++ [(q.1, rs)]))

/-- The grey reference: the state the synthesis yields from an intra frame of zeros (R78, R477), and the results of the layers that
form it. -/
def State.grey (s : State) (e : Env) : List (Nat × Tensor) × List (Nat × List Res) :=
  let k := s.pkg e.model
  let e1 := { e with inter := false }
  let coded := k.intra.map (fun c => (c.tensor, { zeroTensor (k.tensors.getD c.tensor {}) e.hdr with fmt := 1 }))
  let ls := ((List.range k.layers.length).zip k.layers).filter (fun q => q.2.runs false && !bitAt q.2.flags 0)
  let r := s.runLayers e1 ls (coded, [])
  ((r.1.filter (fun q => (k.tensors.getD q.1 {}).role == 4)).map (fun q => (q.1, heldTensor k q.1 q.2)), r.2)

/-- Is the reference of the decode frame in progress missing (R78)? -/
def State.isGrey (s : State) (e : Env) : Bool :=
  match e.ctx with
  | .session i => e.dec && ((s.ses i).decFrame.map (fun f => f.grey)).getD false
  | .job _ => false

/-! Gating (R194, R195). -/

/-- Are all bands of the frame's skip map published (R213)? -/
def EncFrame.mapComplete (f : EncFrame) (h : Bytes) : Bool := (List.range (sliceCount h)).all (fun b => f.bandsDone.contains b)

/-- Is output position (p, q) of downsampling fy, fx covered by still blocks alone (R194)? -/
def stillAt (f : EncFrame) (h : Bytes) (fy fx halo p q : Nat) : Bool :=
  let bw := codedWidth h / 16
  let bh := codedHeight h / 16
  let r0 := fy * p / 16 - halo
  let r1 := min (bh - 1) ((fy * p + fy - 1) / 16 + halo)
  let c0 := fx * q / 16 - halo
  let c1 := min (bw - 1) ((fx * q + fx - 1) / 16 + halo)
  (List.range (r1 + 1 - r0)).all (fun i => (List.range (c1 + 1 - c0)).all (fun j =>
    skipClass f.skipMap (blockNo bw (r0 + i) (c0 + j)) == 0))

/-- The bands of 64 pixel rows that output elements [lo, lo + count) of a tensor of the given columns cover; every band where its height
is no part of the coded height. -/
def bandsOf (t : TensorRec) (h : Bytes) (cols rows lo count : Nat) : List Nat :=
  if t.yDiv = 0 ∨ cols = 0 ∨ rows = 0 then List.range (sliceCount h)
  else ((List.range count).map (fun i => (lo + i) / cols % rows * t.yDiv / 64)).eraseDups

/-- NX of the ingest conversion a step performs: of the samples of media input idx that lie in the bands its output covers, or of the
whole input of audio and track (R68, R101, log entry 20). -/
def ingestFlags (h : Bytes) (t : TensorRec) (src : List Plane) (idx : Nat) (bands : List Nat) : Nat :=
  if hdrMedia h = 1 then
    let div := if idx ≠ 0 ∧ hdrChroma h = 0 then 2 else 1
    let pl := src.getD idx {}
    let q : Plane := { pl with w := hdrWidth h / div, h := hdrHeight h / div }
    let cols := tensorCols t h
    orFlags (((List.range (tensorRows t h)).filter (fun r => bands.contains (r * div / 64))).flatMap (fun r =>
      (List.range cols).map (fun (c : Nat) => (convert .fp16 (quotient false (q.at (r : Int) (c : Int)) 0 (2 ^ hdrDepth h - 1) 0)).2)))
  else (mediaInput h t src idx).2

/-- Does the layer skip still positions in this frame: gated, and no case of R195? -/
def gates (f : EncFrame) (w : WindowRec) (l : LayerRec) (layer : Nat) : Bool :=
  l.opclass == 2 && w.gated && bitAt l.flags 0 && !f.full && !f.missed.contains layer

/-! Records of a face. -/

/-- SESSION and CTX of a record's word 0. -/
def ctxBits (c : Ctx) : Nat :=
  match c with
  | .session i => i % 2 ^ 20
  | .job _ => 2 ^ 20

/-- The job identifier of a record. -/
def ctxJob (c : Ctx) : Nat :=
  match c with
  | .session _ => 0
  | .job j => j

/-- A NaN result of a face (R103 to R105): coordinates N, C, Y, X. -/
def State.trapNan (s : State) (p layer : Nat) (c : Ctx) (at' : Nat × Nat × Nat × Nat) (t : Nat × Nat) : State :=
  let r := fun o => fceReg p o
  if s.field (r 0x210) 31 1 = 1 then s.bumpReg (r 0x230) 1
  else if ¬ bitAt (s.arithCtrl p) 0 then s
  else
    let w0 := ctxBits c + t.1 * 2 ^ 28 + 2 ^ 31
    let lf := (s.logicalOf p).getD 0
    let s1 := (((s.setRegNat (r 0x210) w0).setRegNat (r 0x214) (layer % 65536 + lf % 1024 * 65536)).setRegNat (r 0x218)
      (ctxJob c)).setRegNat (r 0x21C) (at'.2.2.2 % 65536 + at'.2.2.1 % 65536 * 65536)
    let s2 := (((s1.setRegNat (r 0x220) (at'.2.1 % 65536 + at'.1 % 65536 * 65536)).setRegNat (r 0x224) (t.2 % 2 ^ 24)).setRegNat
      (r 0x228) (s.now % 2 ^ 32)).setRegNat (r 0x22C) (s.now / 2 ^ 32)
    s2.raise 0x02 0 0 (levelOf p) p (some c) w0 (t.2 % 2 ^ 24)

/-- The spills of one row or state block (R158, R161): counted, and recorded where they exceed SPILL_LIMIT. -/
def State.spilled (s : State) (p layer tensor : Nat) (c : Ctx) (sc : ScaleRec) (q : Nat × Nat × Nat × Bool × Nat × Nat) : State :=
  let r := fun o => fceReg p o
  let s1 := (s.bumpReg (r 0x280) q.2.2.2.2.1).bumpReg (r 0x284) q.2.2.2.2.2
  if !(sc.eventEn && decide (sc.limit < q.2.1 + q.2.2.1)) then s1
  else
    let w0 := ctxBits c + sc.path * 2 ^ 21 + b2n q.2.2.2.1 * 2 ^ 22 + 2 ^ 31
    let w4 := min q.2.1 0xFFFF + min q.2.2.1 0xFFFF * 65536
    let s2 := if s1.field (r 0x290) 31 1 = 1 then s1.bumpReg (r 0x2A4) 1
      else ((((s1.setRegNat (r 0x290) w0).setRegNat (r 0x294) (layer % 65536 + tensor % 256 * 65536)).setRegNat (r 0x298)
        (ctxJob c)).setRegNat (r 0x29C) q.1).setRegNat (r 0x2A0) w4
    s2.raise 0x03 0 0 (levelOf p) p (some c) (s2.regNat (r 0x290)) (s2.regNat (r 0x2A0))

/-- The first entry of a chunk whose tag differs from the data tag, else entry 0 (R169). -/
def tagEntry (data : Nat) (tags : List Nat) : Nat × Nat :=
  match ((List.range tags.length).zip tags).find? (fun q => q.2 != data) with
  | some q => (q.2, q.1)
  | none => (tags.headD data, 0)

/-- A stage and the streams that feed a ring of its face stop. -/
def State.stopStage (s : State) (p ring : Nat) : State :=
  (s.setFace p { s.face p with stageStop := true }).each (s.fillers p ring) (fun s k =>
    s.setEngine k.1 k.2 { s.engine k.1 k.2 with stopped := true, status := 2 })

/-- A tag mismatch (R151): the stage and the stream that feeds it stop, the record is filled or counted, SCALE_TAG raised. -/
def State.tagFault (s : State) (p ring layer : Nat) (c : Ctx) (block data : Nat) (tags : List Nat) : State :=
  let r := fun o => fceReg p o
  let e := tagEntry data tags
  let w0 := ctxBits c + block % 16 * 2 ^ 24 + 2 ^ 31
  let s1 := s.stopStage p ring
  let s2 := if s1.field (r 0x2B0) 31 1 = 1 then s1.bumpReg (r 0x2C0) 1
    else (((s1.setRegNat (r 0x2B0) w0).setRegNat (r 0x2B4) (data % 16 + e.1 % 16 * 16 + e.2 % 64 * 256 + layer % 65536 * 65536)).setRegNat
      (r 0x2B8) (ctxJob c)).setRegNat (r 0x2BC) block
  s2.raise 0x10 1 0 (levelOf p) p (some c) (s2.regNat (r 0x2B0)) (s2.regNat (r 0x2BC))

/-- The scale blocks of a tensor: 64 entries each, of rows or state blocks (R146, R147). -/
def scaleBlocks (k : ModelPkg) (n : Nat) (h : Bytes) : Nat :=
  let t := k.tensors.getD n {}
  let entries := if (policyOf k n).path = 1 then (tensorElems t h + 4095) / 4096 else if tensorCols t h = 0 then 0 else tensorElems t h / tensorCols t h
  (entries + 63) / 64

/-- Operand n of a layer: 0 IN0, 1 IN1, 2 IN2, 3 WEIGHT, 4 BIAS. -/
def LayerRec.operand (l : LayerRec) (n : Nat) : Nat :=
  if n = 0 then l.in0 else if n = 1 then l.in1 else if n = 2 then l.in2 else if n = 3 then l.weight else l.bias

/-- A ring's consumer at a layer: its count of blocks starts again with another layer, and with another tensor of so many blocks (R151). -/
def Ring.readBy (g : Ring) (layer blocks : Nat) : Ring :=
  if g.reader = some layer then { g with block := if blocks ≤ g.block then 0 else g.block } else { g with block := 0, reader := some layer }

/-- The consumer of a step's input ring at the step's layer. -/
def State.readRing (s : State) (p : Nat) (op : ComputeOp) (blocks : Nat) : State :=
  match op.inRing with
  | some r => s.setRing p r ((s.ring p r).readBy (opLayer op) blocks)
  | none => s

/-- The work in progress of an owner: its frame's deadline, or a job. -/
def State.workOf (s : State) (e : Env) : Work :=
  match e.ctx with
  | .session i =>
    let x := s.ses i
    { ctx := e.ctx, deadline := ((if e.dec then x.decFrame.map (fun f => f.deadline) else x.frame.map (fun f => f.deadline))).getD 0 }
  | .job _ => { ctx := e.ctx, deadline := 0 }

/-- What tells one output of a layer from the next: the frame's deadline, or the job's step. -/
def State.stampOf (s : State) (e : Env) : Nat :=
  match e.ctx with
  | .session _ => (s.workOf e).deadline
  | .job j => ((s.job j).map (fun k => k.step)).getD 0

/-- A face at a step of a layer: at the work's item, its input ring read by the layer with the scale blocks of the operand it carries, and
the layer's output in the making (R150, R151, R257). -/
def State.atStep (s : State) (p : Nat) (e : Env) (op : ComputeOp) (l : LayerRec) : State :=
  let k := s.pkg e.model
  let s1 := s.readRing p op ((tensorNo (l.operand op.inOf)).elim 0 (fun n => scaleBlocks k n e.hdr))
  s1.setFace p { s1.face p with making := some (opLayer op, s.stampOf e, scaleBlocks k l.out e.hdr), item := some (s.itemOf p (s.workOf e)) }

/-- The ring, block number, data tag and entry tags a step's tagged input shows, or none where its ring carries no tagged skip (R151). -/
def State.stepTags (s : State) (p : Nat) (op : ComputeOp) : Option (Nat × Nat × Nat × List Nat) :=
  match op.inRing with
  | none => none
  | some r =>
    match (s.ring p r).headSkip with
    | none => none
    | some k =>
      if k.tagged then
        some (r, (s.ring p r).block, k.tag,
          (List.range op.entries).map (fun i => entryTag (leNat (s.readMem (storeBase p + op.auxAt + 4 * i) 4))))
      else none

/-- Do the three tags of R151 agree? -/
def tagsAgree (q : Nat × Nat × Nat × List Nat) : Bool :=
  q.2.2.1 == q.2.1 % 16 && q.2.2.2.all (fun t => t == q.2.1 % 16)

/-! The step. -/

/-- The elements a step may form at once: whole rows of a narrow fresh tensor, of Grit4 in whole blocks too, whole state blocks on the
derived path (R88, R146, R148, R158). -/
def rangeOk (t : TensorRec) (sc : ScaleRec) (x total lo count : Nat) : Bool :=
  let whole := fun (g : Nat) => lo % g == 0 && (count % g == 0 || lo + count == total)
  decide (lo + count ≤ total) &&
    (if t.fmt = 4 then whole 32 && whole x
     else if narrowFmt t.fmt then whole (if sc.path = 1 then 4096 else x)
     else true)

/-- Fitted exponents of step t put into a job's history: a block formed again in one step keeps its last fit, and the fits of the last
HISTORY steps stay (R156). -/
def addFits (sc : ScaleRec) (t tensor : Nat) (fits : List (Nat × Int)) (h : List (Nat × Nat × List (Nat × Int))) :
    List (Nat × Nat × List (Nat × Int)) :=
  fits.foldl (fun m q =>
    let old := ((m.find? (fun e => e.1 == tensor && e.2.1 == q.1)).map (fun e => e.2.2)).getD []
    let kept := old.filter (fun f => decide (t < f.1 + sc.history) && f.1 != t)
    m.filter (fun e => !(e.1 == tensor && e.2.1 == q.1)) ++ [(tensor, q.1, kept ++ [(t, q.2)])]) h

/-- Flags, traps and spills of results of layer number layer from element lo put on the face (R101, R103, R158). A conversion layer to
FORMAT 6 writes no NaN and fills no trap record (R475). The order in which a step writes its outputs, which the spec does not publish, is
taken to rise with the flat index (log entry 84). -/
def State.stepRecords (s : State) (p : Nat) (e : Env) (layer lo : Nat) (l : LayerRec) (a : LayerIn) (rs : List Res)
    (o : StepOut) (extra : Nat) : State :=
  let k := s.pkg e.model
  let s1 := s.setFlags p (orFlags (extra :: o.flags :: rs.map (fun r => r.flags))) (some e.ctx)
  let nans := if l.opclass = 7 ∧ (k.tensors.getD l.out {}).fmt = 6 then []
    else ((List.range rs.length).zip rs).filterMap (fun q => q.2.trap.map (fun t => (q.1, t)))
  let s2 := s1.each nans (fun s q => s.trapNan p layer e.ctx (coordsOf a.outC a.outY a.outX (lo + q.1)) q.2)
  s2.each o.spills (fun s q => s.spilled p layer l.out e.ctx (policyOf k l.out) q)

/-- What the grey reference's results leave on the face: a step also does, for the reference of its frame, its own range of its layer, and
the first step of the frame's first layer does whole those that run in intra frames alone (R78, log entry 20). -/
def State.greyRecords (s : State) (p : Nat) (e : Env) (g : List (Nat × List Res)) (layer lo count : Nat) : State :=
  let k := s.pkg e.model
  let first := ((List.range k.layers.length).zip k.layers).find? (fun q => q.2.runs true && !bitAt q.2.flags 0)
  let leads := lo == 0 && (first.map (fun q => q.1)) == some layer
  s.each g (fun s q =>
    let l := k.layers.getD q.1 {}
    let a := s.layerIn { e with inter := false } none l l.func l.axis 0
    let put := fun (lo : Nat) (rs : List Res) =>
      s.stepRecords p e q.1 lo l a rs (s.convertOut e l.out lo a.compat a.outX {} rs) 0
    if q.1 = layer then put lo ((q.2.drop lo).take count)
    else if leads && !l.runs true then put 0 q.2
    else s)

/-- Counters of a gated layer: skipped positions, each once however often its step is run, and a skip map that is not complete at launch
(R195, R196, R245). In a frame that is computed in full anyway the spec does not say whether a missing map counts: it does not (DESIGN
CHOICE, log entry 99). -/
def State.gateCounts (s : State) (e : Env) (op : ComputeOp) (l : LayerRec) (skipped : List Nat) : State :=
  match e.ctx with
  | .job _ => s
  | .session i =>
    let x := s.ses i
    match x.frame with
    | none => s
    | some f =>
      let w := (s.pkg e.model).window.getD l.record {}
      let missed := gates f w l (opLayer op) && !f.mapComplete e.hdr
      let x1 := if missed then { x with frame := some { f with missed := f.missed ++ [opLayer op] } }.bump 13 1 else x
      let new := (skipped.map (fun i => (opLayer op, i))).filter (fun q => !f.counted.contains q)
      let note := fun (f : EncFrame) => { f with counted := f.counted ++ new }
      if e.dec then s else s.setSes i ({ x1 with frame := x1.frame.map note }.bump 11 new.length)

/-- Is output element i of a gated layer skipped (R194)? -/
def State.skips (s : State) (e : Env) (l : LayerRec) (layer : Nat) (a : LayerIn) (i : Nat) : Bool :=
  match e.ctx with
  | .job _ => false
  | .session id =>
    match (s.ses id).frame with
    | none => false
    | some f =>
      let t := (s.pkg e.model).tensors.getD l.out {}
      let q := coordsOf a.outC a.outY a.outX i
      !e.dec && gates f a.window l layer && f.mapComplete e.hdr && t.yDiv != 0 && t.xDiv != 0 &&
        stillAt f e.hdr t.yDiv t.xDiv a.window.halo q.2.2.1 q.2.2.2

/-- The output of a gated layer as the session's previous frame left it (R194, R196). -/
def State.heldOut (s : State) (e : Env) (out : Nat) : Tensor :=
  match e.ctx with
  | .job _ => {}
  | .session id => spGet {} (s.ses id).committed.gated out

/-- The root of an output element, its λ aside, rounded to FP32, with the flags of that (R92, R163). -/
def LayerIn.root (a : LayerIn) (i : Nat) : Nat × Nat := wideCode a.compat 1 ({ a with lambda := none }.elem i)

/-- The flags of the roots a job's step of a layer with learned scales rounds. -/
def rootFlags (e : Env) (l : LayerRec) (a : LayerIn) (ix : List Nat) : Nat :=
  match e.ctx with
  | .job _ => if bitAt l.flags 1 then orFlags (ix.map (fun i => (a.root i).2)) else 0
  | .session _ => 0

/-- The roots ρ a job holds of a forward step of a layer with learned scales, rounded to FP32 (R163). -/
def State.keepRoots (s : State) (e : Env) (op : ComputeOp) (l : LayerRec) (a : LayerIn) (ix : List Nat) : State :=
  match e.ctx with
  | .session _ => s
  | .job j =>
    match s.job j with
    | some q =>
      if bitAt l.flags 1 then
        let roots := ix.map (fun i => (i, BitVec.ofNat 32 (a.root i).1))
        s.setJob { q with rho := spSet q.rho (opLayer op) (roots.foldl (fun m r => spSet m r.1 r.2) (spGet [] q.rho (opLayer op))) }
      else s
    | none => s

/-- The gradient of λ for channel c: the dot product over the output elements of that channel, in index order, of g and ρ (R163). A
channel of a matrix product is an output column. ρ of an element that no forward step of this job step has formed, of which the spec says
nothing, is +0 (DESIGN CHOICE, log entry 98). -/
def lambdaGradient (compat : Bool) (matrix : Bool) (g : Operand) (rho : List (Nat × BitVec 32)) (c : Nat) : Res :=
  let mine := (List.range g.size).filter (fun i =>
    (if matrix then (coordsOf g.c g.y g.x i).2.2.2 else (coordsOf g.c g.y g.x i).2.1) == c)
  (dotOf compat .native (mine.map (fun i => (g.get i, ofFp32 (spGet 0 rho i).toNat))) none).withFe

/-- A step that forms the gradient of λ of its layer for channels [lo, lo + count), from tensor g into tensor out, in FP32 (R163). -/
def State.runGradient (s : State) (p : Nat) (e : Env) (op : ComputeOp) (l : LayerRec) (g out : Nat) : State :=
  let k := s.pkg e.model
  let compat := k.arith == 1
  let rho := match e.ctx with
    | .job j => (s.job j).elim [] (fun q => spGet [] q.rho (opLayer op))
    | .session _ => []
  let src := operandOf compat (policyOf k g) (s.readTensor e none g).1
  let rs := (List.range op.count).map (fun i => lambdaGradient compat (l.opclass == 1) src rho (op.lo + i))
  let l1 : LayerRec := { l with out := out }
  let a := s.layerIn e none l1 0 0 0
  let o : StepOut :=
    { codes := rs.map (fun r => (wideCode compat 1 r).1), flags := orFlags (rs.map (fun r => (wideCode compat 1 r).2)) }
  let old := spGet { zeroTensor (k.tensors.getD out {}) e.hdr with fmt := 1 } (s.written e) out
  let s1 := (s.setWritten e (spSet (s.written e) out (old.put op.lo o))).stepRecords p e (opLayer op) op.lo l1 a rs o 0
  s1.setFace p { s1.face p with gated := false, lastWork := s.now }

/-- A map that is not complete when the first layer that reads it starts is painted from the focus box alone and counted late (R202). -/
def State.lateMap (s : State) (e : Env) (l : LayerRec) : State :=
  match e.ctx with
  | .job _ => s
  | .session id =>
    let x := s.ses id
    let k := s.pkg e.model
    match x.frame, mapTensor k with
    | some f, some m =>
      if !e.dec && k.region.isSome && f.rateMap.isNone && [l.in0, l.in1, l.in2].contains m then
        s.setSes id ((x.painted k f []).bump 15 1)
      else s
    | none, _ => s
    | some _, none => s

/-- The tensor a step's output is put into: what the work has written of it, else, of a job's learned parameters, their values, else zeros. -/
def State.outBefore (s : State) (e : Env) (n : Nat) : Tensor :=
  let t := s.outRec e n
  let fresh := match e.ctx with
    | .job _ => if t.role = 7 then (s.readPlain e none n).1 else zeroTensor t e.hdr
    | .session _ => zeroTensor t e.hdr
  spGet fresh (s.written e) n

/-- The step's effect (R290, R359): its range of the layer's output formed, converted and written; nothing where the output is empty
(R14). Where the compute record's FUNC and AXIS differ from the layer record's, of which the spec says nothing, the step takes the compute
record's, a function of R117's compatibility codes too; the grey reference takes the layer's (DESIGN CHOICE, log entry 100). -/
def State.runStep (s0 : State) (p : Nat) (e : Env) (op : ComputeOp) (l : LayerRec) : State :=
  let s := s0.lateMap e l
  let g := if s.isGrey e then some (s.grey e) else none
  let a := s.layerIn e (g.map (fun q => q.1)) l (opFunc op) (opAxis op) (opRowLen op)
  let ix := (List.range op.count).map (fun i => op.lo + i)
  let k := s.pkg e.model
  let out := k.tensors.getD l.out {}
  let held := s.heldOut e l.out
  let skip := s.skips e l (opLayer op) a
  let rs := ix.map (fun i => if skip i then Res.ofNum (held.elem (policyOf k l.out) i) else a.elem i)
  let o := s.convertOut e l.out op.lo a.compat a.outX { at' := skip, held := held } rs
  let old := s.outBefore e l.out
  let bands := bandsOf out e.hdr a.outX a.outY op.lo op.count
  let media := ([l.in0, l.in1, l.in2].filterMap tensorNo).filter (fun n =>
    (k.tensors.getD n {}).role == 2 && decide (roleIndex k n 2 < (if k.media = 1 then 3 else 1)))
  let extra := match e.ctx with
    | .job _ => 0
    | .session id => orFlags (media.map (fun n => match (s.ses id).frame with
      | some f => if e.dec then 0 else ingestFlags e.hdr (k.tensors.getD n {}) f.source (roleIndex k n 2) bands
      | none => 0))
  let more := Nat.lor extra (rootFlags e l a ix)
  let s1 := s.putWritten e (opLayer op) l.out (old.put op.lo o)
  let s2 := match e.ctx with
    | .job j => match s1.job j with
      | some q => s1.setJob { q with history := addFits (policyOf k l.out) q.step l.out o.fits q.history }
      | none => s1
    | .session _ => s1
  let s3 := s2.keepRoots e op l a ix
  let skipped := ix.filter (fun i => skip i && decide (i < a.outY * a.outX))
  let s4 := s3.gateCounts e op l skipped
  let s5 := s4.greyRecords p e (g.elim [] (fun q => q.2)) (opLayer op) op.lo op.count
  let s6 := s5.stepRecords p e (opLayer op) op.lo l a rs o more
  let s7 := if a.empty then s else s6
  s7.setFace p { s7.face p with gated := false, lastWork := s.now }

/-- The step of a fused command that a compute operation is: its record the one at PTR, its ring the step's, not yet run SKIPS times (R289,
R290). -/
def State.fusedStep (s : State) (p : Nat) (op : ComputeOp) (u : Fused) : Option FusedStep :=
  (fusedList u.bytes).find? (fun st => decide (6 ≤ st.engine) && decide (st.inRing = op.inRing) &&
    s.readMem (storeBase p + st.ptr) 16 == op.record && decide (u.ran.getD st.engine 0 < fusedSkips u.bytes))

/-- May a step run in the face's schedule: it is its owner's turn (R257), and in a fused command it is one of its compute steps, which runs
once on each skip (R289)? -/
def State.stepTurn (s : State) (p : Nat) (ctx : Ctx) (op : ComputeOp) : Bool :=
  let f := s.face p
  match f.fused with
  | none => s.itsTurn p ctx f.workSeq
  | some u => decide (u.work.ctx = ctx) && s.itsTurn p ctx u.seq && (s.fusedStep p op u).isSome && op.inRing.all (fun r => !(s.ring p r).taken)

/-- A fused command's compute step has run once, on the skip at the HEAD of its ring (R289). -/
def State.stepDone (s : State) (p : Nat) (op : ComputeOp) : State :=
  match (s.face p).fused with
  | none => s
  | some u =>
    match s.fusedStep p op u with
    | none => s
    | some st =>
      let s1 := s.setFace p { s.face p with fused := some { u with ran := u.ran.set st.engine (u.ran.getD st.engine 0 + 1) } }
      let s2 := match op.inRing with
        | some r => s1.setRing p r { s1.ring p r with taken := true }
        | none => s1
      s2.fusedCount p (fun st => decide (6 ≤ st.engine) && st.inRing.isNone && st.outRing.isNone)

/-- The ring of a step whose skip at HEAD no longer matches its tally (R333, R334). -/
def State.stepTally (s : State) (p : Nat) (op : ComputeOp) : Option Nat :=
  op.inRing.filter (fun r => (s.ring p r).headSkip.any (fun k => crc32c (s.readMem (s.bufferAt p r k.place) k.bytes) != k.tally))

/-- A step finds a skip that does not match its tally. R335 gives the case no outcome: as on a tag mismatch, the stage and the stream that
feeds it stop; it counts in LVL_TALLY_MOVE and raises TALLY_MOVE with engine 6, the cells (DESIGN CHOICE, log entry 101). -/
def State.stageTally (s : State) (p ring : Nat) (c : Ctx) : State :=
  ((s.stopStage p ring).bumpReg (lvlReg (levelOf p) 0x840) 1).raise 0x13 1 0 (levelOf p) p (some c) 6 0

/-- A step whose input ring is empty waits (R282). -/
def State.stepWait (s : State) (p : Nat) (op : ComputeOp) : Option State :=
  (op.inRing.filter (fun r => (s.ring p r).occ == 0)).map (fun r => s.setRing p r { s.ring p r with waitData := true })

/-- COMPUTE_STEP (R290): a face evaluates output elements [lo, lo + count) of a layer of the work item in progress. A record that breaks
R290 or names a reserved function is refused (R117); on an empty ring it waits; a row length of 0 gives the empty output of R14; a tag
mismatch of its input stops it (R151), as a tally mismatch does (R334). -/
def execComputeStep (p : Nat) (ctx : Ctx) (op : ComputeOp) (s : State) : Host.Outcome State Fault Refusal :=
  match s.envOf ctx with
  | none => ok s
  | some e =>
    let k := s.pkg e.model
    let l := k.layers.getD (opLayer op) {}
    let t := s.outRec e l.out
    let isJob := match ctx with
      | .job _ => true
      | .session _ => false
    let range := match op.grad with
      | some q => isJob && bitAt l.flags 1 && decide (q.1 < k.tensors.length) && (k.tensors.getD q.2 {}).fmt == 1 &&
          decide (op.lo + op.count ≤ tensorElems (k.tensors.getD q.2 {}) e.hdr)
      | none => rangeOk t (policyOf k l.out) (tensorCols t e.hdr) (tensorElems t e.hdr) op.lo op.count
    let may := faceWf p && s.faceRuns p && !s.faceHeld p && !(s.face p).stageStop && s.stepTurn p ctx op && computeOk op.record && decide (opLayer op < k.layers.length) &&
      (l.opclass != 4 || opFunc op != 0) && (isJob || l.runs e.inter) && !(e.dec && bitAt l.flags 0) && range
    let rowOp := l.opclass == 5 || (l.opclass == 6 && decide (l.subop ≤ 2))
    let s1 := s.atStep p e op l
    let ran := match op.grad with
      | some q => s1.runGradient p e op l q.1 q.2
      | none => if rowOp && opRowLen op == 0 then s1 else s1.runStep p e op l
    let run := match (s1.stepTags p op).filter (fun q => !tagsAgree q), s1.stepTally p op with
      | some q, _ => s1.tagFault p q.1 (opLayer op) ctx q.2.1 q.2.2.1 q.2.2.2
      | none, some r => s1.stageTally p r ctx
      | none, none => ran.stepDone p op
    when may s ((s.stepWait p op).getD run)

end Sys2Proof.Machine
end

