-- ==== Sys2Proof/Machine/Sessions.lean ====
section
/-! DEFINITION. Sessions: cancelling their work, reset, park, close, eviction and migration (R246 to R250, R264, R266), and the
units they emit (R259, R270, R271). -/

namespace Sys2Proof.Machine

open Sys2Proof

/-! Work that ends. -/

/-- Does a queued descriptor belong to a work owner? -/
def QueuedDesc.isOf (c : Ctx) (q : QueuedDesc) : Bool := decide (q.work.ctx = c)

/-- An engine without an owner's descriptors: they end CANCELLED; what is left starts at its beginning, and an engine that
stopped on the owner's work goes on (R250, R288). -/
def Engine.cancel (g : Engine) (c : Ctx) (restart : Bool) : Engine :=
  let mine := g.queue.any (QueuedDesc.isOf c)
  let head := (g.queue.head?.map (QueuedDesc.isOf c)).getD false
  let g1 := { g with queue := g.queue.filter (fun q => !q.isOf c), status := if mine then 3 else g.status }
  if head || restart then
    { g1.rewind with stopped := false, err := none }
  else g1

/-- Has an owner work on face f? -/
def Face.worksFor (f : Face) (c : Ctx) : Bool :=
  f.engines.any (fun g => g.queue.any (QueuedDesc.isOf c)) || (f.fused.map (fun u => decide (u.work.ctx = c))).getD false

/-- A face without an owner's work; a face that had stopped on that owner's work runs again, and its other engines restart (R288). -/
def Face.cancel (f : Face) (c : Ctx) : Face :=
  let free := decide (f.stopWork = some c) || (f.stopWork.isNone && f.worksFor c)
  if f.worksFor c || decide (f.stopWork = some c) then
    let es := f.engines.map (fun g => g.cancel c (free && f.stopped))
    { f with engines := es, stopped := f.stopped && !free, stageStop := f.stageStop && !free,
             stopWork := if free then none else f.stopWork,
             rings := if free then f.rings.map (fun g => { g with reader := none }) else f.rings,
             fused := f.fused.filter (fun u => !decide (u.work.ctx = c)),
             item := f.item.filter (fun i => !decide (i.work.ctx = c)),
             missed := f.missed.filter (fun m => ((es.getD m.engine {}).queue.any (fun q =>
               matchesChunk m.layer m.chunk q))) }
  else f

/-- The transfers of an owner end CANCELLED on every face (R288). -/
def State.cancelMoves (s : State) (c : Ctx) : State :=
  { s with faces := s.faces.map (fun e => (e.1, e.2.cancel c)) }

/-- Every piece of work of a session ends: coder and compressor jobs CANCELLED, motion bands, transfers (R223, R250, R319). -/
def State.cancelWork (s : State) (id : Nat) : State :=
  let s1 := s.each (List.range 4) (fun s l => (s.cancelCoder l id).cancelBlk l (.session id))
  (s1.cancelMotion id).cancelMoves (.session id)

/-- The rounds of a session withdrawn (R329): its checkpoint round, and on a close its migration round too. -/
def State.withdrawSession (s : State) (id : Nat) (all : Bool) : State :=
  s.dropRounds (fun r => decide (r.flip = .checkpoint id) || (all && match r.flip with
    | .migration i _ => i == id && !r.decided
    | .checkpoint _ => false
    | .remap _ => false
    | .takeover .. => false
    | .rejoin .. => false
    | .swap => false
    | .licence => false)) 5

/-! Emission. -/

/-- The destinations of a group record, by the session's DEST_GROUP. -/
def State.groupOf (s : State) (x : Session) : GroupRec :=
  match s.boot.plan with
  | some pl => pl.groups.getD x.destGroup {}
  | none => {}

/-- A unit put into the egress buffer with a hold for every destination that is not skipping (R270); a stream header ends
skipping (R271). tally: of a slice's SLICE_DATA (R332). -/
def Session.emit (x : Session) (type : Nat) (payload : Bytes) (now pts : Nat) (last : Bool) (tally : Nat := 0) : Session :=
  let dests := if type = 1 then x.egress.dests.map (fun d => { d with skipping := false, frames := 0 }) else x.egress.dests
  let holds := (List.range dests.length).filter (fun i => !(dests.getD i {}).skipping)
  let u : HeldUnit :=
    { bytes := usfUnit type x.egress.unitSeq payload, seq := x.egress.unitSeq, since := now, pts := pts, last := last,
      header := type == 1, slice := type == 3, tally := tally, holds := holds }
  { x with egress := { x.egress with unitSeq := (x.egress.unitSeq + 1) % 65536, dests := dests, lastPts := pts,
                                     units := if holds.isEmpty then x.egress.units else x.egress.units ++ [u] } }

/-- The frame header an encode frame sends (R58). -/
def EncFrame.hdr (f : EncFrame) : FrameHdr :=
  { num := f.num, pts := f.pts, inter := f.inter, refresh := f.refresh, refSlot := f.refSlot, storeMask := f.storeMask,
    ltMask := f.ltMask, refNum := f.refNum, slices := f.slices.length, ratePoint := f.ratePoint }

/-- Slice i of the encode frame emitted, the headers it needs before it (R56, R259). -/
def Session.emitSlice (x : Session) (i now : Nat) : Session :=
  match x.frame with
  | none => x
  | some f =>
    let x1 := if f.headerSent || !f.refresh then x else x.emit 1 x.header now f.pts false
    let x2 := if f.headerSent then x1 else x1.emit 2 (frameHdrBytes f.hdr) now f.pts false
    let f1 := { f with headerSent := true, slices := f.slices.modify i (fun k => { k with st := 3 }) }
    let body := natBe 4 f.num ++ natBe 1 i ++ zeros 3 ++ (f.slices.getD i {}).data
    { x2 with frame := some f1 }.emit 3 body now f.pts f1.settled (f.slices.getD i {}).tally

/-- The slice an encode frame may emit next (R259): in sub-frame mode the first that completed, in whole-frame mode the lowest
once every slice has completed or is dropped. -/
def EncFrame.nextSlice (f : EncFrame) (sub : Bool) : Option Nat :=
  let ready := fun i => (f.slices.getD i {}).st == 2
  if sub then f.doneOrder.find? ready
  else if f.slices.all (fun k => decide (2 ≤ k.st)) then (List.range f.slices.length).find? ready
  else none

/-! Leaving ACTIVE. -/

/-- Has the session a frame in progress: started and not committed? -/
def Session.busy (x : Session) : Bool := if x.decode then !x.dec.frames.isEmpty else x.frame.isSome

/-- A session passes to CLOSING (R246): its rounds are withdrawn; at once, its jobs end; gracefully, an encode session emits
its end-of-stream unit first (R64). -/
def State.toClosing (s : State) (id : Nat) (graceful : Bool) : State :=
  let s1 := (if graceful then s else s.cancelWork id).withdrawSession id true
  let x := s1.ses id
  let x1 := if graceful && !x.decode && !x.eosSent then { x with eosSent := true }.emit 5 [] s.now x.egress.lastPts true else x
  (s1.setSes id { x1 with state := .closing, closingAt := s.now, frame := none, pending := none, coldNew := [],
                          dec := { x1.dec with frames := [] } }).countOld

/-- A session that may park passes to PARKING, with no migration to wait for (R246, R329). -/
def State.toParking (s : State) (id : Nat) : State :=
  let s1 := s.withdrawSession id true
  let x := s1.ses id
  if x.state = .active ∨ x.state = .opening ∨ x.state = .resuming then
    (s1.setSes id { x with state := .parking, parkAsked := false, frame := none, dec := { x.dec with frames := [] } }).countOld
  else s

/-- What waits for the frame in progress takes place once it has committed or is gone: a close that has taken effect, then a
park (R246, R253). -/
def State.afterCommit (s : State) (id : Nat) : State :=
  let x := s.ses id
  if x.state ≠ .active || (x.busy && !x.parkAsked) then s
  else if x.dec.closing && !x.busy then s.toClosing id true
  else if x.parkAsked then s.toParking id
  else s

/-- A park asked for: it takes place now where no frame is in progress (R246). -/
def State.askPark (s : State) (id : Nat) : State :=
  let x := s.ses id
  if x.busy then s.setSes id { x with parkAsked := true } else s.toParking id

/-- A session lost (R248, R338): it passes through CLOSING with no end-of-stream unit, and SESSION_LOST is raised. -/
def State.loseSession (s : State) (id detail : Nat) : State :=
  (s.toClosing id false).raise 0x32 3 0 (id / 262144) noFace (some (.session id)) detail 0

/-- A session reset (R250): its work is cancelled, its pending image and checkpoint round given up, its slots and motion planes
emptied. The frame in progress is not started again. NEXT_FRAME_NUM stays, as R250 says, also where that frame's header has left: the spec
does not say that the next frame then takes a later number, as R56 would have it (DESIGN CHOICE, log entry 26). -/
def State.resetSession (s : State) (id : Nat) : State :=
  let s1 := (s.cancelWork id).withdrawSession id false
  let x := s1.ses id
  let x1 := (List.range 9).foldl Session.absentCold x
  let x2 := { x1 with
    slots := List.replicate 8 {}, refreshDue := false, ltAge := 0, refreshAge := 0, pending := none, coldNew := [],
    frameIndex := x.frameIndex + b2n x.frame.isSome, frame := none, firstFrame := true, resetDue := false, prevFlow := [],
    lateReports := [], retried := false, committed := { x1.committed with refs := [] },
    dec := { x1.dec with header := none, unknown := false, frames := [], lastOpened := none } }
  ((s1.setSes id x2).countOld).afterCommit id

/-! Placements. -/

/-- Is placement entry n the target of this round? -/
def Flip.takes (n : Nat) : Flip → Bool
  | .migration _ m => m == n
  | .remap _ => false
  | .takeover .. => false
  | .rejoin .. => false
  | .swap => false
  | .checkpoint _ => false
  | .licence => false

/-- Is a session, a job or the target of a migration round using placement entry n? A parked session and a suspended job use none
(R246, R459). -/
def State.placementUsed (s : State) (n : Nat) : Bool :=
  s.sessions.any (fun e => e.2.state.live && e.2.placement == n) ||
    s.jobs.any (fun j => (j.state == .running || j.state == .suspending) && j.placement == n) ||
    s.rounds.any (fun r => r.flip.takes n)

/-- Is placement entry n in service: every face it names bound, on a level that serves (R43, R394)? -/
def State.placementServes (s : State) (n : Nat) : Bool :=
  (s.placementFaces n).all (fun f => (s.physOf f).isSome && s.levelServes (f / 256))

/-- The free placement entries of a class for a model slot (R247). -/
def State.freePlacements (s : State) (cls model : Nat) : List Nat :=
  match s.boot.plan with
  | none => []
  | some pl => (List.range pl.placement.length).filter (fun n =>
      (pl.placement.getD n {}).cls == cls && (pl.placement.getD n {}).modelSlot == model && !s.placementUsed n &&
        s.placementServes n)

/-- One of a list's numbers, which one the spec leaves open (log entry 2). -/
def State.pick (s : State) (l : List Nat) : Option Nat × State :=
  match l with
  | [] => (none, s)
  | _ :: _ => (l[Config.freeChoice s.draws % l.length]?, { s with draws := s.draws + 1 })

/-- A session that lost capacity is moved to a free entry of its class by a migration round, or parked with SESSION_EVICTED
where none is free (R266). -/
def State.moveSession (s : State) (id : Nat) : State :=
  let x := s.ses id
  let r := s.pick (s.freePlacements x.cls x.modelSlot)
  match r.1 with
  | some n => r.2.requestRound (.migration id n) none 0
  | none => (s.askPark id).raise 0x31 3 1 (id / 262144) noFace (some (.session id)) x.placement 0

/-! The rows. -/

/-- SESSION_ACTIVATE (R246, R249): at START0 an opening or resuming session becomes ACTIVE; of a resumed encode session the first frame asks
whether its last committed frame is acknowledged. -/
def execSessionActivate (session : Nat) (s : State) : Host.Outcome State Fault Refusal :=
  let x := s.ses session
  when (s.sesLive session && (x.state == .opening || x.state == .resuming) && decide (x.start0 ≤ s.now)) s
    (s.setSes session { x with state := .active, resumed := x.resumed || (!x.decode && x.state == .resuming) })

/-- SESSION_PARK_COMPLETE (R246, R248): the working area is freed; a close that was waiting follows. -/
def execSessionParkComplete (session : Nat) (s : State) : Host.Outcome State Fault Refusal :=
  let x := s.ses session
  let s1 := s.setSes session { x with state := .parked, workBase := 0, committed := {}, pending := none }
  when (s.sesLive session && x.state == .parking) s
    (if x.closeAsked.isSome then s1.toClosing session true else s1)

/-- SESSION_FREE (R246): a closing session whose last units have left, or that has been closing for 1 ms, releases everything and is FREE, its
descriptor zero. -/
def execSessionFree (session : Nat) (s : State) : Host.Outcome State Fault Refusal :=
  let x := s.ses session
  when (s.sesLive session && x.state == .closing && (x.egress.units.isEmpty || decide (x.closingAt + 1000000 ≤ s.now))) s (s.freeSes session)

/-- SLICE_EMIT (R259): the next completed slice leaves through the egress group by D(k). -/
def execSliceEmit (session : Nat) (s : State) : Host.Outcome State Fault Refusal :=
  let x := s.ses session
  match x.frame with
  | none => ok s
  | some f =>
    match f.nextSlice x.subframe with
    | none => ok s
    | some i =>
      when (s.sesLive session && !x.decode && decide (s.now ≤ f.deadline)) s ((s.setSes session (x.emitSlice i s.now)).encodeSettled session)

/-- SPECTATOR_SKIP (R271): a destination over its hold limit or its hold age is put into skipping. -/
def execSpectatorSkip (session dest : Nat) (s : State) : Host.Outcome State Fault Refusal :=
  let x := s.ses session
  let d := (s.groupOf x).dests.getD dest {}
  let mine := x.egress.units.filter (fun u => u.holds.contains dest)
  let held := mine.foldl (fun n u => n + u.bytes.length) 0
  let old := mine.any (fun u => decide (u.since + 1000 * d.holdAge < s.now))
  let units := (x.egress.units.map (fun u => { u with holds := u.holds.filter (fun i => i != dest) })).filter (fun u =>
    !u.holds.isEmpty)
  let x1 := { x with
    refreshDue := x.refreshDue || dest == 0,
    egress := { x.egress with units := units,
                              dests := x.egress.dests.modify dest (fun k => { k with skipping := true, frames := 0 }) } }
  when (s.sesLive session && !x.decode && decide (dest < x.egress.dests.length) && !(x.egress.dests.getD dest {}).skipping &&
    (decide (d.holdMax < held) || old)) s (s.setSes session (x1.bump 28 1))

end Sys2Proof.Machine
end

