-- ==== Sys2Proof/Machine/Alloc.lean ====
section
/-! DEFINITION. What Headframe allocates to a session: working areas in bonded DRAM (R241) and checkpoint copies in LPDDR6
(R243, R262). Which free range is taken is left open (log entry 2). -/

namespace Sys2Proof.Machine

open Sys2Proof

/-- Do [a, a + n) and the range r lie apart? -/
def apart (a n : Nat) (r : Nat × Nat) : Bool := decide (a + n ≤ r.1) || decide (r.1 + r.2 ≤ a)

/-- The 64-byte aligned places of a free range of size n in [lo, lo + len): the start, and the end of every used range. -/
def freePlaces (lo len n : Nat) (used : List (Nat × Nat)) : List Nat :=
  (lo :: used.map (fun r => roundUp (r.1 + r.2) 64)).eraseDups.filter (fun a =>
    decide (lo ≤ a) && decide (a + n ≤ lo + len) && used.all (apart a n))

/-- Bytes of a working area (R241). -/
def workBytes (stateBytes : Nat) : Nat := 0xC0 + 2 * stateBytes

/-- The working areas in use. -/
def State.workAreas (s : State) : List (Nat × Nat) :=
  (s.sessions.filter (fun e => e.2.workBase != 0)).map (fun e => (e.2.workBase, workBytes e.2.stateBytes))

/-- A working area allocated in the pool of a level (R241), or none where it has no room. -/
def State.allocWork (s : State) (l stateBytes : Nat) : Option Nat × State :=
  match s.boot.plan with
  | none => (none, s)
  | some pl => s.pick (freePlaces (dramBase l + pl.workOff) pl.workBytes (workBytes stateBytes) s.workAreas)

/-- The copies in use. -/
def State.copiesUsed (s : State) : List (Nat × Nat) :=
  s.sessions.flatMap (fun e =>
    let x := e.2
    let n := copyBytes (s.pkg x.modelSlot) x.decode x.header
    (if x.copyA.present then [(x.ckptA, n)] else []) ++ (if x.copyB.present then [(x.ckptB, n)] else []))

/-- Is LPDDR6 device d in service (R340, R368)? -/
def State.lpddrOk (s : State) (d : Nat) : Bool :=
  decide (d < 16) && !s.boot.lpddrFaulty.contains d && !s.boot.disabled.contains { kind := 8, index := d }

/-- Places for a copy of n bytes in the Plan's checkpoint pool, each on one device in service (R243, R356). -/
def State.copyPlaces (s : State) (n : Nat) : List Nat :=
  match s.boot.plan with
  | none => []
  | some pl => pl.ckptPool.flatMap (fun r => (freePlaces r.1 r.2 n s.copiesUsed).filter (fun a =>
      deviceOf a == deviceOf (a + n - 1) && s.lpddrOk (deviceOf a)))

/-- Two copies placed on devices of different levels (R243). -/
def State.allocCopies (s : State) (n : Nat) : Option (Nat × Nat) × State :=
  let ps := s.copyPlaces n
  let other := fun (a : Nat) => ps.filter (fun b => deviceOf b / 4 != deviceOf a / 4)
  let r := s.pick (ps.filter (fun a => !(other a).isEmpty))
  match r.1 with
  | none => (none, s)
  | some a =>
    let q := r.2.pick (other a)
    (q.1.map (fun b => (a, b)), q.2)

/-- Copy i of a session replaced (R262): MIRROR_SINGLE set, a new range taken on a device of another level than the copy that
remains, none where there is no room. -/
def State.replaceCopy (s : State) (id i : Nat) : State :=
  let x := s.ses id
  let n := copyBytes (s.pkg x.modelSlot) x.decode x.header
  let keep := deviceOf (x.copyBase (1 - i)) / 4
  let r := s.pick ((s.copyPlaces n).filter (fun a => deviceOf a / 4 != keep))
  let c := { x.copy i with present := r.1.isSome, ok := false }
  r.2.setSes id { (x.setCopy i c).setCopyBase i (r.1.getD 0) with mirrorSingle := true }

end Sys2Proof.Machine
end

