-- ==== Sys2Proof/Machine/Schedule.lean ====
section
/-! DEFINITION. Ingest pictures (R424, R425) and the encode schedule: frame starts, references, launches, deadlines (R251 to
R259, R267). -/

namespace Sys2Proof.Machine

open Sys2Proof

/-! Ingest pictures. -/

/-- Planes of a picture under a stream header (R424). -/
def planeCount (h : Bytes) : Nat := if hdrMedia h = 1 then 3 else if hdrMedia h = 2 then hdrChannels h else 1

/-- Width and height of plane p in samples; audio and track planes have one row. -/
def planeSize (h : Bytes) (p : Nat) : Nat × Nat :=
  if hdrMedia h = 1 then
    let d := if p ≠ 0 ∧ hdrChroma h = 0 then 2 else 1
    (hdrWidth h / d, hdrHeight h / d)
  else if hdrMedia h = 2 then (hdrSamples h, 1)
  else (hdrSamples h * hdrChannels h, 1)

/-- Bytes of a sample. -/
def sampleBytes (h : Bytes) : Nat := if hdrMedia h = 1 then (if hdrDepth h = 10 then 2 else 1) else 4

/-- Bytes of plane p. -/
def planeBytes (h : Bytes) (p : Nat) : Nat := (planeSize h p).1 * (planeSize h p).2 * sampleBytes h

/-- Byte o of plane p, where it has arrived. -/
def Picture.byteAt (c : Picture) (p o : Nat) : Option Byte :=
  (c.bytes.find? (fun b => b.1 == p && b.2.1 == o)).map (fun b => b.2.2)

/-- Have the bytes of plane p in [lo, hi) arrived? -/
def Picture.hasRange (c : Picture) (p lo hi : Nat) : Bool :=
  (c.bytes.filter (fun b => b.1 == p && decide (lo ≤ b.2.1) && decide (b.2.1 < hi))).length == hi - lo

/-- Is the picture complete (R425)? -/
def Picture.complete (c : Picture) (h : Bytes) : Bool :=
  (List.range (planeCount h)).all (fun p => c.hasRange p 0 (planeBytes h p))

/-- Was the picture wholly ingested by time t (R255)? -/
def Picture.doneBy (c : Picture) (t : Nat) : Bool := c.doneAt.any (fun d => decide (d ≤ t))

/-- Is video band i ingested: its 64 luma rows and its chroma rows (R425)? -/
def Picture.bandIn (c : Picture) (h : Bytes) (i : Nat) : Bool :=
  (List.range 3).all (fun p =>
    let z := planeSize h p
    let rows := if p ≠ 0 ∧ hdrChroma h = 0 then 32 else 64
    c.hasRange p (min (rows * i) z.2 * z.1 * sampleBytes h) (min (rows * (i + 1)) z.2 * z.1 * sampleBytes h))

/-- The planes of a picture, a byte that has not arrived read as 0. -/
def Picture.planes (c : Picture) (h : Bytes) : List Plane :=
  (List.range (planeCount h)).map (fun p =>
    let z := planeSize h p
    let n := sampleBytes h
    { w := z.1, h := z.2,
      samples := (List.range (z.1 * z.2)).map (fun i =>
        beNat ((List.range n).map (fun j => (c.byteAt p (n * i + j)).getD 0))) })

/-- The picture numbered n in ingest. -/
def Session.picture (x : Session) (n : Nat) : Option Picture := x.ingest.find? (fun c => c.num == n)

/-! References (R267, R268). -/

/-- What the loss reports accepted at least 100 µs before t set, taken over (R268). -/
def Session.takeReports (x : Session) (t : Nat) : Session :=
  let act := x.lateReports.filter (fun r => decide (r.1 + 100000 ≤ t))
  let mask := act.foldl (fun m r => Nat.lor m r.2.1) 0
  { x with lateReports := x.lateReports.filter (fun r => decide (t < r.1 + 100000)),
           refreshDue := x.refreshDue || act.any (fun r => r.2.2),
           slots := (List.range 8).map (fun i => if bitAt mask i && (x.slot i).long then { x.slot i with acked := true } else x.slot i) }

/-- The later of two slots by frame number. -/
def Session.newerSlot (x : Session) (a b : Nat) : Nat := if laterFrame (x.slot a).frame (x.slot b).frame then a else b

/-- The newest acknowledged long-term slot. -/
def Session.ackedSlot (x : Session) : Option Nat :=
  match (List.range 8).filter (fun i => (x.slot i).held && (x.slot i).long && (x.slot i).acked) with
  | [] => none
  | i :: r => some (r.foldl x.newerSlot i)

/-- The long-term slot row 3 writes: the one of 6 and 7 that holds the older frame, or 7 if it is empty. -/
def Session.oldSlot (x : Session) : Nat :=
  if !(x.slot 7).held then 7 else if x.newerSlot 6 7 = 6 then 7 else 6

/-- Is the last committed frame in an acknowledged slot (R249)? -/
def Session.lastAcked (x : Session) : Bool :=
  x.slots.any (fun k => k.held && k.acked && k.frame == (x.nextFrameNum + 2 ^ 32 - 1) % 2 ^ 32)

/-- A row of R267: the session after it, and the frame's type, REF_SLOT, STORE_MASK and LONG_TERM_MASK. A session just resumed sends a
refresh frame unless its last committed frame is acknowledged (R249). -/
def Session.choose (x0 : Session) : Session × Bool × Bool × Nat × Nat × Nat :=
  let x := { x0 with resumed := false }
  let due := x.refreshDue
  if x.firstFrame || (x0.resumed && !x.lastAcked) || (due && x.ackedSlot.isNone) ||
      (x.settings.refreshInterval != 0 && x.refreshAge + 1 == x.settings.refreshInterval) then
    ({ x with refreshDue := false }.bump 26 1, false, true, 15, 0x41, 0x40)
  else if due then ({ x with refreshDue := false }.bump 27 1, true, false, x.ackedSlot.getD 0, 1, 0)
  else if x.settings.ltInterval ≠ 0 ∧ x.ltAge + 1 = x.settings.ltInterval then
    (x, true, false, 0, 1 + 2 ^ x.oldSlot, 2 ^ x.oldSlot)
  else (x, true, false, 0, 1, 0)

/-- Is the frame computed in full (R195)? -/
def Session.fullFrame (x : Session) (inter : Bool) : Bool :=
  x.firstFrame || !inter || (x.settings.gateRefresh != 0 && decide (x.settings.gateRefresh ≤ x.sinceFull + 1))

/-- The references of the frame in progress chosen at its first launch, at time t (R256, R267, R268). -/
def Session.firstLaunch (x : Session) (t tick : Nat) : Session :=
  match x.frame with
  | none => x
  | some f =>
    let r := (x.takeReports t).choose
    let g := { f with inter := r.2.1, refresh := r.2.2.1, refSlot := r.2.2.2.1, storeMask := r.2.2.2.2.1, ltMask := r.2.2.2.2.2,
                      refNum := if r.2.1 then (r.1.slot r.2.2.2.1).frame else 0, first := x.firstFrame,
                      full := x.fullFrame r.2.1, chosen := true }
    let y := { r.1 with frame := some g }
    if tick < x.firedAt then y.bump 18 1 else y

/-! Frame starts. -/

/-- The settings of one SET in force: RATE_POINT 0xFF and DEADLINE_OFF 0 keep what is in force (R457). -/
def Session.applySet (x : Session) (p : PendingSet) : Session :=
  { x with settings := p.settings, ratePoint := if p.ratePoint = 0xFF then x.ratePoint else p.ratePoint,
           deadlineOff := if p.deadlineOff = 0 then x.deadlineOff else p.deadlineOff }

/-- The settings scheduled for a launch time at or before t: of those that take effect together the last accepted replaces the
others entirely (R253, R457). -/
def Session.applySets (x : Session) (t : Nat) : Session :=
  let y := match (x.sets.filter (fun p => decide (p.launch ≤ t))).getLast? with
    | some p => x.applySet p
    | none => x
  { y with sets := x.sets.filter (fun p => decide (t < p.launch)) }

/-- A frame more for every destination that is skipping; a spectator (every destination but the primary, number 0) skipping
longer than the group's limit makes a refresh due (R270, R271). -/
def Session.countSkips (x : Session) (limit : Nat) : Session :=
  let ds := x.egress.dests.map (fun d => if d.skipping then { d with frames := d.frames + 1 } else d)
  { x with egress := { x.egress with dests := ds },
           refreshDue := x.refreshDue || (limit != 0 && (ds.drop 1).any (fun d => d.skipping && decide (limit < d.frames))) }

/-- The frame begun at S(k), bound to a bank (R233, R255). -/
def Session.openFrame (x : Session) (bank : Nat) (pic : Option Picture) : Session :=
  let f : EncFrame :=
    { k := x.frameIndex, num := x.nextFrameNum, start := x.startOf x.frameIndex, deadline := x.deadlineOf x.frameIndex,
      bank := bank == 1, ratePoint := x.ratePoint, slices := List.replicate (sliceCount x.header) {} }
  let g := match pic with
    | some p => { f with pts := p.pts, source := p.planes x.header, pic := some p.num,
                         slices := f.slices.map (fun k => { k with st := 1 }) }
    | none => f
  { x with frame := some g, bank := bank == 1 }

/-- The pictures wholly ingested at a frame start t, oldest first. -/
def Session.ready (x : Session) (t : Nat) : List Picture := x.ingest.filter (fun c => c.doneBy t)

/-- A whole-frame start (R255): the latest picture complete at S(k) is encoded and earlier ones are given up; with none the frame is
skipped. -/
def Session.startWhole (x : Session) (bank t : Nat) : Session :=
  let at' := x.startOf x.frameIndex
  match (x.ready at').getLast? with
  | none => ({ x with frameIndex := x.frameIndex + 1 }.bump 19 1)
  | some p =>
    let y := { x with ingest := x.ingest.filter (fun c => !c.doneBy at') }
    (y.openFrame bank (some p)).firstLaunch t (x.startOf x.frameIndex)

/-- The session as its frame start at time t leaves it. -/
def Session.start (x : Session) (bank t limit : Nat) : Session :=
  let y := (x.applySets (x.startOf x.frameIndex)).countSkips limit
  if y.subframe then y.openFrame bank none else y.startWhole bank t

/-- A migration round that waited for a frame start of the session is armed (R329). -/
def State.armMigration (s : State) (id : Nat) : State :=
  s.each (s.rounds.filter (fun r => !r.armed && r.hold && match r.flip with
      | .migration i _ => i == id
      | .remap _ => false
      | .takeover .. => false
      | .rejoin .. => false
      | .swap => false
      | .checkpoint _ => false
      | .licence => false)) (fun s r => s.unhold r)

/-- What a frame start brings before the frame itself: a reset that is due (R341), the arming of a migration, borrowing again
(R295). -/
def State.beforeFrame (s : State) (id : Nat) : State :=
  ((if (s.ses id).resetDue then s.resetSession id else s).armMigration id).mayBorrowAgain id

/-- Does a graceful close take effect at this frame start (R253)? -/
def Session.closesNow (x : Session) : Bool := x.closeAsked.any (fun c => decide (c.launch ≤ x.startOf x.frameIndex))

/-- A frame of an encode session started, or skipped, on the bank of its start time. -/
def State.startFrame (s : State) (id : Nat) : State :=
  let x := s.ses id
  let b := s.bankAt (x.startOf x.frameIndex)
  let y := x.start b s.now (s.groupOf x).skipRefresh
  (s.setSes id y).countOld

/-- FRAME_START (R253, R255, R256, R267): an encode frame starts, or is skipped, once the frame before it has committed. -/
def execFrameStart (session : Nat) (s : State) : Host.Outcome State Fault Refusal :=
  let x := s.ses session
  let s1 := s.beforeFrame session
  let y := s1.ses session
  when (s.sesLive session && x.state == .active && !x.decode && x.frame.isNone && decide (x.startOf x.frameIndex ≤ s.now)) s
    (if y.closesNow then s1.toClosing session true
     else s1.startFrame session)

/-- The picture a sub-frame frame encodes: the one it has, else the oldest in ingest. -/
def Session.framePicture (x : Session) (f : EncFrame) : Option Picture :=
  match f.pic with
  | some n => x.picture n
  | none => x.ingest.head?

/-- BAND_BUDGET of a session's placement (R255, R356). -/
def State.bandBudget (s : State) (x : Session) : Nat :=
  match s.boot.plan with
  | some pl => (pl.placement.getD x.placement {}).bandBudget
  | none => 0

/-- A frame takes its picture; once the last of its bands has launched or is dropped the picture leaves ingest. -/
def Session.takeBand (x : Session) (f : EncFrame) (p : Picture) (band : Nat) : Session :=
  let last := (List.range f.slices.length).all (fun i => i == band || decide (1 ≤ (f.slices.getD i {}).st))
  { x with frame := some { f with pts := p.pts, pic := some p.num, source := p.planes x.header },
           ingest := if last then x.ingest.filter (fun c => c.num != p.num) else x.ingest }

/-- A band launched: at the frame's first launch its references are chosen. -/
def Session.launchBand (x : Session) (f : EncFrame) (p : Picture) (band t at' : Nat) : Session :=
  let x1 := x.takeBand f p band
  let y := { x1 with frame := x1.frame.map (fun g => { g with slices := g.slices.modify band (fun k => { k with st := 1 }) }) }
  if f.chosen then y else y.firstLaunch t (max f.start at')

/-- The time band i of the frame's picture was ingested: none where the picture has left ingest whole. -/
def Picture.bandTime (c : Picture) (i : Nat) : Option Nat := (c.bands.find? (fun b => b.1 == i)).map (fun b => b.2)

/-- BAND_LAUNCH (R255): a band of a sub-frame session launches at or after S(k) and its last ingested byte, and is dropped
where that falls after D(k) − BAND_BUDGET. -/
def execBandLaunch (session band : Nat) (s : State) : Host.Outcome State Fault Refusal :=
  let x := s.ses session
  match x.frame with
  | none => ok s
  | some f =>
    let late := decide (f.deadline < s.now + s.bandBudget x)
    let open' := s.sesLive session && !x.decode && x.subframe && decide (band < f.slices.length) &&
      (f.slices.getD band {}).st == 0 && decide (f.start ≤ s.now)
    match (x.framePicture f).bind (fun p => (p.bandTime band).map (fun t => (p, t))) with
    | none => ok s
    | some q =>
      when (open' && decide (q.2 ≤ s.now)) s
        (if late then (s.setSes session (x.takeBand f q.1 band)).dropSlices session [band]
         else s.setSes session (x.launchBand f q.1 band s.now q.2))

/-- The picture of a sub-frame frame leaves ingest with the frame. -/
def Session.givePicture (x : Session) (f : EncFrame) : Session :=
  match x.framePicture f with
  | some p => if x.subframe then { x with ingest := x.ingest.filter (fun c => c.num != p.num) } else x
  | none => x

/-- ENCODE_DEADLINE (R259): at D(k) every slice not emitted is dropped. -/
def execEncodeDeadline (session : Nat) (s : State) : Host.Outcome State Fault Refusal :=
  let x := s.ses session
  match x.frame with
  | none => ok s
  | some f =>
    when (s.sesLive session && !x.decode && !f.ckpt && decide (f.deadline ≤ s.now)) s
      ((s.setSes session (x.givePicture f)).dropRest session)

end Sys2Proof.Machine
end

