-- ==== Sys2Proof/Machine/Usf.lean ====
section
/-! DEFINITION. The USF receiver (R50 to R65, R76 to R82), the output of decode frames (R67, R68, R260), and loss reports at both
ends (R63, R268, R269). -/

namespace Sys2Proof.Machine

open Sys2Proof

/-! Unit numbering. -/

/-- What a unit whose CHECK matches does to H and USF_UNITS_LOST (R53). -/
def Session.countSeq (x : Session) (q : Nat) : Session :=
  match x.dec.high with
  | none => { x with dec := { x.dec with high := some q } }
  | some h =>
    if serialBefore 16 h q then
      { x with dec := { x.dec with high := some q } }.bump 3 ((q + 65536 - h) % 65536 - 1)
    else x

/-! Frames. -/

/-- The open frame: the last one, unless it has closed (R65). -/
def Session.openDec (x : Session) : Option DecFrame := x.dec.frames.getLast?.filter (fun f => !f.closed)

/-- The last frame of the list replaced. -/
def Session.setLast (x : Session) (f : DecFrame) : Session :=
  { x with dec := { x.dec with frames := x.dec.frames.dropLast ++ [f] } }

/-- The reference of the frame that is next to be decoded, decided once the frame before it has committed: missing, or
concealed (R78, R79, R82). -/
def Session.bindHead (x : Session) : Session :=
  match x.dec.frames with
  | [] => x
  | f :: r =>
    if f.bound || f.unknown then x
    else
      let k := x.slot f.refSlot
      let grey := f.inter && (!k.held || k.frame != f.refNum)
      let conc := f.inter && !grey && k.concealed
      let y := { x with dec := { x.dec with frames := { f with bound := true, grey := grey, conc := conc } :: r } }
      let y1 := if grey then y.bump 9 1 else y
      if conc then y1.bump 10 1 else y1

/-- The frame closed: every slice not accepted is missing (R65, R82). -/
def DecFrame.close (f : DecFrame) : DecFrame :=
  { f with closed := true, slices := f.slices.map (fun k => if k.st = 0 then { k with st := 4 } else k) }

/-- The open frame of a session closes; it lets its bank go (R65, R234). A frame of an unknown stream is simply gone (R57). -/
def State.closeOpen (s : State) (id : Nat) : State :=
  let x := s.ses id
  match x.openDec with
  | none => s
  | some f =>
    if f.unknown then
      (s.setSes id { x with dec := { x.dec with frames := x.dec.frames.dropLast } }).afterCommit id
    else (s.setSes id ((x.setLast f.close).bump 8 (f.slices.countP (fun k => k.st == 0)))).countOld

/-! Loss reports sent. -/

/-- n frames from number a noted as lost or concealed (R63). A frame is noted lost at the later header and concealed at its output; FIRST_LOST
is the one noted first, where the spec does not say that it is the lowest number (DESIGN CHOICE, log entry 32). -/
def Session.noteLoss (x : Session) (a n : Nat) : Session :=
  if n = 0 then x
  else
    { x with dec := { x.dec with firstLost := if x.dec.lostCount = 0 then a % 2 ^ 32 else x.dec.firstLost,
                                 lostCount := min (x.dec.lostCount + n) 65535 } }

/-- CLEAN_SLOTS of a slot list (R63). -/
def cleanSlots (l : List RefSlot) : Nat :=
  ((List.range 8).filter (fun i => (l.getD i {}).held && !(l.getD i {}).concealed)).foldl (fun m i => m + 2 ^ i) 0

/-- The payload of the session's next loss report (R63). -/
def Session.reportBody (x : Session) (streamId : Nat) (slots : List RefSlot) : Bytes :=
  natBe 4 streamId ++ natBe 4 x.dec.cleanNum ++ natBe 4 (if x.dec.lostCount = 0 then 0 else x.dec.firstLost) ++
    natBe 2 x.dec.lostCount ++ natBe 1 (cleanSlots slots) ++ natBe 1 0 ++ natBe 4 x.dec.reportSeq

/-- Is a report due (R269): a loss not yet reported, at most once in a frame period, or the routine interval? -/
def Session.reportDue (x : Session) (now : Nat) : Bool :=
  if x.dec.lostCount ≠ 0 then x.dec.lastReport.all (fun t => decide (t + x.period ≤ now))
  else x.settings.reportInterval != 0 && decide (x.settings.reportInterval ≤ x.dec.sinceReport)

/-- The RTP timestamp of a PTS (R420). -/
def rtpStamp (h : Bytes) (pts : Nat) : Nat :=
  (pts * (if hdrMedia h = 2 then beAt h 24 4 else 90000) / 1000000000) % 2 ^ 32

/-- An RTP packet (R420). -/
def rtpPacket (marker : Bool) (type seq stamp ssrc : Nat) (payload : Bytes) : Bytes :=
  natBe 1 0x80 ++ natBe 1 (b2n marker * 128 + type % 128) ++ natBe 2 seq ++ natBe 4 stamp ++ natBe 4 ssrc ++ payload

/-- A loss report sent towards the stream's source where one is due (R269), in a packet of its own (R420 to R422) with the payload type of
the output group's primary destination (log entry 95), from MEDIA_UDP of the session's own port to where the stream comes from. -/
def State.reportLoss (s : State) (id streamId : Nat) (slots : List RefSlot) : State :=
  let x := s.ses id
  if x.reportDue s.now then
    let u := usfUnit 4 x.egress.unitSeq (x.reportBody streamId slots)
    let rtp := rtpPacket false ((s.groupOf x).dests.getD 0 {}).payload x.dec.rtpSeq (rtpStamp x.hdr x.egress.lastPts) streamId
      (natBe 4 0 ++ u)
    let y := { x with
      egress := { x.egress with unitSeq := (x.egress.unitSeq + 1) % 65536 }
      dec := { x.dec with lostCount := 0, firstLost := 0, lastReport := some s.now, sinceReport := 0,
                          reportSeq := (x.dec.reportSeq + 1) % 2 ^ 32, rtpSeq := (x.dec.rtpSeq + 1) % 65536 } }
    let to' := x.dec.src.getD { ip := 0, udp := 0 }
    (s.setSes id (y.bump 25 1)).sendNet x.inPort to'.ip (.report id x.dec.src rtp
      (s.datagram x.inPort to' ((s.port x.inPort).getD {}).mediaUdp rtp true))
  else s

/-! Streams. -/

/-- All eight slots empty: no frame held, no reference state kept (R56, R64). -/
def Session.emptySlots (x : Session) : Session :=
  { x with slots := List.replicate 8 {}, committed := { x.committed with refs := [] } }

/-- The stream ends: slots are emptied, at once or after the frames that still belong to it (R56, R64). -/
def Session.endStream (x : Session) : Session :=
  let y := { x with dec := { x.dec with header := none, unknown := false, lastOpened := none } }
  match y.dec.frames.getLast? with
  | none => y.emptySlots
  | some f => y.setLast { f with ends := true }

/-- Does the session hold the package a stream header names (R57, R456)? -/
def State.holds (s : State) (x : Session) (h : Bytes) : Bool :=
  let m := s.model x.modelSlot
  let o := x.header
  m.state == 3 && pkgNamed m.pkg h && hdrMedia h == hdrMedia o &&
    (hdrMedia h != 1 || (hdrChroma h == hdrChroma o && hdrDepth h == hdrDepth o &&
      decide (codedWidth h ≤ codedWidth o) && decide (codedHeight h ≤ codedHeight o)))

/-- A stream opened by a header (R56, R57), whose media parameters set the frame period (R251). -/
def Session.openStream (x : Session) (h : Bytes) (held : Bool) : Session :=
  let y := { x with dec := { x.dec with header := some h, unknown := !held, lastOpened := none } }
  if held then { y with periodNum := (framePeriod h).1, periodDen := (framePeriod h).2 } else y.bump 4 1

/-- A valid stream header received (R56). -/
def State.streamHeader (s : State) (id : Nat) (h : Bytes) : State :=
  let x := s.ses id
  let held := s.holds x h
  match x.dec.header with
  | none => s.setSes id (x.openStream h held)
  | some g =>
    if g = h ∧ ¬ (x.dec.unknown ∧ held) then s
    else
      let s1 := s.closeOpen id
      let y := s1.ses id
      if y.state = .active then s1.setSes id (y.endStream.openStream h held) else s1

/-- An end-of-stream unit received (R64). -/
def State.endOfStream (s : State) (id : Nat) : State :=
  if (s.ses id).dec.header.isNone then s
  else
    let s1 := s.closeOpen id
    if (s1.ses id).state = .active then s1.setSes id (s1.ses id).endStream else s1

/-! Frame headers. -/

/-- The frame a header opens (R58, R61, R233, R252). -/
def State.newDecFrame (s : State) (x : Session) (h : Bytes) (f : FrameHdr) : DecFrame :=
  let k := s.pkg x.modelSlot
  let coded := if f.inter then k.inter else k.intra
  { num := f.num, pts := f.pts, inter := f.inter, refresh := f.refresh, refSlot := f.refSlot, storeMask := f.storeMask,
    ltMask := f.ltMask, refNum := f.refNum, ratePoint := f.ratePoint, bank := s.bankAt (launchGrain s.now) == 1, start := launchGrain s.now,
    deadline := launchGrain s.now + x.deadlineOff, unknown := x.dec.unknown, hdr := h,
    slices := List.replicate f.slices {},
    tensors := if x.dec.unknown then []
      else coded.map (fun c => (c.tensor, { zeroTensor (k.tensors.getD c.tensor {}) h with fmt := 1 })) }

/-- A frame opened on session id (R60, R252, R253, R256): settings scheduled for it apply, and a frame that waits for the one
before it counts in LATE_START. -/
def State.openDecFrame (s : State) (id : Nat) (h : Bytes) (f : FrameHdr) : State :=
  let x := (s.ses id).applySets (launchGrain s.now)
  let fr := s.newDecFrame x h f
  let y := if x.dec.frames.isEmpty then x else x.bump 18 1
  s.setSes id ({ y with
    dec := { y.dec with frames := y.dec.frames ++ [fr], lastOpened := some f.num, lastStart := some fr.start }
    bank := fr.bank, ratePoint := f.ratePoint }.bindHead)

/-- A frame header for a frame later than the last (R60): frames between the two are lost, the open frame closes, and the frame
opens, unless the session is closing or parking (R246, R253). -/
def State.laterHeader (s : State) (id : Nat) (h : Bytes) (f : FrameHdr) : State :=
  let x := s.ses id
  let lost := match x.dec.lastOpened with
    | some n => (f.num + 2 ^ 32 - n - 1) % 2 ^ 32
    | none => 0
  let first := (x.dec.lastOpened.getD 0 + 1) % 2 ^ 32
  let s1 := (s.setSes id ((x.noteLoss first lost).bump 6 lost)).closeOpen id
  let s2 := if lost = 0 then s1 else s1.reportLoss id (hdrStreamId h) (s1.ses id).slots
  let y := s2.ses id
  if y.state ≠ .active || y.dec.closing || y.parkAsked then s2
  else if y.resetDue then (s2.resetSession id).bumpSes id 1 1
  else ((s2.armMigration id).mayBorrowAgain id).openDecFrame id h f

/-- A frame header received (R59, R60, R82). -/
def State.frameHeader (s : State) (id : Nat) (b : Bytes) : State :=
  let x := s.ses id
  let f := parseFrameHdr b
  match x.dec.header with
  | none => s.bumpSes id 1 1
  | some h =>
    let rates := if x.dec.unknown then none else some (s.pkg x.modelSlot).ratePoints
    if !frameHdrOk f h rates then s.bumpSes id 1 1
    else match x.dec.lastOpened with
      | none => s.laterHeader id h f
      | some n => if laterFrame f.num n then s.laterHeader id h f else s.bumpSes id 5 1

/-! Slices. -/

/-- Do a session's placement faces lack one, an absent slot's, whose work feeds slice i (R266; log entry 15)? -/
def State.sliceUnfed (s : State) (x : Session) (i : Nat) : Bool :=
  (s.placementFaces x.placement).any (fun f => (s.physOf f).isNone &&
    Config.feedsSlice ((s.boot.plan.map (fun p => p.id)).getD 0) f i)

/-- A slice received (R62, R65, R82). -/
def State.sliceUnit (s : State) (id : Nat) (b : Bytes) : State :=
  let x := s.ses id
  let i := beAt b 4 1
  if x.dec.header.isNone then s.bumpSes id 1 1
  else match x.openDec with
    | none => s.bumpSes id 5 1
    | some f =>
      if f.num ≠ beAt b 0 4 ∨ f.slices.length ≤ i ∨ (f.slices.getD i {}).st ≠ 0 then s.bumpSes id 5 1
      else
        let dead := !f.unknown && s.sliceUnfed x i
        let k : DecSlice := if dead then { st := 4 } else { st := 1, data := b.drop 8 }
        let g := { f with slices := f.slices.set i k }
        let s1 := s.setSes id ((x.setLast g).bump 8 (b2n dead))
        if g.slices.all (fun k => k.st != 0) then s1.closeOpen id else s1

/-! Loss reports received. -/

/-- Does an encode session accept the report (R268)? -/
def Session.acceptsReport (x : Session) (primary : Bool) (b : Bytes) : Bool :=
  primary && beAt b 0 4 == x.streamId && (!x.anyReport || serialBefore 32 x.reportSeq (beAt b 16 4))

/-- The slots a report acknowledges: long-term ones it calls clean, not after CLEAN_FRAME_NUM (R268). -/
def Session.ackMask (x : Session) (b : Bytes) : Nat :=
  ((List.range 8).filter (fun i => bitAt (beAt b 14 1) i && (x.slot i).held && (x.slot i).long &&
    !laterFrame (x.slot i).frame (beAt b 4 4))).foldl (fun m i => m + 2 ^ i) 0

/-- A loss report at an encode session (R268): accepted ones act from the first frame that launches 100 µs later. -/
def Session.lossReport (x : Session) (primary : Bool) (b : Bytes) (now : Nat) : Session :=
  if x.acceptsReport primary b then
    { x with anyReport := true, reportSeq := beAt b 16 4,
             lateReports := x.lateReports ++ [(now, x.ackMask b, beAt b 12 2 != 0)] }.bump 23 1
  else x.bump 24 1

/-! Units. -/

/-- A unit of sound length, CHECK, VERSION and LENGTH at a decode session, by TYPE (R52, R54). -/
def State.typedUnit (s : State) (id : Nat) (u : Bytes) : State :=
  let b := usfPayload u
  if usfType u = 1 then (if hdrValid b then s.streamHeader id b else s.bumpSes id 1 1)
  else if usfType u = 2 then s.frameHeader id b
  else if usfType u = 3 then s.sliceUnit id b
  else s.endOfStream id

/-- A unit at a decode session, with the order of checks of R51 to R53. A VERSION 1 loss report is discarded whole whatever its LENGTH (R64,
the model's choice: log entry 73). -/
def State.decodeUnit (s : State) (id : Nat) (u : Bytes) : State :=
  if !usfSized u then s.bumpSes id 1 1
  else if !usfCheckOk u then s.bumpSes id 0 1
  else if usfVersion u = 1 ∧ usfType u = 4 then s
  else
    let s1 := s.setSes id ((s.ses id).countSeq (usfSeq u))
    if usfVersion u ≠ 1 then s1.bumpSes id 1 1
    else if !usfDefined u then s1.bumpSes id 2 1
    else if !usfLengthOk u then s1.bumpSes id 1 1
    else s1.typedUnit id u

/-- A unit at an encode session: only a sound loss report is looked at. -/
def State.encodeUnit (s : State) (id : Nat) (u : Bytes) (primary : Bool) : State :=
  let x := s.ses id
  if usfSized u && usfCheckOk u && usfVersion u == 1 && usfType u == 4 && usfLengthOk u then
    s.setSes id (x.lossReport primary (usfPayload u) s.now)
  else s

/-- The unit taken from the session's receive queue where it is the next one there. -/
def State.takeUnit (s : State) (id : Nat) (u : Bytes) : State :=
  let x := s.ses id
  if x.dec.rx.head? = some u then s.setSes id { x with dec := { x.dec with rx := x.dec.rx.drop 1 } } else s

/-- A unit whose row is the one of a type given, delivered to an active session. -/
def State.deliver (s : State) (id : Nat) (u : Bytes) (primary mine : Bool) : State :=
  let s1 := s.takeUnit id u
  let x := s.ses id
  if s.sesLive id && mine && x.state == .active then
    (if x.decode then s1.decodeUnit id u else s1.encodeUnit id u primary)
  else s

/-- USF_STREAM_HEADER (R56, R57). -/
def execUsfStreamHeader (session : Nat) (unit : Bytes) (s : State) : Host.Outcome State Fault Refusal :=
  ok (s.deliver session unit false (usfType unit == 1))

/-- USF_SLICE (R62). -/
def execUsfSlice (session : Nat) (unit : Bytes) (s : State) : Host.Outcome State Fault Refusal :=
  ok (s.deliver session unit false (usfType unit == 3))

/-- USF_END_OF_STREAM (R64). -/
def execUsfEndOfStream (session : Nat) (unit : Bytes) (s : State) : Host.Outcome State Fault Refusal :=
  ok (s.deliver session unit false (usfType unit == 5))

/-- USF_LOSS_REPORT (R64, R268). -/
def execUsfLossReport (session : Nat) (unit : Bytes) (primary : Bool) (s : State) : Host.Outcome State Fault Refusal :=
  ok (s.deliver session unit primary (usfType unit == 4))

/-- USF_RESERVED_TYPE (R52). -/
def execUsfReservedType (session : Nat) (unit : Bytes) (s : State) : Host.Outcome State Fault Refusal :=
  ok (s.deliver session unit false (!usfDefined unit))

/-! Deadlines and output. -/

/-- DECODE_FRAME_DEADLINE (R65, R252): the open frame closes with missing slices. -/
def execDecodeFrameDeadline (session : Nat) (s : State) : Host.Outcome State Fault Refusal :=
  let x := s.ses session
  match x.openDec with
  | none => ok s
  | some f => when (s.sesLive session && x.decode && decide (f.deadline ≤ s.now)) s (s.closeOpen session)

/-- DECODE_CLOSE_LAUNCH (R253): from now on the session opens no frame; it closes once its open frame has committed. -/
def execDecodeCloseLaunch (session : Nat) (s : State) : Host.Outcome State Fault Refusal :=
  let x := s.ses session
  when (s.sesLive session && x.decode && x.state == .active && x.closeAsked.any (fun c => decide (launchGrain c.launch ≤ s.now)) &&
    !x.dec.closing) s ((s.setSes session { x with dec := { x.dec with closing := true } }).afterCommit session)

/-- An output element as an unsigned sample of DEPTH bits (R68). -/
def outputSample (depth : Nat) (v : Num) : Nat :=
  let top := 2 ^ depth - 1
  match v with
  | .nan _ _ => 0
  | .inf n => if n then 0 else top
  | .fin n m e => if n then 0 else min (roundQ (m * top) e 0).1 top

/-- Media output tensors of a package, by number: the first of ROLE 3 (R478). -/
def outputTensors (k : ModelPkg) : List Nat :=
  ((List.range k.tensors.length).filter (fun i => (k.tensors.getD i {}).role == 3)).take (if k.media = 1 then 3 else 1)

/-- Plane i of a frame's output (R68, R424): video samples cropped, audio and track values in FP32. -/
def outputPlane (k : ModelPkg) (h : Bytes) (i n : Nat) (t : Tensor) : List Plane :=
  let sc := policyOf k n
  if hdrMedia h = 1 then
    let z := planeSize h i
    [{ w := z.1, h := z.2, samples := (List.range (z.1 * z.2)).map (fun j =>
      outputSample (hdrDepth h) (t.elem sc (j / z.1 * t.x + j % z.1))) }]
  else
    let v := fun (c x : Nat) => (convert .fp32 (t.elem sc (c * t.x + x))).1
    if hdrMedia h = 2 then
      (List.range t.c).map (fun c => { w := t.x, h := 1, samples := (List.range t.x).map (fun x => v c x) })
    else [{ w := t.x * t.c, h := 1, samples := (List.range t.x).flatMap (fun x => (List.range t.c).map (fun c => v c x)) }]

/-- The planes a frame puts out. -/
def State.outputPlanes (s : State) (x : Session) (f : DecFrame) : List Plane :=
  let k := s.pkg x.modelSlot
  let ns := outputTensors k
  (List.range ns.length).flatMap (fun i =>
    let n := ns.getD i 0
    outputPlane k f.hdr i n (spGet (zeroTensor (k.tensors.getD n {}) f.hdr) f.tensors n))

/-- BANDS of R80. -/
def DecFrame.bands (f : DecFrame) : Nat :=
  ((List.range f.slices.length).filter (fun i => 3 ≤ (f.slices.getD i {}).st)).foldl (fun m i => m + 2 ^ i) 0

/-- FLAGS of the output's raw media packets: CONCEALED and GREY_REF (R80, R424). -/
def DecFrame.marks (f : DecFrame) : Nat := b2n f.concealed + 2 * b2n f.grey

/-- Is a decode frame's output late: more than a frame period past its deadline (R252)? -/
def Session.outputLate (x : Session) (f : DecFrame) (now : Nat) : Bool := decide (f.deadline + x.period < now)

/-- What an output leaves in the session's records (R63, R252). -/
def Session.noteOutput (x : Session) (f : DecFrame) (now : Nat) : Session :=
  let y := if f.concealed then x.noteLoss f.num 1 else { x with dec := { x.dec with cleanNum := f.num } }
  let z := { y with dec := { y.dec with sinceReport := y.dec.sinceReport + 1, frames := y.dec.frames.map (fun g =>
                        if g.num == f.num then { g with output := true } else g) }
                    egress := { y.egress with lastPts := f.pts } }
  if x.outputLate f now then z.bump 17 1 else z

/-- Is the frame's output final: closed, reference known, every slice decoded, malformed or missing (R67)? -/
def DecFrame.final (f : DecFrame) : Bool :=
  f.closed && f.bound && !f.output && !f.unknown && f.slices.all (fun k => decide (2 ≤ k.st))

end Sys2Proof.Machine
end

