-- ==== Sys2Proof/Machine/Failures.lean ====
section
/-! DEFINITION. Units leaving service: faces (R263 to R266), LPDDR6 devices (R262, R340), field-repair entries (R370), epochs
(R389), and the binding of drifts (R44, R45). -/

namespace Sys2Proof.Machine

open Sys2Proof

/-- A field-repair entry to be written (R370): STATE 1 SUSPECT, 2 BAD, 3 PASSED; CAUSE; DETAIL. -/
def State.logUnit (s : State) (u : UnitId) (state cause detail : Nat) : State :=
  { s with boot := { s.boot with logPending := s.boot.logPending ++ [(u, state, cause, detail)] } }

/-- The survey is to run again (R375). -/
def State.wantSurvey (s : State) : State := { s with boot := { s.boot with surveyDue := true } }

/-- The expected epoch of a face's position increased (R389): 1 to 0xFFFF, then 1 again. -/
def State.bumpEpoch (s : State) (p : Nat) : State :=
  let a := drfReg (levelOf p) (driftOf p) (0x80 + 4 * posOf p)
  let e := s.field a 0 16
  s.setField a 0 16 (if e = 0xFFFF then 1 else e + 1)

/-! Binding (R44, R45). -/

/-- The good positions of a drift: those of a level in service that are not disabled. -/
def State.goodPositions (s : State) (l d : Nat) : List Nat :=
  if (s.level l).inService then
    (List.range 17).filter (fun k => !s.boot.disabled.contains { kind := 1, index := physFace l d k })
  else []

/-- The word of a bound slot. -/
def slotWord (pos : Nat) : Nat := pos + 256

/-- DRF_STATE: reserve, good and active counts (R47). -/
def driftWord (reserve : Option Nat) (good active : Nat) : Nat :=
  (match reserve with | some p => p + 32 | none => 0) + good * 256 + active * 65536

/-- SEG_FAULT of a drift as its binding builds it: the disabled segments (R47, R368). -/
def State.deadSegments (s : State) (l d : Nat) : Nat :=
  ((List.range 17).filter (fun k => s.boot.disabled.contains { kind := 2, index := 17 * (16 * l + d) + k })).foldl (fun m k =>
    m + 2 ^ k) 0

/-- Drift (l, d) bound from its good positions (R44). -/
def State.bindDrift (s : State) (l d : Nat) : State :=
  let good := s.goodPositions l d
  let n := min good.length 16
  let reserve := if good.length = 17 then some 16 else none
  let s1 := s.each (List.range 16) (fun s k =>
    s.setRegNat (drfReg l d (0x40 + 4 * k)) (if k < n then slotWord (good.getD k 0) else 0))
  let s2 := (s1.setRegNat (drfReg l d 0) (driftWord reserve good.length n)).setField (drfReg l d 0x10) 0 17 (s.deadSegments l d)
  { s2 with boot := { s2.boot with absent := s2.boot.absent.filter (fun f => f / 16 != 16 * l + d) } }

/-- Every drift of the levels bound: what a remap round flips. -/
def State.bindLevels (s : State) (ls : List Nat) : State :=
  s.each ls (fun s l => s.each (List.range 16) (fun s d => s.bindDrift l d))

/-! Jobs. -/

/-- Jobs whose state lies on a device end FAULTED (R340). -/
def State.faultJobsOn (s : State) (d code : Nat) : State :=
  s.each (s.jobs.filter (fun j => j.device == d)) (fun s j => s.faultJob j.id code)

/-! LPDDR6 devices. -/

/-- A device declared faulted (R340). cause: 1 uncorrectable, 2 training, 3 corrected errors. -/
def State.declareDevice (s : State) (d cause : Nat) : State :=
  if s.boot.lpddrFaulty.contains d then s
  else
    let s1 : State := { s with boot := { s.boot with lpddrFaulty := s.boot.lpddrFaulty ++ [d] } }
    let s2 := (s1.logUnit { kind := 8, index := d } 1 3 0x22).raise 0x22 2 0 (d / 4) noFace none d cause
    (s2.faultJobsOn d 0x22).wantSurvey

/-- The copies that lie on a device: (session, copy). -/
def State.copiesOn (s : State) (d : Nat) : List (Nat × Nat) :=
  s.sessions.flatMap (fun e => ([0, 1].filter (fun i => (e.2.copy i).present && deviceOf (e.2.copyBase i) == d)).map (fun i =>
    (e.1, i)))

/-- The armed checkpoint rounds that still have to write a copy on a device: (round, session, copy). -/
def State.writesOn (s : State) (d : Nat) : List (Round × Nat × Nat) :=
  (s.copiesOn d).flatMap (fun q => (s.rounds.filter (fun r => r.armed && decide (r.flip = .checkpoint q.1) &&
    (r.members.getD q.2 {}).st == 0)).map (fun r => (r, q.1, q.2)))

/-- A checkpoint round aborts with copies lost (R262): re-armed on the copy that is left, or, where it was the re-armed one or
none is left, the session is reset. -/
def State.abortCkpt (s : State) (r : Round) (id reason : Nat) (lost : List Nat) : State :=
  let s1 := s.dropRound r reason
  if r.single || decide (2 ≤ lost.length) then
    (s1.resetSession id).raise 0x30 3 0 (id / 262144) noFace (some (.session id)) (s.ses id).ckptSeq 0
  else (s1.bumpSes id 21 1).armCheckpoint id lost

/-- A device faulted, with the checkpoint rounds it fails and the copies it takes away (R262, R340). -/
def State.lpddrFault (s : State) (d cause : Nat) (reason : Round → Nat) : State :=
  let hits := s.writesOn d
  let s1 := s.declareDevice d cause
  let s2 := s1.each (s1.copiesOn d) (fun s q => s.replaceCopy q.1 q.2)
  s2.each hits (fun s h => s.abortCkpt h.1 h.2.1 (reason h.1) [h.2.2])

/-- A copy write of a checkpoint round failed (R262, R329). -/
def State.ckptFail (s : State) (r : Round) (id reason : Nat) (lost : List Nat) : State :=
  match lost with
  | [i] =>
    let d := deviceOf ((s.ses id).copyBase i)
    if s.boot.lpddrFaulty.contains d then s.abortCkpt r id reason [i]
    else s.lpddrFault d 1 (fun q => if q.id = r.id then reason else 1)
  | [] => s.abortCkpt r id reason [0, 1]
  | _ :: _ :: _ => s.abortCkpt r id reason [0, 1]

/-! Faces. -/

/-- Has a session work on its placement's faces: it is ACTIVE, or about to be? -/
def SesState.works : SesState → Bool
  | .free => false
  | .parked => false
  | .opening => true
  | .active => true
  | .parking => false
  | .resuming => true
  | .closing => false

/-- The sessions with work on a logical face: those whose placement names it. -/
def State.sessionsOn (s : State) (lf : Nat) : List Nat :=
  (s.sessions.filter (fun e => e.2.state.works && (s.placementFaces e.2.placement).contains lf)).map (fun e => e.1)

/-- The Plan's identifier, 0 without one. -/
def State.planId (s : State) : Nat := (s.boot.plan.map (fun p => p.id)).getD 0

/-! Resident weights (R357, R367, R391). -/

/-- Does a chunk lie within the face store, and its home copy in bonded DRAM outside the working-area pool (R357)? -/
def State.chunkFits (s : State) (c : Nat × Nat × Nat × Nat) : Bool :=
  decide (c.1 + c.2.2.2 ≤ storeBytes) && decide (c.2.1 + c.2.2.2 ≤ 0xBD000000) &&
    s.boot.plan.all (fun p => decide (c.2.1 + c.2.2.2 ≤ p.workOff) || decide (p.workOff + p.workBytes ≤ c.2.1))

/-- The chunks of a package that are resident in a slot (log entry 96). -/
def State.chunksOf (s : State) (k : ModelPkg) (lf : Nat) : List (Nat × Nat × Nat × Nat) :=
  (Config.residentChunks s.planId k.d lf).filter s.chunkFits

/-- The home copies of a package's chunks written into the bonded DRAM of levels (R357, R367, R463). -/
def State.placeHomes (s : State) (k : ModelPkg) (ls : List Nat) : State :=
  let put := fun (l : Nat) (m : Memory) (c : Nat × Nat × Nat × Nat) =>
    spPuts memUnlisted m (dramBase l + c.2.1) (padTo c.2.2.2 (sub k.weights c.2.2.1 c.2.2.2))
  { s with mem := ls.foldl (fun m l => (List.range 256).foldl (fun m i => (s.chunksOf k (256 * l + i)).foldl (put l) m) m) s.mem }

/-- The chunks of the slot a face is bound to loaded into its store from their home copies (R391). -/
def State.loadChunks (s : State) (p : Nat) : State :=
  let load := fun (lf : Nat) (m : Memory) (c : Nat × Nat × Nat × Nat) =>
    spPuts memUnlisted m (storeBase p + c.1) (s.readMem (dramBase (lf / 256) + c.2.1) c.2.2.2)
  { s with mem := (s.logicalOf p).elim s.mem (fun lf =>
      (s.models.filter (fun q => q.2.state != 0)).foldl (fun m q => (s.chunksOf q.2.pkg lf).foldl (load lf) m) s.mem) }

/-- The slices of a session's frames that an absent logical face fed and that are not done (R266). -/
def State.dropFed (s : State) (id lf : Nat) : State :=
  let fed := Config.feedsSlice s.planId lf
  let x := s.ses id
  if x.decode then
    let gone := fun (f : DecFrame) (i : Nat) => !f.unknown && fed i && decide ((f.slices.getD i {}).st ≤ 1)
    let n := x.dec.frames.foldl (fun n f => n + (List.range f.slices.length).countP (gone f)) 0
    let fs := x.dec.frames.map (fun f =>
      { f with slices := (List.range f.slices.length).map (fun i =>
          if gone f i then ({ st := 4 } : DecSlice) else f.slices.getD i {}) })
    s.setSes id ({ x with dec := { x.dec with frames := fs } }.bump 8 n)
  else
    match x.frame with
    | none => s
    | some f => s.dropSlices id ((List.range f.slices.length).filter (fun i => fed i && decide ((f.slices.getD i {}).st ≤ 1)))

/-- The work that was on a face dropped with it. -/
def Face.dropWork (f : Face) : Face :=
  { f with engines := Face.zero.engines, fused := none, motion := {}, missed := [], stopped := false, stageStop := false, stopWork := none }

/-- A slot becomes absent (R266): the sessions on it are DEGRADED, what it fed in their frames is given up, and each is moved. -/
def State.slotAbsent (s : State) (l d slot p : Nat) : State :=
  let lf := 256 * l + 16 * d + slot
  let ids := s.sessionsOn lf
  let s1 := (s.setRegNat (drfReg l d (0x40 + 4 * slot)) 0).setField (drfReg l d 0) 16 5 (s.field (drfReg l d 0) 16 5 - 1)
  let s2 : State := { s1 with
    boot := { s1.boot with absent := s1.boot.absent ++ [lf] }
    musters := s1.musters.map (fun m =>
      if s1.takesPart m.scope m.unit m.placement lf && !m.arrived.contains lf then { m with arrived := m.arrived ++ [lf], lastAt := s1.now }
      else m) }
  let s3 := s2.setFace p (s2.face p).dropWork
  let s4 := s3.each ids (fun s id => (s.setSes id { s.ses id with degraded := true }).dropFed id lf)
  (s4.each ids State.moveSession).wantSurvey

/-- Has a drift a takeover armed or waiting? -/
def State.takeoverPending (s : State) (l d : Nat) : Bool :=
  s.rounds.any (fun r => match r.flip with
    | .takeover a b _ _ _ => a == l && b == d
    | .remap _ => false
    | .rejoin .. => false
    | .swap => false
    | .checkpoint _ => false
    | .migration .. => false
    | .licence => false)

/-- The face that takes over in drift (l, d): its reserve, where it is not already taking over (R45, R264). -/
def State.takeoverBy (s : State) (l d : Nat) : Option Nat :=
  if s.takeoverPending l d then none else (s.reservePos l d).map (physFace l d)

/-- The slot of a failed face handed on (R264), or absent (R266). -/
def State.replaceSlot (s : State) (p slot : Nat) : State :=
  let l := levelOf p
  let d := driftOf p
  match s.takeoverBy l d with
  | some r => s.requestRound (.takeover l d slot p r) none (s.now + 40000)
  | none => s.slotAbsent l d slot p

/-- A face is no longer a good face of its drift; as the reserve it leaves the drift unguarded (R263, R384). -/
def State.loseFace (s : State) (p : Nat) : State :=
  let a := drfReg (levelOf p) (driftOf p) 0
  let s1 := s.setField a 8 5 (s.field a 8 5 - 1)
  if s.isReserve p then s1.setField a 0 6 0 else s1

/-- A rejoin round asked for whose transfer members are done: sounding or the park has left the stores zeroed (R391). -/
def State.requestRejoin (s : State) (p : Nat) (reserve : Bool) : State :=
  let f : Flip := .rejoin p reserve
  (s.addRound f none 0 ((s.flipMembers f).map (fun m => { m with st := 1 })) false false).tryArm s.nextRound

/-- Is a rejoin round that gives drift (l, d) a reserve face armed or waiting? -/
def State.reservePending (s : State) (l d : Nat) : Bool := (driftFaces l d).any (fun p => s.rounds.any (fun r => decide (r.flip = .rejoin p true)))

/-- A face that has passed and holds no role joins as the reserve, where its drift has none and none is about to join (R391). -/
def State.fillReserve (s : State) (l d : Nat) : State :=
  let wait := (driftFaces l d).find? (fun p => (s.face p).passed && !(s.activeFace p))
  match wait with
  | some p =>
    if (s.reservePos l d).isNone && !s.takeoverPending l d && !s.reservePending l d then s.requestRejoin p true else s
  | none => s

/-- A takeover by face p given up because p has failed or is reset: the round aborts, and the slot is absent (R266, R329). -/
def State.failTakeover (s : State) (p : Nat) : State :=
  let hit := s.rounds.filter (fun r => match r.flip with
    | .takeover _ _ _ _ q => q == p
    | .remap _ => false
    | .rejoin .. => false
    | .swap => false
    | .checkpoint _ => false
    | .migration .. => false
    | .licence => false)
  s.each hit (fun s r => match r.flip with
    | .takeover l d slot failed _ => (s.dropRound r 1).slotAbsent l d slot failed
    | .remap _ => s
    | .rejoin .. => s
    | .swap => s
    | .checkpoint _ => s
    | .migration .. => s
    | .licence => s)

/-- FACE_FAILED's class: 3 for a bound face of an unguarded drift, else 2 (R343). -/
def State.failClass (s : State) (p : Nat) : Nat :=
  if s.activeFace p && (s.takeoverBy (levelOf p) (driftOf p)).isNone then 3 else 2

/-- A face declared failed (R263, R264, R266, R343, R370, R389). cause: 1 ECC, 2 power, 3 watchdog. -/
def State.faceFail (s : State) (p cause : Nat) : State :=
  let f := s.face p
  let s1 := (s.setFace p { f with failed := true, failedAt := s.now, cause := cause, autoDone := false, passed := false }).bumpEpoch p
  let s2 := (s1.raise 0x20 (s.failClass p) 0 (levelOf p) p none p cause).logUnit { kind := 1, index := p } 1 3 0x20
  let s3 := (s2.failTakeover p).loseFace p
  let s4 := match s.slotOf p with
    | some k => s3.replaceSlot p k
    | none => s3
  (s4.fillReserve (levelOf p) (driftOf p)).wantSurvey

/-- May a face be declared failed: a face in use, current, not failed already, its level up (R263)? -/
def State.canFail (s : State) (p : Nat) : Bool :=
  faceWf p && (s.activeFace p || s.isReserve p) && !s.stale p && !(s.face p).failed && !(s.face p).inReset && s.levelUp (levelOf p)

end Sys2Proof.Machine
end

