-- ==== Sys2Proof/Machine/Mldsa.lean ====
section
/-! DEFINITION. Verification of an ML-DSA-44 signature (R353), in pure mode with an empty context string, as FIPS 204 defines it. The
algorithm is PRESUMED from that standard (log entry 10). A polynomial is its 256 coefficients modulo q. -/

namespace Sys2Proof.Machine

open Sys2Proof

/-- The modulus q. -/
def dsaQ : Nat := 8380417

/-- γ1 of ML-DSA-44. -/
def dsaGamma1 : Nat := 131072

/-- γ2 of ML-DSA-44. -/
def dsaGamma2 : Nat := 95232

/-- The bound γ1 − β on the coefficients of z. -/
def dsaBound : Nat := 131072 - 78

/-! Arithmetic. -/

/-- b raised to e modulo q, over the bits of e. -/
def powQ (b : Nat) : Nat → Nat → Nat
  | 0, _ => 1
  | n + 1, e => (if e % 2 = 1 then b else 1) * powQ (b * b % dsaQ) n (e / 2) % dsaQ

/-- The bits of an 8-bit number in reverse order. -/
def bitRev8 (i : Nat) : Nat := (List.range 8).foldl (fun v k => 2 * v + i / 2 ^ k % 2) 0

/-- The point of place i of the transform: ζ raised to 2 · BitRev8(i) + 1. -/
def dsaPoint (i : Nat) : Nat := powQ 1753 9 (2 * bitRev8 i + 1)

/-- The value of a polynomial at a point. -/
def evalQ (w : List Nat) (x : Nat) : Nat := w.foldr (fun c v => (v * x + c) % dsaQ) 0

/-- NTT: the values at the 256 points. -/
def dsaNtt (w : List Nat) : List Nat := (List.range 256).map (fun i => evalQ w (dsaPoint i))

/-- The inverse transform: coefficient j is 1/256 of the sum of the values times their points, ζ raised to 2k + 1 at place BitRev8(k), to the
power −j; ζ has order 512. -/
def dsaInv (v : List Nat) : List Nat :=
  let scale := powQ 256 23 (dsaQ - 2)
  let w := (List.range 256).map (fun k => v.getD (bitRev8 k) 0)
  (List.range 256).map (fun j => evalQ w (powQ 1753 9 ((1024 - 2 * j) % 512)) * powQ 1753 9 ((512 - j) % 512) % dsaQ * scale % dsaQ)

/-- The sum of two polynomials. -/
def addQ (a b : List Nat) : List Nat := List.zipWith (fun x y => (x + y) % dsaQ) a b

/-- The difference of two polynomials. -/
def subQ (a b : List Nat) : List Nat := List.zipWith (fun x y => (x + dsaQ - y % dsaQ) % dsaQ) a b

/-- The product of two transformed polynomials. -/
def mulQ (a b : List Nat) : List Nat := List.zipWith (fun x y => x * y % dsaQ) a b

/-! Packing. -/

/-- The n values of w bits each that a byte string packs, least significant bit first. -/
def dsaUnpack (w n : Nat) (b : Bytes) : List Nat :=
  let v := leNat b
  (List.range n).map (fun i => v / 2 ^ (w * i) % 2 ^ w)

/-- The bytes that values of w bits each pack into, least significant bit first. -/
def dsaPack (w : Nat) (l : List Nat) : Bytes :=
  natLe (w * l.length / 8) (l.foldr (fun c v => v * 2 ^ w + c) 0)

/-- The hint of one polynomial from the places listed, which rise. -/
def risingPlaces : List Nat → Bool
  | [] => true
  | [_] => true
  | a :: b :: r => decide (a < b) && risingPlaces (b :: r)

/-- The hint of a signature: by polynomial the places whose bit is 1; none where it is malformed. -/
def dsaHint (y : Bytes) : Option (List (List Nat)) :=
  let place := (y.take 80).map (fun b => b.toNat)
  let ends := (y.drop 80).map (fun b => b.toNat)
  let last := ends.getLast?.getD 0
  let runs := ((0 :: ends).zip ends).map (fun q => (place.take q.2).drop q.1)
  if ((0 :: ends).zip ends).all (fun q => decide (q.1 ≤ q.2) && decide (q.2 ≤ 80)) && runs.all risingPlaces &&
      (place.drop last).all (fun v => v == 0) then some runs else none

/-! Sampling. -/

/-- The first 256 numbers below q among the 23-bit numbers a byte stream holds in threes. -/
def rejectQ (b : Bytes) : List Nat :=
  ((((chunks 3 b).filter (fun c => c.length == 3)).map (fun c => leNat c % 2 ^ 23)).filter (fun v => decide (v < dsaQ))).take 256

/-- Entry (r, s) of the matrix Â. -/
def dsaMatrix (rho : Bytes) (r s : Nat) : List Nat := rejectQ (shake128 (rho ++ natLe 1 s ++ natLe 1 r) 1680)

/-- The challenge's places filled from i on: n of them, from a byte stream, with the signs h. -/
def ballFrom (h : Nat) : Nat → Nat → Bytes → List Nat → List Nat
  | 0, _, _, c => c
  | n + 1, i, b, c =>
    let r := b.dropWhile (fun v => decide (i < v.toNat))
    let j := (r.headD 0).toNat
    let sign := if h / 2 ^ (i + 39 - 256) % 2 = 1 then dsaQ - 1 else 1
    ballFrom h n (i + 1) r.tail ((c.set i (c.getD j 0)).set j sign)

/-- The challenge polynomial of a commitment hash: 39 coefficients ±1. -/
def sampleInBall (seed : Bytes) : List Nat :=
  let b := shake256 seed 1088
  ballFrom (leNat (b.take 8)) 39 217 (b.drop 8) (List.replicate 256 0)

/-! Rounding. -/

/-- A coefficient decomposed: r1, and whether r0 is above 0. -/
def decomposeQ (r : Nat) : Nat × Bool :=
  let m := r % (2 * dsaGamma2)
  let up := decide (dsaGamma2 < m)
  let high := if up then r + 2 * dsaGamma2 - m else r - m
  if high = dsaQ - 1 then (0, false) else (high / (2 * dsaGamma2), decide (0 < m) && !up)

/-- UseHint: the high bits of a coefficient, moved one on where the hint is 1. -/
def useHint (h : Bool) (r : Nat) : Nat :=
  let q := decomposeQ r
  if !h then q.1 else if q.2 then (q.1 + 1) % 44 else (q.1 + 43) % 44

/-! Verification. -/

/-- The coefficients of z, modulo q, and whether they keep the bound. -/
def dsaResponse (b : Bytes) : List (List Nat) × Bool :=
  let raw := (chunks 576 b).map (dsaUnpack 18 256)
  let z := raw.map (fun p => p.map (fun v => (dsaGamma1 + dsaQ - v) % dsaQ))
  (z, raw.all (fun p => p.all (fun v => decide (dsaGamma1 < v + dsaBound) && decide (v < dsaGamma1 + dsaBound))))

/-- ML-DSA.Verify of FIPS 204 with an empty context: public key, message, signature. -/
def mldsaVerify (pk m sig : Bytes) : Bool :=
  let rho := pk.take 32
  let t1 := (chunks 320 (pk.drop 32)).map (dsaUnpack 10 256)
  let hash := sig.take 32
  let z := dsaResponse ((sig.drop 32).take 2304)
  let mu := shake256 (shake256 pk 64 ++ zeros 2 ++ m) 64
  let c := dsaNtt (sampleInBall hash)
  let zt := z.1.map dsaNtt
  let w := (List.range 4).map (fun r =>
    let az := (List.range 4).foldl (fun a s => addQ a (mulQ (dsaMatrix rho r s) (zt.getD s []))) (List.replicate 256 0)
    dsaInv (subQ az (mulQ c (dsaNtt ((t1.getD r []).map (fun v => v * 8192 % dsaQ))))))
  match dsaHint (sig.drop 2336) with
  | none => false
  | some hint =>
    let w1 := (List.range 4).map (fun r =>
      ((List.range 256).zip (w.getD r [])).map (fun q => useHint ((hint.getD r []).contains q.1) q.2))
    pk.length == 1312 && sig.length == 2420 && z.2 && shake256 (mu ++ w1.flatMap (dsaPack 6)) 32 == hash

end Sys2Proof.Machine
end

