-- ==== Sys2Proof/Machine/Packages.lean ====
section
/-! DEFINITION. Model packages: their sections parsed (R356, R358, R359, R168, R173, R197, R227) and the rules that refuse one
(PLAN_ERR 8 of R354). -/

namespace Sys2Proof.Machine

open Sys2Proof

/-- The n-byte records of a section. -/
def recordsOf (n : Nat) (b : Bytes) : List Bytes := (chunks n b).filter (fun r => r.length == n)

/-! Sections. -/

/-- A tensor record (R359). -/
def parseTensor (b : Bytes) : TensorRec :=
  { fmt := leAt b 0 1, role := leAt b 1 1, c := leAt b 2 2, n := leAt b 4 2, yDiv := leAt b 6 1, xDiv := leAt b 7 1,
    y := leAt b 8 2, x := leAt b 10 2, scaleRec := leAt b 12 2, hold := leAt b 14 1, flags := leAt b 15 1,
    dataOff := leAt b 16 4, dataLen := leAt b 20 4, auxOff := leAt b 24 4, auxLen := leAt b 28 4 }

/-- A layer record (R359). -/
def parseLayer (b : Bytes) : LayerRec :=
  { opclass := leAt b 0 1, subop := leAt b 1 1, flags := leAt b 2 1, func := leAt b 3 1, in0 := leAt b 4 2,
    in1 := leAt b 6 2, in2 := leAt b 8 2, out := leAt b 10 2, weight := leAt b 12 2, bias := leAt b 14 2,
    record := leAt b 16 2, axis := leAt b 18 1, eps := leAt b 20 4, lambda := leAt b 24 2 }

/-- A window record (R173). -/
def parseWindow (b : Bytes) : WindowRec :=
  let m := leAt b 1 1
  let f := leAt b 23 1
  { op := leAt b 0 1, padMode := bits m 0 2, countMode := bits m 2 1, sparse := bitAt m 3, gated := bitAt m 4,
    zcIn := bitAt m 5, zcOut := bitAt m 6, kh := leAt b 2 1, kw := leAt b 3 1, sy := leAt b 4 1, sx := leAt b 5 1,
    dy := leAt b 6 2, dx := leAt b 8 2, pt := leAt b 10 2, pb := leAt b 12 2, pl := leAt b 14 2, pr := leAt b 16 2,
    opy := leAt b 18 1, opx := leAt b 19 1, groups := leAt b 20 2, halo := bits (leAt b 22 1) 0 2, flowG := bits f 0 3,
    flowSh := bits f 4 3, padValue := leAt b 24 4 }

/-- A scale policy record (R168). -/
def parseScale (b : Bytes) : ScaleRec :=
  let m := leAt b 0 1
  { fmt := bits m 0 4, path := bits m 4 1, eventEn := bitAt m 5, reassay := bitAt m 6, sr := bitAt m 7,
    history := bits (leAt b 1 1) 0 5, margin := bits (leAt b 1 1) 5 3, initExp := signedOf 8 (leAt b 2 1),
    outliers := (List.range (min (leAt b 3 1) 16)).map (fun i => leAt b (8 + 2 * i) 2), limit := leAt b 4 2 }

/-- A region record and its anchors (R197, R356). -/
def parseRegion (b : Bytes) : RegionRec :=
  { scoreT := leAt b 0 2, iouT := leAt b 2 2, maxKeep := leAt b 4 1, classes := leAt b 5 1,
    weights := (List.range 4).map (fun c => bits (leAt b 6 2) (4 * c) 4),
    anchors := (recordsOf 8 (b.drop 16)).map (fun a => (leAt a 0 2, leAt a 2 2, leAt a 4 2, leAt a 6 2)) }

/-- An entry of a frame type's tensor list (R356). -/
def parseCoded (b : Bytes) : CodedRec :=
  { tensor := leAt b 0 2, prior := leAt b 2 1, k := leAt b 3 1, first := leAt b 4 4, list := leAt b 8 4,
    mu := leAt b 12 2, sigma := leAt b 14 2 }

/-- The intra and inter tensor lists of a CODED section. -/
def parseCodedLists (b : Bytes) : List CodedRec × List CodedRec :=
  let n := leAt b 0 4
  let rest := b.drop (4 + 16 * n)
  (((recordsOf 16 (b.drop 4)).take n).map parseCoded, ((recordsOf 16 (rest.drop 4)).take (leAt rest 0 4)).map parseCoded)

/-- Entries of a directory record: n + 1 of a table, K - 1 of a threshold list, none of an unused record (R227). -/
def cdfCount (d : Nat) : Nat := if bits d 22 2 = 0 then 0 else if bits d 22 2 = 1 then bits d 24 8 + 2 else bits d 24 8

/-- The records of a CDF section: OFFSET counts entries from the end of the records (R356). -/
def parseCdf (b : Bytes) : List CdfRec :=
  let n := leAt b 0 4
  let data := b.drop (4 + 8 * n)
  ((recordsOf 8 (b.drop 4)).take n).map (fun r =>
    let d := leNat r
    { kind := bits d 22 2, centre := bits d 32 8, first := bits d 40 15,
      entries := (List.range (cdfCount d)).map (fun i => leAt data (2 * (bits d 0 22 + i)) 2) })

/-- The package a container's sections hold. sec gives a section's bytes by TYPE, none where it is absent. -/
def parsePackage (id version : Nat) (d : Bytes) (sec : Nat → Option Bytes) : ModelPkg :=
  let get := fun t => (sec t).getD []
  let h := get 0x101
  let coded := parseCodedLists (get 0x104)
  { id := id, version := version, d := d, arith := leAt h 0 1, media := leAt h 1 1, ratePoints := leAt h 2 1,
    funcSet := leAt h 3 1, stateBytes := leAt h 4 4, mediaParams := sub h 8 16,
    tensors := (recordsOf 32 (get 0x102)).map parseTensor, layers := (recordsOf 32 (get 0x103)).map parseLayer,
    intra := coded.1, inter := coded.2, cdf := parseCdf (get 0x105), window := (recordsOf 32 (get 0x107)).map parseWindow,
    scale := (recordsOf 40 (get 0x108)).map parseScale, region := (sec 0x109).map parseRegion, weights := get 0x10A }

/-! The rules that refuse a package. -/

/-- Does the list rise strictly? -/
def rises : List Nat → Bool
  | [] => true
  | [_] => true
  | a :: b :: r => decide (a < b) && rises (b :: r)

/-- The model header (R241, R358). -/
def headerOk (k : ModelPkg) : Bool :=
  decide (k.arith ≤ 1) && decide (1 ≤ k.media) && decide (k.media ≤ 3) && decide (1 ≤ k.ratePoints) &&
    decide (k.ratePoints ≤ 16) && k.funcSet == (if k.arith = 0 then 3 else 52) && decide (k.stateBytes ≤ 16777216)

/-- The FUNC section against the ROM set of the mode (R122). -/
def funcOk (k : ModelPkg) (func : Bytes) : Bool :=
  func.length == 65536 && sha3 func == sha3 (romImage k.funcSet)

/-- The coded height (axis 1) or width (axis 0) a package's MEDIA_PARAMS pin, or 0 (R358). -/
def ModelPkg.pinned (k : ModelPkg) (axis : Nat) : Nat :=
  if k.media = 1 then roundUp (leNat (sub k.mediaParams (if axis = 0 then 0 else 2) 2)) 64 else 0

/-- A Y or X dimension of a record: fixed, or by its divisor where nothing pins the coded size. -/
def ModelPkg.dim (k : ModelPkg) (axis div fixed : Nat) : Nat × Nat :=
  if div = 0 then (0, fixed) else if k.pinned axis ≠ 0 then (0, k.pinned axis / div) else (div, 0)

/-- The greatest row length of a tensor: fixed, pinned, or that of the widest video, 3,840 (R55). -/
def ModelPkg.maxRow (k : ModelPkg) (t : TensorRec) : Nat :=
  let d := k.dim 0 t.xDiv t.x
  if d.1 = 0 then d.2 else 3840 / d.1

/-- The rules a scale policy record keeps whatever names it (R153, R165, R168). b: its 40 bytes. -/
def scaleRecOk (r : ScaleRec) (b : Bytes) : Bool :=
  decide (1 ≤ r.fmt) && decide (r.fmt ≤ 4) && (r.path == 0 || decide (r.fmt ≤ 2)) && (!r.reassay || r.path == 1) &&
    (!r.sr || (r.path == 1 && r.fmt == 1)) &&
    (if r.path = 1 then decide (1 ≤ r.history) && decide (r.history ≤ 16) && leAt b 3 1 == 0
      else r.history == 0 && r.margin == 0 && r.initExp == 0 && decide (leAt b 3 1 ≤ 16)) &&
    rises r.outliers && leAt b 6 2 == 0 && (List.range 16).all (fun i => decide (i < leAt b 3 1) || leAt b (8 + 2 * i) 2 == 0)

/-- A scale policy record as attached to a tensor (R146, R153, R165, R168). -/
def scaleOk (k : ModelPkg) (t : TensorRec) (r : ScaleRec) : Bool :=
  r.fmt + 1 == t.fmt && r.outliers.all (fun o => decide (o < k.maxRow t)) &&
    (if t.role = 6 then r.path == 1 && r.sr && r.fmt == 1 else r.path == 0 && !r.sr) &&
    (r.path == 1 || decide (k.maxRow t ≤ 16384))

/-- Must a tensor have a scale policy record: is it one the device converts to a narrow format (R165, R168)? -/
def TensorRec.needsScale (t : TensorRec) : Bool :=
  t.role == 6 || (narrowFmt t.fmt && (t.role == 0 || t.role == 3 || t.role == 4 || t.role == 5))

/-- A tensor record (R90, R305, R359). -/
def tensorOk (k : ModelPkg) (t : TensorRec) : Bool :=
  decide (t.fmt ≤ 6) && decide (t.role ≤ 7) && decide (t.yDiv ≤ 64) && decide (t.xDiv ≤ 64) &&
    (t.yDiv == 0 || t.y == 0) && (t.xDiv == 0 || t.x == 0) && decide (t.hold ≤ 3) && decide (t.flags < 4) &&
    (t.hold == 0 || (t.fmt == 0 && t.role == 4)) && (t.fmt != 5 || (t.role != 1 && t.role != 7)) &&
    (if t.role = 1 ∨ t.role = 7 then decide (t.dataOff + t.dataLen ≤ k.weights.length) &&
      decide (t.auxOff + t.auxLen ≤ k.weights.length) else true) &&
    (if t.scaleRec = 0xFFFF then !t.needsScale else decide (t.scaleRec < k.scale.length) && scaleOk k t (k.scale.getD t.scaleRec {}))

/-- The media tensors of a direction (R478). -/
def mediaTensorsOk (k : ModelPkg) (role : Nat) : Bool :=
  let ts := mediaTensors k role
  let wide := fun (t : TensorRec) => decide (t.fmt ≤ 1) && t.n == 1
  if k.media = 1 then
    match ts with
    | [a, b, c] => [a, b, c].all (fun t => wide t && t.c == 1) && a.yDiv == 1 && a.xDiv == 1 &&
        [b.yDiv, b.xDiv, c.yDiv, c.xDiv].all (fun v => v == b.yDiv) && (b.yDiv == 1 || b.yDiv == 2)
    | _ => false
  else ts.length == 1 && ts.all (fun t => wide t && t.y == 1 && t.yDiv == 0 && t.xDiv == 0)

/-- Do the two directions agree with each other and with MEDIA_PARAMS, so that some header can name the package (R57, R478)? -/
def directionsOk (k : ModelPkg) : Bool :=
  match mediaTensors k 2, mediaTensors k 3 with
  | a :: ra, b :: rb =>
    if k.media = 1 then
      let chroma := beNat (sub k.mediaParams 8 1)
      ra.map (fun t => t.yDiv) == rb.map (fun t => t.yDiv) && (chroma == 0 || ra.all (fun t => t.yDiv == 1))
    else
      let c := if k.media = 2 then beNat (sub k.mediaParams 4 1) else beNat (sub k.mediaParams 0 2)
      let n := if k.media = 2 then beNat (sub k.mediaParams 6 2) else beNat (sub k.mediaParams 2 2)
      a.c == b.c && a.x == b.x && (c == 0 || c == a.c) && (n == 0 || n == a.x)
  | _, _ => false

/-- The dimensions of a tensor in order N, C, Y, X. -/
def ModelPkg.dims (k : ModelPkg) (t : TensorRec) : List (Nat × Nat) := [(0, t.n), (0, t.c), k.dim 1 t.yDiv t.y, k.dim 0 t.xDiv t.x]

/-- The shapes of an element-wise layer (R476). -/
def broadcastOk (k : ModelPkg) (ins : List TensorRec) (out : TensorRec) : Bool :=
  (List.range 4).all (fun a =>
    let o := (k.dims out).getD a (0, 0)
    ins.all (fun t => (k.dims t).getD a (0, 0) == o || (k.dims t).getD a (0, 0) == (0, 1)) &&
      ins.any (fun t => (k.dims t).getD a (0, 0) == o))

/-- Inputs an element-wise SUBOP takes. -/
def ewInputs (sub : Nat) : Nat := if sub = 4 then 3 else 2

/-- Codes of a tensor's data that are its elements: the rest of the last group of a narrow format is padding (R87, R88). -/
def TensorRec.elements (t : TensorRec) (codes : Nat) : Nat :=
  if t.yDiv = 0 ∧ t.xDiv = 0 then min codes (t.n * t.c * t.y * t.x) else codes

/-- The elements of a constant tensor as numbers, those of every rate point's copy (R359 FLAGS[1]). -/
def constNums (k : ModelPkg) (n : Nat) : List Num :=
  let t := k.tensors.getD n {}
  (List.range (if bitAt t.flags 1 then k.ratePoints else 1)).flatMap (fun r =>
    let c := constTensor k t [] r
    (List.range (t.elements c.data.length)).map (fun i => c.elem (policyOf k n) i))

/-- Is the number finite, and at least 2^-14? -/
def betaOk : Num → Bool
  | .fin neg m e => !neg && !dyLt (m, e) (1, -14)
  | .inf _ => false
  | .nan _ _ => false

/-- Is the number finite, not negative and not −0? -/
def gammaOk : Num → Bool
  | .fin neg _ _ => !neg
  | .inf _ => false
  | .nan _ _ => false

/-- A normalisation's constants (R135). -/
def normOk (k : ModelPkg) (l : LayerRec) : Bool :=
  if l.opclass ≠ 6 then true
  else if l.subop ≤ 2 then decide (l.eps < 0x7F800000)
  else (constNums k l.bias).all betaOk && (constNums k l.weight).all gammaOk

/-- 2:4 metadata (R190): each group's two places rise and lie within the row. -/
def metaOk (k : ModelPkg) (t : TensorRec) : Bool :=
  let len := t.c * t.y * t.x
  let m := sub k.weights t.auxOff t.auxLen
  let groups := (len + 3) / 4
  (List.range (t.n * groups)).all (fun g =>
    let nib := if g % 2 = 0 then (m.getD (g / 2) 0).toNat % 16 else (m.getD (g / 2) 0).toNat / 16
    decide (nib % 4 < nib / 4) && decide (4 * (g % groups) + nib / 4 < len))

/-- The rules a window record keeps whatever layer names it (R173, R174). b: its 32 bytes. -/
def windowRecOk (w : WindowRec) (b : Bytes) : Bool :=
  let warp := w.op == 5
  let trans := w.op == 2
  b.length == 32 && bits (leAt b 1 1) 7 1 == 0 && bits (leAt b 22 1) 2 6 == 0 && bits (leAt b 23 1) 3 1 == 0 &&
    bits (leAt b 23 1) 7 1 == 0 && leAt b 28 4 == 0 &&
    decide (1 ≤ w.op) && decide (w.op ≤ 5) && (!trans || w.padMode == 0) && (w.countMode == 0 || w.op == 4) &&
    (!w.sparse || decide (w.op ≤ 2)) &&
    [w.kh, w.kw, w.sy, w.sx, w.dy, w.dx, w.groups].all (fun v => v != 0) && decide (w.dy ≤ 4095) && decide (w.dx ≤ 4095) &&
    [w.pt, w.pb, w.pl, w.pr].all (fun v => decide (v ≤ 4095)) &&
    (if trans then decide (w.opy < w.sy) && decide (w.opx < w.sx) else w.opy == 0 && w.opx == 0) &&
    (decide (w.op ≤ 2) || w.groups == 1) && (w.gated || w.halo == 0) &&
    (if warp then [w.kh, w.kw, w.sy, w.sx, w.dy, w.dx].all (fun v => v == 1) &&
      [w.pt, w.pb, w.pl, w.pr].all (fun v => v == 0) && decide (w.flowG ≤ 3) && decide (w.flowSh ≤ 6)
      else w.flowG == 0 && w.flowSh == 0) &&
    (if w.padMode = 1 then bits w.padValue 23 8 != 255 else w.padValue == 0)

/-- Is tensor n one the decoder needs the encoder's layer for (R48, R193): one it outputs or keeps, a μ or σ, or an input of a layer that
also decodes? A coded tensor reaches the decoder through the stream. -/
def decoderNeeds (k : ModelPkg) (n : Nat) : Bool :=
  let coded := k.intra ++ k.inter
  let role := (k.tensors.getD n {}).role
  role == 3 || role == 4 || role == 5 || coded.any (fun e => e.prior == 2 && (e.mu == n || e.sigma == n)) ||
    (!coded.any (fun e => e.tensor == n) && k.layers.any (fun l => !bitAt l.flags 0 && [l.in0, l.in1, l.in2].contains n))

/-- A window record on its layer (R95, R173, R174, R186, R193). -/
def windowOk (k : ModelPkg) (l : LayerRec) (w : WindowRec) : Bool :=
  let in0 := k.tensors.getD l.in0 {}
  let out := k.tensors.getD l.out {}
  let wt := k.tensors.getD l.weight {}
  (!w.sparse || ((wt.fmt == 0 || wt.fmt == 2) && bits l.flags 2 2 == 0 && metaOk k wt)) &&
    (!w.gated || (bitAt l.flags 0 && !decoderNeeds k l.out)) &&
    (decide (2 < w.op) || (in0.c % w.groups == 0 && out.c % w.groups == 0 &&
      decide (in0.c / w.groups * w.kh * w.kw ≤ 16777216))) &&
    (w.op != 5 || in0.fmt == 0 || in0.fmt == 2) &&
    (w.padMode != 1 || in0.fmt == 1 || (convert .fp16 (ofFp32 w.padValue)).2 == 0)

/-- May the layer carry learned scales: is its result the root of a dot product (R162)? -/
def dotLayer (k : ModelPkg) (l : LayerRec) : Bool :=
  l.opclass == 1 || (l.opclass == 2 && [1, 2, 5].contains (k.window.getD l.record {}).op)

/-- Compatibility mode excludes (R114, R137): Ore6, Grit4, U8Z, split mode, and the functions the old unit lacks. -/
def compatOk (k : ModelPkg) : Bool :=
  k.arith == 0 || (k.tensors.all (fun t => !decide (3 ≤ t.fmt) || t.fmt == 6) && k.layers.all (fun l =>
    bits l.flags 2 2 == 0 && !(l.opclass == 4 && decide (10 ≤ l.func)) && !(l.opclass == 5 && l.subop == 1) &&
      !(l.opclass == 6 && decide (5 ≤ l.subop))))

/-- SUBOP and FUNC of a layer by class (R117, R359). -/
def subopOk (l : LayerRec) : Bool :=
  if l.opclass = 3 then decide (1 ≤ l.subop) && decide (l.subop ≤ 6)
  else if l.opclass = 4 then l.subop == 0 && decide (1 ≤ l.func) && decide (l.func ≤ 13)
  else if l.opclass = 5 then decide (l.subop ≤ 1)
  else if l.opclass = 6 then decide (1 ≤ l.subop) && decide (l.subop ≤ 6)
  else l.subop == 0

/-- The output channels a layer's addend and λ run along: C, and of a matrix product the output columns (R162, R171, log entry 85). -/
def outChannels (k : ModelPkg) (l : LayerRec) : Nat × Nat :=
  let out := k.tensors.getD l.out {}
  if l.opclass = 1 then k.dim 0 out.xDiv out.x else (0, out.c)

/-- A layer record (R90, R102, R162, R359, R476). A soft maximum whose output is of another format than R131 lists is not refused: the rule
names no refusal, and R93 and R144 convert to any (log entry 86). -/
def layerOk (k : ModelPkg) (l : LayerRec) : Bool :=
  let named := fun n => n == 0xFFFF || decide (n < k.tensors.length)
  let lam := k.tensors.getD l.lambda {}
  let ins := ([l.in0, l.in1, l.in2].filter (fun n => n != 0xFFFF)).map (fun n => k.tensors.getD n {})
  decide (1 ≤ l.opclass) && decide (l.opclass ≤ 7) && subopOk l && [l.in1, l.in2, l.weight, l.bias].all named &&
    decide (l.in0 < k.tensors.length) && decide (l.out < k.tensors.length) && bits l.flags 2 2 != 3 &&
    decide (l.axis ≤ 3) && decide (l.flags < 64) && [l.weight, l.bias].all (fun n => n == 0xFFFF || (k.tensors.getD n {}).fmt != 5) &&
    (if bitAt l.flags 1 then dotLayer k l && decide (l.lambda < k.tensors.length) && lam.fmt == 1 && lam.role == 7 &&
      (0, lam.c) == outChannels k l else l.lambda == 0xFFFF) &&
    (l.opclass != 2 || (decide (l.record < k.window.length) &&
      windowOk k l (k.window.getD l.record {}))) &&
    (l.opclass != 3 || (ins.length == ewInputs l.subop && broadcastOk k ins (k.tensors.getD l.out {}))) && normOk k l

/-- A directory record: unused, a table under R72, or a list under R74 whose group's tables are tables (R227, R228). -/
def cdfOk (k : ModelPkg) (r : CdfRec) : Bool :=
  if r.kind = 1 then
    let n := r.entries.length - 1
    decide (3 ≤ n) && decide (n ≤ 256) && decide (1 ≤ r.centre) && decide (r.centre + 2 ≤ n) &&
      r.entries.head? == some 0 && r.entries.getLast? == some 32768 && rises r.entries && r.first == 0
  else r.kind == 0 || r.kind == 2 && decide (1 ≤ r.entries.length) && decide (r.entries.length ≤ 63) && r.centre == 0 &&
    rises r.entries && r.entries.all (fun e => decide (1 ≤ e) && decide (e < 0x7C00)) &&
    (List.range (r.entries.length + 1)).all (fun i => (k.cdf.getD (r.first + i) {}).kind == 1)

/-- An entry of a tensor list (R49, R71, R74, R356): the downsampling factor of a video's coded tensor divides 64. -/
def codedOk (k : ModelPkg) (e : CodedRec) : Bool :=
  let kind := fun n => (k.cdf.getD n {}).kind
  let t := k.tensors.getD e.tensor {}
  decide (e.tensor < k.tensors.length) && (k.media != 1 || [t.yDiv, t.xDiv].all (fun v => v != 0 && 64 % v == 0)) &&
    (if e.prior = 1 then (List.range (k.tensors.getD e.tensor {}).c).all (fun c => kind (e.first + c) == 1)
      else e.prior == 2 && kind e.list == 2 && (k.cdf.getD e.list {}).entries.length + 1 == e.k &&
        (k.cdf.getD e.list {}).first == e.first && decide (e.mu < k.tensors.length) && decide (e.sigma < k.tensors.length))

/-- Do the records one frame type names fit a table cache (R228)? -/
def cacheFits (k : ModelPkg) (l : List CodedRec) : Bool :=
  decide (((l.flatMap (entryRecs k)).eraseDups.foldl (fun n r => n + 4 + (k.cdf.getD r {}).entries.length) 0) ≤ 32768)

/-- A region record (R197, R198). -/
def regionOk (r : RegionRec) : Bool :=
  bits r.scoreT 10 5 != 31 && decide (r.iouT ≤ 256) && decide (r.maxKeep ≤ 64) && decide (1 ≤ r.classes) &&
    decide (r.classes ≤ 4) && r.anchors.all (fun a => decide (1 ≤ a.2.2.1) && decide (1 ≤ a.2.2.2)) &&
    decide (r.anchors.length * r.classes ≤ 16384)

/-- The reserved bytes of a model header, a region record, a layer record, and of the CDF directory, all 0 (R173, R197, R227, R358,
R359). -/
def reservedOk (sec : Nat → Option Bytes) : Bool :=
  let get := fun t => (sec t).getD []
  let cdf := get 0x105
  ((get 0x101).drop 24).all (fun b => b == 0) && leAt (get 0x109) 8 8 == 0 &&
    (recordsOf 32 (get 0x103)).all (fun r => leAt r 19 1 == 0 && leAt r 26 6 == 0) &&
    ((recordsOf 8 (cdf.drop 4)).take (leAt cdf 0 4)).all (fun r => bits (leNat r) 55 9 == 0)

/-- Every rule of a package's content but the pool's room and the Plan's. -/
def packageOk (k : ModelPkg) (sec : Nat → Option Bytes) : Bool :=
  let scales := recordsOf 40 ((sec 0x108).getD [])
  let windows := recordsOf 32 ((sec 0x107).getD [])
  decide (1 ≤ k.id) && headerOk k && funcOk k ((sec 0x106).getD []) && reservedOk sec && k.tensors.all (tensorOk k) &&
    (k.scale.zip scales).all (fun q => scaleRecOk q.1 q.2) && (k.window.zip windows).all (fun q => windowRecOk q.1 q.2) &&
    mediaTensorsOk k 2 && mediaTensorsOk k 3 && directionsOk k && decide ((k.tensors.countP (fun t => t.role == 5)) ≤ 23) &&
    k.layers.all (layerOk k) && compatOk k && k.cdf.all (cdfOk k) && (k.intra ++ k.inter).all (codedOk k) &&
    cacheFits k k.intra && cacheFits k k.inter && (k.region.map regionOk).getD true

/-- State blocks of a package that re-assay holds in FP32 while they are converted: one of each tensor with REASSAY_EN (R160). -/
def reassayBlocks (k : ModelPkg) : Nat := k.tensors.countP (fun t => t.role == 6 && (k.scale.getD t.scaleRec {}).reassay)

/-! Tables in the pool (R226 to R228). -/

/-- Runs of a package's records whose global numbers must be consecutive: the channel tables of a factorised tensor, the tables of a list's
group (R227, R228): (first, count). -/
def tableRuns (k : ModelPkg) : List (Nat × Nat) :=
  ((k.intra ++ k.inter).filter (fun e => e.prior == 1)).map (fun e => (e.first, (k.tensors.getD e.tensor {}).c)) ++
    (k.cdf.filter (fun r => r.kind == 2)).map (fun r => (r.first, r.entries.length + 1))

/-- Must records r - 1 and r have consecutive numbers? -/
def joined (runs : List (Nat × Nat)) (r : Nat) : Bool := runs.any (fun q => decide (q.1 < r) && decide (r < q.1 + q.2))

/-- The sizes of the package's pieces that are numbered together, in record order. -/
def pieceSizes (runs : List (Nat × Nat)) : Nat → Nat → List Nat
  | 0, _ => []
  | n + 1, r =>
    match pieceSizes runs n (r + 1) with
    | [] => [1]
    | a :: l => if joined runs (r + 1) then (a + 1) :: l else 1 :: a :: l

/-- The directory records and data entries the staged packages take: (first, count). -/
def State.poolUsed (s : State) : List (Nat × Nat) × List (Nat × Nat) :=
  let ms := s.models.filter (fun m => m.2.state != 0)
  (ms.flatMap (fun m => m.2.globals.map (fun g => (g, 1))),
   ms.flatMap (fun m => m.2.places.zip (m.2.pkg.cdf.map (fun r => r.entries.length))))

/-- Starts of free runs of n places in [lo, lo + len). -/
def freeRuns (lo len n : Nat) (used : List (Nat × Nat)) : List Nat :=
  (lo :: used.map (fun r => r.1 + r.2)).eraseDups.filter (fun a =>
    decide (lo ≤ a) && decide (a + n ≤ lo + len) && used.all (fun r => decide (a + n ≤ r.1) || decide (r.1 + r.2 ≤ a)))

/-- Starts for pieces of the given sizes, each in a free run; which run the spec leaves open (log entry 2). None where they have no room: the
runs are tried from the one chosen on, each piece at the start of a run. -/
def placePieces (choice lo len : Nat) : List Nat → List (Nat × Nat) → Option (List Nat)
  | [], _ => some []
  | n :: rest, used =>
    let c := freeRuns lo len n used
    let k := Config.freeChoice choice % c.length
    (c.drop k ++ c.take k).findSome? (fun a => (placePieces choice lo len rest ((a, n) :: used)).map (fun l => a :: l))

/-- Global numbers and data places of a package's records, or none where the pool lacks the room (R228). -/
def State.assignTables (s : State) (k : ModelPkg) : Option (List Nat × List Nat) :=
  let u := s.poolUsed
  let sizes := pieceSizes (tableRuns k) k.cdf.length 0
  match placePieces s.draws 0 32768 sizes u.1, placePieces s.draws 0x20000 0x3E0000 (k.cdf.map (fun r => r.entries.length)) u.2 with
  | some a, some b => some ((a.zip sizes).flatMap (fun q => (List.range q.2).map (fun i => q.1 + i)), b)
  | none, _ => none
  | some _, none => none

/-- The 8 bytes of the directory record of a package record whose group starts at global number first, its entries at off (R227). -/
def cdfRecord (r : CdfRec) (first off : Nat) : Bytes :=
  let count := if r.kind = 1 then r.entries.length - 2 else r.entries.length
  natLe 8 (packBits [(off, 22), (r.kind, 2), (count, 8), (r.centre, 8), (if r.kind = 2 then first else 0, 15)])

/-- A model's record n written into a bank: its directory record at its global number, its entries at their place. -/
def State.writeTable (s : State) (l bank : Nat) (m : ModelSlot) (n : Nat) : State :=
  let r := m.pkg.cdf.getD n {}
  let off := m.places.getD n 0
  (s.writeMem (poolAt l bank (4 * m.globals.getD n 0)) (cdfRecord r (m.globals.getD r.first 0) off)).writeMem (poolAt l bank off)
    (r.entries.flatMap (natLe 2))

/-- A model's tables written into a bank of a level. -/
def State.putTables (s : State) (l bank : Nat) (m : ModelSlot) : State :=
  s.each (List.range m.pkg.cdf.length) (fun s n => s.writeTable l bank m n)

/-- The directory records of a model's tables cleared in a bank: KIND 0. -/
def State.clearTables (s : State) (l bank : Nat) (m : ModelSlot) : State :=
  s.each m.globals (fun s g => s.clearMem (poolAt l bank (4 * g)) 8)

/-- n bytes copied from a to b. -/
def State.copyRange (s : State) (a b n : Nat) : State :=
  let part := s.mem.filter (fun e => decide (a ≤ e.1) && decide (e.1 < a + n))
  (s.clearMem b n).each part (fun s e => s.writeMem (b + (e.1 - a)) [e.2])

/-- Bytes of a bank. -/
def bankBytes : Nat := 0x800000

/-- A bank of level l copied from bank of level k. -/
def State.copyBank (s : State) (k from' l to' : Nat) : State := s.copyRange (poolAt k from' 0) (poolAt l to' 0) bankBytes

end Sys2Proof.Machine
end

