-- ==== Sys2Proof/Machine/Containers.lean ====
section
/-! DEFINITION. The module flash (R349, R350), signed containers and their checks (R351 to R355), Plans (R356, R357, R281, R372,
R373, R419) and claims (R362, R363). -/

namespace Sys2Proof.Machine

open Sys2Proof

/-! The directory (R350). -/

/-- Is directory copy c valid? -/
def State.dirValid (s : State) (c : Nat) : Bool :=
  let b := s.readFlash (0x10000 * c) 64
  b.take 4 == [0x55#8, 0x4C#8, 0x44#8, 0x52#8] && leAt b 60 4 == crc32c (b.take 60)

/-- SEQ of directory copy c. -/
def State.dirSeq (s : State) (c : Nat) : Nat := leAt (s.readFlash (0x10000 * c) 64) 4 4

/-- The directory copy in use. -/
def State.dirCopy (s : State) : Option Nat :=
  if s.dirValid 0 then if s.dirValid 1 && serialBefore 32 (s.dirSeq 0) (s.dirSeq 1) then some 1 else some 0
  else if s.dirValid 1 then some 1 else none

/-- HF_ACTIVE, PLAN_ACTIVE, FALLBACK_EN in bits 0 to 2; with no valid copy slot 0, slot 0, and fallback. -/
def State.directory (s : State) : Nat :=
  match s.dirCopy with
  | some c => bits (leAt (s.readFlash (0x10000 * c) 64) 8 1) 0 3
  | none => 4

/-- The directory written: the copy not in use, SEQ one more. -/
def State.writeDirectory (s : State) (v : Nat) : State :=
  let c := match s.dirCopy with
    | some k => 1 - k
    | none => 0
  let seq := match s.dirCopy with
    | some k => (s.dirSeq k + 1) % 2 ^ 32
    | none => 0
  let b := [0x55#8, 0x4C#8, 0x44#8, 0x52#8] ++ natLe 4 seq ++ natLe 1 (v % 8) ++ zeros 51
  (s.eraseFlash (0x10000 * c) 0x10000).writeFlash (0x10000 * c) (b ++ natLe 4 (crc32c b))

/-- Base of Headframe slot n. -/
def hfBase (n : Nat) : Nat := 0x100000 + n * 0x400000

/-- Base of Plan slot n. -/
def planBase (n : Nat) : Nat := 0x1000000 + n * 0x7000000

/-- Base of claim slot n. -/
def claimBase (n : Nat) : Nat := 0x900000 + n * 0x4000

/-- The largest container of each KIND (R462), which is the size of its flash slot for kinds 1, 3 and 4. -/
def kindLimit (kind : Nat) : Nat :=
  if kind = 1 then 0x7000000 else if kind = 2 then 0x20000000 else if kind = 3 then 0x400000 else 0x4000

/-- MAGIC of a container (R351). -/
def contMagic : Bytes := [0x55#8, 0x4C#8, 0x43#8, 0x4E#8]

/-- The container stored at a flash offset: as many bytes as its header says, no more than the slot holds; of a slot whose header does
not begin a container, the header alone. -/
def State.flashContainer (s : State) (base limit : Nat) : Bytes :=
  let h := s.readFlash base 64
  if h.take 4 = contMagic then s.readFlash base (min (leAt h 8 4) limit) else h

/-! Containers (R351, R352). -/

/-- KIND. -/
def contKind (b : Bytes) : Nat := leAt b 4 1
/-- SECTIONS. -/
def contSections (b : Bytes) : Nat := leAt b 6 2
/-- TOTAL_BYTES. -/
def contTotal (b : Bytes) : Nat := leAt b 8 4
/-- SIG_OFFSET. -/
def contSig (b : Bytes) : Nat := leAt b 12 4
/-- ID. -/
def contId (b : Bytes) : Nat := leAt b 16 4
/-- VERSION. -/
def contVersion (b : Bytes) : Nat := leAt b 20 2
/-- SVN. -/
def contSvn (b : Bytes) : Nat := bits (leAt b 22 1) 0 6
/-- SVN_COMMIT. -/
def contCommit (b : Bytes) : Bool := bitAt (leAt b 22 1) 6

/-- D of R353. -/
def contDigest (b : Bytes) : Bytes := sha3 (b.take (contSig b))

/-- An entry of the section table. -/
structure SectionRec where
  type     : Nat
  optional : Bool
  off      : Nat
  len      : Nat
  crc      : Nat
  deriving DecidableEq, Repr

/-- The section table. -/
def contTable (b : Bytes) : List SectionRec :=
  (List.range (contSections b)).map (fun i =>
    let e := sub b (64 + 16 * i) 16
    { type := leAt e 0 2, optional := bitAt (leAt e 2 1) 0, off := leAt e 4 4, len := leAt e 8 4, crc := leAt e 12 4 })

/-- The bytes of the section of a TYPE. -/
def contSection (b : Bytes) (type : Nat) : Option Bytes :=
  ((contTable b).find? (fun e => e.type == type)).map (fun e => sub b e.off e.len)

/-- The section types a KIND knows, with whether each must be present (R356). -/
def knownSections (kind : Nat) : List (Nat × Bool) :=
  if kind = 1 then [(1, true), (2, false), (3, true), (4, true), (5, true), (6, true), (7, true), (8, true), (9, false)]
  else if kind = 2 then [(0x101, true), (0x102, true), (0x103, true), (0x104, true), (0x105, true), (0x106, true),
    (0x107, false), (0x108, false), (0x109, false), (0x10A, false)]
  else if kind = 3 then [(0x301, true)] else [(0x201, true)]

/-- Is every byte in [lo, hi) zero? -/
def zeroRange (b : Bytes) (lo hi : Nat) : Bool := (sub b lo (hi - lo)).all (fun v => v == 0)

/-- Does the section table meet R352, with what R356 requires present and nothing unknown that is not optional? -/
def tableOk (b : Bytes) (kind : Nat) : Bool :=
  let t := contTable b
  let first := 64 + 16 * contSections b
  decide (1 ≤ t.length) && decide (t.length ≤ 1024) && decide (first ≤ contSig b) &&
    t.all (fun e => e.off % 64 == 0 && decide (first ≤ e.off) && decide (e.off + e.len ≤ contSig b)) &&
    (List.range t.length).all (fun i => (List.range i).all (fun j =>
      match t[i]?, t[j]? with
      | some x, some y => x.type != y.type && (decide (x.off + x.len ≤ y.off) || decide (y.off + y.len ≤ x.off))
      | _, none => true
      | none, _ => true)) &&
    (List.range (contSig b)).all (fun i => decide (i < first) || (b.getD i 0) == 0 ||
      t.any (fun e => decide (e.off ≤ i) && decide (i < e.off + e.len))) &&
    (knownSections kind).all (fun q => !q.2 || t.any (fun e => e.type == q.1)) &&
    t.all (fun e => e.optional || (knownSections kind).any (fun q => q.1 == e.type))

/-- KEY_ROLE a KIND needs. -/
def roleOf (kind : Nat) : Nat := if kind = 4 then 2 else if kind = 3 then 3 else 1

/-- The checks of R354 up to 7, in order: the code of the first that fails, 0 where none does. -/
def State.checkForm (s : State) (b : Bytes) (kind : Nat) : Nat :=
  let sig := b.drop (contSig b)
  let key := sub sig 0 1312
  if b.take 4 != contMagic || leAt b 5 1 != 1 || leAt b 24 4 != 0x8600 || contKind b != kind ||
      contTotal b != contSig b + 6208 || contSig b % 64 != 0 || decide (kindLimit kind < contTotal b) ||
      decide (b.length < contTotal b) then 1
  else if leAt sig 1312 1 != roleOf kind || decide (leAt sig 1313 1 < s.rot.fuses.minKeyGen) then 2
  else if sha3 Config.rootKey != s.rot.fuses.rootDigest ||
      !mldsaVerify Config.rootKey (sub sig 0 1320) (sub sig 1320 2420) then 3
  else if !mldsaVerify key (contDigest b) (sub sig 3740 2420) then 4
  else if (kind = 1 && decide (contSvn b < s.rot.svnPlan)) || (kind = 3 && decide (contSvn b < s.rot.svnHf)) then 5
  else if !tableOk b kind then 6
  else if (contTable b).any (fun e => crc32c (sub b e.off e.len) != e.crc) then 7
  else 0

/-! Model packages and claims. -/

/-- The package a model container holds. -/
def contPackage (b : Bytes) : ModelPkg := parsePackage (contId b) (contVersion b) (contDigest b) (contSection b)

/-- Relief in ns of a frame period (R258). -/
def relief (num den : Nat) : Nat := 6 * num / (100 * den)

/-- Does a placement keep both limits of R258? -/
def limitsOk (q : Nat × Nat × Nat × Nat) : Bool :=
  decide (relief q.1 q.2.1 ≤ q.2.2.1) && decide (q.2.2.2 + 50000 ≤ relief q.1 q.2.1)

/-- May a package run under the Plan of a digest (R160, R258)? -/
def packageFits (plan : Bytes) (k : ModelPkg) : Bool :=
  (Config.placementTimes plan k.d).all limitsOk && (reassayBlocks k == 0 || Config.reassayFits plan (reassayBlocks k))

/-- A model container's form and content (R354). -/
def State.checkPackage (s : State) (b : Bytes) : Nat :=
  let e := s.checkForm b 2
  if e ≠ 0 then e else if !packageOk (contPackage b) (contSection b) then 8 else 0

/-- A model container checked under R354 as it is staged: the pool's room (R228) and the loaded Plan's limits among the rest. -/
def State.checkModel (s : State) (b : Bytes) : Nat :=
  let e := s.checkPackage b
  if e ≠ 0 then e
  else if (s.assignTables (contPackage b)).isNone || !s.boot.plan.all (fun p => packageFits p.d (contPackage b)) then 8
  else 0

/-- The claim a claim container holds (R362). -/
def contClaim (b : Bytes) (slot : Nat) : Claim :=
  let c := (contSection b 0x201).getD []
  { slot := slot, deviceId := leAt c 0 8, notBefore := leAt c 8 8, notAfter := leAt c 16 8, features := leAt c 24 4,
    maxActive := leAt c 28 4, maxResident := leAt c 32 4 }

/-- A claim container checked under R354 (R363: no reserved feature bit). -/
def State.checkClaim (s : State) (b : Bytes) : Nat :=
  let e := s.checkForm b 4
  if e ≠ 0 then e
  else if decide (256 ≤ (contClaim b 0).features) || ((contSection b 0x201).getD []).length != 64 then 8
  else 0

/-! Plans. -/

/-- Are a ring record's reserved bits 0 (R281)? -/
def ringBitsOk (b : Bytes) : Bool := bits (leAt b 0 4) 21 11 == 0 && bits (leAt b 4 4) 28 4 == 0 && bits (leAt b 8 4) 7 25 == 0

/-- A ring record (R281); all zero for an unused ring. -/
def parseRing (b : Bytes) : RingRec :=
  let w := leAt b 4 4
  { base := bits (leAt b 0 4) 0 21, skipBytes := bits w 0 19, count := bits w 19 7, tagged := bitAt w 26,
    borrow := bitAt w 27, reserve := bits (leAt b 8 4) 0 7, tSkip := leAt b 12 4 }

/-- Does a ring record keep R152 and R281? -/
def ringOk (r : RingRec) : Bool :=
  decide (r = {}) || (r.base % 64 == 0 && decide (64 ≤ r.skipBytes) && decide (r.skipBytes ≤ 262144) &&
    r.skipBytes % 64 == 0 && decide (3 ≤ r.count) && decide (r.count ≤ (if r.tagged then 15 else 64)) &&
    decide (3 ≤ r.reserve) && decide (r.reserve ≤ r.count) && decide (1 ≤ r.tSkip))

/-- The rings of a logical face: 16 ring records, then the pool record, taken to be laid out as a ring record's first three words
are: POOL_BASE, POOL_SKIP_BYTES, POOL_COUNT (R295 gives no layout; log entry 17). -/
def parseFaceRings (b : Bytes) : FaceRings :=
  let p := b.drop 256
  { rings := ((recordsOf 16 b).take 16).map parseRing, poolBase := bits (leAt p 0 4) 0 21,
    poolBytes := bits (leAt p 4 4) 0 19, poolCount := bits (leAt p 8 4) 0 8 }

/-- A placement entry (R356). -/
def parsePlacement (programs b : Bytes) : Placement :=
  { cls := leAt b 0 1, modelSlot := leAt b 2 2, bandBudget := leAt b 4 4,
    faces := ((Config.programFaces programs (leAt b 8 4) (leAt b 12 4)).filter (fun f => decide (f < 1024))).eraseDups }

/-- A port record (R419). -/
def parsePort (b : Bytes) : PortRec :=
  { ipv4 := leAt b 0 4, prefix4 := leAt b 4 1, prefix6 := leAt b 5 1, vlan := leAt b 6 2, ipv6 := leAt b 8 16,
    gateway4 := leAt b 24 4, gateway6 := leAt b 28 16,
    mtu := leAt b 44 2, ctrlUdp := leAt b 46 2, mediaUdp := leAt b 48 2 }

/-- Does a port record keep R419? -/
def portOk (p : PortRec) : Bool :=
  decide (p.prefix4 ≤ 32) && decide (p.prefix6 ≤ 128) && decide (p.vlan ≤ 4094) && decide (1280 ≤ p.mtu) &&
    decide (p.mtu ≤ 9000) && p.ctrlUdp != 0 && p.mediaUdp != 0 && p.ctrlUdp != p.mediaUdp

/-- A destination entry (R419). -/
def parseDest (b : Bytes) : DestRec :=
  { addr := leAt b 0 16, udp := leAt b 16 2, portSel := leAt b 18 1, payload := leAt b 19 1, holdMax := leAt b 20 4,
    holdAge := leAt b 24 4 }

/-- Does a destination keep R419? -/
def destOk (d : DestRec) : Bool :=
  decide (d.portSel ≤ 5) && decide (96 ≤ d.payload) && decide (d.payload ≤ 127) && decide (1 ≤ d.holdMax) &&
    decide (1 ≤ d.holdAge)

/-- n group records from their bytes. -/
def parseGroups : Nat → Bytes → List GroupRec
  | 0, _ => []
  | n + 1, b =>
    let c := leAt b 0 1
    { skipRefresh := leAt b 2 2, dests := (List.range c).map (fun i => parseDest (sub b (16 + 32 * i) 32)) } ::
      parseGroups n (b.drop (16 + 32 * c))

/-- Does a group record keep R419? -/
def groupOk (g : GroupRec) : Bool :=
  decide (1 ≤ g.dests.length) && decide (g.dests.length ≤ 64) && g.dests.all destOk

/-- The survey policy record (R373). -/
def parseSurvey (b : Bytes) : SurveyPolicy :=
  let st := leAt b 10 1
  let x := leAt b 12 1
  let m := leAt b 13 1
  { readyFaces := leAt b 0 2, degradedFaces := leAt b 2 2, readyUnguarded := leAt b 4 1, shortOk := bitAt (leAt b 5 1) 0,
    readyLpddr := leAt b 6 1, degradedLpddr := leAt b 7 1, readyLevels := leAt b 8 1, degradedLevels := leAt b 9 1,
    streamReady := bits st 0 2, streamDegraded := bits st 2 2, xctMinWidth := leAt b 11 1, xctReady := bits x 0 4,
    xctDegraded := bits x 4 4, xctMismatch := bitAt m 0, timeReq := bits m 1 2 }

/-- Does the policy keep R373? -/
def surveyOk (p : SurveyPolicy) : Bool :=
  decide (p.readyFaces ≤ 1024) && decide (p.degradedFaces ≤ p.readyFaces) && decide (p.readyUnguarded ≤ 64) &&
    decide (2 ≤ p.readyLpddr) && decide (p.readyLpddr ≤ 16) && decide (2 ≤ p.degradedLpddr) &&
    decide (p.degradedLpddr ≤ p.readyLpddr) && decide (1 ≤ p.readyLevels) && decide (p.readyLevels ≤ 4) &&
    decide (1 ≤ p.degradedLevels) && decide (p.degradedLevels ≤ p.readyLevels) && [1, 2, 4].contains p.xctMinWidth &&
    p.timeReq != 3

/-- The package containers of a MODELS section, each on a 64-byte boundary. -/
def modelContainers : Nat → Bytes → List Bytes
  | 0, _ => []
  | n + 1, b =>
    let t := contTotal b
    if b.length < 64 ∨ t = 0 then [] else b.take t :: modelContainers n (b.drop (roundUp t 64))

/-- The containers of a Plan's models. -/
def planModels (b : Bytes) : List Bytes :=
  let m := (contSection b 2).getD []
  modelContainers m.length m

/-- The Plan a container holds. -/
def contPlan (b : Bytes) (slot : Nat) : Plan :=
  let get := fun t => (contSection b t).getD []
  let st := get 1
  let g := get 7
  { slot := slot, id := contId b, d := contDigest b, svn := contSvn b, svnCommit := contCommit b, ceLimit := leAt st 0 2,
    jobSlack := leAt st 4 4, eventFrames := bits (leAt st 8 1) 0 6, district := leAt st 12 4, priority1 := leAt st 16 1,
    priority2 := leAt st 17 1, workOff := leAt st 20 4, workBytes := leAt st 24 4,
    placement := (recordsOf 64 (get 3)).map (parsePlacement (get 4)), rings := (recordsOf 272 (get 5)).map parseFaceRings,
    ckptPool := (recordsOf 16 (get 6)).map (fun r => (leAt r 0 8, leAt r 8 8)),
    ports := [parsePort (sub g 0 64), parsePort (sub g 64 64)], groups := parseGroups (leAt g 128 4) (g.drop 132),
    survey := parseSurvey (get 8),
    topology := (contSection b 9).map (fun t => ((recordsOf 16 t).take 4).map (fun r => (leAt r 0 8, leAt r 8 1))) }

/-- A command of a Plan's streams: 0 a descriptor, 1 a fused stage command, 2 a compute record, 3 a muster, 4 a compressor descriptor; its
logical face, engine, face-store offset and bytes (R356; log entry 16). -/
structure PlanCmd where
  kind   : Nat
  face   : Nat
  engine : Nat
  offset : Nat
  bytes  : Bytes
  deriving DecidableEq, Repr

/-- The commands of a FACE_PROGRAMS section. -/
def planCmds (programs : Bytes) : List PlanCmd :=
  (Config.programCommands programs).map (fun c =>
    { kind := c.1, face := c.2.1, engine := c.2.2.1, offset := c.2.2.2.1, bytes := c.2.2.2.2 })

/-- The logical face whose ring a descriptor of logical face f fills, as a Plan names it: that of the store DST lies in where it is one of
the level, else its own; a physical store is the slot's of its position (R284; log entry 88). -/
def planRingFace (f : Nat) (d : Desc) : Nat :=
  let q := storeOf d.dst
  let at' := if d.dstLog then bits d.dst 24 10 else 256 * levelOf q + 16 * driftOf q + posOf q
  if d.op != 3 && inStore d.dst && (d.dstLog || (faceWf q && decide (posOf q < 16))) && at' / 256 == f / 256 then at' else f

/-- Ring r of logical face f. -/
def Plan.ring (p : Plan) (f r : Nat) : RingRec := (p.rings.getD f {}).rings.getD r {}

/-- Do the engine steps of a fused command move exactly its skips, by the descriptors the streams hold where they point (R289)? -/
def fusedFits (p : Plan) (cs : List PlanCmd) (c : PlanCmd) : Bool :=
  (fusedList c.bytes).all (fun st => decide (6 ≤ st.engine) ||
    (cs.filter (fun q => q.kind == 0 && q.face == c.face && q.offset == st.ptr)).all (fun q =>
      let d := parseDesc q.bytes
      stepMoves d (fusedSkips c.bytes) st (fun r => (p.ring c.face r).skipBytes) (fun r => (p.ring (planRingFace c.face d) r).skipBytes)))

/-- Does a command of the Plan's streams keep the rules that refuse a Plan (R274, R289 to R291, R310)? -/
def commandOk (p : Plan) (cs : List PlanCmd) (c : PlanCmd) : Bool :=
  if c.kind = 0 then descOk c.bytes c.engine
  else if c.kind = 1 then fusedOk c.bytes && fusedFits p cs c
  else if c.kind = 2 then computeOk c.bytes
  else if c.kind = 3 then musterOk c.bytes
  else blkOk c.bytes

/-- The rings, by logical face and number, that a descriptor of the Plan's streams runs with tagged data or a scale stream (R150, R152). -/
def scaleRings (c : PlanCmd) : List (Nat × Nat) :=
  let d := parseDesc c.bytes
  if c.kind = 0 ∧ (d.tagSet = true ∨ d.auxKind = 3) then
    d.srcRing.toList.map (fun r => (c.face, r)) ++ d.dstRing.toList.map (fun r => (planRingFace c.face d, r))
  else []

/-- Does every ring that carries tagged data or a scale stream hold at most 15 skips (R152)? -/
def scaleRingsOk (p : Plan) (c : PlanCmd) : Bool := (scaleRings c).all (fun q => decide ((p.ring q.1 q.2).count ≤ 15))

/-- Does the Plan's content keep the rules that refuse one (R152, R274, R281, R289, R357, R373, R419)? `programs` and `rings` are its
FACE_PROGRAMS and RINGS sections. -/
def planOk (p : Plan) (programs rings : Bytes) : Bool :=
  decide (1 ≤ p.ceLimit) && decide (1000 ≤ p.jobSlack) && decide (p.jobSlack ≤ 1000000000) && p.workOff % 65536 == 0 &&
    p.workBytes % 65536 == 0 && decide (65536 ≤ p.workBytes) && decide (p.workOff + p.workBytes ≤ 0xBD000000) &&
    p.rings.all (fun f => f.rings.all ringOk) && p.ports.all portOk && p.groups.all groupOk && surveyOk p.survey &&
    (recordsOf 272 rings).all (fun f => ((recordsOf 16 f).take 16).all ringBitsOk) &&
    (planCmds programs).all (fun c => commandOk p (planCmds programs) c && scaleRingsOk p c) && Config.programsOk programs

/-- A Headframe container checked under R354. -/
def State.checkHeadframe (s : State) (b : Bytes) : Nat := s.checkForm b 3

/-! Slots. -/

/-- A package put into a model slot with its tables assigned: state as given. -/
def State.stagePackage (s : State) (slot state : Nat) (k : ModelPkg) (carried : Bool) : State :=
  match s.assignTables k with
  | none => s
  | some q =>
    let m : ModelSlot :=
      { state := state, pkg := k, planCarried := carried, globals := q.1, places := q.2, copyDevs := [] }
    { s.setModel slot m with draws := s.draws + 1 }

/-- Does the pool, empty before, have room for all the packages a Plan carries (R228)? -/
def State.poolFits (s : State) : Nat → List ModelPkg → Bool
  | _, [] => true
  | n, k :: r => (s.assignTables k).isSome && (s.stagePackage n 1 k true).poolFits (n + 1) r

/-- Does the relay traffic of a Plan's groups fit the crosscut ports (R435)? A Plan without relays asks nothing of them. -/
def State.relaysFit (s : State) (p : Plan) (groups : Bytes) : Bool :=
  p.groups.all (fun g => g.dests.all (fun d => decide (d.portSel < 2))) ||
    Config.relayFits groups ((List.range 4).foldl (fun m q => m + s.field (cmdReg (0xC00 + 16 * q)) 2 2 * 4 ^ q) 0)

/-- A Plan container checked under R354, with every package it carries (R360). Its packages come into an empty pool. -/
def State.checkPlan (s : State) (b : Bytes) : Nat :=
  let e := s.checkForm b 1
  let s0 : State := { s with models := [] }
  if e ≠ 0 then e
  else if !planOk (contPlan b 0) ((contSection b 4).getD []) ((contSection b 5).getD []) || (planModels b).any (fun m => s0.checkPackage m != 0 || !packageFits (contDigest b) (contPackage m)) ||
      !s0.poolFits 0 ((planModels b).map contPackage) || !s.relaysFit (contPlan b 0) ((contSection b 7).getD []) then 8
  else 0

/-- Any container checked by its KIND. -/
def State.checkContainer (s : State) (kind : Nat) (b : Bytes) : Nat :=
  if kind = 1 then s.checkPlan b else if kind = 2 then s.checkModel b else if kind = 3 then s.checkHeadframe b
  else s.checkClaim b

/-- The ranges of LPDDR6 that hold copies of staged models (R340, R379): base and length. -/
def State.modelRanges (s : State) : List (Nat × Nat) :=
  s.models.flatMap (fun m => m.2.copyAt.map (fun a => (a, m.2.pkg.weights.length)))

/-- One copy of a model put on an LPDDR6 device (R340, R367): its tensor data, at a place outside the checkpoint pool, the copies and the
other models that the spec leaves open (log entry 2). A device without such a place takes none. -/
def State.copyModel (s : State) (slot d : Nat) : State :=
  let w := (s.pkg slot).weights
  let used := (s.boot.plan.map (fun p => p.ckptPool)).getD [] ++ s.copiesUsed ++ s.modelRanges
  let r := s.pick (freePlaces (d * 2 ^ 36) (2 ^ 36) w.length (used.filter (fun q => deviceOf q.1 == d)))
  match r.1 with
  | none => r.2
  | some a =>
    let m := r.2.model slot
    ({ r.2 with mem := spPuts memUnlisted r.2.mem a w } : State).setModel slot { m with copyDevs := m.copyDevs ++ [d], copyAt := m.copyAt ++ [a] }

/-- A model placed (R340, R367, R463): its resident chunks in the bonded DRAM of the levels in service, its copies on two devices of
different levels, which ones the spec leaves open (log entry 2). -/
def State.placeModel (s : State) (slot : Nat) : State :=
  let ok := (List.range 16).filter s.lpddrOk
  let a := ok.getD (Config.freeChoice s.draws % max 1 ok.length) 0
  let rest := ok.filter (fun d => d / 4 != a / 4)
  let b := rest.getD (Config.freeChoice (s.draws + 1) % max 1 rest.length) 0
  let devs := (if ok.isEmpty then [] else [a]) ++ (if rest.isEmpty then [] else [b])
  let s1 : State := { s.setModel slot { s.model slot with copyDevs := [], copyAt := [] } with draws := s.draws + 2 }
  (s1.each devs (fun s d => s.copyModel slot d)).placeHomes (s.pkg slot) ((List.range 4).filter (fun l => (s.level l).inService))

end Sys2Proof.Machine
end

