-- ==== Sys2Proof/Machine/Fires.lean ====
section
/-! DEFINITION. What each kind of round flips when it fires (R45, R232, R261, R262, R264 to R266, R365, R391). -/

namespace Sys2Proof.Machine

open Sys2Proof

/-! Checkpoint (R261). -/

/-- A frame of a source committed, as the adaptation jobs it feeds see it (R458): a job that waits for one takes its committed image, beside
the state of its own last step (R165). -/
def State.feedJobs (s : State) (id : Nat) : State :=
  { s with jobs := s.jobs.map (fun j =>
      if j.source = id ∧ (j.state = .running ∨ j.state = .suspending) then
        if j.stepping ∨ j.fed then { j with skipped := min (j.skipped + 1) 0xFFFFFFFF, fed := j.fed }
        else { j with
          fed := decide (j.state = .running)
          tensors := j.tensors.filter (fun q => ((s.pkg j.modelSlot).tensors.getD q.1 {}).role == 6) ++ (s.ses id).committed.hot }
      else j) }

/-- What the committed frame leaves: frame hand-over, whether it was computed in full, its flow. -/
def Session.commitLeft (x : Session) : Option FrameLeft :=
  if x.decode then (x.dec.frames.head?.filter (fun f => f.output)).map DecFrame.left else x.frame.map EncFrame.left

/-- LT_AGE and REFRESH_AGE after a frame (R240, R267): ages of an encode session, 0 in a decode session. -/
def Session.ages (x : Session) (l : FrameLeft) : Nat × Nat :=
  if x.decode || l.refresh then (0, 0)
  else (if l.ltMask ≠ 0 then 0 else min (x.ltAge + 1) 65535, min (x.refreshAge + 1) 65535)

/-- Search planes whose slot was emptied by the frame and not stored. -/
def FrameLeft.emptied (l : FrameLeft) (x : Session) : List Nat :=
  ((List.range 8).filter (fun i => !bitAt l.storeMask i && l.refresh && !(x.slot i).long)).map (fun i => 1 + i)

/-- The descriptor fields, HALF and GEN at the fire (R261). -/
def Session.flipImage (x : Session) (l : FrameLeft) : Session :=
  let y := (l.emptied x).foldl Session.absentCold (x.coldNew.foldl Session.flipCold x)
  { y with
    committed := x.pending.getD x.committed, pending := none, coldNew := [], half := !x.half, slots := l.slots x,
    nextFrameNum := (l.num + 1) % 2 ^ 32, frameIndex := x.frameIndex + 1, ltAge := (x.ages l).1, refreshAge := (x.ages l).2,
    ckptSeq := (x.ckptSeq + 1) % 2 ^ 32,
    lateReports := x.lateReports.map (fun r => (r.1, Nat.land r.2.1 (255 - l.storeMask % 256), r.2.2)) }

/-- The counters and the gating and motion records at the fire (R195, R212, R245). A frame whose gated layers were all computed in full only
because the skip map was not complete counts as gated, where R196 does not say (DESIGN CHOICE, log entry 99). -/
def Session.flipCounts (x : Session) (gated : Bool) (now : Nat) : Session :=
  let y := { x.bump 16 1 with firedAt := now, retried := false, firstFrame := false }
  match x.frame with
  | none => y
  | some f =>
    let z := { y with sinceFull := if f.full then 0 else x.sinceFull + 1, prevFlow := f.flow }
    if f.full && gated then z.bump 12 1 else z

/-- The copies the round wrote hold the new checkpoint; with both in place MIRROR_SINGLE clears (R261, R262). -/
def Session.flipCopies (x : Session) (wrote : List Nat) : Session :=
  let put := fun (x : Session) (i : Nat) =>
    if (x.copy i).present then
      x.setCopy i (if wrote.contains i then
        { settings := x.settings, counters := x.counters, image := x.committed, cold := x.cold, present := true, ok := true }
        else { x.copy i with ok := false })
    else x
  let y := put (put x 0) 1
  { y with mirrorSingle := y.mirrorSingle && !(y.copyA.ok && y.copyB.ok) }

/-- The frame gone, the next decode frame bound to its reference (R78). -/
def Session.frameGone (x : Session) : Session :=
  if x.decode then
    let ends := (x.dec.frames.head?.map (fun f => f.ends)).getD false
    let y := { x with dec := { x.dec with frames := x.dec.frames.drop 1 } }
    (if ends then y.emptySlots else y).bindHead
  else { x with frame := none }

/-- The checkpoint round of a session fires. -/
def State.fireCheckpoint (s : State) (r : Round) (id : Nat) : State :=
  let x := s.ses id
  match x.commitLeft with
  | none => s
  | some l =>
    let done := [0, 1].filter (fun i => (r.members.getD i {}).st == 1 && !(r.single && (x.copy i).ok == false))
    let y := ((x.flipImage l).flipCounts (!(gatedOuts (s.pkg x.modelSlot)).isEmpty) s.now).flipCopies done
    ((s.setSes id y.frameGone).feedJobs id).afterCommit id

/-! Takeover (R264, R265). -/

/-- The owners of the steps a face is at: its work item's, and its motion search's. -/
def Face.owners (f : Face) : List Ctx :=
  let bands : List Ctx := if f.motion.busy then [.session f.motion.session] else []
  ((f.item.map (fun i => i.work.ctx)).toList ++ bands).eraseDups

/-- RERUN_STEPS of a session whose step is restarted (R265, log entry 34). -/
def State.countRerun (s : State) : Ctx → State
  | .session i => s.bumpSes i 22 1
  | .job _ => s

/-- An engine that starts its head descriptor again from the beginning (R288). -/
def Engine.restart (g : Engine) : Engine :=
  { g.rewind with stopped := false, err := none, status := if g.stopped then 0 else g.status }

/-- Did the face stop on a discarded write to face p's store (R46)? -/
def Face.stoppedOn (f : Face) (p : Nat) : Bool :=
  f.engines.any (fun g => match g.err with
    | some (2, a) => decide (storeBase p ≤ a) && decide (a < storeBase p + 0x1000000)
    | some _ => false
    | none => false)

/-- Every face that stopped on a write to face p runs again (R264, R288). -/
def State.restartOn (s : State) (p : Nat) : State :=
  { s with faces := s.faces.map (fun e =>
      if e.2.stoppedOn p then
        (e.1, { e.2 with stopped := false, stageStop := false, stopWork := none, engines := e.2.engines.map Engine.restart,
                         rings := e.2.rings.map (fun g => { g with filling := none }) })
      else e) }

/-- SES_TAKEOVER and TAKEOVERS of a level (R273). -/
def State.noteTakeover (s : State) (l failed reserve : Nat) : State :=
  (((s.bumpField (lvlReg l 0x510) 0 8 1).setRegNat (lvlReg l 0x514) (s.now % 2 ^ 32)).setRegNat (lvlReg l 0x518)
    (s.now / 2 ^ 32)).setRegNat (lvlReg l 0x51C) (failed % 2 ^ 11 + reserve % 2 ^ 11 * 2 ^ 11 + 2 ^ 31)

/-- The rounds a takeover in drift (l, d) held back are armed (R330). -/
def State.releaseHeld (s : State) (l d : Nat) : State :=
  let mine := s.rounds.filter (fun r => r.hold && s.displaced l d { r with armed := true, decided := false })
  s.each mine (fun s r => s.unhold r)

/-- The reserve face with the slot's schedule (R264): the failed face's work that had not completed, each piece from its beginning. -/
def Face.takeOver (r f : Face) (now : Nat) : Face :=
  { r with asReserve := false, gated := false, lastWork := now, engines := f.engines.map Engine.restart, counters := f.counters,
           fused := f.fused.map (fun u => { u with drained := 0 }), workSeq := f.workSeq, missed := [],
           motion := { f.motion with tile := 0, columns := [], buffers := [], vectors := [] }, portDone := f.portDone }

/-- A takeover round fires. -/
def State.fireTakeover (s : State) (l d slot failed reserve : Nat) : State :=
  let f := s.face failed
  let s1 := (s.setRegNat (drfReg l d (0x40 + 4 * slot)) (slotWord (posOf reserve))).setField (drfReg l d 0) 0 6 0
  let s2 := (s1.setFace failed f.dropWork).restartOn failed
  let s3 := (s2.each f.owners State.countRerun).noteTakeover l failed reserve
  (s3.setFace reserve ((s3.face reserve).takeOver f s3.now)).wantSurvey

/-- What follows a takeover, fired or not: held rounds are released, a face that passed becomes the reserve (R330, R391). -/
def State.afterTakeover (s : State) (l d : Nat) : State := (s.releaseHeld l d).fillReserve l d

/-! Rejoin (R391). -/

/-- A face admitted again (R391): its stores and engines empty but for the resident chunks of the slot it is bound to, its epoch the
expected one. -/
def State.admitFace (s : State) (p : Nat) (asReserve : Bool) : State :=
  let s1 := (s.clearMem (storeBase p) 0x1000000).setFace p
    { Face.zero with epoch := s.expected p, asReserve := asReserve, lastWork := s.now }
  if asReserve then s1 else s1.loadChunks p

/-- A rejoin round fires: the face epoch, and as the reserve the drift's state. A face of a level parked meanwhile is current
when the level returns. -/
def State.fireRejoin (s : State) (p : Nat) (reserve : Bool) : State :=
  let a := drfReg (levelOf p) (driftOf p) 0
  let s1 := if (s.level (levelOf p)).parked = 0 then s.admitFace p reserve
    else s.setFace p { s.face p with wasCurrent := true, asReserve := reserve }
  (if reserve then s1.setField a 0 6 (posOf p + 32) else s1).wantSurvey

/-! Swap (R232 to R234, R237, R463). -/

/-- ENT_POOL_FIRE of every level (R237). -/
def State.setFireTime (s : State) (t : Nat) : State :=
  s.each (List.range 4) (fun s l => (s.setRegNat (lvlReg l 0x304) (t % 2 ^ 32)).setRegNat (lvlReg l 0x308) (t / 2 ^ 32))

/-- A swap round fires: the shadow becomes current, the models waiting for it usable, those being unstaged empty. -/
def State.fireSwap (s : State) (t : Nat) : State :=
  let old := s.curBank
  let n := s.boundFrames old t
  let s1 := s.each (List.range 4) (fun s l => s.setField (lvlReg l 0x300) 0 1 (1 - old))
  let s2 := s1.each s.servingLevels (fun s l => s.bumpField (lvlReg l 0x300) 24 8 1)
  let s3 := ((s2.setOldFrames n).setShadow (if n = 0 then 0 else 4)).setFireTime t
  { s3 with
    models := (s3.models.filter (fun m => m.2.state != 4)).map (fun m =>
      if m.2.state = 2 then (m.1, { m.2 with state := 3 }) else m)
    shadow := none }

/-! Migration (R266). -/

/-- A migration round fires: PLACEMENT changes and DEGRADED clears. -/
def State.fireMigration (s : State) (id placement : Nat) : State :=
  let x := s.ses id
  if x.state = .free then s
  else (s.setSes id { x with placement := placement, degraded := false }).bumpField (lvlReg (id / 262144) 0x510) 8 8 1

/-! Licence (R364, R365). -/

/-- Does a claim's time range hold t? -/
def Claim.holdsAt (c : Claim) (t : Nat) : Bool :=
  (c.notBefore == 0 || decide (c.notBefore ≤ t)) && (c.notAfter == 0 || decide (t < c.notAfter))

/-- Has a claim a time limit? -/
def Claim.timed (c : Claim) : Bool := c.notBefore != 0 || c.notAfter != 0

/-- The enable set valid at time t applied: features, limits, CMD_CLAIM_STAT (R364, R365, R382). -/
def State.applyClaims (s : State) (t : Nat) : State :=
  let live := s.boot.claims.filter (fun c => !c.timed || s.boot.claimsTimed)
  let valid := live.filter (fun c => c.holdsAt t)
  let wait := s.boot.claims.filter (fun c => c.timed && !s.boot.claimsTimed)
  let on := valid.foldl (fun m c => Nat.lor m (c.features % 256)) 0
  let s1 : State := { s with boot := { s.boot with
    enabled := on
    maxActive := valid.foldl (fun m c => max m c.maxActive) 0
    maxResident := valid.foldl (fun m c => max m c.maxResident) 0 } }
  s1.setRegNat (cmdReg 0x930) (on + valid.length % 256 * 256 + wait.length % 256 * 65536)

/-! All kinds. -/

/-- The flip members of a round take their new values; t is the fire time of a time-triggered round. -/
def State.flipRound (s : State) (r : Round) (t : Nat) : State :=
  match r.flip with
  | .remap ls => s.bindLevels ls
  | .takeover l d slot failed reserve => s.fireTakeover l d slot failed reserve
  | .rejoin p reserve => s.fireRejoin p reserve
  | .swap => s.fireSwap t
  | .checkpoint i => s.fireCheckpoint r i
  | .migration i pl => s.fireMigration i pl
  | .licence => (s.applyClaims t).wantSurvey

/-- A round fires: its members flip, it is counted and gone, and what waited for it follows. -/
def State.fireRound (s : State) (r : Round) (t : Nat) : State :=
  let s1 := (s.roundFired r).flipRound r t
  match r.flip with
  | .takeover l d _ _ _ => s1.afterTakeover l d
  | .remap _ => s1
  | .rejoin .. => s1
  | .swap => s1
  | .checkpoint _ => s1
  | .migration .. => s1
  | .licence => s1

end Sys2Proof.Machine
end

