-- ==== Sys2Proof/Machine/RepairLog.lean ====
section
/-! DEFINITION. The field-repair log in flash (R370): halves, entries, compaction, CMD_LOG_STAT (R382). -/

namespace Sys2Proof.Machine

open Sys2Proof

/-- Base of log half h. -/
def halfBase (h : Nat) : Nat := 0xA00000 + h * 0x80000

/-- Entries a half holds. -/
def halfRoom : Nat := 16382

/-- Has half h a valid header? -/
def State.halfValid (s : State) (h : Nat) : Bool :=
  let b := s.readFlash (halfBase h) 64
  b.take 4 == [0x55#8, 0x4C#8, 0x46#8, 0x52#8] && leAt b 60 4 == crc32c (b.take 60)

/-- GENERATION of half h. -/
def State.halfGen (s : State) (h : Nat) : Nat := leAt (s.readFlash (halfBase h) 64) 4 4

/-- The active half: the valid one with the serially later GENERATION. -/
def State.activeHalf (s : State) : Option Nat :=
  if s.halfValid 0 then
    if s.halfValid 1 && serialBefore 32 (s.halfGen 0) (s.halfGen 1) then some 1 else some 0
  else if s.halfValid 1 then some 1 else none

/-- Entry places of half h that hold anything. -/
def State.halfUsed (s : State) (h : Nat) : Nat :=
  let lo := halfBase h + 64
  (s.flash.filter (fun e => decide (lo ≤ e.1) && decide (e.1 < halfBase h + 0x80000))).foldl (fun n e => max n ((e.1 - lo) / 32 + 1)) 0

/-- The bytes of entry i of half h. -/
def State.halfEntry (s : State) (h i : Nat) : Bytes := s.readFlash (halfBase h + 64 + 32 * i) 32

/-- Is the entry sound (ECRC)? -/
def entryOk (b : Bytes) : Bool := leAt b 28 4 == crc32c (b.take 28)

/-- The unit an entry names. -/
def entryUnit (b : Bytes) : UnitId := { kind := leAt b 12 1, index := leAt b 16 2 }

/-- STATE of an entry: 1 SUSPECT, 2 BAD, 3 PASSED. -/
def entryState (b : Bytes) : Nat := leAt b 13 1

/-- The sound entries of the active half, in order. -/
def State.logEntries (s : State) : List Bytes :=
  match s.activeHalf with
  | none => []
  | some h => ((List.range (s.halfUsed h)).map (s.halfEntry h)).filter entryOk

/-- The entries that are the latest of their unit, in order. -/
def latestOnly : List Bytes → List Bytes
  | [] => []
  | b :: r => if r.any (fun c => entryUnit c == entryUnit b) then latestOnly r else b :: latestOnly r

/-- STATE of a unit's latest entry, written or waiting to be written; 0 where it has none. -/
def State.unitLogged (s : State) (u : UnitId) : Nat :=
  match (s.boot.logPending.filter (fun q => q.1 == u)).getLast? with
  | some q => q.2.1
  | none => ((s.logEntries.filter (fun b => entryUnit b == u)).getLast?.map entryState).getD 0

/-- The 32 bytes of an entry. -/
def entryBytes (seq time : Nat) (q : UnitId × Nat × Nat × Nat) : Bytes :=
  let b := natLe 4 seq ++ natLe 8 time ++ natLe 1 q.1.kind ++ natLe 1 q.2.1 ++ natLe 1 q.2.2.1 ++ natLe 1 0 ++
    natLe 2 q.1.index ++ zeros 6 ++ natLe 4 q.2.2.2
  b ++ natLe 4 (crc32c b)

/-- The header of a half. -/
def halfHeader (gen : Nat) : Bytes :=
  let b := [0x55#8, 0x4C#8, 0x46#8, 0x52#8] ++ natLe 4 gen ++ zeros 52
  b ++ natLe 4 (crc32c b)

/-- The log compacted: the latest entry of each unit that keep picks copied into the other half, its header last. -/
def State.compactLog (s : State) (keep : UnitId → Bool) : State :=
  let old := s.activeHalf
  let new := match old with
    | some h => 1 - h
    | none => 0
  let gen := match old with
    | some h => (s.halfGen h + 1) % 2 ^ 32
    | none => 1
  let es := (latestOnly s.logEntries).filter (fun b => keep (entryUnit b))
  let s1 := (s.eraseFlash (halfBase new) 0x80000).writeFlash (halfBase new + 64) (es.flatMap (fun b => b))
  s1.writeFlash (halfBase new) (halfHeader gen)

/-- CMD_LOG_STAT brought up to date (R382). -/
def State.logStat (s : State) : State :=
  match s.activeHalf with
  | none => s.setRegNat (cmdReg 0x934) 0
  | some h =>
    let bad := (latestOnly s.logEntries).countP (fun b => entryState b == 2)
    s.setRegNat (cmdReg 0x934) (s.halfUsed h % 2 ^ 15 + h * 2 ^ 15 + bad % 2 ^ 12 * 2 ^ 16)

/-- An entry appended, the half compacted first where it is full or not yet begun. -/
def State.appendLog (s : State) (q : UnitId × Nat × Nat × Nat) : State :=
  let room := match s.activeHalf with
    | some h => decide (s.halfUsed h < halfRoom)
    | none => false
  let s1 := if room then s else s.compactLog (fun _ => true)
  let h := s1.activeHalf.getD 0
  let seq := (s1.logEntries.getLast?.map (fun b => (leAt b 0 4 + 1) % 2 ^ 32)).getD 0
  (s1.writeFlash (halfBase h + 64 + 32 * s1.halfUsed h) (entryBytes seq s.now q)).logStat

/-- REPAIR_LOG_WRITE (R370): the next field-repair entry written. -/
def execRepairLogWrite (s : State) : Host.Outcome State Fault Refusal :=
  match s.boot.logPending with
  | [] => ok s
  | q :: r => ok { s.appendLog q with boot := { s.boot with logPending := r } }

end Sys2Proof.Machine
end

