-- ==== Sys2Proof/Machine/Survey.lean ====
section
/-! DEFINITION. Units sounded (R369, R370), the survey (R373 to R375), the election's time (R377), licence rounds (R365) and the
pool banks as starts and returns rebuild them (R399). -/

namespace Sys2Proof.Machine

open Sys2Proof

/-! CMD_BOOT_STAT. -/

/-- PHASE set. -/
def State.setPhase (s : State) (v : Nat) : State := s.setField (cmdReg 0x900) 0 4 v

/-! Units. -/

/-- Is the unit fused bad (R368)? -/
def State.fusedBad (s : State) (u : UnitId) : Bool := s.rot.fuses.fusedBad.contains u

/-- The units whose latest entry has a STATE. -/
def State.unitsLogged (s : State) (st : Nat) : List UnitId :=
  ((s.logEntries.map entryUnit ++ s.boot.logPending.map (fun q => q.1)).eraseDups).filter (fun u => s.unitLogged u == st)

/-- The sounding test number of a failure reported without one, which R368 leaves unnumbered (log entry 2). -/
def State.soundTest (s : State) : Nat := Config.freeChoice s.draws % 2 ^ 32

/-- Units sounded (R369, R370): those picked by sel are disabled where fused bad, failed now or logged BAD; a failure not yet
known gets a BAD entry, a SUSPECT unit that passes a PASSED one. test: the sounding test number. -/
def State.soundUnits (s : State) (sel : UnitId → Bool) (failed : List UnitId) (test : Nat) : State :=
  let fails := (failed.filter sel).eraseDups
  let bad := (s.unitsLogged 2).filter sel
  let news := fails.filter (fun u => !s.fusedBad u && !bad.contains u)
  let passes := (s.unitsLogged 1).filter (fun u => sel u && !fails.contains u)
  let off := (s.rot.fuses.fusedBad.filter sel ++ fails ++ bad).eraseDups
  let s1 : State := { s with boot := { s.boot with
    disabled := s.boot.disabled.filter (fun u => !sel u) ++ off
    badNow := s.boot.badNow.filter (fun u => !sel u) ++ fails } }
  let s2 := s1.each news (fun s u => s.logUnit u 2 1 test)
  s2.each passes (fun s u => s.logUnit u 3 1 test)

/-- The level a unit of kind 1 to 6 belongs to, none for the others. -/
def unitLevel (u : UnitId) : Option Nat :=
  if u.kind = 1 then some (u.index / 512)
  else if u.kind = 2 then some (u.index / 272)
  else if u.kind = 3 then some (u.index / 16)
  else if u.kind = 4 then some (u.index / 4)
  else if u.kind = 5 ∨ u.kind = 6 then some (u.index / 64)
  else none

/-- Is the unit one that a level reset sounds: of the level, vaults left out (R388)? -/
def resetSounds (l : Nat) (u : UnitId) : Bool := u.kind != 5 && unitLevel u == some l

/-! Levels in service (R368). -/

/-- Has the command-die link of level l a module in service (R371)? -/
def State.linkUp (s : State) (l : Nat) : Bool :=
  decide (0 < s.links.ucie.getD (2 * l) 0) || decide (0 < s.links.ucie.getD (2 * l + 1) 0)

/-- May level l be in service: its PLL locked, its link up and no vault disabled (R368)? -/
def State.levelFit (s : State) (l : Nat) : Bool :=
  !s.boot.unlocked.contains l && s.linkUp l && !s.boot.disabled.any (fun u => u.kind == 5 && u.index / 64 == l)

/-! The survey. -/

/-- Active faces of the levels in service (R368). -/
def State.activeCount (s : State) : Nat :=
  (allDrifts.filter (fun q => (s.level q.1).inService)).foldl (fun n q => n + s.field (drfReg q.1 q.2 0) 16 5) 0

/-- Drifts of the levels in service that are guarded. -/
def State.guardedCount (s : State) : Nat :=
  allDrifts.countP (fun q => (s.level q.1).inService && (s.reservePos q.1 q.2).isSome)

/-- Drifts with fewer than 16 bound slots: short (R44, R45). -/
def State.shortCount (s : State) : Nat :=
  allDrifts.countP (fun q => (s.level q.1).inService && decide (s.field (drfReg q.1 q.2 0) 16 5 < 16))

/-- Drifts of the levels in service with 16 bound slots and no reserve face: unguarded (R44, R45). -/
def State.unguardedCount (s : State) : Nat :=
  allDrifts.countP (fun q => (s.level q.1).inService && (s.reservePos q.1 q.2).isNone &&
    decide (16 ≤ s.field (drfReg q.1 q.2 0) 16 5))

/-- The mask of the numbers below n that a test picks. -/
def maskOf (n : Nat) (f : Nat → Bool) : Nat := ((List.range n).filter f).foldl (fun m i => m + 2 ^ i) 0

/-- LPDDR6 devices in service: trained, not disabled, not faulted (R340, R368). -/
def State.lpddrMask (s : State) : Nat := maskOf 16 s.lpddrOk

/-- XCT_W of a crosscut port: 0 disabled, 1 x1, 2 x2, 3 x4 (R382). -/
def State.xctWidth (s : State) (p : Nat) : Nat :=
  if s.field (cmdReg (0xC00 + 16 * p)) 0 2 = 2 then s.field (cmdReg (0xC00 + 16 * p)) 2 2 else 0

/-- The neighbour the Plan expects at a port; 0 and 0xFF match any (R372). -/
def State.expectedNbr (s : State) (p : Nat) : Nat × Nat :=
  match s.boot.plan with
  | some pl => match pl.topology with
    | some t => t.getD p (0, 0xFF)
    | none => (0, 0xFF)
  | none => (0, 0xFF)

/-- Does a crosscut port match TOPOLOGY (R372)? -/
def State.xctMatch (s : State) (p : Nat) : Bool :=
  let t := s.expectedNbr p
  let any := t.1 == 0 && t.2 == 0xFF
  let id := s.regNat (cmdReg (0xC04 + 16 * p)) + s.regNat (cmdReg (0xC08 + 16 * p)) * 2 ^ 32
  let q := s.field (cmdReg (0xC00 + 16 * p)) 8 2
  any || ((s.links.xct.getD p {}).nbrSeen && (t.1 == 0 || t.1 == id) && (t.2 == 0xFF || t.2 == q))

/-- Crosscut ports in service. -/
def State.xctMask (s : State) : Nat := maskOf 4 (fun p => s.xctWidth p != 0)

/-- Crosscut ports whose neighbour differs from TOPOLOGY (R371), one disabled for it among them. -/
def State.xctMismatch (s : State) : Nat := maskOf 4 (fun p => (s.links.xct.getD p {}).nbrSeen && !s.xctMatch p)

/-- Levels in service (R368); a parked level counts (R394), a level in reset does not. -/
def State.levelMask (s : State) : Nat := maskOf 4 (fun l => (s.level l).inService && !(s.level l).inReset)

/-- Stream ports up. -/
def State.streamMask (s : State) : Nat := maskOf 2 (fun p => s.links.streamUp.getD p false)

/-- The number of bits set below n. -/
def ones (n v : Nat) : Nat := (List.range n).countP (bitAt v)

/-- Are all bits of a wanted mask set? -/
def holdsAll (have' want : Nat) : Bool := Nat.land have' want == want

/-- Phases first to first + n − 1 of the power stage that are not shed (R400, R411). -/
def State.phasesLeft (s : State) (first n : Nat) : Nat :=
  (List.range n).countP (fun i => s.field (cmdReg (0xA10 + 4 * ((first + i) / 32))) ((first + i) % 32) 1 == 0)

/-- Of the rails the whole module needs, VCMD, VIO and VAUX: the first phase, how many there are, how many it needs (R400, R402). -/
def sharedRails : List (Nat × Nat × Nat) := [(110, 6, 5), (132, 6, 5), (138, 2, 1)]

/-- Has VCMD, VIO or VAUX fewer phases than it needs (R402)? -/
def State.railShort (s : State) : Bool := sharedRails.any (fun r => decide (s.phasesLeft r.1 r.2.1 < r.2.2))

/-- The outcome of R374 and R402: 9 READY, 10 READY_DEGRADED, 11 NOT_READY. -/
def State.outcome (s : State) : Nat :=
  match s.boot.plan with
  | none => 11
  | some pl =>
    let v := pl.survey
    let lp := ones 16 s.lpddrMask
    let lv := ones 4 s.levelMask
    let xct := maskOf 4 (fun p => s.xctWidth p != 0 && s.xctMatch p)
    let ready := decide (v.readyFaces ≤ s.activeCount) && decide (s.unguardedCount ≤ v.readyUnguarded) && s.shortCount == 0 &&
      decide (v.readyLpddr ≤ lp) && decide (v.readyLevels ≤ lv) && holdsAll s.streamMask v.streamReady &&
      holdsAll xct v.xctReady && (v.timeReq == 0 || s.servo.settled)
    let degraded := decide (v.degradedFaces ≤ s.activeCount) && (v.shortOk || s.shortCount == 0) &&
      decide (v.degradedLpddr ≤ lp) && decide (v.degradedLevels ≤ lv) && holdsAll s.streamMask v.streamDegraded &&
      holdsAll xct v.xctDegraded && (v.timeReq != 2 || s.servo.settled) &&
      decide (2 ≤ (List.range 4).countP (fun l => (List.range 4).any (fun d => s.lpddrOk (4 * l + d))))
    if (v.xctMismatch && s.xctMismatch != 0) || s.railShort then 11 else if ready then 9 else if degraded then 10 else 11

/-- MATCH of every crosscut port in service (R372, R441). -/
def State.setMatches (s : State) : State :=
  s.each (List.range 4) (fun s p => s.setField (cmdReg (0xC00 + 16 * p)) 10 1 (b2n (s.xctWidth p != 0 && s.xctMatch p)))

/-- CMD_SURVEY0 to CMD_SURVEY2 and CMD_UCIE_STAT (R382). -/
def State.surveyRegs (s : State) : State :=
  let w0 := s.activeCount + s.guardedCount * 2 ^ 16 + s.unguardedCount * 2 ^ 24
  let w1 := s.lpddrMask + s.streamMask * 2 ^ 16 + s.xctMask * 2 ^ 20 + s.xctMismatch * 2 ^ 24 + b2n s.servo.settled * 2 ^ 28 +
    b2n s.servo.traceable * 2 ^ 29
  let w2 := s.shortCount + ((List.range 4).foldl (fun m p => m + s.xctWidth p * 4 ^ p) 0) * 256
  (((s.setRegNat (cmdReg 0x920) w0).setRegNat (cmdReg 0x924) w1).setRegNat (cmdReg 0x928) w2).setRegNat (cmdReg 0x92C)
    (maskOf 24 (fun k => decide (0 < s.links.ucie.getD k 0)))

/-- XCT_MISMATCH 0: a port that does not match TOPOLOGY is disabled (R373). -/
def State.disableMismatch (s : State) : State :=
  match s.boot.plan with
  | some pl =>
    if pl.survey.xctMismatch then s
    else s.each ((List.range 4).filter (bitAt s.xctMismatch)) (fun s p => s.setField (cmdReg (0xC00 + 16 * p)) 0 4 0)
  | none => s

/-- The survey run: the outcome set, the registers filled (R374, R375, R382). -/
def State.runSurvey (s : State) : State :=
  let s0 := s.setMatches.disableMismatch.surveyRegs
  let s1 := (s0.setPhase s0.outcome).setField (cmdReg 0x900) 16 4 s0.levelMask
  { s1 with boot := { s1.boot with surveyDue := false, accepting := s0.outcome != 11 } }

/-! Licence rounds (R365). -/

/-- The time a claim changes next after t, if any. -/
def Claim.edges (c : Claim) (t : Nat) : List Nat := [c.notBefore, c.notAfter].filter (fun v => decide (t < v))

/-- The fire time of a licence round asked for now for a time v: no less than 100 µs away (R325). -/
def State.licenceTime (s : State) (v : Nat) : Nat := launchGrain (max v (s.now + 100000))

/-- Licence rounds asked for at every time a stored claim changes from t on, one for each time (R325, R365). -/
def State.askLicences (s : State) (t : Nat) : State :=
  let ts := ((s.boot.claims.flatMap (fun c => c.edges t)).map s.licenceTime).eraseDups.filter (fun v => !s.rounds.any (fun r =>
    decide (r.flip = .licence) && r.timed == some v))
  s.each ts (fun s v => s.requestRound .licence (some v) 0)

/-! Pool banks. -/

/-- Both banks of level l copied from the current bank of another level that serves, with CUR_BANK, SHADOW_STATE, OLD_FRAMES and
the fire time (R235, R399). -/
def State.takeBanks (s : State) (l : Nat) : State :=
  match s.servingLevels.find? (fun k => k != l) with
  | none => s
  | some k =>
    let c := s.field (lvlReg k 0x300) 0 1
    let s1 := (s.copyBank k c l 0).copyBank k c l 1
    let s2 := (s1.setField (lvlReg l 0x300) 0 4 (s.field (lvlReg k 0x300) 0 4)).setField (lvlReg l 0x300) 8 16
      (s.field (lvlReg k 0x300) 8 16)
    (s2.setReg (lvlReg l 0x304) (s.reg (lvlReg k 0x304))).setReg (lvlReg l 0x308) (s.reg (lvlReg k 0x308))

/-! Faces that return together (R388, R395). -/

/-- Rejoin rounds of a set of faces of a level fired: each current, as the reserve where it stands at the reserve position. -/
def State.rejoinAll (s : State) (ps : List Nat) : State :=
  (s.each ps (fun s p => s.admitFace p (s.isReserve p))).bumpReg (cmdReg 0x804) ps.length

end Sys2Proof.Machine
end

