-- ==== Sys2Proof/Machine/Resets.lean ====
section
/-! DEFINITION. Resets and low-power states as operations (R383 to R399): what a request is answered, how each begins and
ends. -/

namespace Sys2Proof.Machine

open Sys2Proof

/-! What disturbs live work (R384). -/

/-- Does the placement entry name a face of level l? -/
def State.placementOn (s : State) (n l : Nat) : Bool := (s.placementFaces n).any (fun f => f / 256 == l)

/-- Is there live work on level l: a session homed there, or placed on a face of it, that is neither FREE nor PARKED, or a job
with work on it that is not suspended? -/
def State.levelWork (s : State) (l : Nat) : Bool :=
  s.sessions.any (fun e => e.2.state.live && (e.1 / 262144 == l || s.placementOn e.2.placement l)) ||
    s.jobs.any (fun j => (j.state == .running || j.state == .suspending) && s.placementOn j.placement l)

/-- Does a placement in use name a logical face? -/
def State.slotUsed (s : State) (lf : Nat) : Bool :=
  match s.boot.plan with
  | none => false
  | some pl => (List.range pl.placement.length).any (fun n => s.placementUsed n && (s.placementFaces n).contains lf)

/-! Requests that meet (R385). -/

/-- Is a reset of this width over this unit in progress over the scope of a request of width w for unit u? -/
def ActiveReset.covers (r : ActiveReset) (w u : Nat) : Bool :=
  decide (r.width ≤ w) && (decide (r.width ≤ 1) ||
    (if r.width = 2 then (if w = 2 then u == r.unit else levelOf u == r.unit) else u == r.unit))

/-- Is the reset a narrower one within the scope of a request of width w for unit u? -/
def ActiveReset.within (r : ActiveReset) (w u : Nat) : Bool :=
  decide (w < r.width) && (decide (w ≤ 1) || (r.width == 3 && levelOf r.unit == u))

/-- Is a reset of equal or greater width in progress over the scope? -/
def State.resetBusy (s : State) (w u : Nat) : Bool := s.resets.any (fun r => r.covers w u)

/-- Status of a level reset request (R384, R385): 0, WRONG_STATE or BUSY. -/
def State.levelResetStatus (s : State) (l : Nat) : Nat :=
  if s.levelWork l || (s.level l).parked != 0 then 1 else if s.resetBusy 2 l then 12 else 0

/-- Status of a face reset request (R384, R385). -/
def State.faceResetStatus (s : State) (p : Nat) : Nat :=
  let u : UnitId := { kind := 1, index := p }
  let free := match s.logicalOf p with
    | some lf => !s.slotUsed lf
    | none => false
  if s.fusedBad u || s.unitLogged u == 2 || (s.level (levelOf p)).parked != 0 ||
      !((s.face p).failed || s.isReserve p || free) then 1
  else if s.resetBusy 3 p then 12 else 0

/-- Status of a park request (R394). -/
def State.parkStatus (s : State) (l : Nat) : Nat :=
  let held := s.rounds.any (fun r => r.armed && (decide (r.flip = .swap) || decide (r.flip = .licence)) &&
    r.members.any (fun m => m.die == l))
  if s.levelWork l || (s.level l).parked != 0 || !(s.level l).inService || held then 1 else if s.resetBusy 2 l then 12 else 0

/-- STATE of PWR_STAT. -/
def State.pwrState (s : State) : Nat := s.field (cmdReg 0xA00) 0 3

/-- STATE of PWR_STAT set. -/
def State.setPwrState (s : State) (v : Nat) : State := s.setField (cmdReg 0xA00) 0 3 v

/-- STATE of PWR_STAT as standby leaves it: a removal asked for, or its MOD_REMOVE_OK, is what it shows meanwhile (R396, R405, R411). -/
def State.setStandby (s : State) (v : Nat) : State :=
  let s1 : State := { s with pwr := { s.pwr with standby := v } }
  if 4 ≤ s.pwrState then s1 else s1.setPwrState v

/-- Status of an unpark request (R395): only a level that is parked, outside standby. -/
def State.unparkStatus (s : State) (l : Nat) : Nat := if (s.level l).parked = 2 ∧ s.pwr.standby = 0 then 0 else 1

/-- Status of a request to enter standby (R396). -/
def State.standbyStatus (s : State) : Nat :=
  if s.sessions.any (fun e => e.2.state.live) || s.jobs.any (fun j => j.state == .running || j.state == .suspending) ||
      s.pwr.standby != 0 then 1
  else if s.resets.isEmpty then 0 else 12

/-! Stopping a level. -/

/-- The registers of level l a level reset or a park keeps (R398): LVL_PWR_STAT, SES_ROUNDS, ENT_POOL_STAT and its fire time,
LOTS_MIN; the remap tables and states, and the epochs; of DRF_RING_STAT FAILOVERS and, until the drift is next bound, SEG_FAULT beside it:
R398 gives other DRF_ registers zero, R47 rebuilds SEG_FAULT with the binding, and neither binds at a park's return or on the fast path
(DESIGN CHOICE, log entry 103). -/
def keptReg (l a : Nat) : Bool :=
  match regBlock a with
  | .level k o => k != l || [0xA00, 0x510, 0x300, 0x304, 0x308, 0x310].contains o
  | .drift k _ o => k != l || o == 0 || o == 0x10 || (decide (0x40 ≤ o) && decide (o < 0x80)) ||
      (decide (0x80 ≤ o) && decide (o < 0xC4))
  | .face p _ => levelOf p != l
  | .cmd _ => true
  | .unmapped => true

/-- Is a round one of a level's own: a takeover or a rejoin on it? -/
def Flip.onLevel (l : Nat) : Flip → Bool
  | .takeover a _ _ _ _ => a == l
  | .rejoin p _ => levelOf p == l
  | .remap _ => false
  | .swap => false
  | .checkpoint _ => false
  | .migration .. => false
  | .licence => false

/-- A level's run-time state and its registers returned to reset, its face stores zero; LAST_SOUND of its epoch words, which counts nothing
since cold reset, with them (R386, R398). -/
def State.zeroLevel (s : State) (l : Nat) : State :=
  let v := s.level l
  let z := { Level.zero with inService := v.inService, parked := v.parked, byStandby := v.byStandby, inReset := v.inReset,
                             dvfs := v.dvfs, dvfsNext := v.dvfsNext, thermal := v.thermal, phaseLim := v.phaseLim,
                             dvfsAt := v.dvfsAt, unparkAt := v.unparkAt }
  let s0 := ((s.setLevel l z).keepRegs (keptReg l)).clearMem (storeBase (512 * l)) (512 * 0x1000000)
  let s1 := s0.each (levelFaces l) (fun s p => s.setField (drfReg l (driftOf p) (0x80 + 4 * posOf p)) 24 2 0)
  { s1 with musters := s1.musters.filter (fun m => !(decide (m.scope ≤ 1) && (if m.scope = 0 then m.unit / 16 else m.unit) == l))
            trams := s1.trams.filter (fun c => c.home / 512 != l) }

/-- The expected epoch of every position of a level increased (R389). -/
def State.bumpLevel (s : State) (l : Nat) : State := s.each (levelFaces l) State.bumpEpoch

/-! Level reset (R386 to R388). -/

/-- A round that aborted is asked for again by its owner (R329, R331): a migration for the session's next frame start, a licence round at the
first time it can, a remap round, whose kind does not say, at once (log entry 30). -/
def State.askAgain (s : State) (r : Round) : State :=
  match r.flip with
  | .migration .. => s.requestRound r.flip none 0
  | .licence => s.requestRound .licence (some (s.licenceTime (r.timed.getD 0))) 0
  | .remap _ => s.requestRound r.flip none 0
  | .takeover .. => s
  | .rejoin .. => s
  | .swap => s
  | .checkpoint _ => s

/-- A level reset begins. -/
def State.beginLevelReset (s : State) (l : Nat) : State :=
  let hit := s.rounds.filter (fun r => r.armed && r.members.any (fun m => m.die == l))
  let s1 := s.dieReset l
  let s2 : State := { s1 with
    rounds := s1.rounds.filter (fun r => !r.flip.onLevel l)
    faces := s1.faces.filter (fun e => levelOf e.1 != l)
    resets := s1.resets.filter (fun r => !r.within 2 l) }
  let s3 := ((s2.setLevel l { s2.level l with inReset := true }).zeroLevel l).bumpLevel l
  let s4 := s3.bumpField (lvlReg l 0xA00) 8 8 1
  (s4.each (hit.filter (fun r => (s1.round r.id).isNone && !r.flip.onLevel l)) State.askAgain).wantSurvey

/-! A level out of service (R368, R402). -/

/-- A level taken out of service (R368, R402): its faces are absent and what lay on it is lost. -/
def State.levelLost (s : State) (l : Nat) : State :=
  let s1 := s.setLevel l { s.level l with inService := false }
  let homed := (s1.sessions.filter (fun e => e.1 / 262144 == l && e.2.state != .free)).map (fun e => e.1)
  let s2 := s1.each homed (fun s i => s.loseSession i 1)
  let bound := (List.range 16).flatMap (fun d => (List.range 16).filterMap (fun k => (s2.slotPos l d k).map (fun p => (d, k, p))))
  (s2.each bound (fun s q => s.slotAbsent l q.1 q.2.1 (physFace l q.1 q.2.2))).wantSurvey

/-! Removal (R405). -/

/-- A graceful close of a session by its state (R246); a launch time where the command carries one. -/
def State.closeGracefully (s : State) (id launch : Nat) : State :=
  let x := s.ses id
  match x.state with
  | .free => s
  | .closing => s
  | .opening => s.toClosing id true
  | .resuming => s.toClosing id true
  | .parked => s.toClosing id true
  | .parking => s.setSes id { x with closeAsked := some { launch := launch } }
  | .active => s.setSes id { x with closeAsked := some { launch := launch } }

/-- A running adaptation job ends CANCELLED (R459): its work ends with it. -/
def State.cancelJob (s : State) (j : Job) : State :=
  let s1 := ((s.each (List.range 4) (fun s l => s.cancelBlk l (.job j.id))).cancelMoves (.job j.id))
  s1.setJob { j with state := .cancelled, endAt := s.now, stepping := false, fed := false }

/-- A removal request takes effect (R405): the jobs that run end CANCELLED; CLOSE closes every session. -/
def State.startRemoval (s : State) (m : Removal) : State :=
  let run := s.jobs.filter (fun j => j.state == .running || j.state == .suspending)
  let s1 := s.each run State.cancelJob
  let s2 := if m.drain then s1 else s1.each (s1.sessions.map (fun e => e.1)) (fun s i => s.closeGracefully i s.now)
  { s2 with pwr := { s2.pwr with removal := some { m with closed := !m.drain }, wantRemoval := none } }.setPwrState 4

/-- A reset has ended; a removal request that waited for it takes effect (R405). -/
def State.endReset (s : State) (w u : Nat) : State :=
  let s1 : State := { s with resets := s.resets.filter (fun r => !(r.width == w && r.unit == u)) }
  match s1.pwr.wantRemoval with
  | some m => if s1.resets.isEmpty then s1.startRemoval m else s1
  | none => s1

/-! The end of a level reset. -/

/-- A level reset's sounding is over (R388): its units' results are kept, its banks copied, and its remap round asked for. -/
def State.endLevelReset (s : State) (l : Nat) (failed : List UnitId) : State :=
  ((s.soundUnits (resetSounds l) failed s.soundTest).takeBanks l).requestRound (.remap [l]) none 0

/-- The remap round of a level reset has fired (R388): the level's good faces rejoin, and it accepts work. -/
def State.levelBack (s : State) (l : Nat) : State :=
  let s1 := s.setLevel l { s.level l with inReset := false }
  let good := (List.range 16).flatMap (fun d => (s1.goodPositions l d).map (physFace l d))
  ((s1.rejoinAll good).wantSurvey).endReset 2 l

/-! Face reset (R384, R389). -/

/-- The face's rejoin round withdrawn. -/
def State.dropRejoin (s : State) (p : Nat) : State :=
  s.dropRounds (fun r => match r.flip with
    | .rejoin q _ => q == p
    | .remap _ => false
    | .takeover .. => false
    | .swap => false
    | .checkpoint _ => false
    | .migration .. => false
    | .licence => false) 6

/-- A face reset begins: a bound face is first failed for its slot; its epochs and FACE_RESETS move, its registers and stores
return to zero. -/
def State.beginFaceReset (s : State) (p : Nat) : State :=
  let f := s.face p
  let a := drfReg (levelOf p) (driftOf p) (0x80 + 4 * posOf p)
  let s1 := ((s.dropRejoin p).failTakeover p).bumpEpoch p
  let s2 := if f.failed then s1 else s1.loseFace p
  let s3 := match s2.slotOf p with
    | some k => if f.failed then s2 else s2.replaceSlot p k
    | none => s2
  let s4 := (s3.bumpField a 16 8 1).keepRegs (fun a => match regBlock a with
    | .face q _ => q != p
    | .cmd _ => true
    | .level _ _ => true
    | .drift _ _ _ => true
    | .unmapped => true)
  let z := { Face.zero with failed := f.failed, failedAt := f.failedAt, cause := f.cause, autoDone := true, inReset := true }
  (((s4.clearMem (storeBase p) 0x1000000).setFace p z).fillReserve (levelOf p) (driftOf p)).wantSurvey

/-- A face reset's sounding ends (R391, R392): passed, the face joins as the reserve where its drift has none; failed, it stays
disabled. -/
def State.endFaceReset (s : State) (p : Nat) (passed : Bool) (test : Nat) : State :=
  let u : UnitId := { kind := 1, index := p }
  let l := levelOf p
  let d := driftOf p
  let f := s.face p
  let a := drfReg l d (0x80 + 4 * posOf p)
  let s1 := (s.endReset 3 p).setField a 24 2 (if passed then 1 else 2)
  if passed then
    let s2 := if f.failed || s.unitLogged u == 1 then s1.logUnit u 3 1 test else s1
    let s3 := s2.setField (drfReg l d 0) 8 5 (s2.field (drfReg l d 0) 8 5 + 1)
    (s3.setFace p { f with inReset := false, failed := false, passed := true }).fillReserve l d
  else
    let s2 := s1.logUnit u 2 1 test
    let s3 : State := { s2 with boot := { s2.boot with disabled := s2.boot.disabled ++ [u], badNow := s2.boot.badNow ++ [u] } }
    s3.setFace p { f with inReset := false }

/-! Park and standby (R394 to R396). -/

/-- A face as its level begins to park: whether it was current is kept for the return; one in reset, whose reset the park gives up, is a
failed face again (R392, R395). -/
def Face.toPark (f : Face) (current : Bool) (now : Nat) : Face :=
  { f with wasCurrent := current, failed := f.failed || f.inReset, failedAt := if f.inReset then now else f.failedAt,
           autoDone := f.autoDone && !f.inReset, inReset := false }

/-- A level begins to park: its faces become stale, and a face reset on it is given up, as a level reset would have it (R385, R394). -/
def State.beginPark (s : State) (l : Nat) (byStandby : Bool) : State :=
  let s1 : State := { s with
    faces := s.faces.map (fun e =>
      if levelOf e.1 = l then (e.1, e.2.toPark (!s.stale e.1 && (s.activeFace e.1 || s.isReserve e.1)) s.now) else e)
    resets := s.resets.filter (fun r => !r.within 2 l) }
  let s2 := (s1.setLevel l { s1.level l with parked := 1, byStandby := byStandby }).bumpLevel l
  s2.bumpField (lvlReg l 0xA00) 16 8 1

/-- A level has parked: what VCORE fed is gone, the face epochs are 0. -/
def State.endPark (s : State) (l : Nat) : State :=
  let s1 : State := { s with faces := s.faces.map (fun e =>
    if levelOf e.1 = l then
      (e.1, { Face.zero with failed := e.2.failed, failedAt := e.2.failedAt, cause := e.2.cause, autoDone := e.2.autoDone,
                             passed := e.2.passed, asReserve := e.2.asReserve, wasCurrent := e.2.wasCurrent })
    else e) }
  (s1.setLevel l { s1.level l with parked := 2 }).zeroLevel l

/-- A parked level begins to return. -/
def State.beginUnpark (s : State) (l : Nat) : State := s.setLevel l { s.level l with parked := 3, unparkAt := s.now }

/-- An unparked level accepts work: every face that was current rejoins. -/
def State.endUnpark (s : State) (l : Nat) : State :=
  let back := (levelFaces l).filter (fun p => (s.face p).wasCurrent)
  let s1 := s.setLevel l { s.level l with parked := 0, byStandby := false }
  (s1.rejoinAll back).wantSurvey

/-- Standby is entered (R396, R399): CUR_BANK, SHADOW_STATE and the fire time are recorded, every level that serves parks. -/
def State.beginStandby (s : State) : State :=
  let l := s.servingLevels.headD 0
  let s1 : State := { s with boot := { s.boot with
    bankKept := s.reg (lvlReg l 0x300)
    fireKept := s.regNat (lvlReg l 0x304) + s.regNat (lvlReg l 0x308) * 2 ^ 32 } }
  (s1.each s.servingLevels (fun s l => s.beginPark l true)).setStandby 1

/-- CUR_BANK, SHADOW_STATE and the fire time put back on every level as recorded (R399). -/
def State.restoreBanks (s : State) (shadow : Nat) : State :=
  let s1 := s.each (List.range 4) (fun s l => (s.setField (lvlReg l 0x300) 0 1 (bits s.boot.bankKept.toNat 0 1)).setField
    (lvlReg l 0x300) 1 3 shadow)
  s1.setFireTime s.boot.fireKept

/-- Standby is left: every parked level begins to return. -/
def State.endStandby (s : State) : State :=
  (s.each ((List.range 4).filter (fun l => (s.level l).parked == 2)) State.beginUnpark).setStandby 3

/-! Module resets (R367, R379, R398). -/

/-- What the root of trust keeps of CMD_BOOT_STAT and PWR_STAT for the time no Headframe runs (R439). -/
def State.recordStat (s : State) : State :=
  if s.boot.hfRunning then
    { s with rot := { s.rot with bootSeen := s.reg (cmdReg 0x900), pwrSeen := s.reg (cmdReg 0xA00) } }
  else s

/-- A cold reset begins: everything returns to its reset value but what R398 keeps: flash, fuses and the root of trust's store,
the alert queue, and the pins and supplies. With power good the start begins in PHASE 1 (R367). MOD_REMOVE_OK once asserted stays, and with
it the removal: only a MOD_EN cycle restores service (R405). The commands that wait, and the model's own counters, are no state of the
part. -/
def State.beginCold (s : State) (cause : Nat) : State :=
  let z := State.reset
  let gone := s.pwr.removeOk
  let t : State := { z with
    pending := s.pending, draws := s.draws, outbox := s.outbox, flash := s.flash
    rot := { s.recordStat.rot with armUntil := none, lastKick := 0, hfRelease := 0, planId := 0 }
    pwr := { s.pwr with removal := if gone then s.pwr.removal else none, wantRemoval := none, standby := 0,
                        lastStep := z.pwr.lastStep, hot := z.pwr.hot }
    resets := [{ width := 0, unit := 0, since := 0, auto := false, begun := true, cause := cause }] }
  let t1 := if s.pwr.pwrgd then t.setPhase 1 else t
  if gone then t1.setPwrState 5 else t1

/-- The levels that take the fast path (R379): they hold a descriptor that is not FREE, or faces of the placement of such a
session, and the directory names the running Plan's slot with the same D. -/
def State.fastLevels (s : State) : List Nat :=
  match s.boot.plan with
  | none => []
  | some pl =>
    let slot := bits s.directory 1 1
    if slot = pl.slot ∧ contDigest (s.flashContainer (planBase slot) 0x7000000) = pl.d then
      (List.range 4).filter (fun l => s.sessions.any (fun e => e.1 / 262144 == l || s.placementOn e.2.placement l))
    else []

/-- Every round ends with a die reset of the whole module (R329, R331, R398): a takeover leaves its slot absent, a migration waits
for its session's next frame start. -/
def State.abortRounds (s : State) : State :=
  let s1 := s.each s.rounds (fun s r => match r.flip with
    | .takeover l d slot failed _ => (s.dropRound r 6).slotAbsent l d slot failed
    | .remap _ => s
    | .rejoin .. => s
    | .swap => s
    | .checkpoint _ => s
    | .migration .. => s
    | .licence => s)
  s1.each s1.rounds (fun s r => match r.flip with
    | .migration .. => (s.dropRound r 6).addRound r.flip none 0 (s.flipMembers r.flip) false false
    | .takeover .. => s.dropRound r 6
    | .remap _ => s.dropRound r 6
    | .rejoin .. => s.dropRound r 6
    | .swap => s.dropRound r 6
    | .checkpoint _ => s.dropRound r 6
    | .licence => s.dropRound r 6)

/-- A face as a warm reset leaves it: its epoch stays; a face in reset, whose reset is given up, is a failed face again. -/
def Face.warm (f : Face) (now : Nat) : Face :=
  let bad := f.failed || f.inReset
  { Face.zero with epoch := f.epoch, failed := bad, failedAt := if f.inReset then now else f.failedAt, cause := f.cause,
                   autoDone := f.autoDone && !f.inReset, passed := f.passed, asReserve := f.asReserve,
                   wasCurrent := f.wasCurrent }

/-- Staging given up with its handles (R399, R462): a package being installed is gone; with the shadow still being written, one
being removed stays. -/
def State.dropStaging (s : State) : State :=
  let ready := s.shadowState == 2 || s.shadowState == 3
  { s with
    handles := []
    shadow := if ready then s.shadow else none
    models := if ready then s.models.filter (fun m => m.2.state != 1)
      else (s.models.filter (fun m => m.2.state != 1)).map (fun m => if m.2.state = 4 then (m.1, { m.2 with state := 3 }) else m) }

/-- The shadow's state after a warm reset: ready if it was ready or armed, else idle (R399). -/
def State.warmShadow (s : State) : Nat := if s.shadowState = 2 ∨ s.shadowState = 3 then 2 else 0

/-- The crosscut ports that are not in service train, where the feature is enabled (R371, R441). -/
def State.trainXct (s : State) : State :=
  if bitAt s.boot.enabled 6 then
    s.each ((List.range 4).filter (fun p => s.field (cmdReg (0xC00 + 16 * p)) 0 2 != 2 && !s.links.xctTried.contains p)) (fun s p =>
      s.setField (cmdReg (0xC00 + 16 * p)) 0 2 1)
  else s

/-- A warm module reset begins (R379, R380, R398, R399): the UCIe links train again, and so may the crosscut ports that are not in service.
fast: the levels that took the fast path when it was requested. -/
def State.beginWarm (s : State) (cause : Nat) (fast : List Nat) : State :=
  let l := s.servingLevels.headD 0
  let kept := s.reg (lvlReg l 0x300)
  let fire := s.regNat (lvlReg l 0x304) + s.regNat (lvlReg l 0x308) * 2 ^ 32
  let shadow := s.warmShadow
  let s1 := s.recordStat.abortRounds.dropStaging
  let s2 := s1.each (List.range 4) (fun s l =>
    (s.setLevel l { s.level l with inReset := false, parked := if (s.level l).byStandby then 0 else if (s.level l).parked = 3 then 0 else (s.level l).parked,
                                   byStandby := false }).zeroLevel l)
  let s3 : State := { s2 with
    boot := { s2.boot with warmCause := some cause, warmFast := fast, accepting := false, hfRunning := false, origin := s.now,
                           disabled := s2.boot.disabled.filter (fun u => !(u.kind == 7 || u.kind == 9))
                           bankKept := BitVec.ofNat 32 (kept.toNat % 2 + shadow * 2), fireKept := fire }
    links := { s2.links with ucie := State.reset.links.ucie, xctTried := [] }
    pwr := { s2.pwr with standby := 0 }
    faces := s2.faces.map (fun e => (e.1, e.2.warm s.now))
    jobs := s2.jobs.map (fun j => { j with stepping := false })
    musters := [], joinSeen := [], frags := [], resets := s2.resets.filter (fun r => r.width == 1) }
  (((s3.trainXct).setPhase 1).setField (cmdReg 0x900) 7 1 1).setPwrState (if 4 ≤ s.pwrState then s.pwrState else 0)

/-! Requests. -/

/-- Has a round been told to fire: decided, or complete (R325, R326)? -/
def Round.fireSent (r : Round) : Bool := r.armed && (r.decided || r.doneAt.isSome)

/-- Is face p the one a round takes over by, or rejoins? -/
def Flip.onFace (p : Nat) : Flip → Bool
  | .takeover _ _ _ _ q => q == p
  | .rejoin q _ => q == p
  | .remap _ => false
  | .swap => false
  | .checkpoint _ => false
  | .migration .. => false
  | .licence => false

/-- Does a reset wait for a round that has been told to fire (R331)? A level reset waits for rounds with the level as a member, a
module reset for every round, a face reset for a takeover by the face or its rejoin. -/
def State.deferred (s : State) (w u : Nat) : Bool :=
  s.rounds.any (fun r => r.fireSent && (decide (w ≤ 1) || (w == 2 && r.members.any (fun m => m.die == u)) ||
    (w == 3 && r.flip.onFace u)))

/-- A reset begins. -/
def State.beginReset (s : State) (r : ActiveReset) : State :=
  let s1 : State := { s with resets := s.resets.map (fun q => if q = r then { q with begun := true } else q) }
  if r.width = 0 then s1.beginCold r.cause
  else if r.width = 1 then s1.beginWarm r.cause r.fast
  else if r.width = 2 then s1.beginLevelReset r.unit
  else s1.beginFaceReset r.unit

/-- Every accepted reset that waits for nothing begins. -/
def State.beginDue (s : State) : State :=
  s.each s.resets (fun s r =>
    if s.resets.contains r && !r.begun && !s.deferred r.width r.unit then s.beginReset r else s)

/-- A reset accepted: narrower ones in its scope are abandoned, and it begins at once unless R331 defers it. Which levels a warm reset leaves
on the fast path is judged as it is requested (R379). -/
def State.acceptReset (s : State) (w u cause : Nat) (auto : Bool) : State :=
  let r : ActiveReset := { width := w, unit := u, since := s.now, auto := auto, begun := false, cause := cause,
                           fast := if w = 1 then s.fastLevels else [] }
  { s with resets := s.resets.filter (fun (q : ActiveReset) => !q.within w u) ++ [r] }.beginDue

/-- A class 5 event's warm module reset (R341): CAUSE 6. Where one is in progress already, nothing more follows. -/
def State.moduleFault (s : State) (cause : Nat) : State :=
  if s.resetBusy 1 0 then s else s.acceptReset 1 0 cause false

end Sys2Proof.Machine
end

