-- ==== Sys2Proof/Machine/BringUp.lean ====
section
/-! DEFINITION. The rows of bring-up (R350, R360 to R375, R377): from power good to the survey's outcome. -/

namespace Sys2Proof.Machine

open Sys2Proof

/-! Headframe (R350). -/

/-- The Headframe slot to start, and whether it is the one HF_ACTIVE does not name. -/
def State.headframeSlot (s : State) : Option (Nat × Bool) :=
  let a := bits s.directory 0 1
  let good := fun n => s.checkHeadframe (s.flashContainer (hfBase n) 0x400000) == 0
  if good a then some (a, false) else if good (1 - a) then some (1 - a, true) else none

/-- Headframe started, CMD_BOOT_STAT at PHASE 2; with no sound container PHASE 12 (R350, R367). -/
def State.startHeadframe (s : State) : State :=
  match s.headframeSlot with
  | none =>
    let s1 := s.setPhase 12
    { s1 with rot := { s1.rot with bootSeen := s1.reg (cmdReg 0x900) } }
  | some q =>
    let b := s.flashContainer (hfBase q.1) 0x400000
    let s1 : State := { s with
      boot := { s.boot with hfRunning := true, hfD := contDigest b }
      rot := { s.rot with hfRelease := contId b, lastKick := s.now } }
    ((s1.setField (cmdReg 0x900) 6 1 q.1).setField (cmdReg 0x900) 24 1 (b2n q.2)).setPhase 2

/-- CMD_RESET_STAT: LAST and CAUSE (R411). -/
def State.noteReset (s : State) (last cause : Nat) : State :=
  (s.setField (cmdReg 0x940) 0 2 last).setField (cmdReg 0x940) 4 4 cause

/-- CAUSE of the module reset in progress. -/
def State.resetCause (s : State) (width : Nat) : Nat :=
  ((s.resets.find? (fun r => r.width == width)).map (fun r => r.cause)).getD 0

/-- The records of an over-temperature power-down, held on VAUX, copied into the event log (R416). -/
def State.copyHeld (s : State) : State :=
  let s1 := s.each s.rot.tripHeld (fun s e => (s.countEvent e.code).writeLog e)
  { s1 with rot := { s1.rot with tripHeld := [] } }

/-- COLD_START (R350, R367, R411, R445): with power good the root of trust leaves reset, chooses the directory and verifies Headframe, which
starts, fills CMD_RESET_STAT and draws the epoch: PHASE 2. -/
def execColdStart (s : State) : Host.Outcome State Fault Refusal :=
  let r := s.draw
  let s1 : State := { r.2 with rot := { r.2.rot with epoch := Config.freeEpoch r.1, lastKick := s.now },
                               boot := { r.2.boot with origin := s.now } }
  let e := s1.rot.epoch.toNat
  let s2 := (((s1.setField (cmdReg 0xE20) 0 1 (b2n s.rot.locked)).setRegNat (cmdReg 0xE04) e).setRegNat (cmdReg 0xE08)
    (e / 2 ^ 32)).logStat
  when (s.pwr.pwrgd && decide (s.phase ≤ 1) && s.boot.warmCause.isNone && !s.boot.hfRunning) s (let s3 := (s2.noteReset 1 (s.resetCause 0)).startHeadframe
     if s3.boot.hfRunning then s3.copyHeld else s3)

/-! The Plan and the claims (R360, R365). -/

/-- The claims of the store that pass R354 and name this module. -/
def State.readClaims (s : State) : List Claim :=
  (List.range 64).filterMap (fun n =>
    let b := s.flashContainer (claimBase n) 0x4000
    let c := contClaim b n
    if s.checkClaim b == 0 && c.deviceId == s.rot.fuses.moduleId then some c else none)

/-- Is claim slot n erased: does no byte of it read other than 0xFF (R349)? -/
def State.claimBlank (s : State) (n : Nat) : Bool :=
  s.flash.all (fun e => decide (e.1 < claimBase n) || decide (claimBase n + 0x4000 ≤ e.1))

/-- The claim slots that hold something that fails R354, as one does that was being written, erased (R406). -/
def State.eraseBroken (s : State) : State :=
  let bad := (List.range 64).filter (fun n => !s.claimBlank n && s.checkClaim (s.flashContainer (claimBase n) 0x4000) != 0)
  s.each bad (fun s n => s.eraseFlash (claimBase n) 0x4000)

/-- The expired claims erased from their slots (R365). -/
def State.eraseExpired (s : State) : State :=
  let gone := s.boot.claims.filter (fun c => c.notAfter != 0 && decide (c.notAfter ≤ s.now))
  let s1 := s.each gone (fun s c => s.eraseFlash (claimBase c.slot) 0x4000)
  { s1 with boot := { s1.boot with claims := s1.boot.claims.filter (fun c => !gone.contains c) } }

/-- Time is settled and traceable: claims with a time limit apply, expired ones are erased, and a licence round is asked for at every time a
claim changes (R365). -/
def State.claimsOnTime (s : State) : State :=
  let s1 := ({ s with boot := { s.boot with claimsTimed := true } } : State).eraseExpired
  (s1.applyClaims s1.now).askLicences s1.now

/-- The claim store read and applied as far as time allows (R365, R406). -/
def State.loadClaims (s : State) : State :=
  let s1 := s.eraseBroken
  let s2 : State := { s1 with boot := { s1.boot with claims := s1.readClaims } }
  if s2.servo.settled && s2.servo.traceable then s2.claimsOnTime else s2.applyClaims s2.now

/-- CMD_PLAN_ID, CMD_PLAN_DIGEST, PLAN_SLOT and PLAN_FALLBACK (R382). -/
def State.planRegs (s : State) (id lo hi slot fallback : Nat) : State :=
  ((((s.setRegNat (cmdReg 0x908) id).setRegNat (cmdReg 0x90C) lo).setRegNat (cmdReg 0x910) hi).setField (cmdReg 0x900) 4 1 slot).setField
    (cmdReg 0x900) 5 1 fallback

/-- A Plan taken into use with the packages it carries: package i takes model slot i (R356). fallback: under the fallback of R360. -/
def State.loadPlan (s : State) (b : Bytes) (slot fallback : Nat) : State :=
  let p := contPlan b slot
  let ks := (planModels b).map contPackage
  let s1 : State := { s with boot := { s.boot with plan := some p }, rot := { s.rot with planId := p.id } }
  let s2 := s1.planRegs p.id (leAt p.d 0 4) (leAt p.d 4 4) slot fallback
  s2.each ((List.range ks.length).zip ks) (fun s q => s.stagePackage q.1 1 q.2 true)

/-- PLAN_ERR: the code of the last Plan refused under R354 (R382). -/
def State.setPlanErr (s : State) (e : Nat) : State := s.setField (cmdReg 0x900) 8 8 e

/-- PLAN_LOAD (R360): the active slot's Plan, or with FALLBACK_EN the other's, is checked and loaded; then the claims. -/
def execPlanLoad (s : State) : Host.Outcome State Fault Refusal :=
  let a := bits s.directory 1 1
  let b := s.flashContainer (planBase a) 0x7000000
  let c := s.flashContainer (planBase (1 - a)) 0x7000000
  let e := s.checkPlan b
  let s1 :=
    if e = 0 then s.loadPlan b a 0
    else
      let t := s.setPlanErr e
      if bitAt s.directory 2 then
        let g := t.checkPlan c
        if g = 0 then t.loadPlan c (1 - a) 1 else t.setPlanErr g
      else t
  when (s.boot.hfRunning && s.boot.plan.isNone && decide (2 ≤ s.phase) && decide (s.phase ≤ 5)) s
    (if s.phase = 2 then s1.loadClaims.setPhase 3 else s1.loadClaims)

/-! Memories, links, sounding. -/

/-- Does level l wait for its memories: out of service, in bring-up or on the full path of a warm reset, and not kept parked (R394)? -/
def State.levelWaits (s : State) (l : Nat) : Bool :=
  decide (l < 4) && !(s.level l).inService && (s.level l).parked == 0 && !s.boot.memDone.contains l &&
    s.resets.any (fun r => decide (r.width ≤ 1)) && s.boot.warmCause.isNone

/-- A unit disabled for this start (R369). -/
def State.disableUnit (s : State) (u : UnitId) : State := { s with boot := { s.boot with disabled := (s.boot.disabled ++ [u]).eraseDups } }

/-- Training failures: disabled for this start, a SUSPECT entry each but where a BAD one stands (R369, R370). -/
def State.trainFailed (s : State) (us : List UnitId) : State :=
  s.each us (fun s u => if s.unitLogged u = 2 then s.disableUnit u else (s.disableUnit u).logUnit u 1 2 s.soundTest)

/-- Units that have trained: enabled again, a PASSED entry for each that was SUSPECT (R368, R370; CAUSE: log entry 104). One fused bad or logged
BAD stays disabled (R369). -/
def State.trainPassed (s : State) (us : List UnitId) : State :=
  s.each us (fun s u =>
    if s.fusedBad u || s.unitLogged u == 2 then s.disableUnit u
    else
      let s1 : State := { s with boot := { s.boot with disabled := s.boot.disabled.filter (fun v => v != u) } }
      if s1.unitLogged u = 1 then s1.logUnit u 3 2 s1.soundTest else s1)

/-- A device that fails beside fast-path levels while it keeps checkpoint copies or those of staged models (R379): declared faulted under
R340, its checkpoint copies replaced under R262. -/
def State.keptFailed (s : State) (u : UnitId) : State :=
  let s1 := (s.disableUnit u).declareDevice u.index 1
  s1.each (s1.copiesOn u.index) (fun s q => s.replaceCopy q.1 q.2)

/-- The width a crosscut port trains to from its good lanes (R371, R434). -/
def laneWidth (good : Nat) : Nat := if 4 ≤ good then 4 else if 2 ≤ good then 2 else if 1 ≤ good then 1 else 0

/-- WIDTH code of a lane count (R441). -/
def widthCode (w : Nat) : Nat := if w = 4 then 3 else w

/-- The narrowest crosscut width allowed (R373). -/
def State.minWidth (s : State) : Nat := (s.boot.plan.map (fun p => p.survey.xctMinWidth)).getD 1

/-- Has a UCIe module settled: in service, or disabled (R371)? -/
def State.ucieSettled (s : State) (m : Nat) : Bool :=
  let u : UnitId := { kind := 7, index := m }
  decide (0 < s.links.ucie.getD m 0) || s.boot.disabled.contains u || s.fusedBad u || s.unitLogged u == 2

/-- Have the level - level links, the crosscut ports and the stream ports settled (R367, R371)? -/
def State.linksSettled (s : State) : Bool :=
  (List.range 24).all (fun m => decide (m < 8) || s.ucieSettled m) &&
    (List.range 4).all (fun p => s.field (cmdReg (0xC00 + 16 * p)) 0 2 == 2 || s.links.xctTried.contains p || !bitAt s.boot.enabled 6) &&
    (List.range 2).all (fun p => s.links.streamUp.getD p false || decide (s.links.linksStart + 500000000 ≤ s.now))

/-- The PHASE that follows where the step in progress is done (R366, R367): the command-die links settled, the memories of every level, the
links; and with no level to sound the compute and staging steps. -/
def State.nextPhase (s : State) : Nat :=
  if s.phase = 3 ∧ (List.range 8).all s.ucieSettled then 4
  else if (s.phase = 4 ∨ s.phase = 5) ∧ (List.range 4).all (fun l => !s.levelWaits l) then 6
  else if s.phase = 6 ∧ s.linksSettled then 7
  else if s.phase = 7 ∧ s.boot.memDone = [] then 8
  else s.phase

/-- A PHASE entered: the links step starts the training of its ports. -/
def State.enterPhase (s : State) (v : Nat) : State :=
  if v = 6 ∧ s.phase ≠ 6 then (({ s with links := { s.links with linksStart := s.now } } : State).setPhase v).trainXct else s.setPhase v

/-- The start goes on through every step that is done (R366). -/
def State.advance (s : State) : State := s.each (List.range 5) (fun s _ => s.enterPhase s.nextPhase)

/-- Does a device keep anything through a warm reset beside fast-path levels: checkpoint copies, or copies of staged models (R379)? -/
def State.keepsCopies (s : State) (d : Nat) : Bool :=
  decide (9 ≤ s.phase) && (!(s.copiesOn d).isEmpty || s.models.any (fun m => m.2.copyDevs.contains d))

/-- The memories of a level initialised (R367 to R370, R379): its vaults sounded, its LPDDR6 devices trained, written and read back. -/
def State.memoryReady (s : State) (l : Nat) (r : MemoryInit) : State :=
  let vault := fun (u : UnitId) => u.kind == 5 && u.index / 64 == l
  let device := fun (u : UnitId) => u.kind == 8 && u.index / 4 == l
  let untrained := (r.failed.filter device).eraseDups
  let faulty := (untrained ++ r.readBack.filter device).eraseDups
  let kept := faulty.filter (fun u => s.keepsCopies u.index)
  let s1 := s.soundUnits vault r.failed s.soundTest
  let s2 := s1.soundUnits (fun u => device u && !untrained.contains u && !kept.contains u) r.readBack s1.soundTest
  let s3 := (s2.trainFailed (untrained.filter (fun u => !kept.contains u))).each kept State.keptFailed
  { s3 with boot := { s3.boot with
      memDone := s3.boot.memDone ++ [l]
      unlocked := if r.locked then s3.boot.unlocked.filter (fun k => k != l) else (s3.boot.unlocked ++ [l]).eraseDups } }

/-- MEMORY_INIT_DONE (R366 to R370, R379): a level's memories are done with, in the memories step or beside fast-path levels. -/
def execMemoryInitDone (level : Nat) (result : MemoryInit) (s : State) : Host.Outcome State Fault Refusal :=
  let s1 := s.memoryReady level result
  when (s.boot.hfRunning && s.levelWaits level && (s.phase == 4 || s.phase == 5 || decide (9 ≤ s.phase))) s
    (if 9 ≤ s.phase then s1 else (s1.setPhase 5).advance)

/-- The width in a UCIe module trains to (R371). -/
def ucieWidth (lanes : Nat) : Nat := if 64 ≤ lanes then 64 else if 32 ≤ lanes then 32 else 0

/-- A crosscut port trained (R371): in service at its width, or disabled where that is too narrow or CROSSCUT is not enabled. A lane logged
BAD stays disabled (R369). -/
def State.xctTrained (s : State) (p : Nat) (lanes : BitVec 4) : State :=
  let unit := fun (n : Nat) => ({ kind := 9, index := 4 * p + n } : UnitId)
  let pass := (List.range 4).filter (fun n => lanes.getLsbD n)
  let s1 := (s.trainFailed (((List.range 4).filter (fun n => !lanes.getLsbD n)).map unit)).trainPassed (pass.map unit)
  let good := pass.filter (fun n => !s1.boot.disabled.contains (unit n))
  let w := laneWidth good.length
  let up := decide (s.minWidth ≤ w) && decide (0 < w) && bitAt s.boot.enabled 6
  let s2 := s1.setRegNat (cmdReg (0xC00 + 16 * p)) ((if up then 2 + widthCode w * 4 else 0) + maskOf 4 good.contains * 16)
  { s2 with links := { s2.links with xct := s2.links.xct.set p {}, xctTried := s2.links.xctTried ++ [p] } }.wantSurvey

/-- A UCIe module trained (R368, R371). -/
def State.ucieTrained (s : State) (m width : Nat) : State :=
  let u : UnitId := { kind := 7, index := m }
  let s1 := if ucieWidth width = 0 then s.trainFailed [u] else s.trainPassed [u]
  let w := if s1.boot.disabled.contains u then 0 else ucieWidth width
  let s2 : State := { s1 with links := { s1.links with ucie := s1.links.ucie.set m w } }
  s2.setRegNat (cmdReg 0x92C) (maskOf 24 (fun k => decide (0 < s2.links.ucie.getD k 0)))

/-- Does a UCIe module train now: the command-die links in their step of a start, the others in the links step, all in a warm module reset
(R366, R379)? -/
def State.ucieTrains (s : State) (m : Nat) : Bool :=
  s.boot.warmCause.isSome || (if m < 8 then s.phase == 2 || s.phase == 3 else s.phase == 6)

/-- Does a crosscut port train now, not in service and not yet trained in this start (R371)? -/
def State.xctTrains (s : State) (p : Nat) : Bool :=
  (s.boot.warmCause.isSome || s.phase == 6) && s.field (cmdReg (0xC00 + 16 * p)) 0 2 != 2 && !s.links.xctTried.contains p

/-- LINK_TRAINING_DONE (R366, R367, R371): a UCIe module or a crosscut port that is not in service has trained, in its step of a start. -/
def execLinkTrainingDone (result : LinkResult) (s : State) : Host.Outcome State Fault Refusal :=
  match result with
  | .ucie m w =>
    let s0 := if s.phase = 2 ∧ s.boot.warmCause.isNone then s.setPhase 3 else s
    when (decide (m < 24) && s.ucieTrains m && s.links.ucie.getD m 0 == 0 && (s.boot.hfRunning || s.boot.warmCause.isSome)) s
      (s0.ucieTrained m w).advance
  | .crosscut p lanes =>
    when (decide (p < 4) && s.xctTrains p && (s.boot.hfRunning || s.boot.warmCause.isSome)) s (s.xctTrained p lanes).advance

/-- A face as the bring-up remap round leaves a good one: current, both epochs 1 (R389). -/
def State.freshFace (s : State) (p : Nat) : State :=
  (s.setField (drfReg (levelOf p) (driftOf p) (0x80 + 4 * posOf p)) 0 16 1).setFace p
    { Face.zero with epoch := 1, asReserve := s.isReserve p, lastWork := s.now }

/-- The levels a bring-up remap round binds enter service as it fires (R44, R368). -/
def State.enterService (s : State) (ls : List Nat) : State :=
  s.each (ls.filter (fun l => !(s.level l).inReset)) (fun s l => s.setLevel l { s.level l with inService := s.levelFit l })

/-- What follows a remap round's fire: of levels that start every good face is current (R389), and a level in reset is back (R388). -/
def State.afterRemap (s : State) (ls : List Nat) : State :=
  let new := ls.filter (fun l => !(s.level l).inReset)
  let good := new.flatMap (fun l => (List.range 16).flatMap (fun d => (s.goodPositions l d).map (physFace l d)))
  ((s.each good State.freshFace).wantSurvey).each (ls.filter (fun l => (s.level l).inReset)) State.levelBack

/-- The units of the levels whose memories are done, all but the vaults, sounded: the disabled set is formed (R368, R369). -/
def State.soundLevels (s : State) (failed : List UnitId) : State :=
  let mine := fun (u : UnitId) => u.kind != 5 && (match unitLevel u with
    | some l => s.boot.memDone.contains l
    | none => false)
  let s1 := s.soundUnits mine failed s.soundTest
  { s1 with boot := { s1.boot with sounded := true } }

/-- SOUNDING_DONE (R44, R366 to R369): the disabled set is formed and the bring-up remap round asked for, over the levels that may serve. -/
def execSoundingDone (failed : List UnitId) (s : State) : Host.Outcome State Fault Refusal :=
  let ls := s.boot.memDone
  let s2 := s.soundLevels failed
  let fit := ls.filter s2.levelFit
  when (s.boot.hfRunning && !s.boot.sounded && !ls.isEmpty && !(List.range 4).any s.levelWaits && (s.phase == 7 || decide (9 ≤ s.phase))) s
    (if fit = [] then s2 else s2.requestRound (.remap fit) none 0)

/-- Both banks of a level built from the staged models (R367). -/
def State.buildBanks (s : State) (l : Nat) : State :=
  let ms := (s.models.filter (fun m => m.2.state != 0)).map (fun m => m.2)
  s.each [0, 1] (fun s b => s.each ms (fun s m => s.putTables l b m))

/-- A full-path level's banks taken from a level that kept them, each from the same bank (R399). -/
def State.mirrorBanks (s : State) (l k : Nat) : State :=
  let s1 := (s.copyBank k 0 l 0).copyBank k 1 l 1
  let s2 := s1.setField (lvlReg l 0x300) 0 24 (s.field (lvlReg k 0x300) 0 24)
  (s2.setReg (lvlReg l 0x304) (s.reg (lvlReg k 0x304))).setReg (lvlReg l 0x308) (s.reg (lvlReg k 0x308))

/-- The weights of every staged model placed on levels, and loaded into their faces (R367, R398). -/
def State.placeWeights (s : State) (ls : List Nat) : State :=
  let s1 := s.each (s.models.filter (fun m => m.2.state != 0)) (fun s m => s.placeHomes m.2.pkg ls)
  s1.each (ls.flatMap levelFaces) State.loadChunks

/-- MODEL_STAGING_DONE (R367, R399): the Plan's models are staged and the CDF pool banks built; on the full path beside fast-path
levels the banks come from one of these, and the reset is over. -/
def execModelStagingDone (s : State) : Host.Outcome State Fault Refusal :=
  let ls := s.boot.memDone
  let new := (s.models.filter (fun m => m.2.state == 1 && m.2.planCarried)).map (fun m => m.1)
  let kept := (s.servingLevels.filter (fun l => !ls.contains l)).head?
  let s1 := match kept with
    | some k => s.each ls (fun s l => s.mirrorBanks l k)
    | none =>
      let t := s.each new (fun s m => (s.setModel m { s.model m with state := 3 }).placeModel m)
      t.each ls State.buildBanks
  let s2 := s1.placeWeights ls
  let s3 : State := { s2 with boot := { s2.boot with memDone := [], sounded := false } }
  when (s.boot.hfRunning && s.boot.sounded && ls.all (fun l => (s.level l).inService || !s.levelFit l) &&
    (s.phase == 7 || decide (9 ≤ s.phase))) s
    (if s.phase = 7 then s3.advance else (s3.wantSurvey).endReset 1 0)

/-! The survey. -/

/-- The security counters raised at an outcome (R361). -/
def State.commitSvn (s : State) : State :=
  let h := s.flashContainer (hfBase (s.field (cmdReg 0x900) 6 1)) 0x400000
  let plan := match s.boot.plan with
    | some p => if p.svnCommit then max s.rot.svnPlan p.svn else s.rot.svnPlan
    | none => s.rot.svnPlan
  let hf := if contDigest h == s.boot.hfD && contCommit h then max s.rot.svnHf (contSvn h) else s.rot.svnHf
  { s with rot := { s.rot with svnPlan := plan, svnHf := hf } }

/-- A start reaches its outcome: survey, CMD_BOOT_TIME, security counters. -/
def State.finishStart (s : State) : State :=
  (s.runSurvey.setRegNat (cmdReg 0x904) ((s.now - s.boot.origin) / 1000)).commitSvn

/-- SURVEY (R374): the survey sets the outcome of a start. -/
def execSurvey (s : State) : Host.Outcome State Fault Refusal :=
  when (s.boot.hfRunning && s.phase == 8) s ((s.finishStart.endReset 0 0).endReset 1 0)

/-- SURVEY_RERUN (R375): the survey runs again after a change. -/
def execSurveyRerun (s : State) : Host.Outcome State Fault Refusal :=
  when (s.boot.hfRunning && s.boot.surveyDue && decide (9 ≤ s.phase) && decide (s.phase ≤ 11)) s s.runSurvey

/-! Time and stream ports. -/

/-- Time becomes settled, traceable or unsettled (R375, R377); claims with a time limit apply once it is settled and traceable
(R365). -/
def State.timeVerdict (s : State) (settled traceable : Bool) : State :=
  let s1 : State := { s with servo := { s.servo with settled := settled, traceable := settled && traceable } }.wantSurvey
  if settled && traceable && s.boot.hfRunning && s.boot.warmCause.isNone then s1.claimsOnTime else s1

/-- STREAM_PORT_LINK_CHANGE (R371, R375): a stream port's link comes up or goes down. -/
def execStreamPortLinkChange (port : Nat) (up : Bool) (s : State) : Host.Outcome State Fault Refusal :=
  when (decide (port < 2)) s ({ s with links := { s.links with streamUp := s.links.streamUp.set port up } }.wantSurvey).advance

/-- STREAM_PORT_LINK_TIMEOUT (R371): a stream port not up 500 ms into the links step is down; its training goes on. -/
def execStreamPortLinkTimeout (port : Nat) (s : State) : Host.Outcome State Fault Refusal :=
  when (decide (port < 2) && decide (6 ≤ s.phase) && decide (s.links.linksStart + 500000000 ≤ s.now) &&
    !s.links.streamUp.getD port false) s
    ({ s with links := { s.links with streamUp := s.links.streamUp.set port false } } : State).advance

end Sys2Proof.Machine
end

