-- ==== Sys2Proof/Machine/CoderRows.lean ====
section
/-! DEFINITION. The rows of the entropy coders (R216 to R223): submission, dispatch, the cache fill, the element records that arrive
(R219, R74, R475), completion. -/

namespace Sys2Proof.Machine

open Sys2Proof

/-! Element records (R219). -/

/-- A coded tensor of a job with what its records are formed from: the tensor itself, μ and σ, each with its scale policy. -/
structure RecordSource where
  tensor : JobTensor
  value  : Tensor × ScaleRec
  mu     : Tensor × ScaleRec
  sigma  : Tensor × ScaleRec
  deriving DecidableEq, Repr

/-- The sources of a job's records, as the work in progress holds them. -/
def State.recordSources (s : State) (e : Env) (d : CoderDesc) : List RecordSource :=
  let k := s.pkg d.model
  let g := if s.isGrey e then some (s.grey e).1 else none
  let rd := fun n => ((s.readTensor e g n).1, policyOf k n)
  (s.jobTensors d).map (fun t =>
    { tensor := t, value := ((s.readPlain e g t.entry.tensor).1, policyOf k t.entry.tensor), mu := rd t.entry.mu, sigma := rd t.entry.sigma })

/-- Record k of a job: its source and its element there. A factorised tensor has none in decode (R219). -/
def recordAt (decode : Bool) : List RecordSource → Nat → Option (RecordSource × Nat)
  | [], _ => none
  | r :: rest, k =>
    let n := if decode && r.tensor.entry.prior == 1 then 0 else r.tensor.count
    if k < n then some (r, k) else recordAt decode rest (k - n)

/-- The index in its whole tensor of element i a job's slice owns (R66). -/
def JobTensor.place (t : JobTensor) (y i : Nat) : Nat :=
  (i / (t.cols * t.rows) * y + t.row0 + i / t.cols % t.rows) * t.cols + i % t.cols

/-- An element as an FP16 value: one of an FP16 tensor unchanged, any other rounded once (R74), with its flags; in compatibility mode
a subnormal FP32 element is read as a zero and a signalling NaN sets NV (R112, R113). -/
def fp16At (compat : Bool) (q : Tensor × ScaleRec) (i : Nat) : Nat × Nat :=
  if q.1.fmt = 0 then (q.1.data.getD i 0, 0)
  else
    let v := (operandOf compat q.2 q.1).get i
    let r := wideCode compat 0 (convRes compat v)
    (r.1, orFlags [r.2, (convRes compat v).flags, readFlag v])

/-- A record and the flags of forming it (R74, R219, R475). -/
def formRecord (compat decode : Bool) (r : RecordSource) (i : Nat) : Word × Nat :=
  let n := r.tensor.place r.value.1.y i
  let v := if decode then fp16At compat r.mu n
    else
      let u := (operandOf compat r.value.2 r.value.1).get n
      let q := codedInt u
      (codeOf 16 q.1, Nat.lor q.2 (readFlag u))
  let g := if r.tensor.entry.prior = 1 then (0, 0) else fp16At compat r.sigma n
  (BitVec.ofNat 32 (v.1 + g.1 * 65536), Nat.lor v.2 g.2)

/-- The work a job's records come from: the frame in progress, where it is the job's. -/
def State.recordEnv (s : State) (d : CoderDesc) : Option Env :=
  let x := s.ses d.session
  let mine := if d.decode then x.decFrame.any (fun f => f.num == d.frame) else x.frame.any (fun f => f.num == d.frame)
  if mine then s.envOf (.session d.session) else none

/-- ŷ of element n of a source whose record in encode is w, with the flags of taking μ (R74, R75). -/
def recordYhat (compat : Bool) (r : RecordSource) (n : Nat) (w : Word) : Nat × Nat :=
  let mu := if r.tensor.entry.prior = 1 then (0, 0) else fp16At compat r.mu n
  (yHat (signedOf 16 w.toNat) mu.1, mu.2)

/-- What forming records gives: the records, their flags, and in encode ŷ by tensor and index. -/
structure Formed where
  records : List Word := []
  flags   : Nat := 0
  yhat    : List (Nat × Nat × Nat) := []
  deriving DecidableEq, Repr

/-- The next n records of a job, formed by the face that submitted it. -/
def State.nextRecords (s : State) (j : CoderJob) (n : Nat) : Formed :=
  let d := parseCoder j.desc
  match s.recordEnv d with
  | none => {}
  | some e =>
    let compat := (s.pkg d.model).arith == 1
    let src := s.recordSources e d
    let qs := (List.range n).filterMap (fun i => recordAt d.decode src (j.fed + i))
    let rs := qs.map (fun q => formRecord compat d.decode q.1 q.2)
    let at' := fun (q : RecordSource × Nat) => q.1.tensor.place q.1.value.1.y q.2
    let ys := if d.decode then [] else (qs.zip rs).map (fun q => (q.1, recordYhat compat q.1.1 (at' q.1) q.2.1))
    { records := rs.map (fun r => r.1), flags := orFlags (rs.map (fun r => r.2) ++ ys.map (fun y => y.2.2)),
      yhat := ys.map (fun y => (y.1.1.tensor.entry.tensor, at' y.1, y.2.1)) }

/-- ŷ of an encode frame's elements noted: from then on layers read it (R75). -/
def State.noteYhat (s : State) (d : CoderDesc) (l : List (Nat × Nat × Nat)) : State :=
  let x := s.ses d.session
  let k := s.pkg d.model
  let put := fun (m : List (Nat × Tensor)) (q : Nat × Nat × Nat) =>
    let old := spGet { zeroTensor (k.tensors.getD q.1 {}) x.hdr with fmt := 1 } m q.1
    spSet m q.1 { old with data := old.data.set q.2.1 q.2.2 }
  if l.isEmpty then s else s.setSes d.session { x with frame := x.frame.map (fun f => { f with yhat := l.foldl put f.yhat }) }

/-- A job with the records put on its ELEM_RING. -/
def CoderJob.feed (j : CoderJob) (rs : List Word) : CoderJob := { j with records := j.records ++ rs, fed := j.fed + rs.length }

/-- Records an ELEM_RING of so many bytes has room for (R225). -/
def CoderJob.room (j : CoderJob) (cap : Nat) : Nat := cap / 4 - j.records.length

/-- The faces read more of what a context writes: ŷ records of a decode job, bytes of an encode job's SLICE_DATA (R221, R225). -/
def State.drainOut (s : State) (l c x n : Nat) : State :=
  let v := s.ctxAt l c x
  let all := if v.outRing = 2 then v.yhat.length else v.wrote
  let w := { v with drained := min all (v.drained + n) }
  (s.setCtx l c x w).streamYhat w

/-- What comes to a coder's contexts, (context, records, what the faces read): records as far as the ring has room, their writer waiting with
the rest (R225); the flags of forming them go to the face that submitted the job (R74, R101, R475). A stale face forms and reads nothing
(R390). -/
def State.arriveRecords (s : State) (l c : Nat) (arrived : List (Nat × Nat × Nat)) : State :=
  (s.each arrived (fun s a =>
    let x := s.ctxAt l c a.1
    match x.job with
    | none => s
    | some j =>
      if s.stale j.face then s else
      let k := min a.2.1 (j.room (s.lotCap l c a.1 1))
      let r := s.nextRecords j k
      let x1 := { x with job := some (j.feed r.records), pressed := decide (k < a.2.1) }
      (((s.setCtx l c a.1 x1).noteYhat (parseCoder j.desc) r.yhat).setFlags j.face r.flags
        (some (.session (parseCoder j.desc).session))).drainOut l c a.1 a.2.2)).returnLots l

/-! The rows. -/

/-- A job as it is submitted: SLICE_DATA to decode stands in its lots, as much as they hold, with its tally (R225, R332). -/
def State.newJob (s : State) (p : Nat) (descriptor : Bytes) : CoderJob :=
  let d := parseCoder descriptor
  let data := if d.decode then s.sliceData d else []
  { face := p, desc := descriptor, seq := (s.level (levelOf p)).coderSeq, data, tally := crc32c data,
    brought := min data.length (65536 * (lotRing d.data).2) }

/-- CODER_JOB_SUBMIT (R217, R218): queued on the face's level with the records the faces have formed by then; a broken descriptor
completes REFUSED at once; beyond 256 the port waits with its descriptor. -/
def execCoderJobSubmit (p : Nat) (descriptor : Bytes) (records : Nat) (s : State) : Host.Outcome State Fault Refusal :=
  let l := levelOf p
  let v := s.level l
  let d := parseCoder descriptor
  let j : CoderJob := s.newJob p descriptor
  let r := s.nextRecords j (min records (j.room (65536 * (lotRing d.elem).2)))
  let owners := d.lots.map (fun k => (k, v.coderSeq, d.session))
  when (faceWf p && s.faceRuns p) s
    (if !s.coderOk l descriptor then s.portDone p d.session d.slice 3 0
     else (((s.setLevel l { v with coderQ := v.coderQ ++ [j.feed r.records], coderSeq := v.coderSeq + 1,
                                   lotOwners := v.lotOwners ++ owners }).lotsMin l).noteYhat d r.yhat).setFlags p r.flags
       (some (.session d.session)))

/-- CODER_JOB_DISPATCH (R218): a free context takes, of the queue's 256, the job with the earliest deadline that may start (R256), and fills
its cache. -/
def execCoderJobDispatch (level : Nat) (s : State) : Host.Outcome State Fault Refusal :=
  let v := s.level level
  match coderHead ((v.coderQ.take 256).filter s.coderReady), s.freeCtx level with
  | some j, some q =>
    when (decide (level < 4) && s.levelUp level) s
      ((s.setLevel level { v with coderQ := v.coderQ.erase j }).setCtx level q.1 q.2 { job := some j, filling := true })
  | none, _ => ok s
  | some _, none => ok s

/-- The coder runs the context that can proceed and is due first (R216). -/
def State.runNext (s : State) (l c : Nat) : State :=
  match s.switchTo l c with
  | none => s
  | some i => s.runAt l c i

/-- CODER_CACHE_FILL (R216, R229, R231): the cache is filled from the job's bank and the job starts: a decode job reads the first bytes of
its slice, and the coder runs the context due first; an uncorrectable error ends the job with POOL_ERROR. -/
def execCoderCacheFill (level coder ctx : Nat) (uncorrectable : Bool) (s : State) : Host.Outcome State Fault Refusal :=
  let x := s.ctxAt level coder ctx
  match x.job with
  | none => ok s
  | some j =>
    let d := parseCoder j.desc
    let x1 := { x with filling := false, running := true, cache := s.fillCache level d }.look d.decode (s.jobTensors d)
    let x2 := if d.decode then
        match (if d.bytes < 4 then none else decStart (j.data.take d.bytes)) with
        | some r => { x1 with range := r }
        | none => x1.spoil
      else { x1 with range := encStart }
    let good := ((s.setCtx level coder ctx x2).bumpReg (lvlReg level (0x408 + 16 * coder))
      (if d.decode then min 4 (j.data.take d.bytes).length else 0)).runNext level coder
    let owner : Option Ctx := some (.session d.session)
    let bad := (s.poolUe level d.bank owner).poolError level coder ctx d.bank owner
    when (decide (level < 4) && decide (coder < 16) && decide (ctx < 4) && s.levelUp level && x.filling) s
      (if uncorrectable then bad else good)

/-- CODER_CONTEXT_SWITCH (R216): records arrive and ŷ are read, and the coder runs the context that can proceed and is due first. -/
def execCoderContextSwitch (level coder : Nat) (arrived : List (Nat × Nat × Nat)) (s : State) : Host.Outcome State Fault Refusal :=
  let s1 := s.arriveRecords level coder (arrived.filter (fun a => decide (a.1 < 4)))
  when (decide (level < 4) && decide (coder < 16) && s.levelUp level) s
    (s1.runNext level coder)

/-- The SLICE_DATA of an encode context closed (R220). -/
def CoderCtx.close (x : CoderCtx) : CoderCtx := { x with range := encClose x.range }

/-- An encode job runs close() where its DATA_RING has room for the bytes, and completes; else it waits for room (R220, R225). -/
def State.closeCoder (s : State) (l c x : Nat) : State :=
  let v := s.ctxAt l c x
  let k := v.close.grown v
  if s.lotCap l c x 0 < v.lotFill 0 + k then s.setCtx l c x { v with need := k }
  else ((s.setCtx l c x v.close).bumpReg (lvlReg l (0x408 + 16 * c)) (v.close.range.out.length - v.range.out.length)).endCoder l c x 0

/-- CODER_JOB_COMPLETE (R221 to R223, R332, R335): every element done, the coder runs close(), or finish() and verifies the slice tally. -/
def execCoderJobComplete (level coder ctx : Nat) (tallyOk : Bool) (s : State) : Host.Outcome State Fault Refusal :=
  let x := s.ctxAt level coder ctx
  match x.job with
  | none => ok s
  | some j =>
    let d := parseCoder j.desc
    let bad := x.malformed || x.range.read != d.bytes
    let tally := !bad && !(tallyOk && crc32c j.data == j.tally)
    let s1 := if tally then
        (s.bumpReg (lvlReg level 0x840) 1).raise 0x13 1 0 level noFace (some (.session d.session)) (0x10 + coder) 0
      else s
    let dec := if bad || tally then (s1.bumpReg (lvlReg level 0x314) 1).endCoder level coder ctx 1
      else s.endCoder level coder ctx 0
    when (decide (level < 4) && decide (coder < 16) && decide (ctx < 4) && s.levelUp level && !x.filling &&
      x.done == jobElems (s.jobTensors d)) s (if d.decode then dec else s.closeCoder level coder ctx)

end Sys2Proof.Machine
end

