-- ==== Sys2Proof/Machine/Recovery.lean ====
section
/-! DEFINITION. The rows by which resets and low-power states go on and end (R379 to R399). -/

namespace Sys2Proof.Machine

open Sys2Proof

/-! Faces. -/

/-- FACE_AUTO_RESET (R392): 100 ms after its declaration a failed face is reset once, unless its level is parked or a wider reset
over it is accepted. -/
def execFaceAutoReset (p : Nat) (s : State) : Host.Outcome State Fault Refusal :=
  let f := s.face p
  when (faceWf p && f.failed && !f.autoDone && !f.inReset && decide (f.failedAt + 100000000 ≤ s.now) &&
    (s.level (levelOf p)).parked == 0 && !s.resetBusy 2 (levelOf p) && s.boot.hfRunning) s (s.acceptReset 3 p 0 true)

/-- FACE_SOUNDING_DONE (R391, R392): a reset face's sounding ends. -/
def execFaceSoundingDone (p : Nat) (passed : Bool) (test : Nat) (s : State) : Host.Outcome State Fault Refusal :=
  when (faceWf p && (s.face p).inReset && (s.level (levelOf p)).parked == 0) s (s.endFaceReset p passed test)

/-! Levels. -/

/-- Is a level's remap round asked for already? -/
def State.remapPending (s : State) (l : Nat) : Bool := s.rounds.any (fun r => decide (r.flip = .remap [l]))

/-- LEVEL_RESET_COMPLETE (R388): the sounding of a level reset is over; the level is back as its remap round fires. -/
def execLevelResetComplete (level : Nat) (failed : List UnitId) (s : State) : Host.Outcome State Fault Refusal :=
  when (decide (level < 4) && (s.level level).inReset && !s.remapPending level && s.boot.hfRunning) s (s.endLevelReset level failed)

/-- LEVEL_PARK_COMPLETE (R394). -/
def execLevelParkComplete (level : Nat) (s : State) : Host.Outcome State Fault Refusal :=
  when (decide (level < 4) && (s.level level).parked == 1) s (s.endPark level)

/-- LEVEL_UNPARK_COMPLETE (R395, R399): a level that returns by itself copies its banks from another. -/
def execLevelUnparkComplete (level : Nat) (s : State) : Host.Outcome State Fault Refusal :=
  when (decide (level < 4) && (s.level level).parked == 3 && s.pwr.standby != 3 && s.boot.hfRunning) s
    ((s.takeBanks level).endUnpark level)

/-- STANDBY_ENTRY_COMPLETE (R396): every level in service has parked. -/
def execStandbyEntryComplete (s : State) : Host.Outcome State Fault Refusal :=
  when (s.pwr.standby == 1 && (List.range 4).all (fun l => !(s.level l).inService || (s.level l).parked == 2)) s (s.setStandby 2)

/-- STANDBY_EXIT_COMPLETE (R396, R399): every level is back; those parked by standby keep their banks, one parked before it copies
them. -/
def execStandbyExitComplete (s : State) : Host.Outcome State Fault Refusal :=
  let back := (List.range 4).filter (fun l => (s.level l).parked == 3)
  let own := back.filter (fun l => (s.level l).byStandby)
  let other := back.filter (fun l => !(s.level l).byStandby)
  let s1 := (s.each own (fun s l => s.endUnpark l)).restoreBanks (bits s.boot.bankKept.toNat 1 3)
  let s2 := s1.each other (fun s l => (s.takeBanks l).endUnpark l)
  when (s.pwr.standby == 3 && (List.range 4).all (fun l => (s.level l).parked == 0 || (s.level l).parked == 3)) s
    (s2.setStandby 0).wantSurvey

/-! The warm module reset (R379 to R381). -/

/-- MGMT_WATCHDOG_EXPIRE (R383): 100 ms have passed without a kick. -/
def execMgmtWatchdogExpire (s : State) : Host.Outcome State Fault Refusal :=
  when (s.boot.hfRunning && decide (s.rot.lastKick + 100000000 ≤ s.now) && !s.resetBusy 1 0) s (s.acceptReset 1 0 7 false)

/-- The devices of a level zeroed but for the kept ranges (R379). -/
def State.zeroDevices (s : State) (l : Nat) (kept : List (Nat × Nat)) : State :=
  { s with mem := s.mem.filter (fun e => decide (e.1 < 4 * l * 2 ^ 36) || decide ((4 * l + 4) * 2 ^ 36 ≤ e.1) ||
      kept.any (fun r => decide (r.1 ≤ e.1) && decide (e.1 < r.1 + r.2))) }

/-- A level on the full path: out of service until it is sounded, its bonded DRAM and its devices zeroed (R379). -/
def State.fullPath (s : State) (kept : List (Nat × Nat)) (l : Nat) : State :=
  let s1 := s.setLevel l { s.level l with inService := false }
  let s2 : State := { s1 with faces := s1.faces.filter (fun e => levelOf e.1 != l) }
  let s3 := (s2.clearMem (dramBase l) dramBytes).zeroDevices l kept
  s3.each ((List.range 16)) (fun s d =>
    (s.setRegNat (drfReg l d 0) 0).each (List.range 16) (fun s k => s.setRegNat (drfReg l d (0x40 + 4 * k)) 0))

/-- A decode frame whose slices not yet decoded are missing (R381). -/
def DecFrame.giveUp (f : DecFrame) : DecFrame :=
  { f with slices := f.slices.map (fun k => if k.st ≤ 1 then { st := 4 } else k) }

/-- The decode frames of a session in progress at a warm reset (R381): what was not decoded is missing. -/
def State.warmDecode (s : State) (id : Nat) : State :=
  let s1 := s.closeOpen id
  let x := s1.ses id
  let n := x.dec.frames.foldl (fun n f => n + f.slices.countP (fun k => decide (k.st = 1))) 0
  let y := { x with dec := { x.dec with frames := x.dec.frames.map (fun (f : DecFrame) => if f.unknown then f else f.giveUp) } }.bump 8 n
  let s2 := s1.setSes id y
  match y.dec.frames with
  | f :: _ => if f.output then s2.armCheckpoint id [] else s2
  | [] => s2

/-- The encode frame of a session in progress at a warm reset: slices not emitted are dropped; a frame whose round was aborted gets
it again (R381). -/
def State.warmEncode (s : State) (id : Nat) : State :=
  match (s.ses id).frame with
  | none => s
  | some f => if f.ckpt || f.settled then s.armCheckpoint id [] else s.dropRest id

/-- The number of frame starts of an encode session before now, past those begun. -/
def Session.lateStarts (x : Session) (now : Nat) : Nat :=
  let k := x.frameIndex + b2n x.frame.isSome
  let upper := (now - x.start0) * x.periodDen / x.periodNum + 2
  (List.range (upper - k)).countP (fun i => decide (x.startOf (k + i) < now))

/-- Frame starts that fell while the level was away: not launched, no number taken, each a missed deadline, and a refresh due
(R381). -/
def State.warmSkip (s : State) (id : Nat) : State :=
  let x := s.ses id
  let n := x.lateStarts s.now
  if n = 0 then s
  else (s.setSes id ({ x with frameIndex := x.frameIndex + n, refreshDue := true }.bump 17 n)).bumpReg (lvlReg (id / 262144) 0x508) n

/-- A session on a fast-path level after a warm reset (R381). -/
def State.warmSession (s : State) (id : Nat) : State :=
  let x := s.ses id
  if !x.state.live then s
  else if x.decode then s.warmDecode id
  else if x.state = .parking ∨ x.state = .closing then s.warmEncode id
  else (s.warmEncode id).warmSkip id

/-- WARM_COUNT, LAST and CAUSE (R411). -/
def State.noteWarm (s : State) : State := (s.noteReset 2 (s.boot.warmCause.getD 0)).bumpField (cmdReg 0x940) 8 8 1

/-- The levels that a request has parked, which stay so through a warm reset (R394). -/
def State.parkedLevels (s : State) : List Nat := (List.range 4).filter (fun l => (s.level l).parked != 0)

/-- Every level that is not kept parked on the full path (R379, R394): nothing is kept; the start goes on as a cold start does, with no Plan
loaded yet. -/
def State.warmAllFull (s : State) : State :=
  let ls := (List.range 4).filter (fun l => !s.parkedLevels.contains l)
  let s1 := (s.each ls (fun s l => s.fullPath [] l)).each s.parkedLevels (fun s l => (s.clearMem (dramBase l) dramBytes).zeroDevices l [])
  let s2 : State := { s1 with sessions := [], models := [], jobs := [], shadow := none, rounds := [] }
  let s3 := s2.each (List.range 4) (fun s l => s.setField (lvlReg l 0x300) 0 24 0)
  let s4 : State := { s3 with boot := { s3.boot with
    plan := none, warmFast := [], memDone := [], warmCause := none, absent := [], lpddrFaulty := [], ceSeen := [], sounded := false
    unlocked := [] } }
  ((s4.setFireTime 0).planRegs 0 0 0 0 0).advance

/-- Some levels on the fast path (R379 to R381, R399): the others go through the full path beside them. One that standby had parked, or
that was being unparked, is back with the faces that were current rejoined (R396). -/
def State.warmFastPath (s : State) (fast : List Nat) : State :=
  let full := (List.range 4).filter (fun l => !fast.contains l && (s.level l).parked == 0)
  let kept := s.copiesUsed ++ s.modelRanges
  let s1 := s.each full (fun s l => s.fullPath kept l)
  let lost := s1.jobs.filter (fun j => full.contains (j.device / 4) || full.any (s1.placementOn j.placement))
  let s2 := s1.each lost (fun s j => s.faultJob j.id 0)
  let s3 : State := { s2 with boot := { s2.boot with warmCause := none, warmFast := fast, memDone := [], sounded := false } }
  let s4 := s3.each (s3.sessions.map (fun e => e.1)) State.warmSession
  let s5 := (s4.setOldFrames 0).restoreBanks (bits s.boot.bankKept.toNat 1 3)
  let s6 := (s5.each allDrifts (fun s q => s.fillReserve q.1 q.2)).setField (cmdReg 0x900) 20 4 (maskOf 4 (fun l => fast.contains l))
  let on := (fast.filter (fun l => (s6.level l).parked == 0)).flatMap levelFaces
  let back := on.filter (fun p => (s6.face p).wasCurrent)
  let s7 := (if back.isEmpty then s6 else s6.rejoinAll back).each on State.loadChunks
  let dead := fast.filter (fun l => (s7.level l).inService && !s7.linkUp l)
  ((s7.each dead State.levelLost).loadClaims).finishStart

/-- WARM_RESET_RESUME (R379 to R381): Headframe runs again and, once every UCIe link has trained, the fast-path levels accept work; a failed
re-hash sends every level down the full path. -/
def execWarmResetResume (rehashOk : Bool) (s : State) : Host.Outcome State Fault Refusal :=
  let s1 := s.startHeadframe
  let s2 := s1.noteWarm
  let fast := if rehashOk then s.boot.warmFast else []
  let full := (List.range 4).any (fun l => !fast.contains l && (s.level l).parked == 0)
  when (s.boot.warmCause.isSome && (fast.isEmpty || (List.range 24).all s.ucieSettled)) s
    (if !s1.boot.hfRunning then s1
     else if fast.isEmpty then (s2.warmAllFull).setField (cmdReg 0x900) 20 4 0
     else
       let s3 := s2.warmFastPath fast
       if full then s3 else s3.endReset 1 0)

end Sys2Proof.Machine
end

