-- ==== Sys2Proof/Machine/Faults.lean ====
section
/-! DEFINITION. Faults of the part's units (R25, R263, R339, R340, R401, R402, R416): one meaning per row. -/

namespace Sys2Proof.Machine

open Sys2Proof

/-! Faces, ring segments, LPDDR6 devices. -/

/-- FACE_WATCHDOG_EXPIRE (R263). -/
def execFaceWatchdogExpire (p : Nat) (s : State) : Host.Outcome State Fault Refusal :=
  when (s.canFail p) s (s.faceFail p 3)

/-- FACE_POWER_FAULT (R263). -/
def execFacePowerFault (p : Nat) (s : State) : Host.Outcome State Fault Refusal :=
  when (s.canFail p) s (s.faceFail p 2)

/-- RING_SEGMENT (R25, R47): after four failed replays, counted in DRF_RING_REPLAY, the segment is declared faulted and FAILOVERS counts.
The ring reroutes: a message is one transaction and on no segment between two commands, so none is held and none is lost. -/
def execRingSegment (level drift segment : Nat) (s : State) : Host.Outcome State Fault Refusal :=
  let a := drfReg level drift 0x10
  let s1 := ((s.setField a segment 1 1).bumpField a 24 8 1).bumpReg (drfReg level drift 0x14) 4
  let s2 := s1.raise 0x21 2 0 level noFace none (16 * level + drift) segment
  when (decide (level < 4) && decide (drift < 16) && decide (segment < 17) && s.levelUp level && (s.level level).inService &&
    s.field a segment 1 == 0) s
    (s2.logUnit { kind := 2, index := 17 * (16 * level + drift) + segment } 1 3 0x21)

/-- The cause code of LPDDR_DEVICE. -/
def lpddrCode : LpddrCause → Nat
  | .uncorrectable => 1
  | .training => 2
  | .corrected => 3

/-- LPDDR_DEVICE (R340). -/
def execLpddrDevice (device : Nat) (cause : LpddrCause) (s : State) : Host.Outcome State Fault Refusal :=
  when (decide (device < 16) && s.lpddrOk device) s (s.lpddrFault device (lpddrCode cause) (fun _ => 1))

/-! Patrol scrubbing (R339, R340). -/

/-- Corrected errors of an LPDDR6 device: with more than CE_LIMIT within the second that ends now it is faulted (R340). -/
def State.deviceCorrected (s : State) (d n : Nat) : State :=
  let seen := s.boot.ceSeen.filter (fun e => decide (s.now < e.2.1 + 1000000000)) ++ [(d, s.now, n)]
  let c := (seen.filter (fun e => e.1 == d)).foldl (fun c e => c + e.2.2) 0
  let s1 : State := { s with boot := { s.boot with ceSeen := seen } }
  match s.boot.plan with
  | some pl => if decide (pl.ceLimit < c) && s.lpddrOk d then s1.lpddrFault d 3 (fun _ => 1) else s1
  | none => s1

/-- Corrected errors in a device's own memory counted on it, those in bonded DRAM nowhere else (R337, R340). -/
def State.corrected (s : State) (a n : Nat) : State :=
  if a < 0x010000000000 then s.deviceCorrected (deviceOf a) n else s

/-- The granules of 32 bytes that an uncorrectable error at an address poisons (R337, R339): of bonded DRAM the one it lies in, of LPDDR6 the
two of its 64-byte granule. -/
def poisonedAt (a : Nat) : List Nat := if a < 0x010000000000 then [a / 64 * 2, a / 64 * 2 + 1] else [a / 32]

/-- PATROL_SCRUB (R337, R339, R340): corrected errors are written back and counted on the memory's level; an uncorrectable one
poisons its granule, and is acted on only when that is read. -/
def execPatrolScrub (address : Nat) (uncorrectable : Bool) (corrected : Nat) (s : State) : Host.Outcome State Fault Refusal :=
  let dram := decide (0x010000000000 ≤ address) && decide (address < 0x014000000000)
  let lp := decide (address < 0x010000000000)
  let l := if dram then dramLevel address else deviceOf address / 4
  let s1 := s.bumpReg (lvlReg l 0x820) corrected
  let s2 := if 0 < corrected then s1.corrected address corrected else s1
  when (s.pwr.pwrgd && (dram || lp) && (decide (0 < corrected) || uncorrectable) && s.levelUp l) s
    (if uncorrectable then { s2 with poisoned := (s2.poisoned ++ poisonedAt address).eraseDups } else s2)

/-! Power phases (R400 to R402). -/

/-- The DVFS step that lost phases hold level l's CORE clock at, at least: the VCORE rail's and the bus's (R402; log entry 9). -/
def State.phaseFloor (s : State) (l : Nat) : Nat :=
  let v := s.phasesLeft (6 + 20 * l) 20
  let i := s.phasesLeft 0 6
  min 9 (max (if v < 18 then Config.vcoreStep v else 0) (if i < 5 then Config.powerStep (800 * i) else 0))

/-- A level's CORE clock lowered for lost phases: LIMIT is set, and the step changes unless it is low enough already. -/
def State.limitClock (s : State) (l : Nat) : State :=
  let v := s.level l
  let f := s.phaseFloor l
  s.setLevel l { v with phaseLim := true, dvfsNext := if max v.dvfs (v.dvfsNext.getD 0) < f then some f else v.dvfsNext, dvfsAt := s.now }

/-- What the loss of a phase of a rail asks for where the rail has fewer than it needs (R402). -/
def State.railBelow (s : State) (phase : Nat) : State :=
  if phase < 6 then
    if s.phasesLeft 0 6 < 5 then s.each (List.range 4) State.limitClock else s
  else if phase < 86 then
    let l := (phase - 6) / 20
    if s.phasesLeft (6 + 20 * l) 20 < 18 then s.limitClock l else s
  else if phase < 110 then
    let l := (phase - 86) / 6
    if s.phasesLeft (86 + 6 * l) 6 < 5 ∧ (s.level l).inService then s.levelLost l else s
  else if 116 ≤ phase ∧ phase < 132 then
    let l := (phase - 116) / 4
    if s.phasesLeft (116 + 4 * l) 4 < 3 ∧ (s.level l).inService then
      s.levelLost l |>.each ((List.range 4).map (fun i => 4 * l + i)) (fun s d => s.lpddrFault d 2 (fun _ => 1))
    else s
  else match sharedRails.find? (fun r => decide (r.1 ≤ phase) && decide (phase < r.1 + r.2.1)) with
    | some r => if s.phasesLeft r.1 r.2.1 < r.2.2 then s.moduleFault 9 else s
    | none => s

/-- The level a phase's event concerns: that of a level's rail, else 0 (R342, R400). -/
def phaseLevel (phase : Nat) : Nat :=
  if phase < 6 then 0
  else if phase < 86 then (phase - 6) / 20
  else if phase < 110 then (phase - 86) / 6
  else if 116 ≤ phase ∧ phase < 132 then (phase - 116) / 4
  else 0

/-- PHASE_SHED (R401, R402): the phase is off until the next cold start. cause: 1 current limit, 2 temperature, 3 output lost. -/
def execPhaseShed (phase cause : Nat) (s : State) : Host.Outcome State Fault Refusal :=
  let s1 := s.setField (cmdReg (0xA10 + 4 * (phase / 32))) (phase % 32) 1 1
  let s2 := if s1.field (cmdReg 0xA24) 31 1 = 1 then s1 else s1.setRegNat (cmdReg 0xA24) (phase + cause * 256 + 2 ^ 31)
  let s3 := (s2.raise 0x24 2 1 (phaseLevel phase) noFace none phase 0).railBelow phase
  when (decide (phase < 140) && decide (1 ≤ cause) && decide (cause ≤ 3) && s.pwr.pwrgd && s.phasesLeft phase 1 == 1) s s3

/-! Temperature (R35, R416). -/

/-- Every rail but VAUX goes down (R405, R416): what is not held on VAUX or in flash is lost, and nothing runs until power is good
again. -/
def State.railsOff (s : State) : State :=
  let t := s.beginCold 0
  { t with
    regs := [], resets := []
    pwr := { t.pwr with pwrgd := false, rails := false, fetClosed := false, removal := none, removeOk := false } }

/-- THERMAL_TRIP (R416): its record is held on VAUX for SMBus and the next start, and the module powers down. -/
def State.thermalTrip (s : State) (die : Nat) (tenths : Int) : State :=
  let e := s.mkEvent 0x51 5 1 (if die < 4 then die else 0) noFace none die (codeOf 32 tenths)
  let s1 := s.alert e
  let s2 : State := { s1 with rot := { s1.rot with tripHeld := s1.rot.tripHeld ++ [e] } }.railsOff
  { s2 with pwr := { s2.pwr with overTemp := true } }

/-- JUNCTION_REPORT (R416): die 0 to 3 a level, 4 the command die; 0.1 °C. -/
def execJunctionReport (die : Nat) (tenths : Int) (s : State) : Host.Outcome State Fault Refusal :=
  let hot := if tenths > 1000 then s.pwr.hot.set die true else if tenths < 970 then s.pwr.hot.set die false else s.pwr.hot
  let s1 : State := { s with pwr := { s.pwr with junction := s.pwr.junction.set die tenths, hot := hot } }
  when (decide (die < 5) && s.pwr.pwrgd) s (if tenths ≥ 1100 then s1.thermalTrip die tenths else s1)

/-- DVFS_THERMAL_STEP (R416): one step down every 10 ms until the junction falls below 97 °C, then one up every 100 ms, no further
than lost phases allow. The step Headframe sets for a level's load, at LIMIT 0, has no law in R35 and no command: it is step 0 here (DESIGN
CHOICE, log entry 38). -/
def execDvfsThermalStep (level : Nat) (s : State) : Host.Outcome State Fault Refusal :=
  let v := s.level level
  let hot := s.pwr.hot.getD level false
  let last := s.pwr.lastStep.getD level 0
  let mark : State := { s with pwr := { s.pwr with lastStep := s.pwr.lastStep.set level s.now } }
  let floor := if v.phaseLim then s.phaseFloor level else 0
  let up := v.dvfs - 1
  when (decide (level < 4) && s.boot.hfRunning && v.inService && v.dvfsNext.isNone) s
    (if hot && decide (v.dvfs < 9) && decide (last + 10000000 ≤ s.now) then
       mark.setLevel level { v with dvfsNext := some (v.dvfs + 1), thermal := true, dvfsAt := s.now }
     else if !hot && v.thermal && decide (last + 100000000 ≤ s.now) then
       if floor < v.dvfs then
         mark.setLevel level { v with dvfsNext := some up, thermal := decide (floor < up), dvfsAt := s.now }
       else s.setLevel level { v with thermal := false }
     else s)

/-- DVFS_STEP_DONE (R35): the level's CORE clock runs at its new step. -/
def execDvfsStepDone (level : Nat) (s : State) : Host.Outcome State Fault Refusal :=
  let v := s.level level
  match v.dvfsNext with
  | some n => when (decide (level < 4)) s (s.setLevel level { v with dvfs := n, dvfsNext := none })
  | none => ok s

end Sys2Proof.Machine
end

