-- ==== Sys2Proof/Machine/HotPlug.lean ====
section
/-! DEFINITION. Hot plug and orderly removal (R400 to R407): the connector's events and power good, one meaning per row. -/

namespace Sys2Proof.Machine

open Sys2Proof

/-- Do the conditions of R403 for closing the hot-swap FET hold? -/
def PowerState.mayClose (w : PowerState) : Bool :=
  w.vaux && w.present && w.enable && w.inputOk && w.bulkOk && !w.overTemp && !w.fetClosed

/-- The FET closes where every condition holds: the rails rise, MOD_PWRGD goes high and a cold reset begins (R403, R404, R407).
cause: CAUSE of R411 where no brown-out went before. -/
def State.tryPower (s : State) (cause : Nat) : State :=
  if s.pwr.mayClose then
    ({ s with pwr := { s.pwr with fetClosed := true, rails := true, pwrgd := true, surprise := false, brownOut := false, removal := none,
                                  removeOk := false } } : State).beginCold (if s.pwr.brownOut then 8 else cause)
  else s

/-- PRECHARGE_CONTACT (R403, R404): a module that is not seated makes first contact; what it kept on VAUX went with its bulk, and its input
is measured anew. -/
def execPrechargeContact (s : State) : Host.Outcome State Fault Refusal :=
  when (!s.pwr.precharged || !s.pwr.present) s
    { s with pwr := { s.pwr with precharged := true, vaux := false, inputOk := false, bulkOk := false, volts := 0, watts := 0,
                                 brownOut := false, surprise := false, overTemp := false } }

/-- VAUX_UP (R403, R413, R479): the bulk has passed 40 V; the address straps are read and the alert queue is empty. -/
def execVauxUp (strap : BitVec 2) (s : State) : Host.Outcome State Fault Refusal :=
  let s1 : State := { s with
    pwr := { s.pwr with vaux := true }
    rot := { s.rot with strap := strap, alerts := [], alertsLost := 0, tripHeld := [], armUntil := none, smbStatus := 0,
                        smbCommand := 0, bootSeen := 0, pwrSeen := 0, hfRelease := 0, planId := 0 } }
  when (s.pwr.precharged && !s.pwr.vaux) s (s1.tryPower 1)

/-- MOD_PRESENT_ASSERT (R403, R404). -/
def execModPresentAssert (s : State) : Host.Outcome State Fault Refusal :=
  when (s.pwr.precharged && !s.pwr.present) s ({ s with pwr := { s.pwr with present := true } }.tryPower 1)

/-- INPUT_VALID (R403, R404, R411): the input has lain within 46.0 to 58.0 V for 100 ms and the bulk within 2 V of it. -/
def execInputValid (tenMillivolts : Nat) (s : State) : Host.Outcome State Fault Refusal :=
  let r := s.draw
  let s1 : State := { r.2 with pwr := { s.pwr with inputOk := true, bulkOk := true, volts := tenMillivolts, watts := Config.sensor r.1 % 65536 } }
  when (s.pwr.precharged && decide (4600 ≤ tenMillivolts) && decide (tenMillivolts ≤ 5800)) s (s1.tryPower 1)

/-- MOD_EN_RISE (R383, R403, R411, R416): after an over-temperature power-down it is what restores service. -/
def execModEnRise (s : State) : Host.Outcome State Fault Refusal :=
  let s1 : State := { s with pwr := { s.pwr with enable := true, overTemp := false } }
  when (!s.pwr.enable) s (s1.tryPower (if s.pwr.overTemp then 10 else 2))

/-- A surprise removal (R406): the FET opens, every die stops, and everything but flash and VAUX is lost. -/
def State.surpriseOff (s : State) : State :=
  if s.pwr.fetClosed then
    let t := s.railsOff
    { t with pwr := { t.pwr with surprise := true } }
  else s

/-- MOD_EN_FALL (R405, R406): after MOD_REMOVE_OK the rails power down in order; before it, it is a surprise removal. -/
def execModEnFall (s : State) : Host.Outcome State Fault Refusal :=
  let s1 : State := { s with pwr := { s.pwr with enable := false } }
  when s.pwr.enable s (if s.pwr.removeOk then s1.railsOff else s1.surpriseOff)

/-- Is a flash write waiting or in progress: a repair entry, a Plan, Headframe image or claim being installed (R351)? -/
def State.flashBusy (s : State) : Bool := !s.boot.logPending.isEmpty || s.handles.any (fun h => h.installing && h.kind != 2)

/-- MOD_REMOVE_OK_ASSERT (R405). -/
def execModRemoveOkAssert (s : State) : Host.Outcome State Fault Refusal :=
  let s1 : State := { s with pwr := { s.pwr with removeOk := true } }
  when (s.boot.hfRunning && s.pwr.removal.isSome && !s.pwr.removeOk && s.sessions.all (fun e => e.2.state == .free) && !s.flashBusy) s
    (s1.setPwrState 5)

/-- DRAIN_LIMIT_EXPIRE (R405): the sessions left are closed gracefully. -/
def execDrainLimitExpire (s : State) : Host.Outcome State Fault Refusal :=
  match s.pwr.removal with
  | none => ok s
  | some m =>
    let s1 := s.each (s.sessions.map (fun e => e.1)) (fun s i => s.closeGracefully i s.now)
    when (m.drain && !m.closed && decide (m.limitAt ≤ s.now) && s.boot.hfRunning) s
      { s1 with pwr := { s1.pwr with removal := some { m with closed := true } } }

/-- SURPRISE_REMOVAL (R406): MOD_PRESENT_N rises, the input exceeds 60.0 V, or MOD_EN falls before MOD_REMOVE_OK. -/
def execSurpriseRemoval (cause : RemovalCause) (s : State) : Host.Outcome State Fault Refusal :=
  let w := s.pwr
  match cause with
  | .presence =>
    when w.present s { s with pwr := { w with present := false } }.surpriseOff
  | .overVoltage => when w.inputOk s { s with pwr := { w with inputOk := false, bulkOk := false } }.surpriseOff
  | .enableFell => when (w.enable && !w.removeOk) s { s with pwr := { w with enable := false } }.surpriseOff

/-- INPUT_UNDERVOLTAGE (R406, R407): below 44.0 V for 50 µs; the module stays seated and restarts once R403 holds again. -/
def execInputUndervoltage (s : State) : Host.Outcome State Fault Refusal :=
  let s1 : State := { s with pwr := { s.pwr with inputOk := false, bulkOk := false, brownOut := s.pwr.fetClosed } }
  when s.pwr.inputOk s s1.surpriseOff

end Sys2Proof.Machine
end

