-- ==== Sys2Proof/Machine/Ptp.lean ====
section
/-! DEFINITION. The messages of IEEE 1588-2019 on stream ports (R426, R428): their fields and what carries them, as the standard that R426
names lays them out (log entry 106). -/

namespace Sys2Proof.Machine

open Sys2Proof

/-- messageType of Sync, Delay_Req, Follow_Up, Delay_Resp and Announce. -/
def ptpSync : Nat := 0
/-- Delay_Req. -/
def ptpDelayReq : Nat := 1
/-- Follow_Up. -/
def ptpFollowUp : Nat := 8
/-- Delay_Resp. -/
def ptpDelayResp : Nat := 9
/-- Announce. -/
def ptpAnnounce : Nat := 11

/-- The portIdentity of stream port p: clockIdentity, the module identifier (R428), and portNumber. -/
def State.ptpIdent (s : State) (p : Nat) : Bytes := natBe 8 s.rot.fuses.moduleId ++ natBe 2 (p + 1)

/-- A timestamp: seconds and nanoseconds. -/
def ptpTime (t : Nat) : Bytes := natBe 6 (t / 1000000000) ++ natBe 4 (t % 1000000000)

/-- The timestamp at offset o of a message, in ns. -/
def ptpTimeAt (b : Bytes) (o : Nat) : Nat := beAt b o 6 * 1000000000 + beAt b (o + 6) 4

/-- correctionField in ns. -/
def ptpCorrection (b : Bytes) : Int := signedOf 64 (beAt b 8 8) / 65536

/-- sequenceId. -/
def ptpSeq (b : Bytes) : Nat := beAt b 30 2

/-- A message: the common header of domain 0 and the fields of its type. twoStep: twoStepFlag; rest: controlField and logMessageInterval. -/
def State.ptpMessage (s : State) (p type : Nat) (twoStep : Bool) (correction seq rest : Nat) (body : Bytes) : Bytes :=
  natBe 1 type ++ natBe 1 0x12 ++ natBe 2 (34 + body.length) ++ zeros 2 ++ natBe 2 (0x200 * b2n twoStep) ++ natBe 8 correction ++ zeros 4 ++
    s.ptpIdent p ++ natBe 2 seq ++ natBe 2 rest ++ body

/-- The address a port's messages go to: the standard's multicast group over the network the port has, none for Ethernet itself. -/
def PortRec.ptpTo (r : PortRec) : Option Nat :=
  if r.ipv4 ≠ 0 then some (v4In6 0xE0000181) else if r.ipv6 ≠ 0 then some (0xFF0E * 2 ^ 112 + 0x181) else none

/-- A message sent on a stream port: event messages to UDP port 319, general ones to 320, or in a frame of their own EtherType. -/
def State.ptpSend (s : State) (p : Nat) (event : Bool) (b : Bytes) : State :=
  let udp := if event then 319 else 320
  match ((s.port p).getD {}).ptpTo with
  | some a => s.sendNet p a (.net p (s.datagram p { ip := a, udp := udp } udp b true))
  | none => { s with outbox := s.outbox ++ [.net p (s.ethFrame p (natBe 6 0x011B19000000) 0x88F7 b true)] }

/-- The messages of stream port p. -/
def State.ptp (s : State) (p : Nat) : PtpPort := s.servo.ptp.getD p {}

/-- The messages of stream port p set. -/
def State.setPtp (s : State) (p : Nat) (q : PtpPort) : State := { s with servo := { s.servo with ptp := s.servo.ptp.set p q } }

/-- A two-step Sync and its Follow_Up, as the master sends them (R426, R428). -/
def State.ptpSyncOut (s : State) (p : Nat) : State :=
  let q := s.ptp p
  let s1 := s.ptpSend p true (s.ptpMessage p ptpSync true 0 q.syncSeq 0x00FC (ptpTime 0))
  (s1.ptpSend p false (s.ptpMessage p ptpFollowUp false 0 q.syncSeq 0x02FC (ptpTime s.now))).setPtp p
    { q with syncSeq := (q.syncSeq + 1) % 65536 }

/-- A Delay_Req, as a slave sends it (R426, R428). -/
def State.ptpRequestOut (s : State) (p : Nat) : State :=
  let q := s.ptp p
  (s.ptpSend p true (s.ptpMessage p ptpDelayReq false 0 q.reqSeq 0x017F (ptpTime 0))).setPtp p
    { q with reqSeq := (q.reqSeq + 1) % 65536, req := some (q.reqSeq, s.now) }

/-- An Announce of a dataset: priority1, class, accuracy, variance, priority2, identity; and the hops to its clock (R428). currentUtcOffset
and timeSource, of which the spec says nothing, are free (log entry 106). -/
def State.ptpAnnounceOut (s : State) (p : Nat) (d : List Nat) (steps : Nat) : State :=
  let q := s.ptp p
  let n := 3 * s.outbox.length
  let body := ptpTime 0 ++ natBe 2 (Config.freeWire n) ++ zeros 1 ++ natBe 1 (d.getD 0 0) ++ natBe 1 (d.getD 1 0) ++ natBe 1 (d.getD 2 0) ++
    natBe 2 (d.getD 3 0) ++ natBe 1 (d.getD 4 0) ++ natBe 8 (d.getD 5 0) ++ natBe 2 steps ++ natBe 1 (Config.freeWire (n + 1))
  (s.ptpSend p false (s.ptpMessage p ptpAnnounce false 0 q.annSeq 0x0501 body)).setPtp p
    { q with annSeq := (q.annSeq + 1) % 65536, annAt := some s.now }

/-- A Delay_Req answered by a Delay_Resp with its time of receipt (R426). -/
def State.ptpAnswer (s : State) (p : Nat) (b : Bytes) : State :=
  s.ptpSend p false (s.ptpMessage p ptpDelayResp false (beAt b 8 8) (ptpSeq b) 0x03FC (ptpTime s.now ++ sub b 20 10))

/-- Is a byte string a message the device takes: version 2, domain 0, whole, of another clock (R426)? -/
def State.ptpTakes (s : State) (b : Bytes) : Bool :=
  decide (44 ≤ b.length) && beAt b 1 1 % 16 == 2 && beAt b 2 2 == b.length && beAt b 4 1 == 0 && beAt b 20 8 != s.rot.fuses.moduleId &&
    (if beAt b 0 1 % 16 = ptpAnnounce then decide (64 ≤ b.length) else if beAt b 0 1 % 16 = ptpDelayResp then decide (54 ≤ b.length) else true)

end Sys2Proof.Machine
end

