-- ==== Sys2Proof/Machine/Crosscut.lean ====
section
/-! DEFINITION. Time and the crosscut ports (R376, R377, R426 to R435): the servo, hellos and the election, crosscut frames, lanes
and relays; one meaning per row. -/

namespace Sys2Proof.Machine

open Sys2Proof

/-! Crosscut frames (R430, R431). -/

/-- A crosscut frame: header, payload, FCRC. -/
def xctBytes (type flags seq ack : Nat) (payload : Bytes) : Bytes :=
  let b := natBe 1 type ++ natBe 1 flags ++ natBe 2 payload.length ++ natBe 4 seq ++ natBe 4 ack ++ zeros 4 ++ payload
  b ++ natBe 4 (crc32c b)

/-- Bytes of the replay buffer of a port: 1 MiB. -/
def replayRoom : Nat := 1048576

/-- Bytes a port's replay buffer holds. -/
def XctPort.held (q : XctPort) : Nat := q.replay.foldl (fun n f => n + f.payload.length + 20) 0

/-- Crosscut port p. -/
def State.xct (s : State) (p : Nat) : XctPort := s.links.xct.getD p {}

/-- Crosscut port p set. -/
def State.setXct (s : State) (p : Nat) (q : XctPort) : State := { s with links := { s.links with xct := s.links.xct.set p q } }

/-- Is crosscut port p in service (R441)? -/
def State.xctUp (s : State) (p : Nat) : Bool := s.field (cmdReg (0xC00 + 16 * p)) 0 2 == 2

/-- A kept frame put on the link. -/
def State.xctPut (s : State) (p : Nat) (f : XctFrame) : State :=
  s.send (.crosscut p (xctBytes f.type 0 f.seq (s.xct p).rxSeq f.payload))

/-- A frame takes the next SEQ, is kept and sent. -/
def State.xctLaunch (s : State) (p type : Nat) (payload : Bytes) : State :=
  let q := s.xct p
  let f : XctFrame := { type := type, seq := (q.txSeq + 1) % 2 ^ 32, payload := payload }
  (s.setXct p { q with txSeq := f.seq, replay := q.replay ++ [f], ackAt := if q.replay.isEmpty then s.now else q.ackAt }).xctPut p f

/-- A frame sent, or kept waiting while the replay buffer is full. -/
def State.xctSend (s : State) (p type : Nat) (payload : Bytes) : State :=
  let q := s.xct p
  if q.waitingTx.isEmpty && decide (q.held + payload.length + 20 ≤ replayRoom) then s.xctLaunch p type payload
  else s.setXct p { q with waitingTx := q.waitingTx ++ [{ type := type, seq := 0, payload := payload }] }

/-- An ACK-only frame, with NAK set or not. -/
def State.xctAnswer (s : State) (p : Nat) (nak : Bool) : State :=
  let q := s.xct p
  s.send (.crosscut p (xctBytes 0 (2 + b2n nak) q.txSeq q.rxSeq []))

/-- The frames that wait for space sent as far as it goes: at most n. -/
def State.xctDrain (s : State) (p : Nat) : Nat → State
  | 0 => s
  | n + 1 =>
    let q := s.xct p
    match q.waitingTx with
    | [] => s
    | f :: r =>
      if q.held + f.payload.length + 20 ≤ replayRoom then
        ((s.setXct p { q with waitingTx := r }).xctLaunch p f.type f.payload).xctDrain p n
      else s

/-- An ACK taken: the frames up to it leave the replay buffer, and waiting frames may go. -/
def State.xctAck (s : State) (p ack : Nat) : State :=
  let q := s.xct p
  let left := q.replay.filter (fun f => serialBefore 32 ack f.seq)
  let adv := decide (left.length < q.replay.length)
  (s.setXct p { q with replay := left, ackAt := if adv then s.now else q.ackAt }).xctDrain p q.waitingTx.length

/-- Every unacknowledged frame resent, counted in XCT_PORTp_REPLAY. -/
def State.xctResend (s : State) (p : Nat) : State :=
  let q := s.xct p
  let s1 := (s.setXct p { q with ackAt := s.now }).bumpReg (cmdReg (0xC0C + 16 * p)) q.replay.length
  s1.each q.replay (fun s f => s.xctPut p f)

/-- Is a crosscut frame sound: whole, with a good FCRC? -/
def xctSound (b : Bytes) : Bool :=
  decide (20 ≤ b.length) && beAt b 2 2 == b.length - 20 && beAt b (b.length - 4) 4 == crc32c (b.take (b.length - 4))

/-- TYPE of a frame. -/
def xctType (b : Bytes) : Nat := beAt b 0 1

/-- Does a frame carry only ACK? -/
def xctAckOnly (b : Bytes) : Bool := bitAt (beAt b 1 1) 1

/-- The payload of a frame. -/
def xctPayload (b : Bytes) : Bytes := (b.drop 16).take (beAt b 2 2)

/-- Is a sound frame the next one in order? -/
def State.xctInOrder (s : State) (p : Nat) (b : Bytes) : Bool := beAt b 4 4 == ((s.xct p).rxSeq + 1) % 2 ^ 32

/-- The header of a sound frame taken: its ACK, and a resend where NAK is set. -/
def State.xctHeader (s : State) (p : Nat) (b : Bytes) : State :=
  let s1 := s.xctAck p (beAt b 8 4)
  if bitAt (beAt b 1 1) 0 then s1.xctResend p else s1

/-- A frame arrived (R431): a bad one, or one out of order, is dropped and answered with a NAK; the next one in order is accepted
and acknowledged. -/
def State.xctTake (s : State) (p : Nat) (b : Bytes) : State :=
  if !xctSound b then s.xctAnswer p true
  else
    let s1 := s.xctHeader p b
    if xctAckOnly b then s1
    else if s.xctInOrder p b then (s1.setXct p { s1.xct p with rxSeq := beAt b 4 4 }).xctAnswer p false
    else s1.xctAnswer p true

/-- Is the frame a sound one of a type, next in order: one whose payload is acted on? -/
def State.xctIs (s : State) (p type : Nat) (b : Bytes) : Bool := xctSound b && !xctAckOnly b && xctType b == type && s.xctInOrder p b

/-- XCT_NAK (R431): a bad or unexpected frame is answered with a NAK; a NAK makes the sender resend. -/
def execXctNak (port : Nat) (frame : Bytes) (s : State) : Host.Outcome State Fault Refusal :=
  when (decide (port < 4) && s.xctUp port && (!xctSound frame || bitAt (beAt frame 1 1) 0 ||
    (!xctAckOnly frame && !s.xctInOrder port frame))) s (s.xctTake port frame)

/-- Is a sound frame of a TYPE that R430 does not name? -/
def xctUnknown (b : Bytes) : Bool := !xctAckOnly b && (xctType b == 0 || decide (4 < xctType b))

/-- XCT_ACK_RECEIVE (R430, R431): the ACK of a sound frame is taken; a frame of another TYPE, next in order, is dropped and counted. -/
def execXctAckReceive (port : Nat) (frame : Bytes) (s : State) : Host.Outcome State Fault Refusal :=
  let s1 := s.xctTake port frame
  when (decide (port < 4) && s.xctUp port && xctSound frame) s
    (if xctUnknown frame && s.xctInOrder port frame then s1.setXct port { s1.xct port with dropped := (s1.xct port).dropped + 1 }
     else s.xctHeader port frame)

/-- XCT_REPLAY_TIMEOUT (R431): ACK has not advanced for 10 µs. -/
def execXctReplayTimeout (port : Nat) (s : State) : Host.Outcome State Fault Refusal :=
  when (decide (port < 4) && s.xctUp port && !(s.xct port).replay.isEmpty && decide ((s.xct port).ackAt + 10000 ≤ s.now)) s
    (s.xctResend port)

/-- XCT_RELAY (R435): the inner frame is transmitted unchanged on OUT_PORT, or dropped and counted where that is down. -/
def execXctRelay (port : Nat) (frame : Bytes) (s : State) : Host.Outcome State Fault Refusal :=
  let b := xctPayload frame
  let out := beAt b 0 1
  let s1 := s.xctTake port frame
  when (decide (port < 4) && s.xctUp port && s.xctIs port 4 frame) s
    (if s.links.streamUp.getD out false then s1.send (.relayed out (b.drop 4))
     else if out < 2 then s1.bumpReg (cmdReg (0xD04 + 16 * out)) 1
     else s1)

/-! The dataset and the election (R377). -/

/-- GM_PRIORITY1, clockClass, clockAccuracy, offsetScaledLogVariance, GM_PRIORITY2 and clockIdentity of this module: the class and
accuracy of its external source's chain, or 248 and 0xFE where it free-runs (R428). -/
def State.ownDataset (s : State) : List Nat :=
  let a := match s.servo.masterPort with
    | some p => s.servo.announce.getD p []
    | none => []
  let p1 := (s.boot.plan.map (fun p => p.priority1)).getD 128
  let p2 := (s.boot.plan.map (fun p => p.priority2)).getD 128
  let ext := s.servo.external && !a.isEmpty
  [p1, if ext then a.getD 1 248 else 248, if ext then a.getD 2 0xFE else 0xFE, if ext then a.getD 3 0 else Config.clockVariance, p2,
    s.rot.fuses.moduleId]

/-- Does dataset a come before b: the first field that differs is lower in a? -/
def dataBefore : List Nat → List Nat → Bool
  | [], _ => false
  | _ :: _, [] => false
  | a :: r, b :: q => if a = b then dataBefore r q else decide (a < b)

/-- The crosscut ports whose neighbours have sent a dataset. -/
def State.dataPorts (s : State) : List Nat := (List.range 4).filter (fun p => s.xctUp p && !(s.xct p).dataset.isEmpty)

/-- The best dataset the module knows. -/
def State.bestNow (s : State) : List Nat :=
  s.dataPorts.foldl (fun b p => if dataBefore (s.xct p).dataset b then (s.xct p).dataset else b) s.ownDataset

/-- Is this module the grandmaster by the best dataset it knows? -/
def State.isGrand (s : State) : Bool := s.bestNow == s.ownDataset

/-- The crosscut port toward the grandmaster with the lowest stepsRemoved, the lowest number of equals; the grandmaster takes time from none
(R433). -/
def State.timePort (s : State) : Option Nat :=
  (s.dataPorts.filter (fun p => !s.isGrand && (s.xct p).dataset == s.bestNow)).foldl (fun r p => match r with
    | none => some p
    | some q => if (s.xct p).steps < (s.xct q).steps then some p else some q) none

/-- The best dataset brought up to date; a change unsettles the election. -/
def State.elect (s : State) : State :=
  if s.bestNow = s.links.best then s
  else { s with links := { s.links with best := s.bestNow, bestAt := s.now, settledElection := false } }

/-- The known links change: the election is to settle again. -/
def State.topologyChanged (s : State) : State :=
  { s with links := { s.links with topologyAt := s.now, settledElection := false } }

/-- STATE of TIM_STAT. -/
def State.servoState (s : State) : Nat := s.field (cmdReg 0xB00) 4 2

/-- SOURCE of TIM_STAT. -/
def State.servoSource (s : State) : Nat := s.field (cmdReg 0xB00) 0 3

/-- Settled and traceable by R377 and R427: locked, in holdover counting as locked; a grandmaster with no external source once the election
has settled, when SOURCE reads 7, and that is not traceable. -/
def State.timeRule (s : State) : Bool × Bool :=
  let locked := s.servoState == 1 || s.servoState == 2
  if s.isGrand then
    if s.servo.external then (locked, locked) else (s.links.settledElection && s.servoSource == 7, false)
  else (locked, locked && s.bestNow.getD 1 248 != 248)

/-- A step of the servo or of the election: where R377's verdict changes, time becomes settled or unsettled. -/
def State.judgeTime (s old : State) : State :=
  let v := s.timeRule
  if v = old.timeRule then s else s.timeVerdict v.1 v.2

/-- TIME_SETTLED (R365, R375, R377): the verdict of R377, where it is this one (log entry 51). -/
def execTimeSettled (settled traceable : Bool) (s : State) : Host.Outcome State Fault Refusal :=
  when (decide (s.timeRule = (settled, traceable))) s (s.timeVerdict settled traceable)

/-! The servo (R426 to R428, R254). -/

/-- A value held to a signed 32-bit field. -/
def sat32 (v : Int) : Nat := codeOf 32 (max (-2147483648) (min v 2147483647))

/-- TIM_STAT. -/
def State.setTim (s : State) (source state steps : Nat) : State :=
  s.setRegNat (cmdReg 0xB00) (source % 8 + state % 4 * 16 + min steps 255 * 256)

/-- What the servo adds to a TIME cycle, in 2^−32 ns (R427): while a session is not FREE, no more than 100 ppm of the cycle's 4 ns
(R254). -/
def State.slew (s : State) : Int :=
  if s.sessions.all (fun e => e.2.state == .free) then s.servo.rate else max (-1717986) (min 1717986 s.servo.rate)

/-- One TIME cycle: the shift clock counts on by 4 ns and what the servo adds (R11, R32, R427). -/
def State.cycle (s : State) : State :=
  let c := ((s.now * 2 ^ 32 + s.servo.frac + 4 * 2 ^ 32 : Nat) + s.slew).toNat
  { s with now := c / 2 ^ 32 % 2 ^ 64, servo := { s.servo with frac := c % 2 ^ 32 } }

/-- PPS_OUT rises in a TIME cycle that takes the shift clock to a whole second (R412). -/
def State.ppsRises (s : State) : Bool := decide (s.now / 1000000000 ≠ s.cycle.now / 1000000000)

/-- One measurement of the offset from the master. The time is stepped only for more than 1 ms and while every session is FREE
(R254); the frequency changes with every measurement, by a law of the servo the spec does not give (R427, log entry 1). -/
def State.measure (s : State) (source steps : Nat) (off : Int) : State :=
  let v := s.servo
  let below := if off.natAbs < 50 then v.below + 1 else 0
  let above := if 500 < off.natAbs then v.above + 1 else 0
  let was := s.servoState
  let st := if was = 0 then (if 16 ≤ below then 1 else 0) else if 4 ≤ above then 0 else 1
  let jump := decide (1000000 < off.natAbs) && s.sessions.all (fun e => e.2.state == .free)
  let t := if jump then ((s.now : Int) - off).toNat % 2 ^ 64 else s.now
  let s1 : State := { s with
    now := t
    servo := { v with below := if st = 0 ∧ was ≠ 0 then 0 else below, above := above, lastAt := t, rate := Config.servoRate v.rate off } }
  (s1.setTim source st steps).setRegNat (cmdReg 0xB04) (sat32 off)

/-- SOURCE for time from stream port p (R441): 6 while the module is the grandmaster of a settled election. -/
def State.streamSource (s : State) (p : Nat) : Nat := if s.isGrand && s.links.settledElection then 6 else p

/-- Is stream port p the master's of others: does it not take time from it (R426)? -/
def State.ptpMaster (s : State) (p : Nat) : Bool := s.servo.masterPort != some p

/-- A difference of receipt and origin of a Sync on the port time is taken from: with the path delay known it is a measurement (R426, R427). -/
def State.ptpDown (s : State) (p : Nat) (down : Int) (steps : Nat) : State :=
  let q := s.ptp p
  let s1 := s.setPtp p { q with sync := none, down := some down }
  match q.delay with
  | none => s1
  | some d =>
    let s2 := ({ s1 with servo := { s1.servo with external := true } } : State).elect
    if s2.isGrand then s2.measure (s2.streamSource p) steps (down - d) else s2

/-- What the slave on port p does with a message of its master: a Sync, its Follow_Up, or the answer to its Delay_Req (R426). -/
def State.ptpFromMaster (s : State) (p : Nat) (b : Bytes) : State :=
  let q := s.ptp p
  let steps := (s.servo.announce.getD p []).getD 6 0 + 1
  let type := beAt b 0 1 % 16
  if type = ptpSync then
    if bitAt (beAt b 6 2) 9 then s.setPtp p { q with sync := some (ptpSeq b, s.now, ptpCorrection b) }
    else s.ptpDown p ((s.now : Int) - ptpTimeAt b 34 - ptpCorrection b) steps
  else if type = ptpFollowUp then
    match q.sync with
    | some v => if v.1 = ptpSeq b then s.ptpDown p ((v.2.1 : Int) - ptpTimeAt b 34 - v.2.2 - ptpCorrection b) steps else s
    | none => s
  else if type = ptpDelayResp ∧ sub b 44 10 = s.ptpIdent p then
    match q.req, q.down with
    | some v, some d =>
      if v.1 = ptpSeq b then s.setPtp p { q with req := none, delay := some ((d + ((ptpTimeAt b 34 : Int) - v.2 - ptpCorrection b)) / 2) } else s
    | none, _ => s
    | some _, none => s
  else s

/-- What a master announces on port p: the better of the two ports' is the one time is taken from. -/
def State.ptpAnnounced (s : State) (p : Nat) (b : Bytes) : State :=
  let a := s.servo.announce.set p [beAt b 47 1, beAt b 48 1, beAt b 49 1, beAt b 50 2, beAt b 52 1, beAt b 53 8, beAt b 61 2]
  let other := a.getD (1 - p) []
  let best := if other.isEmpty || dataBefore (a.getD p []) other then p else 1 - p
  ({ s with servo := { s.servo with announce := a, masterPort := some best } } : State).elect

/-- PTP_MESSAGE_RECEIVE (R426 to R428): a message of IEEE 1588 on a stream port. A master's Announce is noted, one that names this module's
own clock is not; a slave measures; the master of a port answers a Delay_Req. -/
def execPtpMessageReceive (port : Nat) (message : Bytes) (s : State) : Host.Outcome State Fault Refusal :=
  let type := beAt message 0 1 % 16
  when (decide (port < 2) && s.boot.hfRunning && s.links.streamUp.getD port false && s.ptpTakes message) s
    (if type = ptpAnnounce then (if beAt message 53 8 = s.rot.fuses.moduleId then s else (s.ptpAnnounced port message).judgeTime s)
     else if type = ptpDelayReq then (if s.ptpMaster port then s.ptpAnswer port message else s)
     else if s.ptpMaster port then s
     else (s.ptpFromMaster port message).judgeTime s)

/-- The hops from this module to the clock of its best dataset (R432). -/
def State.stepsToBest (s : State) : Nat := if s.isGrand then 0 else ((s.timePort.map (fun p => (s.xct p).steps)).getD 0) + 1

/-- PTP_SYNC_SEND (R426, R428): 16 times a second; as master a two-step Sync, and an Announce every 2 s (log entry 106); as slave a Delay_Req. -/
def execPtpSyncSend (port : Nat) (s : State) : Host.Outcome State Fault Refusal :=
  let s1 : State := { s with servo := { s.servo with syncAt := s.servo.syncAt.set port s.now } }
  let due := (s.ptp port).annAt.all (fun t => decide (t + 2000000000 ≤ s.now))
  when (decide (port < 2) && s.boot.hfRunning && s.links.streamUp.getD port false &&
    decide (s.servo.syncAt.getD port 0 + 62500000 ≤ s.now)) s
    (if s.ptpMaster port then (if due then s1.ptpSyncOut port |>.ptpAnnounceOut port s.bestNow s.stepsToBest else s1.ptpSyncOut port)
     else s1.ptpRequestOut port)

/-- The servo free-runs: no master, SOURCE 7 (R427). -/
def State.freeRun (s : State) : State :=
  let s1 : State := { s with servo := { s.servo with
    external := false, masterPort := none, announce := State.reset.servo.announce
    ptp := s.servo.ptp.map (fun q => { q with sync := none, down := none, req := none, delay := none }) } }
  (s1.setTim 7 0 0).elect

/-- SERVO_HOLDOVER (R427): 3 s without a measurement a locked servo is in holdover; an unlocked one has no source any more. -/
def execServoHoldover (s : State) : Host.Outcome State Fault Refusal :=
  let s1 : State := { s with servo := { s.servo with holdAt := s.now, below := 0, above := 0 } }
  when (decide (s.servo.lastAt + 3000000000 ≤ s.now) && (s.servoState == 1 || (s.servoState == 0 && s.servoSource != 7))) s
    (if s.servoState = 1 then s1.setField (cmdReg 0xB00) 4 2 2 else s1.freeRun.judgeTime s)

/-- HOLDOVER_EXPIRE (R427): 10 s more; the servo is unlocked and free-runs. -/
def execHoldoverExpire (s : State) : Host.Outcome State Fault Refusal :=
  when (s.servoState == 2 && decide (s.servo.holdAt + 10000000000 ≤ s.now)) s (s.freeRun.judgeTime s)

/-! Time across crosscut links (R433). -/

/-- A TIME payload: SUBTYPE and three times. -/
def timePayload (subtype t1 t2 t3 : Nat) : Bytes := natBe 1 subtype ++ zeros 7 ++ natBe 8 t1 ++ natBe 8 t2 ++ natBe 8 t3

/-- XCT_TIME_SEND (R433): a sync and a delay request, 64 of each a second. -/
def execXctTimeSend (port : Nat) (s : State) : Host.Outcome State Fault Refusal :=
  let s1 := s.setXct port { s.xct port with timeAt := s.now }
  when (decide (port < 4) && s.xctUp port && s.boot.hfRunning && decide ((s.xct port).timeAt + 15625000 ≤ s.now)) s
    ((s1.xctSend port 2 (timePayload 1 s.now 0 0)).xctSend port 2 (timePayload 2 s.now 0 0))

/-- What a TIME payload does: a sync measures on the port time is taken from, a request is answered, a response gives the delay. -/
def State.timeFrame (s : State) (p : Nat) (b : Bytes) : State :=
  let t1 := beAt b 8 8
  let t2 := beAt b 16 8
  let t3 := beAt b 24 8
  let sub := beAt b 0 1
  if sub = 1 then
    if s.timePort = some p then
      (s.measure (2 + p) ((s.xct p).steps + 1) ((s.now : Int) - t1 - s.servo.xctDelay.getD p 0)).judgeTime s
    else s
  else if sub = 2 then s.xctSend p 2 (timePayload 3 t1 s.now s.now)
  else if sub = 3 then
    { s with servo := { s.servo with xctDelay := s.servo.xctDelay.set p ((s.now - t1 - (t3 - t2)) / 2) } }
  else s

/-- XCT_TIME_FRAME (R433). -/
def execXctTimeFrame (port : Nat) (frame : Bytes) (s : State) : Host.Outcome State Fault Refusal :=
  when (decide (port < 4) && s.xctUp port && s.xctIs port 2 frame) s
    ((s.xctTake port frame).timeFrame port (xctPayload frame))

/-! Hellos (R376, R432). -/

/-- Are two link records the same link, named from either end? -/
def sameLink (a b : KnownLink) : Bool :=
  (a.modA == b.modA && a.portA == b.portA && a.modB == b.modB && a.portB == b.portB) ||
    (a.modA == b.modB && a.portA == b.portB && a.modB == b.modA && a.portB == b.portA)

/-- The 20 bytes of a link. -/
def linkBytes (k : KnownLink) : Bytes :=
  natBe 8 k.modA ++ natBe 1 k.portA ++ zeros 1 ++ natBe 8 k.modB ++ natBe 1 k.portB ++ zeros 1

/-- The dataset of a hello: the best one known and the hops to its module. -/
def State.helloData (s : State) : Bytes :=
  let d := s.bestNow
  natBe 1 (d.getD 0 0) ++ natBe 1 (d.getD 1 0) ++ natBe 1 (d.getD 2 0) ++ natBe 2 (d.getD 3 0) ++ natBe 1 (d.getD 4 0) ++
    natBe 8 (d.getD 5 0) ++ natBe 2 s.stepsToBest ++ zeros 4

/-- The hello payload of port p. -/
def State.helloPayload (s : State) (p : Nat) : Bytes :=
  let ks := s.links.known.take 128
  natBe 8 s.rot.fuses.moduleId ++ natBe 1 p ++ natBe 1 s.phase ++ zeros 2 ++
    natBe 4 ((s.boot.plan.map (fun q => q.district)).getD 0) ++ s.helloData ++ natBe 2 ks.length ++ zeros 2 ++ ks.flatMap linkBytes

/-- HELLO_SEND (R376): every 10 ms on a port in service. -/
def execHelloSend (port : Nat) (s : State) : Host.Outcome State Fault Refusal :=
  let s1 := s.setXct port { s.xct port with helloAt := s.now }
  when (decide (port < 4) && s.xctUp port && s.boot.hfRunning && decide ((s.xct port).helloAt + 10000000 ≤ s.now)) s
    (s1.xctSend port 1 (s.helloPayload port))

/-- Link i of a hello. -/
def helloLink (b : Bytes) (now i : Nat) : KnownLink :=
  let o := 40 + 20 * i
  { modA := beAt b o 8, portA := beAt b (o + 8) 1, modB := beAt b (o + 10) 8, portB := beAt b (o + 18) 1, seen := now }

/-- A reported link kept: a new one is a change of topology. -/
def State.learnLink (s : State) (k : KnownLink) : State :=
  if s.links.known.any (sameLink k) then
    { s with links := { s.links with known := s.links.known.map (fun q => if sameLink k q then { q with seen := k.seen } else q) } }
  else { s with links := { s.links with known := s.links.known ++ [k] } }.topologyChanged

/-- A crosscut port disabled until it next trains (R371, R434): its neighbour's dataset no longer counts. -/
def State.xctDisable (s : State) (p : Nat) : State :=
  let s1 := (s.setField (cmdReg (0xC00 + 16 * p)) 0 4 0).setXct p {}
  (({ s1 with links := { s1.links with xctTried := (s1.links.xctTried ++ [p]).eraseDups } } : State).elect).wantSurvey

/-- A hello taken: the neighbour, its dataset, its links. One of another district disables the port (R371). -/
def State.hello (s : State) (p : Nat) (b : Bytes) : State :=
  let id := beAt b 0 8
  let q := beAt b 8 1
  let district := beAt b 12 4
  let a := cmdReg (0xC00 + 16 * p)
  let x := s.xct p
  let data := [beAt b 16 1, beAt b 17 1, beAt b 18 1, beAt b 19 2, beAt b 21 1, beAt b 22 8]
  let changed := !x.nbrSeen || s.field a 8 2 != q || s.regNat (a + 4) + s.regNat (a + 8) * 2 ^ 32 != id
  let s1 := ((s.setField a 8 2 q).setRegNat (a + 4) id).setRegNat (a + 8) (id / 2 ^ 32)
  let s2 := s1.setXct p { x with nbrSeen := true, dataset := data, steps := beAt b 30 2 }
  if district ≠ (s.boot.plan.map (fun q => q.district)).getD 0 then s2.xctDisable p
  else
    let own : KnownLink := { modA := s.rot.fuses.moduleId, portA := p, modB := id, portB := q, seen := s.now }
    let n := min (beAt b 36 2) 128
    let s3 := s2.each (own :: (List.range n).map (helloLink b s.now)) State.learnLink
    let s4 := s3.elect
    if changed then s4.wantSurvey else s4

/-- HELLO_RECEIVE (R371, R376, R377, R432). -/
def execHelloReceive (port : Nat) (frame : Bytes) (s : State) : Host.Outcome State Fault Refusal :=
  when (decide (port < 4) && s.xctUp port && s.boot.hfRunning && s.xctIs port 1 frame && decide (40 ≤ (xctPayload frame).length)) s
    (((s.xctTake port frame).hello port (xctPayload frame)).judgeTime s)

/-- NEIGHBOUR_TIMEOUT (R432): links that no neighbour has reported for 50 ms are removed, with the neighbours of those of this
module. -/
def execNeighbourTimeout (s : State) : Host.Outcome State Fault Refusal :=
  let old := s.links.known.filter (fun k => decide (k.seen + 50000000 ≤ s.now))
  let me := s.rot.fuses.moduleId
  let gone := (List.range 4).filter (fun p => s.xctUp p &&
    old.any (fun k => (k.modA == me && k.portA == p) || (k.modB == me && k.portB == p)))
  let s1 : State := { s with links := { s.links with known := s.links.known.filter (fun k => !old.contains k) } }.topologyChanged
  let s2 := s1.each gone (fun s p => s.setXct p { s.xct p with nbrSeen := false, dataset := [], steps := 0 })
  when (!old.isEmpty) s ((s2.elect.wantSurvey).judgeTime s)

/-- ELECTION_SETTLE (R377): the best dataset has not changed for 3 hello periods after the last change of topology. -/
def execElectionSettle (s : State) : Host.Outcome State Fault Refusal :=
  let s1 : State := { s with links := { s.links with best := s.bestNow, settledElection := true } }
  when (s.boot.hfRunning && !s.links.settledElection && (s.links.best == s.bestNow || s.links.best.isEmpty) &&
    decide (s.links.topologyAt + 30000000 ≤ s.now) && decide (s.links.bestAt + 30000000 ≤ s.now)) s (s1.judgeTime s)

/-! Lanes (R434). -/

/-- The payload of a LANE frame, whose layout the spec does not give (log entry 2). -/
def lanePayload (n : Nat) : Bytes := (List.range (Config.freeChoice n % 9233)).map (fun i => Config.freeByte (n + i))

/-- A LANE frame sent. -/
def State.laneSend (s : State) (p : Nat) : State :=
  let r := s.draw
  r.2.xctSend p 3 (lanePayload r.1)

/-- XCT_LANE (R434): a lane fails; the port goes on at the widest width left, frames in flight are resent, and with no lane left the
port is disabled. -/
def execXctLane (port lane : Nat) (s : State) : Host.Outcome State Fault Refusal :=
  let a := cmdReg (0xC00 + 16 * port)
  let s1 := (s.setField a (4 + lane) 1 0).raise 0x23 2 1 0 noFace none port lane
  let s2 := s1.logUnit { kind := 9, index := 4 * port + lane } 1 3 0x23
  let good := (List.range 4).countP (fun n => s2.field a (4 + n) 1 == 1)
  let w := laneWidth good
  let s3 := (s2.setField a 2 2 (widthCode w)).xctResend port
  let s4 := (s3.setXct port { s3.xct port with laneBusy := true }).laneSend port
  when (decide (port < 4) && decide (lane < 4) && s.xctUp port && s.field a (4 + lane) 1 == 1) s
    (if w = 0 then (s2.xctDisable port).judgeTime s else s4.wantSurvey)

/-- XCT_LANE_FRAME (R434): the other end's LANE frame is answered, where this end has not sent one, with the frames in flight
resent. -/
def execXctLaneFrame (port : Nat) (frame : Bytes) (s : State) : Host.Outcome State Fault Refusal :=
  let s1 := s.xctTake port frame
  when (decide (port < 4) && s.xctUp port && s.xctIs port 3 frame) s
    (if (s.xct port).laneBusy then s1.setXct port { s1.xct port with laneBusy := false } else (s1.xctResend port).laneSend port)

end Sys2Proof.Machine
end

