-- ==== Sys2Proof/Machine/Ports.lean ====
section
/-! DEFINITION. Stream ports (R418 to R425): filtering of received frames, the USF receiver's packets, ingest pictures, and the
sending of held units; one meaning per row. -/

namespace Sys2Proof.Machine

open Sys2Proof

/-! Frames received. -/

/-- What becomes of a received frame (R418): passed on, dropped and counted, ignored, answered with a frame, or the MAC address of a
neighbour learnt from it. -/
inductive FrameFate where
  | pass
  | drop
  | ignore
  | answer (type : Nat) (body : Bytes)
  | learn (ip mac : Nat)
  deriving DecidableEq, Repr

/-- UDP ports the device listens on: control, media, and those of IEEE 1588 over UDP (R418, R421, R426). -/
def PortRec.listens (r : PortRec) (udp : Nat) : Bool := udp == r.ctrlUdp || udp == r.mediaUdp || udp == 319 || udp == 320

/-- Is a UDP datagram's checksum good (R418): verified where not zero; zero only over IPv4? -/
def udpOk (src dst : Nat) (b : Bytes) : Bool :=
  decide (8 ≤ b.length) && beAt b 4 2 == b.length &&
    (if beAt b 6 2 = 0 then isV4 dst else inetSum (pseudo src dst 17 b.length ++ b) == 0)

/-- A UDP datagram of IEEE 1588, to one of the multicast groups its messages use (R426; the groups are the standard's). -/
def ptpGroup (dst udp : Nat) : Bool :=
  (udp == 319 || udp == 320) && (dst == v4In6 0xE0000181 || dst == v4In6 0xE000006B ||
    (dst / 2 ^ 120 == 0xFF && (dst % 2 ^ 112 == 0x181 || dst % 2 ^ 112 == 0x6B)))

/-- An IPv4 packet for the port. -/
def PortRec.takeV4 (r : PortRec) (b0 : Bytes) (ttl ident : Nat) : FrameFate :=
  let b := b0.take (beAt b0 2 2)
  let src := v4In6 (beAt b 12 4)
  let dst := v4In6 (beAt b 16 4)
  let body := b.drop 20
  if r.ipv4 = 0 || decide (b.length < 20) || beAt b 0 1 != 0x45 || beAt b 2 2 != b.length || inetSum (b.take 20) != 0 ||
      beAt b 6 2 % 0x4000 != 0 || (beAt b 16 4 != r.ipv4 && !(beAt b 9 1 == 17 && ptpGroup dst (beAt body 2 2))) then .drop
  else if beAt b 9 1 = 17 then (if udpOk src dst body && r.listens (beAt body 2 2) then .pass else .drop)
  else if beAt b 9 1 = 1 ∧ beAt body 0 2 = 0x0800 ∧ inetSum body = 0 then
    let e := fun (sum : Nat) => natBe 2 0 ++ natBe 2 sum ++ body.drop 4
    .answer 0x0800 (ipPacket dst src 1 ttl ident (e (inetSum (e 0))))
  else .drop

/-- Does a port ask for an address's MAC: its gateway's, or one in its prefix (R418, R419)? -/
def PortRec.asksFor (r : PortRec) (ip : Nat) : Bool := r.onLink ip || ip == (if isV4 ip then v4In6 r.gateway4 else r.gateway6)

/-- An IPv6 packet for the port: UDP, echo, neighbour solicitation for its address, and the advertisements of the neighbours it asks for. -/
def State.takeV6 (s : State) (p : Nat) (r : PortRec) (b0 : Bytes) (ttl : Nat) : FrameFate :=
  let b := b0.take (40 + beAt b0 4 2)
  let src := beAt b 8 16
  let dst := beAt b 24 16
  let body := b.drop 40
  let mine := dst == r.ipv6
  let solicited := dst / 2 ^ 24 == 0xFF0200000000000000000001FF && dst % 2 ^ 24 == r.ipv6 % 2 ^ 24
  let sum := inetSum (pseudo src dst 58 body.length ++ body) == 0
  let group := beAt b 6 1 == 17 && ptpGroup dst (beAt body 2 2)
  let advert := beAt b 6 1 == 58 && beAt body 0 2 == 0x8800 && r.asksFor (beAt body 8 16) && (mine || dst == 0xFF02 * 2 ^ 112 + 1)
  if r.ipv6 = 0 || decide (b.length < 40) || beAt b 0 1 / 16 != 6 || beAt b 4 2 != body.length || !(mine || solicited || group || advert) then .drop
  else if beAt b 6 1 = 17 then (if (mine || group) && udpOk src dst body && r.listens (beAt body 2 2) then .pass else .drop)
  else if beAt b 6 1 = 58 ∧ sum then
    if advert then (if beAt body 24 2 = 0x0201 ∧ 32 ≤ body.length then .learn (beAt body 8 16) (beAt body 26 6) else .ignore)
    else if beAt body 0 2 = 0x8000 ∧ mine then
      let e := fun (c : Nat) => natBe 2 0x8100 ++ natBe 2 c ++ body.drop 4
      .answer 0x86DD (ipPacket dst src 58 ttl 0 (e (inetSum (pseudo dst src 58 body.length ++ e 0))))
    else if beAt body 0 2 = 0x8700 ∧ beAt body 8 16 = r.ipv6 then
      let e := fun (c : Nat) => natBe 2 0x8800 ++ natBe 2 c ++ natBe 4 0x60000000 ++ natBe 16 r.ipv6 ++ natBe 2 0x0201 ++ natBe 6 (s.macOf p)
      .answer 0x86DD (ipPacket r.ipv6 src 58 255 0 (e (inetSum (pseudo r.ipv6 src 58 32 ++ e 0))))
    else .drop
  else .drop

/-- An ARP packet: a request for the port's IPv4 address is answered, a reply to the port tells a neighbour's MAC address. -/
def State.takeArp (s : State) (p : Nat) (r : PortRec) (b : Bytes) : FrameFate :=
  if ¬ (beAt b 0 4 = 0x00010800 ∧ beAt b 4 2 = 0x0604 ∧ r.ipv4 ≠ 0 ∧ beAt b 24 4 = r.ipv4) then .ignore
  else if beAt b 6 2 = 2 ∧ r.asksFor (v4In6 (beAt b 14 4)) then .learn (v4In6 (beAt b 14 4)) (beAt b 8 6)
  else if beAt b 6 2 = 1 then
    .answer 0x0806 (natBe 4 0x00010800 ++ natBe 4 0x06040002 ++ natBe 6 (s.macOf p) ++ natBe 4 r.ipv4 ++ sub b 8 10)
  else .ignore

/-- A frame by its type, the tag taken off. -/
def State.takeType (s : State) (p : Nat) (r : PortRec) (type : Nat) (b : Bytes) (ttl ident : Nat) : FrameFate :=
  if type = 0x0800 then r.takeV4 b ttl ident
  else if type = 0x86DD then s.takeV6 p r b ttl
  else if type = 0x0806 then s.takeArp p r b
  else if type = 0x88F7 then .pass
  else .drop

/-- The fate of a sound frame (R418): another station's is ignored; one tag with the port's VID, or none. -/
def State.frameFate (s : State) (p : Nat) (b : Bytes) (ttl ident : Nat) : FrameFate :=
  let r := (s.port p).getD {}
  let dst := beAt b 0 6
  let type := beAt b 12 2
  let rest := (b.take (b.length - 4)).drop 14
  if !bitAt (beAt b 0 1) 0 && dst != s.macOf p then .ignore
  else if type = 0x8100 then
    if beAt rest 0 2 % 4096 = r.vlan ∧ r.vlan ≠ 0 then s.takeType p r (beAt rest 2 2) (rest.drop 4) ttl ident else .drop
  else s.takeType p r type rest ttl ident

/-- Is the frame a PAUSE frame: MAC control, opcode 1? -/
def isPause (b : Bytes) : Bool := beAt b 12 2 == 0x8808 && beAt b 14 2 == 1

/-- ETH_FRAME_RECEIVE (R334, R335, R418): the frame is checked and filtered; a datagram passed on is the concern of its own row. -/
def execEthFrameReceive (port : Nat) (frame : Bytes) (tallyOk : Bool) (s : State) : Host.Outcome State Fault Refusal :=
  let a := 0xD00 + 16 * port
  let sound := decide (4 ≤ frame.length) && leAt frame (frame.length - 4) 4 == crcFcs (frame.take (frame.length - 4))
  let r := s.draw
  let r2 := r.2.draw
  when (decide (port < 2) && s.links.streamUp.getD port false) s
    (if !sound then s.bumpReg (cmdReg a) 1
     else if decide (frame.length < 64) || decide (9222 < frame.length) then s.bumpReg (cmdReg (a + 4)) 1
     else if isPause frame then s.bumpReg (cmdReg (a + 8)) 1
     else if !tallyOk then (s.bumpReg (cmdReg 0x850) 1).raise 0x07 0 1 0 noFace none port 0
     else match s.frameFate port frame (Config.freeChoice r.1 % 256) (Config.freeChoice r2.1 % 65536) with
       | .pass => s
       | .drop => s.bumpReg (cmdReg (a + 4)) 1
       | .ignore => s
       | .answer type body => r2.2.send (.net port (r2.2.ethFrame port (sub frame 6 6) type body true))
       | .learn ip mac => s.learnMac port ip mac)

/-! Sessions by datagram (R421). -/

/-- A datagram that matches no binding is dropped and counted. -/
def State.rxDrop (s : State) (p : Nat) : State := s.bumpReg (cmdReg (0xD04 + 16 * p)) 1

/-- The session that holds the binding (port, MEDIA_UDP, SSRC), parked ones left out. -/
def State.boundTo (s : State) (p udp ssrc : Nat) : Option Nat :=
  if (s.port p).map (fun r => r.mediaUdp) = some udp then
    (s.sessions.find? (fun e => e.2.state != .free && e.2.state != .parked && e.2.inPort == p && e.2.inSsrc == ssrc)).map (fun e => e.1)
  else none

/-- The encode session a loss report is for: its STREAM_ID as SSRC, from its primary destination's address (R421). -/
def State.reportTo (s : State) (p udp ssrc : Nat) (src : NetAddr) : Option Nat :=
  if (s.port p).map (fun r => r.mediaUdp) = some udp then
    (s.sessions.find? (fun e => e.2.state != .free && e.2.state != .parked && !e.2.decode && e.2.streamId == ssrc &&
      ((s.groupOf e.2).dests.getD 0 {}).addr == src.ip)).map (fun e => e.1)
  else none

/-- The session a USF packet is for: a decode session's binding, or an encode session's loss reports. -/
def State.usfTarget (s : State) (p udp ssrc : Nat) (src : NetAddr) : Option Nat :=
  match (s.boundTo p udp ssrc).filter (fun i => (s.ses i).decode) with
  | some i => some i
  | none => s.reportTo p udp ssrc src

/-! The USF payload (R422, R423). -/

/-- The units of a KIND 0 packet, by their LENGTH; what is too short for one is one string. -/
def splitUnits : Nat → Bytes → List Bytes
  | 0, b => if b.isEmpty then [] else [b]
  | n + 1, b =>
    if b.isEmpty then []
    else if b.length < 12 ∨ b.length < 12 + usfLength b then [b]
    else b.take (12 + usfLength b) :: splitUnits n (b.drop (12 + usfLength b))

/-- Units delivered to a session in order; a decode session keeps where they came from. -/
def State.deliverUnits (s : State) (id : Nat) (src : NetAddr) (us : List Bytes) : State :=
  let x := s.ses id
  s.setSes id { x with dec := { x.dec with rx := x.dec.rx ++ us, src := if x.decode then some src else x.dec.src } }

/-- Bytes of incomplete units a port holds. -/
def State.fragBytes (s : State) (p : Nat) : Nat := (s.frags.filter (fun f => f.port == p)).foldl (fun n f => n + f.bytes.length) 0

/-- Reassembly space made for n bytes on a port: the oldest incomplete units go first, at most k (R423). -/
def State.fragRoom (s : State) (p n : Nat) : Nat → State
  | 0 => s
  | k + 1 =>
    if s.fragBytes p + n ≤ 33554432 then s
    else match s.frags.find? (fun f => f.port == p) with
      | some f => { s with frags := s.frags.erase f }.fragRoom p n k
      | none => s

/-- A fragment taken: the unit delivered with its last one; one that does not follow loses its unit. A unit keeps its place among the
incomplete ones, and where space is needed it may itself be the oldest that goes (R423). -/
def State.takeFragment (s : State) (id port ssrc rtpSeq kind ix : Nat) (src : NetAddr) (b : Bytes) : State :=
  let mine := fun (f : Fragment) => f.port == port && f.ssrc == ssrc
  let s1 : State := { s with frags := s.frags.filter (fun f => !mine f) }
  if kind = 1 then
    if ix = 0 then
      let s2 := s1.fragRoom port b.length s1.frags.length
      { s2 with frags := s2.frags ++ [{ port := port, ssrc := ssrc, src := src, rtpNext := (rtpSeq + 1) % 65536, ixNext := 1, bytes := b, since := s.now }] }
    else s1
  else
    match s.frags.find? mine with
    | none => s
    | some f =>
      if f.rtpNext ≠ rtpSeq ∨ f.ixNext ≠ ix ∨ f.since + 2000000 < s.now then s1
      else if kind = 3 then s1.deliverUnits id f.src [f.bytes ++ b]
      else
        let s3 := s.fragRoom port b.length s.frags.length
        { s3 with frags := s3.frags.map (fun g =>
            if mine g then { f with rtpNext := (rtpSeq + 1) % 65536, ixNext := ix + 1, bytes := f.bytes ++ b } else g) }

/-- USF_PACKET_RECEIVE (R421 to R423): the RTP payload of a datagram on MEDIA_UDP. -/
def execUsfPacketReceive (port : Nat) (src : NetAddr) (dstUdp ssrc rtpSeq : Nat) (payload : Bytes) (s : State) :
    Host.Outcome State Fault Refusal :=
  let w := beAt payload 0 4
  let b := payload.drop 4
  when (decide (port < 2) && s.links.streamUp.getD port false && s.boot.warmCause.isNone) s
    (match s.usfTarget port dstUdp ssrc src with
     | none => s.rxDrop port
     | some id =>
       if payload.length < 4 then s.rxDrop port
       else if bits w 30 2 = 0 then s.deliverUnits id src (splitUnits b.length b)
       else s.takeFragment id port ssrc rtpSeq (bits w 30 2) (bits w 0 16) src b)

/-- FRAGMENT_TIMEOUT (R423). -/
def execFragmentTimeout (port ssrc : Nat) (s : State) : Host.Outcome State Fault Refusal :=
  ok { s with frags := s.frags.filter (fun f => !(f.port == port && f.ssrc == ssrc && decide (f.since + 2000000 ≤ s.now))) }

/-! Ingest (R424, R425). -/

/-- Sample bytes put into a picture; a byte received twice takes the later copy. -/
def Picture.put (c : Picture) (h : Bytes) (plane off : Nat) (b : Bytes) : Picture :=
  let n := min b.length (planeBytes h plane - off)
  let new := (List.range n).map (fun i => (plane, off + i, b.getD i 0))
  let old := c.bytes.filter (fun q => !(q.1 == plane && decide (off ≤ q.2.1) && decide (q.2.1 < off + n)))
  if plane < planeCount h then { c with bytes := old ++ new } else c

/-- The arrival of bands, and of a picture, complete now (R425). -/
def Picture.noteBands (c : Picture) (h : Bytes) (now : Nat) : Picture :=
  let done := if hdrMedia h = 1 then (List.range (sliceCount h)).filter (c.bandIn h) else if c.complete h then [0] else []
  { c with
    doneAt := if c.doneAt.isNone && c.complete h then some now else c.doneAt
    bands := c.bands ++ (done.filter (fun i => !c.bands.any (fun q => q.1 == i))).map (fun i => (i, now)) }

/-- Room for a new picture: of two held, the older incomplete one goes, or the older where both are complete. -/
def Session.pictureRoom (x : Session) : Session :=
  if x.ingest.length < 2 then x
  else
    let gone := (x.ingest.find? (fun c => !c.complete x.header)).orElse (fun _ => x.ingest.head?)
    { x with ingest := x.ingest.filter (fun c => some c.num != gone.map (fun (g : Picture) => g.num)) }

/-- A raw media packet taken into a session's ingest. -/
def Session.takeRaw (x : Session) (b : Bytes) (now : Nat) : Session :=
  let num := beAt b 0 4
  let h := x.header
  let put := fun (c : Picture) => (c.put h (beAt b 24 1) (beAt b 20 4) (b.drop 32)).noteBands h now
  if (x.picture num).isSome then { x with ingest := x.ingest.map (fun c => if c.num = num then put c else c) }
  else
    let y := x.pictureRoom
    { y with ingest := y.ingest ++ [put { num := num, pts := beAt b 4 8 }] }

/-- RAW_MEDIA_PACKET (R421, R424, R425). -/
def execRawMediaPacket (port dstUdp ssrc : Nat) (payload : Bytes) (s : State) : Host.Outcome State Fault Refusal :=
  when (decide (port < 2) && s.links.streamUp.getD port false && s.boot.warmCause.isNone) s
    (match (s.boundTo port dstUdp ssrc).filter (fun i => !(s.ses i).decode) with
     | none => s.rxDrop port
     | some id => if payload.length < 32 then s.rxDrop port else s.setSes id ((s.ses id).takeRaw payload s.now))

/-! Sending (R270, R420, R422, R435). -/

/-- The unit space of a packet (R422). -/
def unitSpace (mtu addr : Nat) : Nat := mtu - (if isV4 addr then 44 else 64)

/-- The ready units that one packet takes, in emission order. -/
def gather (space : Nat) : Nat → List HeldUnit → List HeldUnit
  | _, [] => []
  | n, u :: r => if n + u.bytes.length ≤ space then u :: gather space (n + u.bytes.length) r else []

/-- The payloads of the packets that carry the head of a destination's units: whole units, or the head's fragments; whether it is the
last packet of them. -/
def usfPayloads (space : Nat) (us : List HeldUnit) : List HeldUnit × List Bytes :=
  match us with
  | [] => ([], [])
  | u :: _ =>
    if u.bytes.length ≤ space then
      let g := gather space 0 us
      (g, [natBe 4 0 ++ g.flatMap (fun v => v.bytes)])
    else
      let cs := chunks space u.bytes
      let n := cs.length
      ([u], ((List.range n).zip cs).map (fun q =>
        natBe 4 ((if q.1 = 0 then 1 else if q.1 + 1 = n then 3 else 2) * 2 ^ 30 + q.1) ++ q.2))

/-- A datagram sent through a stream port, or relayed by a crosscut neighbour (R435). The neighbour's port is free (log entry 2). -/
def State.sendRtp (s : State) (d : DestRec) (own : Nat) (rtp : Bytes) (good : Bool) : State :=
  let r := (s.port own).getD {}
  let frame := fun (p : Nat) => s.datagram p { ip := d.addr, udp := d.udp } r.mediaUdp rtp good
  if d.portSel < 2 then s.sendNet d.portSel d.addr (.usf d.portSel d.addr d.udp r.mediaUdp rtp good (frame d.portSel))
  else s.xctSend (d.portSel - 2) 4 (natBe 1 own ++ zeros 3 ++ frame own)

/-- The units the next packets of a destination hold, and their payloads (R270, R420, R422). -/
def State.nextPackets (s : State) (session dest : Nat) : List HeldUnit × List Bytes :=
  let x := s.ses session
  let d := (s.groupOf x).dests.getD dest {}
  let own := if d.portSel < 2 then d.portSel else Config.freeChoice s.draws % 2
  usfPayloads (unitSpace ((s.port own).getD {}).mtu d.addr) (x.egress.units.filter (fun u => u.holds.contains dest))

/-- The units of the next packets. -/
def State.nextUnits (s : State) (session dest : Nat) : List HeldUnit := (s.nextPackets session dest).1

/-- May a destination send: its session encodes, a unit is held for it, and its port carries (R270)? -/
def State.canSendTo (s : State) (session dest : Nat) : Bool :=
  let x := s.ses session
  let d := (s.groupOf x).dests.getD dest {}
  let up := if d.portSel < 2 then s.links.streamUp.getD d.portSel false else s.xctUp (d.portSel - 2)
  s.sesLive session && x.state != .free && !x.decode && decide (dest < x.egress.dests.length) && up &&
    !(s.nextUnits session dest).isEmpty

/-- A destination sends the next packet of its held units, or the fragments of the next one, and lets its holds go. bad: a unit
whose tally or buffer fails; its frame goes out with its FCS inverted and its session owes a refresh (R335, R337). -/
def State.sendTo (s : State) (session dest : Nat) (bad : Option HeldUnit) : State :=
  let x := s.ses session
  let d := (s.groupOf x).dests.getD dest {}
  let own := if d.portSel < 2 then d.portSel else Config.freeChoice s.draws % 2
  let s0 : State := if d.portSel < 2 then s else { s with draws := s.draws + 1 }
  let q := s.nextPackets session dest
  let last := q.1.any (fun u => u.last)
  let stamp := rtpStamp x.header ((q.1.head?.map (fun u => u.pts)).getD 0)
  let seq := (x.egress.dests.getD dest {}).rtpSeq
  let n := q.2.length
  let s1 := s0.each ((List.range n).zip q.2) (fun s p =>
    s.sendRtp d own (rtpPacket (last && p.1 + 1 == n) d.payload ((seq + p.1) % 65536) stamp x.streamId p.2)
      (bad.isNone || p.1 + 1 != n))
  let units := (x.egress.units.map (fun u => if q.1.contains u then { u with holds := u.holds.filter (fun i => i != dest) } else u)).filter
    (fun u => !u.holds.isEmpty)
  let y := { x with
    refreshDue := x.refreshDue || bad.isSome
    egress := { x.egress with units := units
                              dests := x.egress.dests.modify dest (fun k => { k with rtpSeq := (seq + n) % 65536 }) } }
  let s2 := s1.setSes session y
  if bad.isSome then s2.bumpReg (cmdReg 0x854) 1 else s2

/-- Does a held slice differ from its tally (R332, R334)? -/
def HeldUnit.tallyFails (u : HeldUnit) : Bool := u.slice && crc32c ((usfPayload u.bytes).drop 8) != u.tally

/-- DESTINATION_SEND (R270, R334, R335, R420, R422). A slice whose tally fails, as it is held or as the port reads it out of its lots (the
operand, log entry 70), goes out with its FCS inverted. -/
def execDestinationSend (session dest : Nat) (tallyOk : Bool) (s : State) : Host.Outcome State Fault Refusal :=
  let bad := (s.nextUnits session dest).find? (fun u => u.tallyFails || (u.slice && !tallyOk))
  let t := s.sendTo session dest bad
  when (s.canSendTo session dest) s
    (match bad with
     | none => t
     | some u => t.raise 0x14 1 1 (session / 262144) noFace (some (.session session)) ((s.groupOf (s.ses session)).dests.getD dest {}).portSel u.seq)

/-! Decoded frames (R260, R424). -/

/-- The bytes of a plane as raw media packets carry it. -/
def planeWire (h : Bytes) (p : Plane) : Bytes := p.samples.flatMap (natBe (sampleBytes h))

/-- The sample bytes a raw media packet takes: as many whole samples as the MTU leaves after the IP, UDP, RTP and raw headers (log entry
95). -/
def rawRoom (h : Bytes) (mtu addr : Nat) : Nat := (mtu - (if isV4 addr then 72 else 92)) / sampleBytes h * sampleBytes h

/-- The RTP payloads of a frame's output, plane by plane (R424). -/
def rawPayloads (room : Nat) (f : DecFrame) (planes : List Plane) : List Bytes :=
  let parts := ((List.range planes.length).zip planes).flatMap (fun q =>
    let cs := chunks room (planeWire f.hdr q.2)
    ((List.range cs.length).zip cs).map (fun c => (q.1, room * c.1, c.2)))
  ((List.range parts.length).zip parts).map (fun q =>
    natBe 4 f.num ++ natBe 8 f.pts ++ natBe 8 f.bands ++ natBe 4 q.2.2.1 ++ natBe 1 q.2.1 ++
      natBe 1 (f.marks + 4 * b2n (q.1 + 1 == parts.length)) ++ zeros 6 ++ q.2.2.2)

/-- A decoded frame sent to one destination of the session's output group (R260, R420). -/
def State.outputTo (s : State) (session : Nat) (f : DecFrame) (planes : List Plane) (dest : Nat) : State :=
  let x := s.ses session
  let d := (s.groupOf x).dests.getD dest {}
  let own := if d.portSel < 2 then d.portSel else Config.freeChoice s.draws % 2
  let s0 : State := if d.portSel < 2 then s else { s with draws := s.draws + 1 }
  let ps := rawPayloads (rawRoom f.hdr ((s.port own).getD {}).mtu d.addr) f planes
  let seq := (x.egress.dests.getD dest {}).rtpSeq
  let n := ps.length
  let s1 := s0.each ((List.range n).zip ps) (fun s p =>
    s.sendRtp d own (rtpPacket (p.1 + 1 == n) d.payload ((seq + p.1) % 65536) (rtpStamp f.hdr f.pts) x.streamId p.2) true)
  s1.setSes session { x with
    egress := { x.egress with dests := x.egress.dests.modify dest (fun k => { k with rtpSeq := (seq + n) % 65536 }) } }

/-- A decoded frame delivered through the session's output group. -/
def State.outputFrame (s : State) (session : Nat) (f : DecFrame) (planes : List Plane) : State :=
  s.each (List.range (s.ses session).egress.dests.length) (fun s i => s.outputTo session f planes i)

/-- DECODE_FRAME_OUTPUT (R67, R77, R79, R80, R260, R261, R269): the frame is delivered with its marks, a loss report sent where
one is due, and the frame's checkpoint round armed. -/
def execDecodeFrameOutput (session : Nat) (s : State) : Host.Outcome State Fault Refusal :=
  let x := s.ses session
  match x.dec.frames with
  | [] => ok s
  | f :: _ =>
    let y := x.noteOutput f s.now
    let s1 := ((s.missLevel session (x.outputLate f s.now)).setSes session y).outputFrame session f (s.outputPlanes x f)
    when (s.sesLive session && x.decode && x.state == .active && f.final) s
      ((s1.reportLoss session (hdrStreamId f.hdr) (f.left.slots x)).frameDone session f.left)

end Sys2Proof.Machine
end

