-- ==== Sys2Proof/Machine/Requests.lean ====
section
/-! DEFINITION. How Headframe takes a request and answers it (R442 to R453): the command queue, the role, the precedence of the
statuses, the held responses. -/

namespace Sys2Proof.Machine

open Sys2Proof

/-- What a command answers: a status code of R453, DETAIL, what follows ACCEPT_TIME, and what it does once the response has been
sent. -/
structure Reply where
  status : Nat := 0
  detail : Nat := 0
  body   : Bytes := []
  after  : State → State := fun s => s

/-- A control frame's entry in Headframe's queue (R442). -/
def reqEntry (rq : Req) (op : Nat) : HfEntry := { path := 0, opcode := op, slot := rq.slot, reqId := rq.reqId }

/-- Is it the entry's turn (R442): no command is before it? -/
def State.entryTurn (s : State) (e : HfEntry) : Bool := s.ctrl.queue.head?.all (fun h => h == e)

/-- A command taken from Headframe's queue (R442): path 0 control frame, 1 SMBus, 2 Lamp. -/
def State.takeEntry (s : State) (e : HfEntry) : State := { s with ctrl := { s.ctrl with queue := s.ctrl.queue.erase e } }

/-- A command put into Headframe's queue (R442). -/
def State.enqueue (s : State) (e : HfEntry) : State := { s with ctrl := { s.ctrl with queue := s.ctrl.queue ++ [e] } }

/-- Is the opcode an open, a resume or a job start (R396, R405)? -/
def startOp (op : Nat) : Bool := op == 0x0100 || op == 0x0103 || op == 0x0200

/-- May a module that is not READY or READY_DEGRADED act on the opcode (R374): one that reads status, the event log or
attestation, or that stages a Plan (directory included) or a claim? kind: KIND of the container it stages, 0 for none known. -/
def quietOp (op kind : Nat) : Bool :=
  (op / 256 == 0 && op != 0x0018) || op == 0x0400 ||
    (decide (0x0300 ≤ op) && decide (op ≤ 0x0303) && (kind == 0 || kind == 1 || kind == 4))

/-- The general statuses of R453 that stand before a command's own checks: REMOVING, STANDBY, NOT_READY. -/
def State.gate (s : State) (op kind : Nat) : Nat :=
  if startOp op && s.pwr.removal.isSome then 11
  else if startOp op && s.pwr.standby != 0 then 10
  else if s.phase = 9 ∨ s.phase = 10 ∨ quietOp op kind = true then 0
  else 9

/-- A request's reply under the precedence of R453: BAD_FRAME, NO_ROLE, the general statuses, then the command's own. An
authenticated PROBE needs no role (R451). -/
def State.judge (s : State) (slot op kind : Nat) (bad : Bool) (run : State → Reply) : Reply :=
  if bad then { status := 14 }
  else if !(s.hasRole slot (op / 256) || op == 1) then { status := 16 }
  else if s.gate op kind ≠ 0 then { status := s.gate op kind }
  else run s

/-- The response sent and held, then what the command does (R447, R449, R450). -/
def State.answer (s : State) (rq : Req) (op : Nat) (req : Bytes) (r : Reply) : State :=
  let full := natBe 8 s.now ++ r.body
  r.after ((s.sendCtrl rq.port rq.src 1 rq.slot op rq.reqId r.status r.detail full).hold
    { slot := rq.slot, reqId := rq.reqId, opcode := op, body := req, status := r.status, detail := r.detail, resp := full })

/-- A request whose REQ_ID is held: the same request has its response sent again, another is answered BAD_FRAME (R447). -/
def State.again (s : State) (rq : Req) (op : Nat) (req : Bytes) (h : Held) : State :=
  if h.opcode = op ∧ h.body = req then s.resend rq h
  else s.sendCtrl rq.port rq.src 1 rq.slot op rq.reqId 14 0 (natBe 8 s.now)

/-- A request accepted (R442): taken from the queue, answered, acted on. req is its body as sent. -/
def State.accept (s : State) (rq : Req) (op kind : Nat) (req : Bytes) (bad : Bool) (run : State → Reply) : State :=
  let s1 := s.takeEntry (reqEntry rq op)
  match s1.heldFor rq.slot rq.reqId with
  | some h => s1.again rq op req h
  | none => s1.answer rq op req (s1.judge rq.slot op kind bad run)

/-- Does Headframe act on a control frame now (R442, R444, R451): it runs, the key slot holds a key, and no command is before it? -/
def State.mayAct (s : State) (rq : Req) (op : Nat) : Bool :=
  s.boot.hfRunning && (s.key rq.slot).isSome && s.entryTurn (reqEntry rq op)

/-- A control frame's request reaches Headframe. -/
def State.request (s : State) (rq : Req) (op : Nat) (req : Bytes) (bad : Bool) (run : State → Reply) :
    Host.Outcome State Fault Refusal :=
  when (s.mayAct rq op) s (s.accept rq op 0 req bad run)

/-- The staging handle a request names. -/
def State.handle (s : State) (h : BitVec 32) : Option StageHandle := s.handles.find? (fun x => x.handle == h)

/-- A staging request: NOT_READY modules take it for a Plan or a claim only (R374). -/
def State.stageRequest (s : State) (rq : Req) (op kind : Nat) (req : Bytes) (bad : Bool) (run : State → Reply) :
    Host.Outcome State Fault Refusal :=
  when (s.mayAct rq op) s (s.accept rq op kind req bad run)

/-- A reply that only carries a status. -/
def status (n : Nat) : Reply := { status := n }

/-- OK, and the effect. -/
def done (f : State → State) : Reply := { after := f }

/-- n bytes the spec gives no value. -/
def State.freeBytes (s : State) (n : Nat) : Bytes := (List.range n).map (fun i => Config.freeByte (64 * s.draws + i))

end Sys2Proof.Machine
end

