-- ==== Sys2Proof/Machine/CtrlReads.lean ====
section
/-! DEFINITION. The control frames that read (R445, R454, R460, R464 to R468), one meaning per row. -/

namespace Sys2Proof.Machine

open Sys2Proof

/-! Records as the wire carries them (R450). -/

/-- MODULE_ID, EPOCH, Headframe release, PHASE and 3 reserved bytes (R445). -/
def State.probeBody (s : State) : Bytes :=
  natBe 8 s.rot.fuses.moduleId ++ natBe 8 s.rot.epoch.toNat ++ natBe 4 s.rot.hfRelease ++ natBe 1 s.phase ++ zeros 3

/-- The offsets of the STATUS words of R454 in the command-die block. -/
def statusWords : List Nat := [0x900, 0xA00, 0xA04, 0x920, 0x924, 0x928, 0x930, 0xB00]

/-- STATE of R240. -/
def SesState.code : SesState → Nat
  | .free => 0
  | .opening => 1
  | .active => 2
  | .parking => 3
  | .parked => 4
  | .resuming => 5
  | .closing => 6

/-- A mask of eight slots. -/
def slotMask (l : List RefSlot) (f : RefSlot → Bool) : Nat := maskOf 8 (fun i => f (l.getD i {}))

/-- SES_CTRL (R240). -/
def Session.ctrlWord (x : Session) : Nat :=
  packBits [(x.state.code, 3), (b2n x.decode, 1), (x.media, 2), (b2n x.subframe, 1), (b2n x.bank, 1), (x.modelSlot, 12),
    (x.ratePoint, 4), (b2n x.half, 1), (0, 1), (b2n x.mirrorSingle, 1), (b2n x.refreshDue, 1), (b2n x.degraded, 1), (0, 3)]

/-- The fields of the 128-byte descriptor of R240 in offset order: bytes, value. -/
def Session.fields (x : Session) : List (Nat × Nat) :=
  [(4, x.ctrlWord), (4, x.streamId), (4, x.placement % 65536 + x.destGroup % 65536 * 65536), (4, x.nextFrameNum), (8, x.start0),
    (8, x.frameIndex), (8, x.periodNum), (4, x.periodDen), (4, x.deadlineOff), (8, x.workBase), (8, x.ckptA), (8, x.ckptB),
    (4, x.stateBytes), (4, x.ckptSeq)] ++ (List.range 8).map (fun i => (4, (x.slots.getD i {}).frame)) ++
  [(4, slotMask x.slots (fun k => k.held) + slotMask x.slots (fun k => k.long) * 2 ^ 8 + slotMask x.slots (fun k => k.acked) * 2 ^ 16 +
      slotMask x.slots (fun k => k.concealed) * 2 ^ 24), (4, x.reportSeq), (4, x.ltAge % 65536 + x.refreshAge % 65536 * 65536),
    (4, x.gen.toNat)]

/-- The descriptor on the wire, with what accepted loss reports set already in place (R268). -/
def State.descriptor (s : State) (id : Nat) : Bytes :=
  let x := s.ses id
  let y := if x.lateReports.isEmpty then x else x.takeReports (s.now + 100000)
  y.fields.flatMap (fun f => natBe f.1 f.2)

/-- The counter record of R245: 32 words, the last three reserved. -/
def Session.counterBytes (x : Session) : Bytes := (List.range 32).flatMap (fun i => natBe 4 (x.counters.getD i 0))

/-- The settings block of R244. -/
def Settings.bytes (g : Settings) : Bytes :=
  [g.stillT, g.changeT, g.gateRefresh, g.refreshInterval, g.ltInterval, g.reportInterval, g.x0, g.x1, g.y0, g.y1].flatMap (natBe 2) ++
    natBe 1 g.weight ++ zeros 43

/-- STATE of a job record (R460). -/
def JobState.code : JobState → Nat
  | .running => 1
  | .suspending => 2
  | .suspended => 3
  | .done => 4
  | .cancelled => 5
  | .faulted => 6

/-- The job record of R460. A running job waits while its source is not ACTIVE (R458). -/
def State.jobRecord (s : State) (j : Job) : Bytes :=
  let wait := j.state == .running && (s.ses j.source).state != .active
  natBe 4 j.id ++ natBe 4 (packBits [(j.state.code, 3), (b2n wait, 1), (0, 4), (j.cause, 8), (j.modelSlot, 12)]) ++ natBe 4 j.source ++
    natBe 4 j.seed.toNat ++ natBe 4 j.steps ++ natBe 4 j.step ++ natBe 4 j.rejected ++ natBe 4 j.skipped ++ natBe 8 j.startAt ++
    natBe 8 j.endAt ++ natBe 4 (4 * j.params.length) ++ zeros 12

/-- A field-repair entry with each field most significant byte first (R370, R450). -/
def entryWire (b : Bytes) : Bytes :=
  [(0, 4), (4, 8), (12, 1), (13, 1), (14, 1), (15, 1), (16, 2), (18, 6), (24, 4), (28, 4)].flatMap (fun f => (sub b f.1 f.2).reverse)

/-- A MODEL_LIST entry (R454). -/
def State.modelEntry (s : State) (m : Nat) : Bytes :=
  let x := s.model m
  if x.state = 0 then zeros 16
  else natBe 1 x.state ++ zeros 1 ++ natBe 2 x.pkg.version ++ natBe 4 x.pkg.id ++ padTo 8 (x.pkg.d.take 8)

/-- The units of R368 by KIND, then INDEX. -/
def allUnits : List UnitId :=
  ((List.range 2048).filter faceWf).map (fun i => { kind := 1, index := i }) ++
    [(2, 1088), (3, 64), (4, 16), (5, 256), (6, 256), (7, 24), (8, 16), (9, 16)].flatMap (fun q =>
      (List.range q.2).map (fun i => { kind := q.1, index := i }))

/-- Does a unit of R368 exist? -/
def isUnit (u : UnitId) : Bool :=
  if u.kind = 1 then faceWf u.index
  else decide (u.index < (if u.kind = 2 then 1088 else if u.kind = 3 then 64 else if u.kind = 4 then 16 else if u.kind = 5 then 256
    else if u.kind = 6 then 256 else if u.kind = 7 then 24 else if u.kind = 8 then 16 else if u.kind = 9 then 16 else 0))

/-- The model slots in state 2 to 4. -/
def State.heldModels (s : State) : List Nat := (s.models.filter (fun m => decide (2 ≤ m.2.state))).map (fun m => m.1)

/-- D of the loaded Plan; while none is loaded the spec gives these bytes no value (log entry 2). -/
def State.planDigest (s : State) : Bytes :=
  match s.boot.plan with
  | some p => padTo 32 p.d
  | none => s.freeBytes 32

/-- The attestation report of R466. -/
def State.report (s : State) (nonce : Bytes) : Bytes :=
  nonce ++ natBe 8 s.rot.fuses.moduleId ++ natBe 1 0xB0 ++ zeros 3 ++ padTo 32 s.boot.hfD ++ s.planDigest ++ natBe 1 s.rot.svnHf ++
    natBe 1 s.rot.svnPlan ++ zeros 2 ++ natBe 4 (s.viewReg (cmdReg 0x930)).toNat ++ natBe 4 (s.viewReg (cmdReg 0x900)).toNat ++
    sha3 (allUnits.map (fun u => BitVec.ofNat 8 (b2n (s.boot.disabled.contains u)))) ++ natBe 8 s.now ++
    natBe 4 s.heldModels.length ++ s.heldModels.flatMap s.modelEntry

/-- The report and its signature block (R466). -/
def State.attestation (s : State) (nonce : Bytes) : Bytes :=
  let r := s.report nonce
  r ++ padTo 1312 Config.attestationKey ++ padTo 2420 Config.attestationEndorsement ++ padTo 2420 (Config.mldsaSign (sha3 r))

/-! The rows. -/

/-- PROBE (R445): answered without a key on key slot 0xFF, with no ACCEPT_TIME and a zero TAG; under a key slot it is an
authenticated read. -/
def execProbe (rq : Req) (s : State) : Host.Outcome State Fault Refusal :=
  if rq.slot = 0xFF then
    let s1 := s.takeEntry (reqEntry rq 1)
    when (s.boot.hfRunning && s.entryTurn (reqEntry rq 1)) s (s1.sendCtrl rq.port rq.src 1 rq.slot 1 rq.reqId 0 0 s1.probeBody)
  else s.request rq 0x0001 [] false (fun s => { body := s.probeBody })

/-- STATUS (R454). -/
def execStatus (rq : Req) (s : State) : Host.Outcome State Fault Refusal :=
  s.request rq 0x0010 [] false (fun s => { body := statusWords.flatMap (fun o => natBe 4 (s.viewReg (cmdReg o)).toNat) })

/-- SESSION_STATUS (R240, R454). -/
def execSessionStatus (rq : Req) (session : BitVec 32) (s : State) : Host.Outcome State Fault Refusal :=
  s.request rq 0x0011 (natBe 4 session.toNat) (!sesIdOk session.toNat) (fun s => { body := s.descriptor session.toNat })

/-- A session's counters taken to zero (R464): of a parked session, whose record is in its copies alone (R248), those. -/
def State.clearCounters (s : State) (id : Nat) : State :=
  let x := s.ses id
  let zero := fun (l : List Nat) => l.map (fun _ => 0)
  let copy := fun (c : CkptCopy) => if x.state = .parked then { c with counters := zero c.counters } else c
  if spHas s.sessions id then s.setSes id { x with counters := zero x.counters, copyA := copy x.copyA, copyB := copy x.copyB } else s

/-- SESSION_COUNTERS (R464): the record and the settings; with CLEAR the record is zeroed in the same step. -/
def execSessionCounters (rq : Req) (session : BitVec 32) (clear : Bool) (s : State) : Host.Outcome State Fault Refusal :=
  let id := session.toNat
  s.request rq 0x0012 (natBe 4 id ++ natBe 1 (b2n clear) ++ zeros 3) (!sesIdOk id) (fun s =>
    { body := (s.ses id).counterBytes ++ (s.ses id).settings.bytes, after := fun t => if clear then t.clearCounters id else t })

/-- JOB_STATUS (R460). -/
def execJobStatus (rq : Req) (job : BitVec 32) (s : State) : Host.Outcome State Fault Refusal :=
  s.request rq 0x0013 (natBe 4 job.toNat) false (fun s =>
    match s.job job.toNat with
    | some j => { body := s.jobRecord j }
    | none => status 23)

/-- EVENT_READ (R342, R454): records from index FIRST, wrapping at 1,024. -/
def execEventRead (rq : Req) (first count : BitVec 16) (s : State) : Host.Outcome State Fault Refusal :=
  s.request rq 0x0014 (natBe 2 first.toNat ++ natBe 2 count.toNat) (decide (64 < count.toNat) || decide (1024 ≤ first.toNat)) (fun s =>
    { body := (List.range count.toNat).flatMap (fun i => eventWire (spGet {} s.events.records ((first.toNat + i) % 1024))) })

/-- The requester registered, or removed (R465). -/
def State.subscribe (s : State) (rq : Req) (on : Bool) : State :=
  let rest := s.ctrl.subs.filter (fun u => u.slot != rq.slot)
  { s with ctrl := { s.ctrl with subs := if on then rest ++ [{ slot := rq.slot, port := rq.port, src := rq.src }] else rest } }

/-- EVENT_SUBSCRIBE (R465): 4 subscribers, one per slot. -/
def execEventSubscribe (rq : Req) (on : Bool) (s : State) : Host.Outcome State Fault Refusal :=
  s.request rq 0x0015 (natBe 1 (b2n on) ++ zeros 3) false (fun s =>
    if on && !s.ctrl.subs.any (fun u => u.slot == rq.slot) && decide (4 ≤ s.ctrl.subs.length) then status 4
    else done (fun t => t.subscribe rq on))

/-- REPAIR_READ (R370): the sound entries of the active half from the FIRST on. -/
def execRepairRead (rq : Req) (first : BitVec 32) (count : BitVec 16) (s : State) : Host.Outcome State Fault Refusal :=
  s.request rq 0x0016 (natBe 4 first.toNat ++ natBe 2 count.toNat ++ zeros 2) (decide (64 < count.toNat)) (fun s =>
    { body := ((s.logEntries.drop first.toNat).take count.toNat).flatMap entryWire })

/-- REG_READ (R468): stops at the first register that errs and returns those before it. -/
def execRegRead (rq : Req) (addr : BitVec 64) (count : BitVec 8) (s : State) : Host.Outcome State Fault Refusal :=
  let n := count.toNat
  let bad := decide (n = 0) || decide (64 < n) || decide (2 ^ 48 ≤ addr.toNat)
  s.request rq 0x0017 (natBe 8 addr.toNat ++ natBe 1 n ++ zeros 3) bad (fun s =>
    let r := s.readRegs addr.toNat n
    { status := if r.2.1.isSome then 17 else 0, detail := r.2.1.getD 0, body := r.1.flatMap (fun w => natBe 4 w.toNat),
      after := fun t => (t.readRegs addr.toNat n).2.2 })

/-- REG_WRITE (R468). -/
def execRegWrite (rq : Req) (addr : BitVec 64) (value : Word) (s : State) : Host.Outcome State Fault Refusal :=
  s.request rq 0x0018 (natBe 8 addr.toNat ++ natBe 4 value.toNat) (decide (2 ^ 48 ≤ addr.toNat)) (fun s =>
    let r := s.writeReg addr.toNat value
    { status := if r.1.isSome then 17 else 0, detail := r.1.getD 0, after := fun t => (t.writeReg addr.toNat value).2 })

/-- ATTEST (R466). -/
def execAttest (rq : Req) (nonce : Bytes) (s : State) : Host.Outcome State Fault Refusal :=
  s.request rq 0x0019 nonce (nonce.length != 32) (fun s => { body := s.attestation nonce, after := fun t => t.draw.2 })

/-- MODEL_LIST (R463). -/
def execModelList (rq : Req) (first count : BitVec 16) (s : State) : Host.Outcome State Fault Refusal :=
  s.request rq 0x001A (natBe 2 first.toNat ++ natBe 2 count.toNat) (decide (256 < count.toNat) ||
      decide (4096 < first.toNat + count.toNat)) (fun s =>
    { body := (List.range count.toNat).flatMap (fun i => s.modelEntry (first.toNat + i)) })

end Sys2Proof.Machine
end

