-- ==== Sys2Proof/Machine/CtrlSessions.lean ====
section
/-! DEFINITION. The control frames that open, steer and close sessions (R246 to R253, R455 to R457), one meaning per row. -/

namespace Sys2Proof.Machine

open Sys2Proof

/-! Values a request may carry. -/

/-- The settings of a block of R244 as the wire carries it (R450). -/
def parseSettings (b : Bytes) : Settings :=
  { stillT := beAt b 0 2, changeT := beAt b 2 2, gateRefresh := beAt b 4 2, refreshInterval := beAt b 6 2, ltInterval := beAt b 8 2,
    reportInterval := beAt b 10 2, x0 := beAt b 12 2, x1 := beAt b 14 2, y0 := beAt b 16 2, y1 := beAt b 18 2,
    weight := beAt b 20 1 % 16 }

/-- Are a settings block's reserved bits 0, and is it 64 bytes long? -/
def settingsOk (b : Bytes) : Bool := b.length == 64 && decide (beAt b 20 1 < 16) && (b.drop 21).all (fun v => v == 0)

/-- Does a deadline offset lie in 100,000 ns to 4 frame periods (R252)? -/
def offsetOk (num den off : Nat) : Bool := decide (100000 ≤ off) && decide (off * den ≤ 4 * num)

/-- DIR of an OPEN. -/
def openDecode (b : OpenBody) : Bool := b.flags.getLsbD 0

/-- SUBFRAME of an OPEN. -/
def openSub (b : OpenBody) : Bool := b.flags.getLsbD 1

/-- The body of an OPEN as sent (R455). -/
def openBytes (b : OpenBody) : Bytes :=
  natBe 4 b.session.toNat ++ natBe 1 b.flags.toNat ++ natBe 1 b.cls.toNat ++ natBe 2 b.modelSlot.toNat ++ natBe 1 b.ratePoint.toNat ++
    zeros 3 ++ natBe 4 b.deadlineOff.toNat ++ natBe 8 b.start0.toNat ++ natBe 2 b.destGroup.toNat ++ zeros 2 ++ natBe 1 b.inPort.toNat ++
    zeros 3 ++ natBe 4 b.inSsrc.toNat ++ natBe 4 b.streamId.toNat ++ b.header ++ b.settings

/-- Does a field of an OPEN break R455, R54, R55 or R252 (R456 step 1)? -/
def openBad (b : OpenBody) : Bool :=
  let p := framePeriod b.header
  !sesIdOk b.session.toNat || decide (4 ≤ b.flags.toNat) || ((openSub b) && ((openDecode b) || hdrMedia b.header != 1)) ||
    decide (4096 ≤ b.modelSlot.toNat) || decide (16 ≤ b.ratePoint.toNat) || decide (2 ≤ b.inPort.toNat) ||
    ((openDecode b) && b.streamId != 0) || !hdrValid b.header || !settingsOk b.settings || !offsetOk p.1 p.2 b.deadlineOff.toNat

/-! Claims (R363, R364). -/

/-- The feature bits an open or resume needs. -/
def needs (decode sub : Bool) (h : Bytes) : Nat :=
  if hdrMedia h = 1 then
    (if decode then 2 else 1) + (if decide (1920 < codedWidth h) || decide (1088 < codedHeight h) then 8 else 0) +
      (if sub then 16 else 0)
  else 4

/-- Sessions in OPENING, ACTIVE, PARKING or RESUMING (MAX_ACTIVE of R362). -/
def State.activeSessions (s : State) : Nat :=
  s.sessions.countP (fun e => e.2.state == .opening || e.2.state == .active || e.2.state == .parking || e.2.state == .resuming)

/-- Sessions that are not FREE (MAX_RESIDENT of R362). -/
def State.residentSessions (s : State) : Nat := s.sessions.countP (fun e => e.2.state != .free)

/-- Are the features enabled, and do the limits allow active and resident sessions (R364)? -/
def State.claimed (s : State) (need active resident : Nat) : Bool :=
  holdsAll s.boot.enabled need && decide (active ≤ s.boot.maxActive) && decide (resident ≤ s.boot.maxResident)

/-! Open (R246, R247, R456). -/

/-- Is the binding held by a session that is not FREE (R456)? -/
def State.bindingHeld (s : State) (port ssrc : Nat) : Bool :=
  s.sessions.any (fun e => e.2.state != .free && e.2.inPort == port && e.2.inSsrc == ssrc)

/-- The header of the session: an encode session sends STREAM_ID of the body, and 0 in every reserved byte (R53). -/
def openSends (b : OpenBody) : Bytes :=
  if (openDecode b) then b.header else cleanHeader (b.header.take 4 ++ natBe 4 b.streamId.toNat ++ b.header.drop 8)

/-- The session as an open leaves it: in OPENING, its counters 0, its copies allocated and holding what it opens with. The RTP and
unit sequences and REPORT_SEQ start at values the spec leaves open (log entry 2). -/
def State.openSession (s : State) (b : OpenBody) (place work a c : Nat) : State :=
  let g := parseSettings b.settings
  let p := framePeriod b.header
  let zero := List.replicate 29 0
  let copy : CkptCopy := { settings := g, counters := zero, image := {}, present := true, ok := true }
  let at' := fun (i : Nat) => Config.freeChoice (s.draws + i)
  let x : Session :=
    { state := .opening, decode := (openDecode b), media := hdrMedia b.header, subframe := (openSub b), modelSlot := b.modelSlot.toNat,
      ratePoint := b.ratePoint.toNat, streamId := b.streamId.toNat, placement := place, destGroup := b.destGroup.toNat,
      start0 := launchGrain b.start0.toNat, periodNum := p.1, periodDen := p.2, deadlineOff := b.deadlineOff.toNat, workBase := work,
      ckptA := a, ckptB := c, stateBytes := (s.pkg b.modelSlot.toNat).stateBytes, slots := List.replicate 8 {}, cls := b.cls.toNat,
      inPort := b.inPort.toNat, inSsrc := b.inSsrc.toNat, header := (openSends b), settings := g, counters := zero, copyA := copy,
      copyB := copy, firstFrame := true }
  let n := (s.groupOf x).dests.length
  let ds := (List.range n).map (fun i => ({ rtpSeq := at' (2 + i) % 65536 } : DestState))
  { s.setSes b.session.toNat { x with
      dec := { x.dec with reportSeq := at' 0 % 2 ^ 32, rtpSeq := at' (2 + n) % 65536 }
      egress := { x.egress with unitSeq := at' 1 % 65536, dests := ds } } with draws := s.draws + 3 + n }

/-- The checks of R247 in order, and the open. -/
def State.openChecked (s : State) (b : OpenBody) : Reply :=
  let m := b.modelSlot.toNat
  let home := b.session.toNat / 262144
  let k := s.pkg m
  let p := s.pick (if s.levelServes home then s.freePlacements b.cls.toNat m else [])
  let w := p.2.allocWork home k.stateBytes
  let c := w.2.allocCopies (copyBytes k (openDecode b) b.header)
  match p.1, w.1, c.1 with
  | none, _, _ => status 3
  | some _, none, _ => status 4
  | some _, some _, none => status 4
  | some n, some a, some q =>
    if launchGrain b.start0.toNat < s.now + 1000000 then status 5
    else done (fun t => { t with draws := c.2.draws }.openSession b n a q.1 q.2)

/-- OPEN (R246, R247, R455, R456). -/
def execSesOpen (rq : Req) (body : OpenBody) (s : State) : Host.Outcome State Fault Refusal :=
  s.request rq 0x0100 (openBytes body) (openBad body) (fun s =>
    let m := s.model body.modelSlot.toNat
    if (s.ses body.session.toNat).state ≠ .free then status 1
    else if !s.claimed (needs (openDecode body) (openSub body) body.header) (s.activeSessions + 1) (s.residentSessions + 1) then status 6
    else if m.state != 3 || !pkgNamed m.pkg body.header || decide (m.pkg.ratePoints ≤ body.ratePoint.toNat) then status 2
    else if s.bindingHeld body.inPort.toNat body.inSsrc.toNat then status 19
    else s.openChecked body)

/-! Close, park, resume, reset. -/

/-- A launch time more than 60 s after acceptance (R253). -/
def State.tooFar (s : State) (launch : Nat) : Bool := decide (s.now + 60000000000 < launch)

/-- CLOSE (R246, R253). -/
def execSesClose (rq : Req) (session : BitVec 32) (mode : BitVec 8) (launch : BitVec 64) (s : State) :
    Host.Outcome State Fault Refusal :=
  let id := session.toNat
  let req := natBe 4 id ++ natBe 1 mode.toNat ++ zeros 3 ++ natBe 8 launch.toNat
  s.request rq 0x0101 req (!sesIdOk id || decide (2 ≤ mode.toNat)) (fun s =>
    let st := (s.ses id).state
    if st = .free then status 1
    else if mode.toNat = 0 then
      if s.tooFar launch.toNat then status 5 else done (fun t => t.closeGracefully id (max launch.toNat s.now))
    else if st = .closing then status 0
    else done (fun t => t.toClosing id false))

/-- PARK (R246, R248). -/
def execSesPark (rq : Req) (session : BitVec 32) (s : State) : Host.Outcome State Fault Refusal :=
  let id := session.toNat
  s.request rq 0x0102 (natBe 4 id) (!sesIdOk id) (fun s =>
    match (s.ses id).state with
    | .active => done (fun t => t.askPark id)
    | .parking => status 0
    | .parked => status 0
    | .free => status 1
    | .opening => status 1
    | .resuming => status 1
    | .closing => status 1)

/-- A parked session resumed into a working area and a placement entry: what copy A holds, or copy B where A does not read; with
neither the session is lost (R248). -/
def State.resumeSession (s : State) (id place work tr : Nat) : State :=
  let x := s.ses id
  let load := fun (c : CkptCopy) =>
    s.setSes id { x with
      state := .resuming, placement := place, workBase := work, settings := c.settings, counters := c.counters, committed := c.image, cold := c.cold,
      pending := none, half := false, frameIndex := 0, start0 := launchGrain (max tr (s.now + 1000000)) }
  if s.copyReads x 0 then load x.copyA
  else if s.copyReads x 1 then load x.copyB
  else s.loseSession id 2

/-- The checks of a resume (R248, R364, R394), and the resume. -/
def State.resumeChecked (s : State) (id tr : Nat) : Reply :=
  let x := s.ses id
  let home := id / 262144
  if !s.claimed (needs x.decode x.subframe x.header) (s.activeSessions + 1) s.residentSessions then status 6
  else
    let p := s.pick (if s.levelServes home then s.freePlacements x.cls x.modelSlot else [])
    let w := p.2.allocWork home x.stateBytes
    match p.1, w.1 with
    | none, _ => status 3
    | some _, none => status 4
    | some n, some a => done (fun t => { t with draws := w.2.draws }.resumeSession id n a tr)

/-- RESUME (R246, R248). -/
def execSesResume (rq : Req) (session : BitVec 32) (tr : BitVec 64) (s : State) : Host.Outcome State Fault Refusal :=
  let id := session.toNat
  s.request rq 0x0103 (natBe 4 id ++ zeros 4 ++ natBe 8 tr.toNat) (!sesIdOk id) (fun s =>
    match (s.ses id).state with
    | .parked => s.resumeChecked id tr.toNat
    | .opening => status 0
    | .resuming => status 0
    | .active => status 0
    | .free => status 1
    | .parking => status 1
    | .closing => status 1)

/-- Is a reset of a wider scope than the session's own in progress (R385): of the module, or of its home level? -/
def State.sesResetBusy (s : State) (id : Nat) : Bool :=
  s.resets.any (fun r => decide (r.width ≤ 1) || (decide (r.width = 2) && decide (r.unit = id / 262144)))

/-- RESET (R246, R250, R385): only an active session. -/
def execSesReset (rq : Req) (session : BitVec 32) (s : State) : Host.Outcome State Fault Refusal :=
  let id := session.toNat
  s.request rq 0x0104 (natBe 4 id) (!sesIdOk id) (fun s =>
    if (s.ses id).state ≠ .active then status 1
    else if s.sesResetBusy id then status 12
    else done (fun t => t.resetSession id))

/-! Settings and migration (R457). -/

/-- Does a rate point or deadline offset of a SET lie outside R252 or what the session's model offers? -/
def State.setBad (s : State) (id rate off : Nat) : Bool :=
  let x := s.ses id
  let live := decide (x.state ≠ .free)
  (decide (16 ≤ rate) && rate != 0xFF) || (decide (0 < off) && decide (off < 100000)) ||
    (live && rate != 0xFF && decide ((s.pkg x.modelSlot).ratePoints ≤ rate)) ||
    (live && off != 0 && !offsetOk x.periodNum x.periodDen off)

/-- SET (R253, R457). -/
def execSesSet (rq : Req) (session : BitVec 32) (ratePoint : BitVec 8) (launch : BitVec 64) (deadlineOff : BitVec 32)
    (settings : Bytes) (s : State) : Host.Outcome State Fault Refusal :=
  let id := session.toNat
  let req := natBe 4 id ++ natBe 1 ratePoint.toNat ++ zeros 3 ++ natBe 8 launch.toNat ++ natBe 4 deadlineOff.toNat ++ zeros 4 ++ settings
  s.request rq 0x0105 req (!sesIdOk id || !settingsOk settings || s.setBad id ratePoint.toNat deadlineOff.toNat) (fun s =>
    let x := s.ses id
    if x.state = .free ∨ x.state = .closing then status 1
    else if s.tooFar launch.toNat then status 5
    else
      let p : PendingSet := { launch := max launch.toNat s.now, settings := parseSettings settings, ratePoint := ratePoint.toNat,
                              deadlineOff := deadlineOff.toNat }
      done (fun t => t.setSes id { t.ses id with sets := (t.ses id).sets ++ [p] }))

/-- The free entries of a class for the session's model, all of whose faces lie on the level asked for (0xFF: any). -/
def State.migrateTo (s : State) (id cls level : Nat) : List Nat :=
  (s.freePlacements cls (s.ses id).modelSlot).filter (fun n => level == 0xFF || (s.placementFaces n).all (fun f => f / 256 == level))

/-- MIGRATE (R266, R457): a migration round onto a free entry. -/
def execMigrate (rq : Req) (session : BitVec 32) (cls level : BitVec 8) (s : State) : Host.Outcome State Fault Refusal :=
  let id := session.toNat
  let l := level.toNat
  s.request rq 0x0106 (natBe 4 id ++ natBe 1 cls.toNat ++ natBe 1 l ++ zeros 2) (!sesIdOk id || (decide (4 ≤ l) && l != 0xFF)) (fun s =>
    if (s.ses id).state ≠ .active then status 1
    else
      let p := s.pick (s.migrateTo id cls.toNat l)
      match p.1 with
      | none => status 3
      | some n => done (fun t => { t with draws := p.2.draws }.requestRound (.migration id n) none 0))

end Sys2Proof.Machine
end

