-- ==== Sys2Proof/Machine/CtrlJobs.lean ====
section
/-! DEFINITION. Adaptation jobs (R162 to R166, R458 to R461): their control frames and their steps, one meaning per row. -/

namespace Sys2Proof.Machine

open Sys2Proof

/-- Has the job ended: DONE, CANCELLED or FAULTED (R459)? -/
def JobState.ended : JobState → Bool
  | .running => false
  | .suspending => false
  | .suspended => false
  | .done => true
  | .cancelled => true
  | .faulted => true

/-- The parameters a job starts from: the package's values in the order of R461, each widened to FP32 (R91, R162, R165). -/
def startParams (k : ModelPkg) : List (BitVec 32) :=
  (learnedTensors k).flatMap (fun n =>
    let t := constTensor k (k.tensors.getD n {}) [] 0
    (List.range (learnedSize k n)).map (fun i =>
      BitVec.ofNat 32 (if t.fmt = 1 then t.data.getD i 0 else (convert .fp32 (t.elem (policyOf k n) i)).1)))

/-- Has the package a layer with learned scales (R162)? -/
def hasLearned (k : ModelPkg) : Bool := k.layers.any (fun l => bitAt l.flags 1)

/-- The body of a JOB_START as sent (R458). -/
def jobStartBytes (b : JobBody) : Bytes :=
  natBe 4 b.jobId.toNat ++ natBe 2 b.modelSlot.toNat ++ natBe 1 b.cls.toNat ++ zeros 1 ++ natBe 4 b.seed.toNat ++ natBe 4 b.steps.toNat ++
    natBe 4 b.source.toNat ++ zeros 4

/-- The job as its start leaves it. -/
def State.startJob (s : State) (b : JobBody) (place device : Nat) : State :=
  let j : Job :=
    { id := b.jobId.toNat, modelSlot := b.modelSlot.toNat, source := b.source.toNat, seed := b.seed, steps := b.steps.toNat, startAt := s.now,
      params := startParams (s.pkg b.modelSlot.toNat), placement := place, device := device }
  { s with jobs := s.jobs ++ [j] }

/-- JOB_START (R458), its checks in order. The device that takes the state area is left open (log entry 2). -/
def execJobStart (rq : Req) (body : JobBody) (s : State) : Host.Outcome State Fault Refusal :=
  let m := body.modelSlot.toNat
  let src := body.source.toNat
  let bad := body.jobId == 0 || body.steps == 0 || !sesIdOk src || decide (4096 ≤ m)
  s.request rq 0x0200 (jobStartBytes body) bad (fun s =>
    let x := s.ses src
    let p := s.pick (s.freePlacements body.cls.toNat m)
    let d := p.2.pick ((List.range 16).filter s.lpddrOk)
    if x.state = .free ∨ x.modelSlot ≠ m then status 1
    else if !bitAt s.boot.enabled 5 then status 6
    else if (s.job body.jobId.toNat).isSome then status 18
    else if (s.model m).state != 3 || !hasLearned (s.pkg m) then status 2
    else match p.1, d.1 with
      | none, _ => status 3
      | some _, none => status 4
      | some n, some v => if 256 ≤ s.jobs.length then status 4
        else done (fun t => { t with draws := d.2.draws }.startJob body n v))

/-- JOB_SUSPEND (R459): at once where no step runs. -/
def execJobSuspend (rq : Req) (job : BitVec 32) (s : State) : Host.Outcome State Fault Refusal :=
  s.request rq 0x0201 (natBe 4 job.toNat) false (fun s =>
    match s.job job.toNat with
    | none => status 23
    | some j =>
      if j.state.ended then status 1
      else if j.state = .running then
        done (fun t => t.setJob { j with state := if j.stepping then .suspending else .suspended, fed := false })
      else status 0)

/-- The placement entry a suspended job takes up again: its own where it is free, else another of its class. -/
def State.jobPlaces (s : State) (j : Job) : List Nat :=
  let cls := match s.boot.plan with
    | some pl => (pl.placement.getD j.placement {}).cls
    | none => 0
  let free := s.freePlacements cls j.modelSlot
  if free.contains j.placement then [j.placement] else free

/-- JOB_RESUME (R459): running from the next committed frame with the same STEP, on faces of its class. -/
def execJobResume (rq : Req) (job : BitVec 32) (s : State) : Host.Outcome State Fault Refusal :=
  s.request rq 0x0202 (natBe 4 job.toNat) false (fun s =>
    match s.job job.toNat with
    | none => status 23
    | some j =>
      if j.state = .running then status 0
      else if j.state ≠ .suspended then status 1
      else
        let p := s.pick (s.jobPlaces j)
        match p.1 with
        | none => status 3
        | some n => done (fun t => { t with draws := p.2.draws }.setJob { j with state := .running, placement := n, fed := false }))

/-- JOB_CANCEL (R459). -/
def execJobCancel (rq : Req) (job : BitVec 32) (s : State) : Host.Outcome State Fault Refusal :=
  s.request rq 0x0203 (natBe 4 job.toNat) false (fun s =>
    match s.job job.toNat with
    | none => status 23
    | some j => if j.state.ended then status 0 else done (fun t => t.cancelJob j))

/-- JOB_RELEASE (R459). -/
def execJobRelease (rq : Req) (job : BitVec 32) (s : State) : Host.Outcome State Fault Refusal :=
  s.request rq 0x0204 (natBe 4 job.toNat) false (fun s =>
    match s.job job.toNat with
    | none => status 23
    | some j => if j.state.ended then done (fun t => { t with jobs := t.jobs.filter (fun k => k.id != j.id) }) else status 1)

/-- The parameter image of a job (R461). -/
def Job.image (j : Job) : Bytes := j.params.flatMap (fun v => natBe 4 v.toNat)

/-- Does a range reach beyond a job's parameter image (R461)? -/
def State.exportBad (s : State) (job off n : Nat) : Bool :=
  match s.job job with
  | some j => decide (j.image.length < off + n)
  | none => false

/-- JOB_EXPORT (R461). -/
def execJobExport (rq : Req) (job offset bytes : BitVec 32) (s : State) : Host.Outcome State Fault Refusal :=
  let n := bytes.toNat
  let bad := decide (n = 0) || decide (65536 < n) || s.exportBad job.toNat offset.toNat n
  s.request rq 0x0205 (natBe 4 job.toNat ++ natBe 4 offset.toNat ++ natBe 4 n) bad (fun s =>
    match s.job job.toNat with
    | none => status 23
    | some j => if j.state = .suspended ∨ j.state = .done then { body := sub j.image offset.toNat n } else status 1)

/-! Steps. -/

/-- A job at the start of a step: its roots and the parameters its last step wrote are behind it. -/
def State.stepBegins (s : State) (j : Job) : Job :=
  let learned := learnedTensors (s.pkg j.modelSlot)
  { j with fed := false, stepping := true, rho := [], tensors := j.tensors.filter (fun q => !learned.contains q.1) }

/-- JOB_STEP (R458): a job begins a step on a frame its source has committed. -/
def execJobStep (job : Nat) (s : State) : Host.Outcome State Fault Refusal :=
  match s.job job with
  | none => ok s
  | some j => when (j.state == .running && j.fed && !j.stepping && s.boot.warmCause.isNone) s
      (s.setJob (s.stepBegins j))

/-- Is λ's new value rejected (R164): NaN, infinite, zero, negative, below 2^−24 or above 2^24? v is an FP32 code. -/
def lambdaRejected (v : BitVec 32) : Bool := !(decide (0x33800000 ≤ v.toNat) && decide (v.toNat ≤ 0x4B800000))

/-- For each parameter of the image, is it a λ? -/
def lambdaMarks (k : ModelPkg) : List Bool :=
  (learnedTensors k).flatMap (fun n =>
    List.replicate (learnedSize k n) (k.layers.any (fun l => bitAt l.flags 1 && l.lambda == n)))

/-- The new values an update gives the parameters of the image, from learned tensor to learned tensor: what a layer of the step has written
of the tensor (R163), else the values given. -/
def updates (k : ModelPkg) (written : List (Nat × Tensor)) : List Nat → List (BitVec 32) → List (Option (BitVec 32))
  | [], _ => []
  | n :: r, given =>
    let m := learnedSize k n
    let new := match written.find? (fun q => q.1 == n) with
      | some q => (List.range m).map (fun i => q.2.data[i]?.map (BitVec.ofNat 32))
      | none => (List.range m).map (fun i => given[i]?)
    new ++ updates k written r (given.drop m)

/-- The parameters a step leaves: each new value in place of the old, but a rejected λ keeps its value (R164); one for which there is none
stays. -/
def newParams : List Bool → List (BitVec 32) → List (Option (BitVec 32)) → List (BitVec 32)
  | m :: ms, v :: vs, w :: ws => (w.filter (fun x => !(m && lambdaRejected x))).getD v :: newParams ms vs ws
  | [], v :: vs, w :: ws => w.getD v :: newParams [] vs ws
  | _, vs, [] => vs
  | _, [], _ => []

/-- λs a step rejects. -/
def rejectedCount (marks : List Bool) (new : List (Option (BitVec 32))) : Nat :=
  (marks.zip new).countP (fun q => q.1 && q.2.any lambdaRejected)

/-- A job as the end of its step leaves it. -/
def State.stepEnds (s : State) (j : Job) (new : List (BitVec 32)) : Job :=
  let k := s.pkg j.modelSlot
  let marks := lambdaMarks k
  let ups := updates k j.tensors (learnedTensors k) new
  let n := j.step + 1
  let fin := decide (j.steps ≤ n)
  { j with
    params := newParams marks j.params ups, rejected := min (j.rejected + rejectedCount marks (ups.take j.params.length)) 0xFFFFFFFF,
    step := n, stepping := false, fed := j.fed && !fin, endAt := if fin then s.now else j.endAt,
    state := if fin then .done else if j.state = .suspending then .suspended else j.state }

/-- JOB_STEP_DONE (R163 to R165, R458, R459): the step has written its state; a parameter no layer of the step has written takes the value
newLambdas gives it, in the order of R461 (log entry 62). -/
def execJobStepDone (job : Nat) (newLambdas : List (BitVec 32)) (s : State) : Host.Outcome State Fault Refusal :=
  match s.job job with
  | none => ok s
  | some j => when (j.stepping && (j.state == .running || j.state == .suspending)) s (s.setJob (s.stepEnds j newLambdas))

end Sys2Proof.Machine
end

