-- ==== Sys2Proof/Machine/CtrlStaging.lean ====
section
/-! DEFINITION. Staging, model slots, the CDF shadow and its swap, the directory and the field-repair log (R232, R235, R349, R350,
R365, R370, R462, R463), one meaning per row. -/

namespace Sys2Proof.Machine

open Sys2Proof

/-! Handles (R462). -/

/-- A handle changed. -/
def State.setHandle (s : State) (h : StageHandle) : State :=
  { s with handles := s.handles.map (fun x => if x.handle == h.handle then h else x) }

/-- A handle dropped. -/
def State.dropHandle (s : State) (h : StageHandle) : State := { s with handles := s.handles.filter (fun x => x.handle != h.handle) }

/-- A command has named a handle: its 60 s begin again. -/
def State.touch (s : State) (h : StageHandle) : State := s.setHandle { h with lastAt := s.now }

/-- A status for a command that names a handle. -/
def State.stageStatus (h : StageHandle) (n detail : Nat) : Reply := { status := n, detail := detail, after := fun t => t.touch h }

/-- The container written into a handle. -/
def StageHandle.bytes (h : StageHandle) : Bytes := h.data.map (fun e => e.2)

/-- KIND of a handle, 0 where there is none. -/
def State.handleKind (s : State) (h : BitVec 32) : Nat := ((s.handle h).map (fun x => x.kind)).getD 0

/-- STAGE_BEGIN (R462): its handle is a number the spec leaves open (log entry 2). -/
def execStageBegin (rq : Req) (kind : BitVec 8) (modelSlot : BitVec 16) (totalBytes : BitVec 32) (fire : BitVec 64) (s : State) :
    Host.Outcome State Fault Refusal :=
  let k := kind.toNat
  let n := totalBytes.toNat
  let req := natBe 1 k ++ zeros 1 ++ natBe 2 modelSlot.toNat ++ natBe 4 n ++ natBe 8 fire.toNat
  let bad := decide (k = 0) || decide (4 < k) || decide (n = 0) || decide (4096 ≤ modelSlot.toNat)
  s.stageRequest rq 0x0300 k req bad (fun s =>
    let used := s.handles.foldl (fun m h => m + h.total) 0
    if kindLimit k < n then { status := 15, detail := 1 }
    else if 4 ≤ s.handles.length ∨ 2 ^ 30 < used + n then status 4
    else
      let id := Config.handleBase + BitVec.ofNat 32 s.draws
      let h : StageHandle := { handle := id, kind := k, modelSlot := modelSlot.toNat, total := n, fire := fire.toNat, lastAt := s.now }
      { body := natBe 4 id.toNat, after := fun t => { t with handles := t.handles ++ [h], draws := t.draws + 1 } })

/-- Bytes put into a handle's data from an offset. -/
def putData (d : List (Nat × Byte)) (off : Nat) : Bytes → List (Nat × Byte)
  | [] => d
  | b :: r => putData (spSet d off b) (off + 1) r

/-- STAGE_DATA (R462). -/
def execStageData (rq : Req) (handle offset : BitVec 32) (data : Bytes) (s : State) : Host.Outcome State Fault Refusal :=
  let bad := match s.handle handle with
    | some h => decide (h.total < offset.toNat + data.length)
    | none => false
  s.stageRequest rq 0x0301 (s.handleKind handle) (natBe 4 handle.toNat ++ natBe 4 offset.toNat ++ data) bad (fun s =>
    match s.handle handle with
    | none => status 23
    | some h =>
      if h.installing then State.stageStatus h 12 0
      else if h.installed then State.stageStatus h 1 0
      else done (fun t => t.setHandle { h with data := putData h.data offset.toNat data, lastAt := t.now }))

/-- The installation of a handle begun, into the flash slot or model slot given. -/
def State.beginInstall (s : State) (h : StageHandle) (slot : Nat) : State :=
  s.setHandle { h with installing := true, modelSlot := slot, lastAt := s.now, fire := if h.fire = 0 then s.now + 1000000 else h.fire }

/-- A claim slot that holds no sound claim, and that no claim now installing is to take (R365). -/
def State.freeClaimSlot (s : State) : Option Nat :=
  let taken := fun (n : Nat) => s.handles.any (fun h => h.kind == 4 && h.installing && h.modelSlot == n)
  (List.range 64).find? (fun n => !taken n && s.checkClaim (s.flashContainer (claimBase n) 0x4000) != 0)

/-- A checked model package placed and its shadow build begun (R232, R340, R463). -/
def State.beginModel (s : State) (h : StageHandle) (k : ModelPkg) : State :=
  let s1 := ((s.beginInstall h h.modelSlot).stagePackage h.modelSlot 1 k false).placeModel h.modelSlot
  { s1 with shadow := some { slot := h.modelSlot, remove := false, handle := some h.handle } }.setShadow 1

/-- What a container that has passed R354 meets next, by KIND. -/
def State.commitKind (s : State) (h : StageHandle) (b : Bytes) : Reply :=
  if h.kind = 2 then
    let k := contPackage b
    if k.arith = 1 ∧ bitAt s.boot.enabled 7 = false then State.stageStatus h 6 0
    else if (s.model h.modelSlot).state ≠ 0 then State.stageStatus h 19 0
    else if s.shadowState ≠ 0 then State.stageStatus h 8 0
    else done (fun t => t.beginModel h k)
  else if h.kind = 4 then
    let sweep := fun (t : State) => if t.boot.claimsTimed then t.eraseExpired else t
    match (sweep s).freeClaimSlot with
    | none => { status := 7, after := fun t => (sweep t).touch h }
    | some n => done (fun t => (sweep t).beginInstall h n)
  else done (fun t => t.beginInstall h (1 - bits s.directory (if h.kind = 3 then 0 else 1) 1))

/-- A container that fails R354, refused with its code; of a Plan PLAN_ERR keeps it. -/
def State.refuseContainer (h : StageHandle) (e : Nat) : Reply :=
  { status := 15, detail := e, after := fun t => (if h.kind = 1 then t.setPlanErr e else t).touch h }

/-- STAGE_COMMIT (R354, R462, R463): checked, then its installation begins; once installed, an OK releases the handle. -/
def execStageCommit (rq : Req) (handle : BitVec 32) (s : State) : Host.Outcome State Fault Refusal :=
  let bad := (s.handle handle).any (fun h => !h.installing && !h.installed && decide (h.data.length < h.total))
  s.stageRequest rq 0x0302 (s.handleKind handle) (natBe 4 handle.toNat) bad (fun s =>
    match s.handle handle with
    | none => status 23
    | some h =>
      if h.installing then State.stageStatus h 12 0
      else if h.installed then done (fun t => t.dropHandle h)
      else
        let e := s.checkContainer h.kind h.bytes
        if e ≠ 0 then State.refuseContainer h e else s.commitKind h h.bytes)

/-- STAGE_ABORT (R462). -/
def execStageAbort (rq : Req) (handle : BitVec 32) (s : State) : Host.Outcome State Fault Refusal :=
  s.stageRequest rq 0x0303 (s.handleKind handle) (natBe 4 handle.toNat) false (fun s =>
    match s.handle handle with
    | none => status 23
    | some h => if h.installing then State.stageStatus h 12 0 else done (fun t => t.dropHandle h))

/-- A container written over a flash slot. -/
def State.writeSlot (s : State) (base limit : Nat) (b : Bytes) : State := (s.eraseFlash base limit).writeFlash base b

/-- A licence round asked for at t, unless one is (R365). -/
def State.askLicence (s : State) (t : Nat) : State :=
  let v := s.licenceTime t
  if s.rounds.any (fun r => decide (r.flip = .licence) && r.timed == some v) then s else s.requestRound .licence (some v) 0

/-- A claim stored and its licence rounds asked for (R365). -/
def State.storeClaim (s : State) (h : StageHandle) : State :=
  let s1 := s.writeSlot (claimBase h.modelSlot) 0x4000 h.bytes
  let c := contClaim h.bytes h.modelSlot
  let s2 : State := if c.deviceId = s.rot.fuses.moduleId then { s1 with boot := { s1.boot with claims := s1.boot.claims ++ [c] } } else s1
  (s2.askLicence h.fire).askLicences s.now

/-- What an installation leaves in flash; a model's was its shadow. -/
def State.installed (s : State) (h : StageHandle) : State :=
  if h.kind = 1 then s.writeSlot (planBase h.modelSlot) 0x7000000 h.bytes
  else if h.kind = 3 then s.writeSlot (hfBase h.modelSlot) 0x400000 h.bytes
  else if h.kind = 4 then s.storeClaim h
  else s

/-- STAGE_INSTALL_COMPLETE (R462): the image is written, or the model's shadow built. -/
def execStageInstallComplete (handle : Nat) (s : State) : Host.Outcome State Fault Refusal :=
  match s.handles.find? (fun h => h.handle.toNat == handle) with
  | none => ok s
  | some h => when (s.boot.hfRunning && h.installing && (h.kind != 2 || decide (2 ≤ (s.model h.modelSlot).state))) s
      ((s.installed h).setHandle { h with installing := false, installed := true, lastAt := s.now })

/-- STAGE_HANDLE_TIMEOUT (R462): 60 s without a command for a handle that is not installing. -/
def execStageHandleTimeout (handle : Nat) (s : State) : Host.Outcome State Fault Refusal :=
  match s.handles.find? (fun h => h.handle.toNat == handle) with
  | none => ok s
  | some h => when (s.boot.hfRunning && !h.installing && decide (h.lastAt + 60000000000 ≤ s.now)) s (s.dropHandle h)

/-! The shadow (R232). -/

/-- The shadow of one level: the current bank and the change. -/
def State.buildShadow (s : State) (b : ShadowBuild) (l : Nat) : State :=
  let c := s.curBank
  let s1 := s.copyBank l c l (1 - c)
  if b.remove then s1.clearTables l (1 - c) (s.model b.slot) else s1.putTables l (1 - c) (s.model b.slot)

/-- SHADOW_BUILD_COMPLETE (R232, R463): the shadow is written and verified on every level that serves. -/
def execShadowBuildComplete (s : State) : Host.Outcome State Fault Refusal :=
  match s.shadow with
  | none => ok s
  | some b =>
    let s1 := (s.each s.servingLevels (fun s l => s.buildShadow b l)).setShadow 2
    when (s.boot.hfRunning && s.shadowState == 1) s
      (if b.remove then s1 else s1.setModel b.slot { s1.model b.slot with state := 2 })

/-- Does a coder job, queued or in a context, name the model slot (R230)? -/
def Level.coderNames (v : Level) (m : Nat) : Bool :=
  let names := fun (j : CoderJob) => (parseCoder j.desc).model == m
  v.coderQ.any names || v.coders.any (fun c => c.any (fun x => x.job.any names))

/-- Does a session that is not FREE, a job that has not ended, or a coder job name the model slot (R230, R463)? -/
def State.modelUsed (s : State) (m : Nat) : Bool :=
  s.sessions.any (fun e => e.2.state != .free && e.2.modelSlot == m) || s.jobs.any (fun j => !j.state.ended && j.modelSlot == m) ||
    s.levels.any (fun v => v.coderNames m)

/-- MODEL_UNSTAGE (R463), its checks in the order of the rule. -/
def execModelUnstage (rq : Req) (modelSlot : BitVec 16) (s : State) : Host.Outcome State Fault Refusal :=
  let m := modelSlot.toNat
  s.request rq 0x0304 (natBe 2 m ++ zeros 2) (decide (4096 ≤ m)) (fun s =>
    let x := s.model m
    if x.state = 0 then status 23
    else if x.planCarried then status 1
    else if s.modelUsed m then status 19
    else if s.shadowState ≠ 0 then status 8
    else done (fun t => { t.setModel m { x with state := 4 } with shadow := some { slot := m, remove := true, handle := none } }.setShadow 1))

/-- SWAP_ARM (R232, R235, R463). -/
def execSwapArm (rq : Req) (t : BitVec 64) (s : State) : Host.Outcome State Fault Refusal :=
  s.request rq 0x0305 (natBe 8 t.toNat) false (fun s =>
    if s.shadowState ≠ 2 ∨ s.pwr.standby ≠ 0 then status 1
    else if t.toNat < s.now + 100000 then status 5
    else done (fun u => (u.setShadow 3).requestRound .swap (some (launchGrain t.toNat)) 0))

/-- SWAP_DISARM (R235, R463): before the decision the round is withdrawn. -/
def execSwapDisarm (rq : Req) (s : State) : Host.Outcome State Fault Refusal :=
  s.request rq 0x0306 [] false (fun s =>
    match s.rounds.find? (fun r => decide (r.flip = .swap) && !r.decided) with
    | none => status 1
    | some r => done (fun t => (t.dropRound r 5).setShadow 2))

/-! Flash. -/

/-- DIRECTORY_SET (R350, R454). -/
def execDirectorySet (rq : Req) (bits : BitVec 8) (s : State) : Host.Outcome State Fault Refusal :=
  s.request rq 0x0400 (natBe 1 bits.toNat ++ zeros 3) (decide (8 ≤ bits.toNat)) (fun _ => done (fun t => t.writeDirectory bits.toNat))

/-- LOG_CLEAR (R370, R454): compaction leaving out every entry of the unit. -/
def execLogClear (rq : Req) (kind : BitVec 8) (index : BitVec 16) (s : State) : Host.Outcome State Fault Refusal :=
  let u : UnitId := { kind := kind.toNat, index := index.toNat }
  s.request rq 0x0401 (natBe 1 kind.toNat ++ zeros 1 ++ natBe 2 index.toNat) (!isUnit u) (fun _ =>
    done (fun t => (t.compactLog (fun v => v != u)).logStat))

end Sys2Proof.Machine
end

