-- ==== Sys2Proof/Machine/CtrlPower.lean ====
section
/-! DEFINITION. The control frames for resets, power states, removal and keys (R383 to R405, R451, R452), one meaning per row, over
operations the SMBus and Lamp rows share. -/

namespace Sys2Proof.Machine

open Sys2Proof

/-! Shared with SMBus and Lamp: a status, and what the request does. -/

/-- A module reset asked for: BUSY while one of equal or greater width is in progress (R385). -/
def State.moduleReset (s : State) (width cause : Nat) : Reply :=
  if s.resetBusy width 0 then status 12 else done (fun t => t.acceptReset width 0 cause false)

/-- A level reset asked for (R384). -/
def State.askLevelReset (s : State) (l cause : Nat) : Reply :=
  if s.levelResetStatus l ≠ 0 then status (s.levelResetStatus l) else done (fun t => t.acceptReset 2 l cause false)

/-- A face reset asked for (R384). -/
def State.askFaceReset (s : State) (p cause : Nat) : Reply :=
  if s.faceResetStatus p ≠ 0 then status (s.faceResetStatus p) else done (fun t => t.acceptReset 3 p cause false)

/-- A level parked or unparked (R394, R395). -/
def State.askLevelPark (s : State) (l : Nat) (park : Bool) : Reply :=
  let n := if park then s.parkStatus l else s.unparkStatus l
  if n ≠ 0 then status n else done (fun t => if park then t.beginPark l false else t.beginUnpark l)

/-- Standby entered or left (R396). -/
def State.askStandby (s : State) (enter : Bool) : Reply :=
  if enter then (if s.standbyStatus ≠ 0 then status s.standbyStatus else done State.beginStandby)
  else if s.pwr.standby = 2 then done State.endStandby
  else status 1

/-- Removal withdrawn: STATE again shows where the module stands in standby (R396, R405). -/
def State.withdrawRemoval (s : State) : State :=
  { s with pwr := { s.pwr with removal := none, wantRemoval := none } }.setPwrState s.pwr.standby

/-- Is a removal requested, waiting for a reset or in force? -/
def State.removing (s : State) : Bool := s.pwr.removal.isSome || s.pwr.wantRemoval.isSome

/-- A removal asked for or withdrawn (R405): mode 0 withdraw, 1 CLOSE, 2 DRAIN with its limit in s. During a reset it waits for
the end of the reset. -/
def State.askRemove (s : State) (mode limit : Nat) : Reply :=
  if s.pwr.removeOk then status 1
  else if mode = 0 then (if s.removing then done State.withdrawRemoval else status 1)
  else
    let m : Removal := { drain := decide (mode = 2), limitAt := s.now + 1000000000 * limit, closed := false }
    done (fun t => if t.resets.isEmpty then t.startRemoval m else { t with pwr := { t.pwr with wantRemoval := some m } })

/-- Does a removal's mode or limit lie outside its values (R405, R454)? -/
def removeBad (mode limit : Nat) : Bool := decide (2 < mode) || (mode == 2 && (decide (limit = 0) || decide (3600 < limit)))

/-! The rows. -/

/-- WARM_RESET (R379, R383): CAUSE 4. -/
def execWarmReset (rq : Req) (s : State) : Host.Outcome State Fault Refusal :=
  s.request rq 0x0500 [] false (fun s => s.moduleReset 1 4)

/-- LEVEL_RESET (R384). -/
def execLevelReset (rq : Req) (level : BitVec 8) (s : State) : Host.Outcome State Fault Refusal :=
  s.request rq 0x0501 (natBe 1 level.toNat ++ zeros 3) (decide (4 ≤ level.toNat)) (fun s => s.askLevelReset level.toNat 4)

/-- FACE_RESET (R384). -/
def execFaceReset (rq : Req) (face : BitVec 16) (s : State) : Host.Outcome State Fault Refusal :=
  s.request rq 0x0502 (natBe 2 face.toNat ++ zeros 2) (!faceWf face.toNat) (fun s => s.askFaceReset face.toNat 4)

/-- LEVEL_PARK (R394, R395). -/
def execLevelPark (rq : Req) (level park : BitVec 8) (s : State) : Host.Outcome State Fault Refusal :=
  s.request rq 0x0503 (natBe 1 level.toNat ++ natBe 1 park.toNat ++ zeros 2) (decide (4 ≤ level.toNat) || decide (2 ≤ park.toNat))
    (fun s => s.askLevelPark level.toNat (park == 1))

/-- STANDBY (R396). -/
def execStandby (rq : Req) (enter : BitVec 8) (s : State) : Host.Outcome State Fault Refusal :=
  s.request rq 0x0504 (natBe 1 enter.toNat ++ zeros 3) (decide (2 ≤ enter.toNat)) (fun s => s.askStandby (enter == 1))

/-- REMOVE (R405). -/
def execRemove (rq : Req) (mode : BitVec 8) (drainLimit : BitVec 16) (s : State) : Host.Outcome State Fault Refusal :=
  s.request rq 0x0505 (natBe 1 mode.toNat ++ zeros 1 ++ natBe 2 drainLimit.toNat) (removeBad mode.toNat drainLimit.toNat) (fun s =>
    s.askRemove mode.toNat drainLimit.toNat)

/-! Keys (R451, R452). -/

/-- A key slot changed: its replay state, held responses and subscription are cleared (R452). -/
def State.changeKey (s : State) (slot : Nat) (k : Option KeySlot) : State :=
  { s with
    rot := { s.rot with keys := s.rot.keys.set slot k }
    ctrl := { s.ctrl with
      windows := s.ctrl.windows.modify slot (fun w => { w with high := 0, seen := [] })
      held := s.ctrl.held.filter (fun h => h.slot != slot)
      subs := s.ctrl.subs.filter (fun u => u.slot != slot) } }

/-- Would a change leave no slot holding the KEYS role? -/
def State.lastKeys (s : State) (slot : Nat) (k : Option KeySlot) : Bool :=
  !(s.rot.keys.set slot k).any (fun q => match q with
    | some v => v.roles.getLsbD 6
    | none => false)

/-- The exclusive OR of two byte strings. -/
def xorBytes (a b : Bytes) : Bytes := List.zipWith (fun x y => x ^^^ y) a b

/-- The key a KEY_SET carries: WRAPPED exclusive-OR KMAC256 of the requesting slot's key over NONCE ‖ SLOT. -/
def State.unwrap (s : State) (rq : Req) (slot : Nat) (nonce wrapped : Bytes) : Bytes :=
  xorBytes wrapped (kmac256 ((s.key rq.slot).getD {}).key (nonce ++ natBe 1 slot) 32 "ULN key wrap")

/-- KEY_SET (R452). -/
def execKeySet (rq : Req) (slot roles : BitVec 8) (nonce wrapped : Bytes) (s : State) : Host.Outcome State Fault Refusal :=
  let n := slot.toNat
  let bad := decide (8 ≤ n) || roles.getLsbD 7 || nonce.length != 16 || wrapped.length != 32
  s.request rq 0x0600 (natBe 1 n ++ natBe 1 roles.toNat ++ zeros 2 ++ nonce ++ wrapped) bad (fun s =>
    let k : KeySlot := { key := s.unwrap rq n nonce wrapped, roles := roles }
    if s.lastKeys n (some k) then status 1 else done (fun t => t.changeKey n (some k)))

/-- KEY_CLEAR (R452). -/
def execKeyClear (rq : Req) (slot : BitVec 8) (s : State) : Host.Outcome State Fault Refusal :=
  let n := slot.toNat
  s.request rq 0x0601 (natBe 1 n ++ zeros 3) (decide (8 ≤ n)) (fun s =>
    if s.lastKeys n none then status 1 else done (fun t => t.changeKey n none))

end Sys2Proof.Machine
end

