-- ==== Sys2Proof/Machine/CtrlReceive.lean ====
section
/-! DEFINITION. A control frame's way into Headframe's queue (R443 to R449): overflow, form, authentication, epoch, replay. -/

namespace Sys2Proof.Machine

open Sys2Proof

/-- Body length of an opcode and its reserved ranges (offset, bytes) (R452, R454, R455, R458); none for an opcode a requester does
not send. STAGE_DATA, whose length varies, is given the length of its fixed fields. -/
def bodyLayout (op : Nat) : Option (Nat × List (Nat × Nat)) :=
  if [0x0001, 0x0010, 0x0306, 0x0500].contains op then some (0, [])
  else if [0x0011, 0x0013, 0x0014, 0x001A, 0x0102, 0x0104, 0x0201, 0x0202, 0x0203, 0x0204, 0x0302, 0x0303].contains op then some (4, [])
  else if [0x0015, 0x0400, 0x0501, 0x0504, 0x0601].contains op then some (4, [(1, 3)])
  else if [0x0304, 0x0502, 0x0503].contains op then some (4, [(2, 2)])
  else if [0x0401, 0x0505].contains op then some (4, [(1, 1)])
  else if op = 0x0012 then some (8, [(5, 3)])
  else if op = 0x0016 ∨ op = 0x0106 then some (8, [(6, 2)])
  else if op = 0x0305 ∨ op = 0x0301 then some (8, [])
  else if op = 0x0017 then some (12, [(9, 3)])
  else if op = 0x0018 ∨ op = 0x0205 then some (12, [])
  else if op = 0x0019 then some (32, [])
  else if op = 0x0100 then some (144, [(9, 3), (26, 2), (29, 3)])
  else if op = 0x0101 then some (16, [(5, 3)])
  else if op = 0x0103 then some (16, [(4, 4)])
  else if op = 0x0105 then some (88, [(5, 3), (20, 4)])
  else if op = 0x0200 then some (24, [(7, 1), (20, 4)])
  else if op = 0x0300 then some (16, [(1, 1)])
  else if op = 0x0600 then some (52, [(2, 2)])
  else none

/-- The byte of a body of which only the low bits are a field: offset and bound (R454). -/
def flagByte (op : Nat) : Nat × Nat :=
  if op = 0x0012 then (4, 2) else if op = 0x0015 then (0, 2) else if op = 0x0400 then (0, 8) else (0, 256)

/-- Does a body fit its opcode, with every reserved byte and bit 0? -/
def bodyFits (op : Nat) (b : Bytes) : Bool :=
  match bodyLayout op with
  | none => false
  | some q =>
    (if op = 0x0301 then decide (q.1 ≤ b.length) else b.length == q.1) &&
      q.2.all (fun r => (sub b r.1 r.2).all (fun v => v == 0)) && decide (beAt b (flagByte op).1 1 < (flagByte op).2)

/-- Are the header's other fields those of a request: reserved 0, PART 0 of 1, STATUS and DETAIL 0 (R443)? -/
def headerFits (f : Bytes) : Bool :=
  beAt f 3 1 == 0 && beAt f 6 1 == 0 && beAt f 7 1 == 1 && beAt f 28 1 == 0 && beAt f 29 1 == 0

/-- Does TAG verify under the slot's key (R444)? A slot without a key verifies nothing. -/
def State.authentic (s : State) (f : Bytes) : Bool :=
  let len := beAt f 30 2
  match s.key (beAt f 2 1) with
  | none => false
  | some k => decide (len ≤ 8888) && f.length == 64 + len && kmac256 k.key (f.take (32 + len)) 32 (ctrlCustom 0) == f.drop (32 + len)

/-- Does a replay window accept a SEQ (R446)? -/
def ReplayWindow.accepts (w : ReplayWindow) (q : Nat) : Bool := decide (1 ≤ q) && decide (w.high < q + 64) && !w.seen.contains q

/-- The window with a SEQ seen: the values from H − 63 to H are kept. -/
def ReplayWindow.note (w : ReplayWindow) (q : Nat) : ReplayWindow :=
  let h := max w.high q
  { w with high := h, seen := (q :: w.seen).filter (fun v => decide (h < v + 64)) }

/-- An authentic, fresh request: queued, or answered BAD_FRAME at once where its form is not its opcode's (R453). -/
def State.admitFrame (s : State) (rq : Req) (f : Bytes) : State :=
  let op := beAt f 4 2
  let body := sub f 32 (beAt f 30 2)
  if bodyFits op body && headerFits f then s.enqueue (reqEntry rq op)
  else match s.heldFor rq.slot rq.reqId with
    | some h => s.again rq op body h
    | none => s.answer rq op body (status 14)

/-- An authentic request (R445, R446): another epoch is answered STALE_EPOCH with an ACCEPT_TIME of 0; a SEQ out of the window or
seen is dropped and counted. -/
def State.fresh (s : State) (rq : Req) (f : Bytes) : State :=
  let q := beAt f 16 8
  let w := s.ctrl.windows.getD rq.slot {}
  if beAt f 8 8 ≠ s.rot.epoch.toNat then s.sendCtrl rq.port rq.src 1 rq.slot (beAt f 4 2) rq.reqId 22 0 (zeros 8)
  else if !w.accepts q then s.bumpReg (cmdReg 0xE10) 1
  else { s with ctrl := { s.ctrl with windows := s.ctrl.windows.set rq.slot (w.note q) } }.admitFrame rq f

/-- Is the frame the unauthenticated PROBE of R445? -/
def isProbe (f : Bytes) : Bool := beAt f 4 2 == 1 && beAt f 30 2 == 0 && f.drop 32 == zeros 32

/-- CTRL_FRAME_RECEIVE (R443 to R449): what becomes of a datagram on CTRL_UDP while Headframe runs and the port is up. -/
def execCtrlFrameReceive (port : Nat) (src : NetAddr) (frame : Bytes) (s : State) : Host.Outcome State Fault Refusal :=
  let slot := beAt frame 2 1
  let rq : Req := { port := port, src := src, slot := slot, reqId := beAt frame 24 4 }
  let s1 :=
    if 1024 ≤ s.ctrl.queue.length then s.bumpReg (cmdReg 0xE14) 1
    else if frame.length < 32 ∨ beAt frame 0 1 ≠ 1 ∨ beAt frame 1 1 ≠ 0 then s
    else if slot = 0xFF then
      (if isProbe frame then s.enqueue (reqEntry rq 1) else s)
    else if !s.authentic frame then s.bumpReg (cmdReg 0xE0C) 1
    else s.fresh rq frame
  when (s.boot.hfRunning && s.links.streamUp.getD port false) s s1

end Sys2Proof.Machine
end

