-- ==== Sys2Proof/Machine/Smb.lean ====
section
/-! DEFINITION. The SMBus sideband (R439, R479), one meaning per row. Every command of it passes `State.smb`: a transaction to
another address, or with no auxiliary supply, is none of the endpoint's. -/

namespace Sys2Proof.Machine

open Sys2Proof

/-- The endpoint's 7-bit address, 0x58 + MOD_ADDR[1:0]. -/
def State.smbAddress (s : State) : Nat := 0x58 + s.rot.strap.toNat

/-- A transaction the endpoint answers: to its address, while VAUX is there. -/
def State.smb (s : State) (addr : BitVec 7) (run : State → State) : Host.Outcome State Fault Refusal :=
  when (decide (addr.toNat = s.smbAddress) && s.pwr.vaux) s (run s)

/-- A block read's answer: the count, the data and the PEC over the whole transaction. -/
def State.smbReply (s : State) (code : Nat) (data : Bytes) : State :=
  let a := s.smbAddress
  let head : Bytes := [BitVec.ofNat 8 (2 * a), BitVec.ofNat 8 code, BitVec.ofNat 8 (2 * a + 1), BitVec.ofNat 8 data.length]
  s.send (.smb (BitVec.ofNat 8 data.length :: data ++ [BitVec.ofNat 8 (pec (head ++ data))]))

/-- The PEC of a block write to the endpoint. -/
def State.smbPec (s : State) (code : Nat) (data : Bytes) : Byte :=
  BitVec.ofNat 8 (pec ([BitVec.ofNat 8 (2 * s.smbAddress), BitVec.ofNat 8 code, BitVec.ofNat 8 data.length] ++ data))

/-- The IDENTITY fields: part, stepping, reserved, module identifier, Headframe release, Plan ID. -/
def State.identity (s : State) : List (Nat × Nat) :=
  [(2, 0x8600), (1, 0xB0), (1, 0), (8, s.rot.fuses.moduleId), (4, s.rot.hfRelease), (4, s.rot.planId)]

/-- Fields (bytes, value) laid out least significant byte first. -/
def fieldsLe (l : List (Nat × Nat)) : Bytes := l.flatMap (fun f => natLe f.1 f.2)

/-- CMD_BOOT_STAT as STATUS reports it: as last recorded while no Headframe runs. -/
def State.smbBoot (s : State) : Nat := (if s.boot.hfRunning then s.viewReg (cmdReg 0x900) else s.rot.bootSeen).toNat

/-- PWR_STAT as STATUS reports it. -/
def State.smbPower (s : State) : Nat := (if s.boot.hfRunning then s.viewReg (cmdReg 0xA00) else s.rot.pwrSeen).toNat

/-- The highest class in the alert queue; 0 for an empty queue. -/
def State.topAlert (s : State) : Nat := s.rot.alerts.foldl (fun m e => max m e.cls) 0

/-- MOD_ALERT_N is asserted, low: the alert queue holds a record (R412, R439, R479). -/
def State.modAlert (s : State) : Bool := !s.rot.alerts.isEmpty

/-- The STATUS fields. -/
def State.smbStatusFields (s : State) : List (Nat × Nat) :=
  [(4, s.smbBoot), (4, s.smbPower), (4, (s.viewReg (cmdReg 0xA04)).toNat), (1, s.topAlert), (1, s.rot.alertsLost), (2, 0)]

/-- The hottest junction of the levels, in 0.1 °C. -/
def State.hottest (s : State) : Int :=
  match s.pwr.junction with
  | [] => 0
  | j :: r => r.foldl max j

/-- The result of a command of 0x10 to 0x13, as RESULT reports it. -/
def State.smbResult (s : State) (status code : Nat) : State :=
  { s with rot := { s.rot with smbStatus := status, smbCommand := code } }

/-- SMB_IDENTITY (R439). -/
def execSmbIdentity (addr : BitVec 7) (s : State) : Host.Outcome State Fault Refusal :=
  s.smb addr (fun s => s.smbReply 0x01 (fieldsLe s.identity))

/-- SMB_STATUS (R439). -/
def execSmbStatus (addr : BitVec 7) (s : State) : Host.Outcome State Fault Refusal :=
  s.smb addr (fun s => s.smbReply 0x02 (fieldsLe s.smbStatusFields))

/-- SMB_EVENT_NEXT (R439, R479): the oldest alert, removed. -/
def execSmbEventNext (addr : BitVec 7) (s : State) : Host.Outcome State Fault Refusal :=
  s.smb addr (fun s => match s.rot.alerts with
    | [] => s.smbReply 0x03 (zeros 32)
    | e :: r => ({ s with rot := { s.rot with alerts := r } } : State).smbReply 0x03 (eventBytes e))

/-- SMB_THERMAL (R439): coolant temperatures are measurements of the outside. -/
def execSmbThermal (addr : BitVec 7) (s : State) : Host.Outcome State Fault Refusal :=
  s.smb addr (fun s =>
    let s1 : State := { s with draws := s.draws + 2 }
    s1.smbReply 0x04 (fieldsLe [(2, Config.sensor s.draws), (2, Config.sensor (s.draws + 1)), (2, codeOf 16 s.hottest), (2, 0)]))

/-- SMB_ARM (R439): the window for one command lasts 1 s. -/
def execSmbArm (addr : BitVec 7) (value pec : Byte) (s : State) : Host.Outcome State Fault Refusal :=
  s.smb addr (fun s =>
    if pec = s.smbPec 0x1F [value] ∧ value = 0xA5 then { s with rot := { s.rot with armUntil := some (s.now + 1000000000) } }
    else s)

/-- SMB_ARM_WINDOW_EXPIRE (R439): the window's second has passed. -/
def execSmbArmWindowExpire (s : State) : Host.Outcome State Fault Refusal :=
  match s.rot.armUntil with
  | some t => when (decide (t ≤ s.now)) s { s with rot := { s.rot with armUntil := none } }
  | none => .next s

/-- Is an ARM window open? -/
def State.armed (s : State) : Bool :=
  match s.rot.armUntil with
  | some t => decide (s.now < t)
  | none => false

/-- The effect of a Headframe request on RESULT and the module. -/
def State.smbRun (s : State) (code : Nat) (r : Reply) : State := r.after (s.smbResult r.status code)

/-- Headframe acts on a command of 0x10 to 0x13 (R439, R442). -/
def State.smbAct (s : State) (code : Nat) (bad : Bool) (run : State → Reply) : State :=
  if bad then s.smbResult 14 code else s.smbRun code (run s)

/-- A command's entry in Headframe's queue (R442). -/
def smbEntry (code : Nat) (data : Bytes) : HfEntry := { path := 1, opcode := code, args := data.map (fun b => b.toNat) }

/-- A command of 0x10 to 0x13 (R439, R442): ignored with an invalid PEC; with its entry at the front of Headframe's queue that one is
taken up (log entry 107). Else it arrives: NOT_ARMED outside a window; the window admits it and is over. With no Headframe the root of
trust performs a cold reset, and everything else completes NOT_READY; with one, the command waits behind those before it. -/
def State.smbCommand (s : State) (code : Nat) (data : Bytes) (p : Byte) (bad cold : Bool) (run : State → Reply) : State :=
  let e := smbEntry code data
  if p ≠ s.smbPec code data then s
  else if s.boot.hfRunning && s.ctrl.queue.head? == some e then (s.takeEntry e).smbAct code bad run
  else if !s.armed then s.smbResult 13 code
  else
    let s1 : State := { s with rot := { s.rot with armUntil := none } }
    if !s1.boot.hfRunning || !s1.pwr.pwrgd then
      if cold && s1.pwr.enable then s1.smbRun code (s1.moduleReset 0 3) else s1.smbResult 9 code
    else if 1024 ≤ s1.ctrl.queue.length then s1.smbResult 12 code
    else if s1.ctrl.queue.isEmpty then s1.smbAct code bad run
    else s1.enqueue e

/-- SMB_RESET (R383, R439): CAUSE 3. -/
def execSmbReset (addr : BitVec 7) (kind level pec : Byte) (s : State) : Host.Outcome State Fault Refusal :=
  let k := kind.toNat
  let bad := k == 0 || decide (3 < k) || (k == 3 && decide (3 < level.toNat))
  s.smb addr (fun s => s.smbCommand 0x10 [kind, level] pec bad (k == 1) (fun s =>
    if k = 1 then s.moduleReset 0 3 else if k = 2 then s.moduleReset 1 3 else s.askLevelReset level.toNat 3))

/-- SMB_PARK (R394, R395, R439). -/
def execSmbPark (addr : BitVec 7) (park level pec : Byte) (s : State) : Host.Outcome State Fault Refusal :=
  s.smb addr (fun s => s.smbCommand 0x11 [park, level] pec (decide (1 < park.toNat) || decide (3 < level.toNat)) false (fun s =>
    s.askLevelPark level.toNat (park == 1)))

/-- SMB_STANDBY (R396, R439). -/
def execSmbStandby (addr : BitVec 7) (enter pec : Byte) (s : State) : Host.Outcome State Fault Refusal :=
  s.smb addr (fun s => s.smbCommand 0x12 [enter] pec (decide (1 < enter.toNat)) false (fun s => s.askStandby (enter == 1)))

/-- SMB_REMOVE (R405, R439): DRAIN_LIMIT in s, least significant byte first. -/
def execSmbRemove (addr : BitVec 7) (mode limitLo limitHi pec : Byte) (s : State) : Host.Outcome State Fault Refusal :=
  let limit := limitLo.toNat + 256 * limitHi.toNat
  s.smb addr (fun s => s.smbCommand 0x13 [mode, limitLo, limitHi] pec (removeBad mode.toNat limit) false (fun s =>
    s.askRemove mode.toNat limit))

/-- SMB_RESULT (R439). -/
def execSmbResult (addr : BitVec 7) (s : State) : Host.Outcome State Fault Refusal :=
  s.smb addr (fun s => s.smbReply 0x14 [BitVec.ofNat 8 s.rot.smbStatus, BitVec.ofNat 8 s.rot.smbCommand])

end Sys2Proof.Machine
end

