-- ==== Sys2Proof/Machine/Lamp.lean ====
section
/-! DEFINITION. The Lamp monitor (R470 to R474), one meaning per row. The reply to a command is one message: the numbers it prints, OK
or ERR, and the status. -/

namespace Sys2Proof.Machine

open Sys2Proof

/-! The monitor itself. -/

/-- The commands of R471 by the row of its table: 0 help, 1 id, 2 status, 3 log, 4 repair, 5 baud, 6 reg r, 7 reg w, 8 mem r, 9 reset,
10 park, unpark and standby, 11 keyload, 12 hfload, 13 planload, 14 lock. -/
def State.lampOffers (s : State) (n : Nat) : Bool :=
  if s.phase = 12 then n == 0 || n == 1 || n == 2 || n == 5 || n == 12
  else if s.rot.locked then decide (n ≤ 6) || n == 12
  else decide (n ≤ 14)

/-- What a Lamp command answers: a status, the numbers it prints, and what it does. -/
structure LampReply where
  status : Nat := 0
  data   : List Nat := []
  after  : State → State := fun s => s

/-- Lamp is at work on a line: Headframe runs, or in RECOVERY the root of trust answers, and no image transfer is under way. -/
def State.lampReady (s : State) : Bool := (s.boot.hfRunning || s.phase == 12) && s.lamp.transfer.isNone

/-! Lines as text (R470, R471). -/

/-- The characters of a word, as ASCII codes. -/
def asciiWord (w : String) : List Nat := w.toList.map (fun c => c.toNat)

/-- The pieces of a line between the characters c. -/
def splitAt (c : Nat) : List Nat → List (List Nat)
  | [] => [[]]
  | x :: r =>
    let q := splitAt c r
    if x = c then [] :: q else (x :: q.headD []) :: q.tail

/-- The words of a line, separated by spaces. -/
def lineWords (l : Bytes) : List (List Nat) := (splitAt 32 (l.map (fun b => b.toNat))).filter (fun w => !w.isEmpty)

/-- A hexadecimal digit. -/
def hexDigit (c : Nat) : Option Nat :=
  if 48 ≤ c ∧ c ≤ 57 then some (c - 48) else if 97 ≤ c ∧ c ≤ 102 then some (c - 87) else if 65 ≤ c ∧ c ≤ 70 then some (c - 55) else none

/-- The value of digits in a base, from n on. -/
def digitsValue (base n : Nat) : List Nat → Option Nat
  | [] => some n
  | c :: r => match hexDigit c with
    | some d => if d < base then digitsValue base (n * base + d) r else none
    | none => none

/-- A number: decimal, or hexadecimal with the prefix 0x, its underscores ignored. -/
def lampNumber (w : List Nat) : Option Nat :=
  match w.filter (fun c => c != 95) with
  | [] => none
  | 48 :: 120 :: [] => none
  | 48 :: 120 :: r => digitsValue 16 0 r
  | l => digitsValue 10 0 l

/-- A key: 64 hex digits in groups of 8 separated by underscores (R471). -/
def lampKey (w : List Nat) : Bool :=
  let g := splitAt 95 w
  g.length == 8 && g.all (fun p => p.length == 8 && p.all (fun c => (hexDigit c).isSome))

/-- The commands of R471: their words, and the fewest and the most numbers that follow; keyload stands apart. -/
def lampForms : List (List (List Nat) × Nat × Nat) :=
  ([(["help"], 0, 0), (["id"], 0, 0), (["status"], 0, 0), (["log"], 1, 1), (["repair"], 0, 0), (["baud"], 1, 1), (["reg", "r"], 1, 2),
    (["reg", "w"], 2, 2), (["mem", "r"], 2, 2), (["reset", "cold"], 0, 0), (["reset", "warm"], 0, 0), (["reset", "level"], 1, 1),
    (["reset", "face"], 1, 1), (["park"], 1, 1), (["unpark"], 1, 1), (["standby", "on"], 0, 0), (["standby", "off"], 0, 0),
    (["hfload"], 1, 1), (["planload"], 1, 1), (["lock"], 1, 1)] : List (List String × Nat × Nat)).map (fun f =>
      (f.1.map asciiWord, f.2))

/-- Do a line's words spell a keyload? -/
def isKeyload (w : List (List Nat)) : Bool :=
  w.length == 4 && w.headD [] == asciiWord "keyload" && ((w.drop 1).take 2).all (fun x => (lampNumber x).isSome) && lampKey (w.getD 3 [])

/-- Do a line's words spell a command of the form? -/
def spells (w : List (List Nat)) (f : List (List Nat) × Nat × Nat) : Bool :=
  let a := w.drop f.1.length
  w.take f.1.length == f.1 && decide (f.2.1 ≤ a.length) && decide (a.length ≤ f.2.2) && a.all (fun x => (lampNumber x).isSome)

/-- A line that is too long or spells no command of R471 (log entry 66). -/
def lineBad (l : Bytes) : Bool := decide (128 < l.length) || !(isKeyload (lineWords l) || lampForms.any (spells (lineWords l)))

/-- The line Lamp takes up leaves the queue; lines before it that spell no command are answered BAD_FRAME. -/
def State.takeLine (s : State) : State :=
  { s with
    outbox := s.outbox ++ (s.lamp.lines.takeWhile lineBad).map (fun _ => .lamp [] false 14)
    lamp := { s.lamp with lines := (s.lamp.lines.dropWhile lineBad).drop 1 } }

/-- The reply sent, then the effect. -/
def State.lampAnswer (s : State) (r : LampReply) : State := r.after (s.send (.lamp r.data (r.status == 0) r.status))

/-- A Lamp command's entry in Headframe's queue (R442): its row, and its operands. -/
def lampEntry (n : Nat) (args : List Nat) : HfEntry := { path := 2, opcode := n, args := args }

/-- Does a Lamp command wait in Headframe's queue? -/
def State.lampWaits (s : State) : Bool := s.ctrl.queue.any (fun e => e.path == 2)

/-- Does Headframe, or in RECOVERY the root of trust, act on the Lamp command now (R442, log entry 107): no command is before it? -/
def State.lampTurn (s : State) (e : HfEntry) : Bool := !s.boot.hfRunning || s.entryTurn e

/-- The command taken up: from the queue where it waits there, else from its line. -/
def State.lampTaken (s : State) (e : HfEntry) : State :=
  if s.boot.hfRunning && s.ctrl.queue.contains e then s.takeEntry e else s.takeLine

/-- A Lamp command that finds others before it waits behind them, one Lamp command at a time. -/
def State.lampWait (s : State) (e : HfEntry) : State :=
  if s.lampWaits || decide (1024 ≤ s.ctrl.queue.length) then s else s.takeLine.enqueue e

/-- A Lamp command (R442, R470): run in its turn. -/
def State.lampDo (s : State) (e : HfEntry) (run : State → State) : Host.Outcome State Fault Refusal :=
  when s.lampReady s (if s.lampTurn e then run (s.lampTaken e) else s.lampWait e)

/-- A Lamp command that is answered at once: ERR LOCKED where it is not offered (R471, R474). -/
def State.lampRun (s : State) (n : Nat) (args : List Nat) (run : State → LampReply) : Host.Outcome State Fault Refusal :=
  s.lampDo (lampEntry n args) (fun s => if s.lampOffers n then s.lampAnswer (run s) else s.lampAnswer { status := 20 })

/-- A request shared with the control frames as a Lamp reply. -/
def lampOf (r : Reply) : LampReply := { status := r.status, after := r.after }

/-- A reply with numbers only. -/
def lampPrint (l : List Nat) : LampReply := { data := l }

/-- ERR BAD_FRAME. -/
def lampBad : LampReply := { status := 14 }

/-- LAMP_LINE_RECEIVE (R470): a line without its ending. Up to 4 lines wait, later ones are discarded, a line of no words is none; a
line that spells no command is answered BAD_FRAME once no command is before it (log entry 66). -/
def execLampLineReceive (line : Bytes) (s : State) : Host.Outcome State Fault Refusal :=
  if lineWords line = [] then ok s
  else if s.lampReady && !s.lampWaits && lineBad line && s.lamp.lines.all lineBad then ok (s.takeLine.lampAnswer lampBad)
  else when (decide (s.lamp.lines.length < 4)) s { s with lamp := { s.lamp with lines := s.lamp.lines ++ [line] } }

/-! Reading (R439, R454, R342, R370). -/

/-- LAMP_HELP (R471): the commands available, by their row. -/
def execLampHelp (s : State) : Host.Outcome State Fault Refusal :=
  s.lampRun 0 [] (fun s => lampPrint ((List.range 15).filter s.lampOffers))

/-- LAMP_ID (R471): the IDENTITY fields of R439. -/
def execLampId (s : State) : Host.Outcome State Fault Refusal :=
  s.lampRun 1 [] (fun s => lampPrint [0x8600, 0xB0, s.rot.fuses.moduleId, s.rot.hfRelease, s.rot.planId])

/-- LAMP_STATUS (R471): the STATUS words of R454. -/
def execLampStatus (s : State) : Host.Outcome State Fault Refusal :=
  s.lampRun 2 [] (fun s => lampPrint (statusWords.map (fun o => (s.viewReg (cmdReg o)).toNat)))

/-- The n newest event records, the oldest of them first. -/
def State.newestEvents (s : State) (n : Nat) : List EventRec :=
  let next := s.field (cmdReg 0x0860) 0 10
  ((List.range n).map (fun i => (next + 1024 - n + i) % 1024)).filterMap (fun i =>
    (s.events.records.find? (fun e => e.1 == i)).map (fun e => e.2))

/-- LAMP_LOG (R471). -/
def execLampLog (n : Nat) (s : State) : Host.Outcome State Fault Refusal :=
  s.lampRun 3 [n] (fun s => if n = 0 ∨ 64 < n then lampBad
    else lampPrint ((s.newestEvents n).flatMap (fun e => (eventBytes e).map (fun b => b.toNat))))

/-- LAMP_REPAIR (R471). -/
def execLampRepair (s : State) : Host.Outcome State Fault Refusal :=
  s.lampRun 4 [] (fun s => lampPrint ((latestOnly s.logEntries).flatMap (fun e => e.map (fun b => b.toNat))))

/-- LAMP_REG_READ (R468, R471). -/
def execLampRegRead (addr count : Nat) (s : State) : Host.Outcome State Fault Refusal :=
  s.lampRun 6 [addr, count] (fun s =>
    let r := s.readRegs addr count
    if count = 0 ∨ 64 < count ∨ 2 ^ 48 ≤ addr then lampBad
    else { status := if r.2.1.isSome then 17 else 0, data := r.1.map (fun w => w.toNat), after := fun t => (t.readRegs addr count).2.2 })

/-- LAMP_REG_WRITE (R468, R471). -/
def execLampRegWrite (addr : Nat) (value : Word) (s : State) : Host.Outcome State Fault Refusal :=
  s.lampRun 7 [addr, value.toNat] (fun s =>
    if 2 ^ 48 ≤ addr then lampBad
    else { status := if (s.writeReg addr value).1.isSome then 17 else 0, after := fun t => (t.writeReg addr value).2 })

/-- The KIND of the error a byte of device memory meets when the command die reads it, or none (R36 to R41, R226, R239, R387): the
command die also reaches the window of a reserve face. -/
def State.memError (s : State) (a : Nat) : Option Nat :=
  if a < 0x010000000000 then none
  else if a < 0x010000000000 + 4 * 0x001000000000 then
    let o := (a - 0x010000000000) % 0x001000000000
    if 0xBD000000 ≤ o || !s.levelUp ((a - 0x010000000000) / 0x001000000000) then some 0 else none
  else if a < 0x020000000000 then some 0
  else if a < 0x020800000000 then
    let p := (a - 0x020000000000) / 0x1000000
    if ¬ faceWf p then some 3
    else if !s.levelUp (levelOf p) || decide (storeBytes ≤ a % 0x1000000) then some 0
    else if (s.activeFace p || s.isReserve p) && !s.stale p then none else some 3
  else if a < regBase then some 0
  else some 2

/-- The first address from a on, of n, that errs, with its KIND. -/
def State.memFails (s : State) (a : Nat) : Nat → Option (Nat × Nat)
  | 0 => none
  | n + 1 => match s.memError a with
    | some k => some (a, k)
    | none => s.memFails (a + 1) n

/-- LAMP_MEM_READ (R471): an address that is withheld or unmapped is recorded under R41. -/
def execLampMemRead (addr count : Nat) (s : State) : Host.Outcome State Fault Refusal :=
  s.lampRun 8 [addr, count] (fun s =>
    if count = 0 ∨ 256 < count ∨ 2 ^ 48 < addr + count then lampBad
    else match s.memFails addr count with
      | some f => { status := 17, after := fun t => t.addrError none f.1 0x7FF f.2 none }
      | none => lampPrint ((s.memBytes addr count).map (fun b => b.toNat)))

/-! The line rate (R440, R471). -/

/-- BAUD of CMD_LAMP_STAT for a rate. -/
def baudCode (rate : Nat) : Option Nat :=
  if rate = 115200 then some 0 else if rate = 921600 then some 1 else if rate = 1500000 then some 2
  else if rate = 3000000 then some 3 else none

/-- LAMP_BAUD (R471): OK at the old rate, the new one 10 ms later. -/
def execLampBaud (rate : Nat) (s : State) : Host.Outcome State Fault Refusal :=
  s.lampRun 5 [rate] (fun _ => match baudCode rate with
    | none => lampBad
    | some c => { after := fun t => { t with lamp := { t.lamp with newBaud := some (c, t.now + 10000000) } } })

/-- LAMP_BAUD_APPLY (R471). -/
def execLampBaudApply (s : State) : Host.Outcome State Fault Refusal :=
  match s.lamp.newBaud with
  | none => ok s
  | some q => when (decide (q.2 ≤ s.now)) s
      (({ s with lamp := { s.lamp with newBaud := none } } : State).setField (cmdReg 0xE20) 1 2 q.1)

/-! Resets and power (R383, R384, R394 to R396): CAUSE 5. -/

/-- LAMP_RESET_COLD (R383). -/
def execLampResetCold (s : State) : Host.Outcome State Fault Refusal := s.lampRun 9 [0] (fun s => lampOf (s.moduleReset 0 5))

/-- LAMP_RESET_WARM (R379, R383). -/
def execLampResetWarm (s : State) : Host.Outcome State Fault Refusal := s.lampRun 9 [1] (fun s => lampOf (s.moduleReset 1 5))

/-- LAMP_RESET_LEVEL (R384). -/
def execLampResetLevel (level : Nat) (s : State) : Host.Outcome State Fault Refusal :=
  s.lampRun 9 [2, level] (fun s => if 4 ≤ level then lampBad else lampOf (s.askLevelReset level 5))

/-- LAMP_RESET_FACE (R384). -/
def execLampResetFace (face : Nat) (s : State) : Host.Outcome State Fault Refusal :=
  s.lampRun 9 [3, face] (fun s => if !faceWf face then lampBad else lampOf (s.askFaceReset face 5))

/-- LAMP_PARK (R394). -/
def execLampPark (level : Nat) (s : State) : Host.Outcome State Fault Refusal :=
  s.lampRun 10 [0, level] (fun s => if 4 ≤ level then lampBad else lampOf (s.askLevelPark level true))

/-- LAMP_UNPARK (R395). -/
def execLampUnpark (level : Nat) (s : State) : Host.Outcome State Fault Refusal :=
  s.lampRun 10 [1, level] (fun s => if 4 ≤ level then lampBad else lampOf (s.askLevelPark level false))

/-- LAMP_STANDBY_ON (R396). -/
def execLampStandbyOn (s : State) : Host.Outcome State Fault Refusal := s.lampRun 10 [2] (fun s => lampOf (s.askStandby true))

/-- LAMP_STANDBY_OFF (R396). -/
def execLampStandbyOff (s : State) : Host.Outcome State Fault Refusal := s.lampRun 10 [3] (fun s => lampOf (s.askStandby false))

/-! Keys and the production lock (R451, R452, R472). -/

/-- LAMP_KEYLOAD (R451, R471). -/
def execLampKeyload (slot roles : Nat) (key : Bytes) (s : State) : Host.Outcome State Fault Refusal :=
  s.lampRun 11 (slot :: roles :: key.map (fun b => b.toNat)) (fun _ =>
    if 7 < slot ∨ 127 < roles ∨ key.length ≠ 32 then lampBad
    else { after := fun t => t.changeKey slot (some { key := key, roles := BitVec.ofNat 8 roles }) })

/-- LAMP_LOCK (R472): nothing clears the lock. -/
def execLampLock (moduleId : Nat) (s : State) : Host.Outcome State Fault Refusal :=
  s.lampRun 14 [moduleId] (fun s =>
    if moduleId ≠ s.rot.fuses.moduleId then lampBad
    else { after := fun t => ({ t with rot := { t.rot with locked := true } } : State).setField (cmdReg 0xE20) 0 1 1 })

/-! Image transfers (R473, R474). -/

/-- A transfer begun: READY, and Lamp waits for frames. -/
def State.beginTransfer (s : State) (kind slot : Nat) : State :=
  ({ s with lamp := { s.lamp with transfer := some { kind := kind, slot := slot, lastAt := s.now } } } : State).send .lampReady

/-- A command that loads an image: no reply but READY until the transfer ends. -/
def State.lampLoad (s : State) (n kind slot : Nat) : Host.Outcome State Fault Refusal :=
  s.lampDo (lampEntry n [slot]) (fun s =>
    if !s.lampOffers n then s.lampAnswer { status := 20 }
    else if 1 < slot then s.lampAnswer lampBad
    else s.beginTransfer kind slot)

/-- LAMP_HFLOAD (R473, R474). -/
def execLampHfload (slot : Nat) (s : State) : Host.Outcome State Fault Refusal := s.lampLoad 12 3 slot

/-- LAMP_PLANLOAD (R473). -/
def execLampPlanload (slot : Nat) (s : State) : Host.Outcome State Fault Refusal := s.lampLoad 13 1 slot

/-- A checked image written into its slot; HF_ACTIVE follows a Headframe image. -/
def State.storeImage (s : State) (x : ImageXfer) : State :=
  if x.kind = 3 then
    let v := bits s.directory 1 2 * 2 + x.slot
    (s.writeSlot (hfBase x.slot) 0x400000 x.data).writeDirectory v
  else s.writeSlot (planBase x.slot) 0x7000000 x.data

/-- The transfer ended: the image checked and stored, and in RECOVERY a cold start after a Headframe image (R474). -/
def State.endTransfer (s : State) (x : ImageXfer) : State :=
  let s1 : State := { s with lamp := { s.lamp with transfer := none } }
  let e := if kindLimit x.kind < x.data.length then 1 else s1.checkContainer x.kind x.data
  if e ≠ 0 then (if x.kind = 1 then s1.setPlanErr e else s1).lampAnswer { status := 15 }
  else
    let s2 := (s1.storeImage x).lampAnswer {}
    if s.phase = 12 ∧ x.kind = 3 then s2.acceptReset 0 0 5 false else s2

/-- LAMP_IMAGE_FRAME (R473): accepted with 0x06 where the length and the CRC hold, asked for again with 0x15; a length of 0 ends the
transfer. -/
def execLampImageFrame (length : BitVec 16) (data : Bytes) (crc : Word) (s : State) : Host.Outcome State Fault Refusal :=
  match s.lamp.transfer with
  | none => ok s
  | some x =>
    let y := { x with lastAt := s.now }
    let sound := decide (length.toNat ≤ 1024) && data.length == length.toNat && crc32c data == crc.toNat
    let z := if sound then { y with data := y.data ++ data } else y
    if length = 0 then ok (s.endTransfer x)
    else ok (({ s with lamp := { s.lamp with transfer := some z } } : State).send (.lampByte (if sound then 0x06 else 0x15)))

/-- LAMP_TRANSFER_TIMEOUT (R473): 2 s without a byte. -/
def execLampTransferTimeout (s : State) : Host.Outcome State Fault Refusal :=
  match s.lamp.transfer with
  | none => ok s
  | some x => when (decide (x.lastAt + 2000000000 ≤ s.now)) s
      (({ s with lamp := { s.lamp with transfer := none } } : State).lampAnswer { status := 21 })

end Sys2Proof.Machine
end

