-- ==== Sys2Proof/Machine/MemErrors.lean ====
section
/-! DEFINITION. Memory errors: corrected ones, what each memory's row of R337 and R338 makes of uncorrectable reads, and the rows that
read device memory, on which an LPDDR6 device may be found bad. -/

namespace Sys2Proof.Machine

open Sys2Proof

/-! Memory errors (R337, R338). -/

/-- The owner of an engine's head descriptor. -/
def State.engineOwner (s : State) (p e : Nat) : Option Ctx := (s.engine p e).queue.head?.map (fun q => q.work.ctx)

/-- A session's image, settings and counters as one of its copies holds them; what the frame in progress would have left is gone (R338). -/
def Session.reload (x : Session) (c : CkptCopy) : Session :=
  { x with committed := c.image, settings := c.settings, counters := c.counters, pending := none, coldNew := [] }

/-- The frame in progress of an encode session that is to leave nothing behind but its number. -/
def EncFrame.barren (f : EncFrame) : EncFrame := { f with tensors := [], storeMask := 0, ltMask := 0, inter := true, refresh := false, chosen := false }

/-- The decode frame in progress stopped: its slices not yet decoded are missing (R76), and it leaves nothing behind. -/
def DecFrame.stop (f : DecFrame) : DecFrame :=
  { (if f.unknown || f.output then f else f.giveUp) with stopped := true }

/-- The frame in progress stops (R338): encode slices not yet emitted are dropped, decode slices not yet decoded are missing, and the frame
leaves the reloaded image as it is. -/
def State.stopFrame (s : State) (id : Nat) : State :=
  let x := s.ses id
  if x.decode then
    let gone := fun (f : DecFrame) => if f.unknown || f.output then 0 else f.slices.countP (fun k => decide (k.st = 1))
    s.setSes id ({ x with dec := { x.dec with frames := (x.dec.frames.take 1).map DecFrame.stop ++ x.dec.frames.drop 1 } }.bump 8
      ((x.dec.frames.take 1).foldl (fun n f => n + gone f) 0))
  else
    (s.setSes id { x with frame := x.frame.map EncFrame.barren, refreshDue := true }).dropRest id

/-- An uncorrectable read in a session's working area (R338). -/
def State.workingAreaUe (s : State) (id : Nat) : State :=
  let x := s.ses id
  if s.copyReads x 0 then (s.setSes id (x.reload x.copyA)).stopFrame id
  else if s.copyReads x 1 then (s.setSes id (x.reload x.copyB)).stopFrame id
  else s.loseSession id 2

/-- A read of the search store is made again (R215): the tile repeats with the same results. -/
def State.searchUe (s : State) (p offset : Nat) : State :=
  (s.bumpReg (fceReg p 0x310) 1).raise 0x04 0 0 (levelOf p) p (some (.session (s.face p).motion.session))
    (if offset < 0x12000 then 0 else 1) 0

/-- A slice buffer lot cannot be read (R337): a decode job is MALFORMED, an encode slice is dropped. -/
def State.lotUe (s : State) (l c x : Nat) (d : CoderDesc) : State :=
  if d.decode then (s.bumpReg (lvlReg l 0x314) 1).endCoder l c x 1 else s.dropSlices d.session [d.slice]

/-- The job of a coder context. -/
def State.coderDesc (s : State) (l c x : Nat) : Option CoderDesc := ((s.ctxAt l c x).job).map (fun j => parseCoder j.desc)

/-- What an uncorrectable read does, by what it served (the rows of R337). -/
def State.eccUse (s : State) (a : Nat) : EccUse → State
  | .faceStore p =>
    if s.canFail p then (s.noteUe (some (levelOf p)) 1 a a p (s.failClass p) none).faceFail p 1 else s
  | .searchStore p _ offset =>
    if (s.face p).motion.busy && s.faceRuns p then
      (s.noteUe (some (levelOf p)) 2 offset a p 0 (some (.session (s.face p).motion.session))).searchUe p offset
    else s
  | .pool l c x =>
    match s.coderDesc l c x with
    | some d =>
      if (s.ctxAt l c x).filling && s.levelUp l then
        (s.noteUe (some l) 3 a a noFace 0 (some (.session d.session))).poolError l c x d.bank (some (.session d.session))
      else s
    | none => s
  | .workingArea id =>
    if s.sesLive id && (s.ses id).state.live then
      (s.noteUe (some (dramLevel a)) 3 a a noFace 0 (some (.session id))).workingAreaUe id
    else s
  | .descriptor id =>
    if s.sesLive id && !((s.ses id).state == .free) && !((s.ses id).state == .closing) then
      (s.noteUe (some (dramLevel a)) 3 a a noFace 3 (some (.session id))).loseSession id 1
    else s
  | .dramUnit l u =>
    match (s.level l).blkUnits.getD u none with
    | some j => ((s.noteUe (some (dramLevel a)) 3 a a j.face 1 (some j.ctx)).freeUnit l u).blkBus l j 3 a
    | none => s
  | .lpddrUnit l u =>
    match (s.level l).blkUnits.getD u none with
    | some j =>
      (((s.noteUe (some (deviceOf a / 4)) 4 a a j.face 1 (some j.ctx)).freeUnit l u).blkBus l j 3 a).lpddrFault (deviceOf a) 1 (fun _ => 1)
    | none => s
  | .dramOther p e =>
    if s.faceRuns p && !(s.engine p e).queue.isEmpty then
      (s.noteUe (some (dramLevel a)) 3 a a p 1 (s.engineOwner p e)).engineUe p e (s.engine p e) a
    else s
  | .lpddrCopy id b =>
    if ((s.ses id).copy (b2n b)).present && deviceOf ((s.ses id).copyBase (b2n b)) == deviceOf a then
      (s.noteUe (some (deviceOf a / 4)) 4 a a noFace 0 (some (.session id))).lpddrFault (deviceOf a) 1 (fun _ => 1)
    else s
  | .lpddrModel m =>
    if (s.model m).state != 0 then (s.noteUe (some (deviceOf a / 4)) 4 a a noFace 0 none).lpddrFault (deviceOf a) 1 (fun _ => 1)
    else s
  | .lpddrOther p e =>
    if s.faceRuns p && !(s.engine p e).queue.isEmpty then
      ((s.noteUe (some (deviceOf a / 4)) 4 a a p 1 (s.engineOwner p e)).engineUe p e (s.engine p e) a).lpddrFault (deviceOf a) 1 (fun _ => 1)
    else s
  | .lot l c x =>
    match s.coderDesc l c x with
    | some d =>
      if s.levelUp l then (s.noteUe (some l) 5 a a noFace 0 (some (.session d.session))).lotUe l c x d else s
    | none => s
  | .tableCache l c x =>
    match s.coderDesc l c x with
    | some d =>
      if s.levelUp l then
        (s.noteUe (some l) 6 a a noFace 0 (some (.session d.session))).poolError l c x d.bank (some (.session d.session))
      else s
    | none => s
  | .staging l u =>
    match (s.level l).blkUnits.getD u none with
    | some j => ((s.noteUe (some l) 7 a a j.face 1 (some j.ctx)).freeUnit l u).blkBus l j 3 a
    | none => s
  | .portIngress p => ((s.noteUe none 8 a a noFace 0 none).bumpReg (cmdReg 0x850) 1).raise 0x07 0 1 0 noFace none p 0
  | .portEgress id dest =>
    if s.canSendTo id dest then (s.noteUe none 8 a a noFace 1 (some (.session id))).sendTo id dest ((s.nextUnits id dest).head?) else s
  | .mesh p e => if s.faceRuns p && !(s.engine p e).queue.isEmpty then s.engineUe p e (s.engine p e) a else s
  | .roundState d =>
    ((s.noteUe (if d < 4 then some d else none) 9 a a noFace 5 none).raise 0x50 5 1 0 noFace none 9 0).moduleFault 6

/-- The level, or the command die, whose memory serves a use at an address; a mesh flit has no code that corrects (R336, R337). -/
def eccHome (a : Nat) : EccUse → Option (Option Nat)
  | .faceStore p => some (some (levelOf p))
  | .searchStore p _ _ => some (some (levelOf p))
  | .pool _ _ _ => some (some (dramLevel a))
  | .workingArea _ => some (some (dramLevel a))
  | .descriptor _ => some (some (dramLevel a))
  | .dramUnit _ _ => some (some (dramLevel a))
  | .dramOther _ _ => some (some (dramLevel a))
  | .lpddrUnit _ _ => some (some (deviceOf a / 4))
  | .lpddrCopy _ _ => some (some (deviceOf a / 4))
  | .lpddrModel _ => some (some (deviceOf a / 4))
  | .lpddrOther _ _ => some (some (deviceOf a / 4))
  | .lot l _ _ => some (some l)
  | .tableCache l _ _ => some (some l)
  | .staging l _ => some (some l)
  | .portIngress _ => some none
  | .portEgress _ _ => some none
  | .mesh _ _ => none
  | .roundState d => some (if d < 4 then some d else none)

/-- Is it a use of LPDDR6? -/
def eccLpddr : EccUse → Bool
  | .lpddrUnit _ _ => true
  | .lpddrCopy _ _ => true
  | .lpddrModel _ => true
  | .lpddrOther _ _ => true
  | .faceStore _ => false
  | .searchStore _ _ _ => false
  | .pool _ _ _ => false
  | .workingArea _ => false
  | .descriptor _ => false
  | .dramUnit _ _ => false
  | .dramOther _ _ => false
  | .lot _ _ _ => false
  | .tableCache _ _ _ => false
  | .staging _ _ => false
  | .portIngress _ => false
  | .portEgress _ _ => false
  | .mesh _ _ => false
  | .roundState _ => false

/-- A corrected error: counted in ECC_CE (R337, R346), and against CE_LIMIT where it is an LPDDR6 device's (R340). -/
def State.eccCorrected (s : State) (a : Nat) (use : EccUse) : State :=
  match eccHome a use with
  | none => s
  | some l =>
    let s1 := s.bumpReg (lvlOrCmd l 0x820) 1
    if eccLpddr use then s1.corrected a 1 else s1

/-- ECC_UE (R337): an error of a memory, uncorrectable or corrected, while power is good. -/
def execEccUe (address : Nat) (error : EccError) (s : State) : Host.Outcome State Fault Refusal :=
  when (eccWf error.use && s.pwr.pwrgd) s (if error.corrected then s.eccCorrected address error.use else s.eccUse address error.use)

/-! The rows whose reads of device memory may meet a poisoned granule (R339). -/

/-- The LPDDR6 devices on which the command at work read a poisoned granule, declared faulted (R340). before: badReads as the command found
it. -/
def State.declareReads (s : State) (before : List Nat) : State :=
  let new := s.badReads.drop before.length
  if new = [] then s else ({ s with badReads := before } : State).each new.eraseDups (fun s d => s.lpddrFault d 1 (fun _ => 1))

/-- TRANSACTION_ISSUE (R279): one transaction of the engine's head descriptor. -/
def execTransactionIssue (p engine : Nat) (s : State) : Host.Outcome State Fault Refusal :=
  when (faceWf p && decide (engine < 6)) s ((s.issue p engine).declareReads s.badReads)

/-- TRAM_REFETCH (R293): the chunk read from its home copy into the next free skip. -/
def execTramRefetch (p engine : Nat) (s : State) : Host.Outcome State Fault Refusal := ok ((s.tramRefetch p engine).declareReads s.badReads)

/-- COMPRESSOR_DISPATCH (R311): a free unit takes a job. -/
def execCompressorDispatch (level : Nat) (s : State) : Host.Outcome State Fault Refusal :=
  when (decide (level < 4) && s.levelUp level) s ((s.dispatchBlk level).declareReads s.badReads)

/-- SEGMENT_COMPLETE (R313): the next segment of the unit's job. -/
def execSegmentComplete (level unit : Nat) (s : State) : Host.Outcome State Fault Refusal :=
  when (decide (level < 4) && decide (unit < 4) && s.levelUp level) s ((s.segment level unit).declareReads s.badReads)

end Sys2Proof.Machine
end

