-- ==== Sys2Proof/Machine/Registers.lean ====
section
/-! DEFINITION. Register accesses with an effect of their own (R5, R6): one meaning per row. Each takes place where the
register answers; a level in reset or parked answers no access (R387, R394). -/

namespace Sys2Proof.Machine

open Sys2Proof

/-- Does an aligned write reach the register at a? -/
def State.answers (s : State) (a : Nat) : Bool := (s.regError a true).isNone

/-- ARITH_FLAGS_CLEAR (R101, R115). -/
def execArithFlagsClear (p : Nat) (value : Word) (s : State) : Host.Outcome State Fault Refusal :=
  when (faceWf p && s.answers (fceReg p 0x200)) s (s.clearFlags p value)

/-- TRAP_RECORD_CLEAR (R104). -/
def execTrapRecordClear (p : Nat) (value : Word) (s : State) : Host.Outcome State Fault Refusal :=
  when (faceWf p && s.answers (fceReg p 0x210)) s (s.clearTrap p value)

/-- SPILL_RECORD_CLEAR (R169). -/
def execSpillRecordClear (p : Nat) (value : Word) (s : State) : Host.Outcome State Fault Refusal :=
  when (faceWf p && s.answers (fceReg p 0x290)) s (s.clearSpill p value)

/-- TAG_FAULT_CLEAR (R169). -/
def execTagFaultClear (p : Nat) (value : Word) (s : State) : Host.Outcome State Fault Refusal :=
  when (faceWf p && s.answers (fceReg p 0x2B0)) s (s.clearTag p value)

/-- ADDR_ERR_CLEAR (R42). -/
def execAddrErrClear (level : Option Nat) (value : Word) (s : State) : Host.Outcome State Fault Refusal :=
  when (levelOptWf level && s.answers (lvlOrCmd level 0x104)) s (s.clearAddrErr level value)

/-- HST_ERR_CLEAR (R297). -/
def execHstErrClear (p : Nat) (value : Word) (s : State) : Host.Outcome State Fault Refusal :=
  when (faceWf p && s.answers (fceReg p 0x500)) s (s.clearHstErr p value)

/-- WAIT_RECORD_CLEAR (R299). -/
def execWaitRecordClear (level : Nat) (value : Word) (s : State) : Host.Outcome State Fault Refusal :=
  when (decide (level < 4) && s.answers (lvlReg level 0x600)) s (s.clearWait level value)

/-- ROUND_ABORT_RECORD_CLEAR (R346). -/
def execRoundAbortRecordClear (level : Option Nat) (value : Word) (s : State) : Host.Outcome State Fault Refusal :=
  when (levelOptWf level && s.answers (lvlOrCmd level 0x810)) s (s.clearAbort level value)

/-- ECC_RECORD_CLEAR (R346). -/
def execEccRecordClear (level : Option Nat) (value : Word) (s : State) : Host.Outcome State Fault Refusal :=
  when (levelOptWf level && s.answers (lvlOrCmd level 0x830)) s (s.clearEcc level value)

/-- TAKEOVER_RECORD_CLEAR (R273). -/
def execTakeoverRecordClear (level : Nat) (value : Word) (s : State) : Host.Outcome State Fault Refusal :=
  when (decide (level < 4) && s.answers (lvlReg level 0x51C)) s (s.clearTakeover level value)

/-- PHASE_LAST_CLEAR (R411). -/
def execPhaseLastClear (value : Word) (s : State) : Host.Outcome State Fault Refusal :=
  ok (s.clearPhaseLast value)

/-- COUNTER_READ_CLEAR (R5): a read of an RC register clears it. -/
def execCounterReadClear (addr : Nat) (s : State) : Host.Outcome State Fault Refusal :=
  when (regRc addr && s.answers addr) s (s.readEffect addr)

/-- TIM_NOW_LO_READ (R441). -/
def execTimNowLoRead (s : State) : Host.Outcome State Fault Refusal :=
  ok (s.readEffect (cmdReg 0xB08))

/-- REGISTER_WRITE_OTHER (R5, R6): read-only and reserved fields ignore a write; only a W1C field would act. -/
def execRegisterWriteOther (addr : Nat) (value : Word) (s : State) : Host.Outcome State Fault Refusal :=
  when (s.answers addr) s (s.writeEffect addr value)

end Sys2Proof.Machine
end

