-- ==== Sys2Proof/Machine/Rounds.lean ====
section
/-! DEFINITION. The rows of the round controllers (R322 to R331): arming, members, decision, fire, deadline. -/

namespace Sys2Proof.Machine

open Sys2Proof

/-- What the owner of an aborted round does (R329): a takeover leaves its slot absent, a migration, a licence or a remap round is asked for
again; checkpoint rounds follow R262 where they abort. -/
def State.afterAbort (s : State) (r : Round) : State :=
  match r.flip with
  | .takeover l d slot failed _ => (s.slotAbsent l d slot failed).afterTakeover l d
  | .migration .. => s.askAgain r
  | .licence => s.askAgain r
  | .remap _ => s.askAgain r
  | .rejoin .. => s
  | .swap => s
  | .checkpoint _ => s

/-- A round other than a checkpoint aborts, and its owner acts. -/
def State.abortRound (s : State) (r : Round) (reason : Nat) : State := (s.dropRound r reason).afterAbort r

/-- A round aborts with some of its members at fault: of a checkpoint round these are the copies lost (R262). -/
def State.abortWith (s : State) (r : Round) (reason : Nat) (lost : List Nat) : State :=
  match r.flip with
  | .checkpoint i => s.ckptFail r i reason lost
  | .takeover .. => s.abortRound r reason
  | .migration .. => s.abortRound r reason
  | .licence => s.abortRound r reason
  | .remap _ => s.abortRound r reason
  | .rejoin .. => s.abortRound r reason
  | .swap => s.abortRound r reason

/-- A round with member i done; a completion-triggered one whose last member it was is complete. -/
def Round.memberDone (r : Round) (i now : Nat) : Round :=
  let ms := r.members.modify i (fun m => { m with st := 1 })
  { r with members := ms, doneAt := if !r.flip.byTime && ms.all (fun m => m.st == 1) then some now else r.doneAt }

/-- ROUND_ARM (R323, R330): a waiting round is armed where its controller has room and none of its flip members is held. -/
def execRoundArm (id : Nat) (s : State) : Host.Outcome State Fault Refusal := ok (s.tryArm id)

/-- Does copy member i of a checkpoint round write to a device out of service (R340)? -/
def State.memberFails (s : State) (r : Round) (i : Nat) : Bool :=
  match r.flip with
  | .checkpoint id => !s.lpddrOk (deviceOf ((s.ses id).copyBase i))
  | .takeover .. => false
  | .migration .. => false
  | .licence => false
  | .remap _ => false
  | .rejoin .. => false
  | .swap => false

/-- ROUND_MEMBER_COMPLETE (R326, R329): a member of an armed round is done or ready, or it fails and the round aborts
MEMBER_FAILED. -/
def execRoundMemberComplete (id memberIx : Nat) (good : Bool) (s : State) : Host.Outcome State Fault Refusal :=
  match s.round id with
  | none => ok s
  | some r =>
    let waits := match r.members[memberIx]? with
      | some m => m.st == 0
      | none => false
    when (r.armed && !r.decided && waits && s.boot.warmCause.isNone) s
      (if good && !s.memberFails r memberIx then s.setRound (r.memberDone memberIx s.now) else s.abortWith r 1 [memberIx])

/-- A time-triggered round still waiting at its decision is refused (R330). -/
def State.refuseRound (s : State) (r : Round) : State :=
  let s1 := s.removeRound r.id
  match r.flip with
  | .swap => if s1.shadowState = 3 then s1.setShadow 2 else s1
  | .migration .. => s1.askAgain r
  | .licence => s1.askAgain r
  | .checkpoint _ => s1
  | .takeover .. => s1
  | .remap _ => s1
  | .rejoin .. => s1

/-- ROUND_DECISION (R325, R330): at T − 2 µs a round whose members are all ready is told to fire; else it aborts NOT_READY, and one
not armed yet is refused. -/
def execRoundDecision (id : Nat) (s : State) : Host.Outcome State Fault Refusal :=
  match s.round id with
  | none => ok s
  | some r =>
    match r.timed with
    | none => ok s
    | some t =>
      when (!r.decided && decide (t ≤ s.now + 2000)) s
        (if !r.armed then s.refuseRound r
         else if r.members.all (fun m => m.st == 1) then s.setRound { r with decided := true }
         else s.abortRound r 2)

/-- ROUND_FIRE_TIMED (R325, R331): at T every flip member takes its new value; resets that waited for it begin. -/
def execRoundFireTimed (id : Nat) (s : State) : Host.Outcome State Fault Refusal :=
  match s.round id with
  | none => ok s
  | some r =>
    match r.timed with
    | none => ok s
    | some t => when (r.armed && r.decided && decide (t ≤ s.now)) s (s.fireRound r t).beginDue

/-- The lead of a completion-triggered round: 100 ns where every flip member lies on the controller's die, else 2 µs (R326). -/
def Flip.lead : Flip → Nat
  | .checkpoint _ => 100
  | .takeover .. => 2000
  | .migration .. => 2000
  | .licence => 2000
  | .remap _ => 2000
  | .rejoin .. => 2000
  | .swap => 2000

/-- A completion-triggered round fires: a remap round brings its levels back with it (R44, R388). -/
def State.fireDone (s : State) (r : Round) : State :=
  match r.flip with
  | .remap ls => ((s.enterService ls).fireRound r s.now).afterRemap ls
  | .takeover .. => s.fireRound r s.now
  | .rejoin .. => s.fireRound r s.now
  | .swap => s.fireRound r s.now
  | .checkpoint _ => s.fireRound r s.now
  | .migration .. => s.fireRound r s.now
  | .licence => s.fireRound r s.now

/-- ROUND_FIRE_COMPLETION (R326, R331): the round fires at the first 4 ns tick at or after the completion of its last member plus
the lead. -/
def execRoundFireCompletion (id : Nat) (s : State) : Host.Outcome State Fault Refusal :=
  match s.round id with
  | none => ok s
  | some r =>
    match r.doneAt with
    | none => ok s
    | some t =>
      when (r.armed && !r.flip.byTime && decide (launchGrain (t + r.flip.lead) ≤ s.now)) s (s.fireDone r).beginDue

/-- The numbers of the members of a round that are not done. -/
def Round.pendingMembers (r : Round) : List Nat :=
  (List.range r.members.length).filter (fun i => (r.members.getD i {}).st != 1)

/-- ROUND_DEADLINE (R326, R329): a completion-triggered round with a member incomplete at its deadline aborts. -/
def execRoundDeadline (id : Nat) (s : State) : Host.Outcome State Fault Refusal :=
  match s.round id with
  | none => ok s
  | some r =>
    when (r.armed && !r.flip.byTime && r.doneAt.isNone && decide (r.deadline ≤ s.now)) s (s.abortWith r 3 r.pendingMembers)

/-! Migration at the frame start of a decode session (R252, R266; log entry 94). -/

/-- The migration round of a session at one of its frame starts, where it was asked for at least 100 µs before: it fires if it is armed and
every member is ready, aborts NOT_READY if one is not, and is refused while it waits to be armed (R325, R330). -/
def State.migrateAtStart (s : State) (id : Nat) : State :=
  let mine := fun (r : Round) => r.timed.isNone && !r.hold && decide (r.asked + 100000 ≤ s.now) && match r.flip with
    | .migration i _ => i == id
    | .remap _ => false
    | .takeover .. => false
    | .rejoin .. => false
    | .swap => false
    | .checkpoint _ => false
    | .licence => false
  match s.rounds.find? mine with
  | none => s
  | some r =>
    if !r.armed then s.refuseRound r
    else if r.members.all (fun m => m.st == 1) then (s.fireRound r s.now).beginDue
    else s.abortRound r 2

/-- USF_FRAME_HEADER (R59, R60): a frame that it opens starts at once. -/
def execUsfFrameHeader (session : Nat) (unit : Bytes) (s : State) : Host.Outcome State Fault Refusal :=
  let t := s.deliver session unit false (usfType unit == 2)
  let opened := fun (s : State) => ((s.ses session).dec.lastOpened, (s.ses session).dec.lastStart)
  ok (if opened t = opened s then t else t.migrateAtStart session)

end Sys2Proof.Machine
end

