-- ==== Sys2Proof/Machine/Dispatch.lean ====
section
/-! DEFINITION. One arm per command: the meaning each row of the table has. -/

namespace Sys2Proof.Machine

def exec (i : Instr) (s : State) : Host.Outcome State Fault Refusal :=
  match i with
  | .ctrlFrameReceive port src frame => Sys2Proof.Machine.execCtrlFrameReceive port src frame s
  | .probe rq => Sys2Proof.Machine.execProbe rq s
  | .status rq => Sys2Proof.Machine.execStatus rq s
  | .sessionStatus rq session => Sys2Proof.Machine.execSessionStatus rq session s
  | .sessionCounters rq session clear => Sys2Proof.Machine.execSessionCounters rq session clear s
  | .jobStatus rq job => Sys2Proof.Machine.execJobStatus rq job s
  | .eventRead rq first count => Sys2Proof.Machine.execEventRead rq first count s
  | .eventSubscribe rq on => Sys2Proof.Machine.execEventSubscribe rq on s
  | .repairRead rq first count => Sys2Proof.Machine.execRepairRead rq first count s
  | .regRead rq addr count => Sys2Proof.Machine.execRegRead rq addr count s
  | .regWrite rq addr value => Sys2Proof.Machine.execRegWrite rq addr value s
  | .attest rq nonce => Sys2Proof.Machine.execAttest rq nonce s
  | .modelList rq first count => Sys2Proof.Machine.execModelList rq first count s
  | .sesOpen rq body => Sys2Proof.Machine.execSesOpen rq body s
  | .sesClose rq session mode launch => Sys2Proof.Machine.execSesClose rq session mode launch s
  | .sesPark rq session => Sys2Proof.Machine.execSesPark rq session s
  | .sesResume rq session tr => Sys2Proof.Machine.execSesResume rq session tr s
  | .sesReset rq session => Sys2Proof.Machine.execSesReset rq session s
  | .sesSet rq session ratePoint launch deadlineOff settings => Sys2Proof.Machine.execSesSet rq session ratePoint launch deadlineOff settings s
  | .migrate rq session cls level => Sys2Proof.Machine.execMigrate rq session cls level s
  | .jobStart rq body => Sys2Proof.Machine.execJobStart rq body s
  | .jobSuspend rq job => Sys2Proof.Machine.execJobSuspend rq job s
  | .jobResume rq job => Sys2Proof.Machine.execJobResume rq job s
  | .jobCancel rq job => Sys2Proof.Machine.execJobCancel rq job s
  | .jobRelease rq job => Sys2Proof.Machine.execJobRelease rq job s
  | .jobExport rq job offset bytes => Sys2Proof.Machine.execJobExport rq job offset bytes s
  | .stageBegin rq kind modelSlot totalBytes fire => Sys2Proof.Machine.execStageBegin rq kind modelSlot totalBytes fire s
  | .stageData rq handle offset data => Sys2Proof.Machine.execStageData rq handle offset data s
  | .stageCommit rq handle => Sys2Proof.Machine.execStageCommit rq handle s
  | .stageAbort rq handle => Sys2Proof.Machine.execStageAbort rq handle s
  | .modelUnstage rq modelSlot => Sys2Proof.Machine.execModelUnstage rq modelSlot s
  | .swapArm rq t => Sys2Proof.Machine.execSwapArm rq t s
  | .swapDisarm rq => Sys2Proof.Machine.execSwapDisarm rq s
  | .directorySet rq bits => Sys2Proof.Machine.execDirectorySet rq bits s
  | .logClear rq kind index => Sys2Proof.Machine.execLogClear rq kind index s
  | .warmReset rq => Sys2Proof.Machine.execWarmReset rq s
  | .levelReset rq level => Sys2Proof.Machine.execLevelReset rq level s
  | .faceReset rq face => Sys2Proof.Machine.execFaceReset rq face s
  | .levelPark rq level park => Sys2Proof.Machine.execLevelPark rq level park s
  | .standby rq enter => Sys2Proof.Machine.execStandby rq enter s
  | .remove rq mode drainLimit => Sys2Proof.Machine.execRemove rq mode drainLimit s
  | .keySet rq slot roles nonce wrapped => Sys2Proof.Machine.execKeySet rq slot roles nonce wrapped s
  | .keyClear rq slot => Sys2Proof.Machine.execKeyClear rq slot s
  | .smbIdentity addr => Sys2Proof.Machine.execSmbIdentity addr s
  | .smbStatus addr => Sys2Proof.Machine.execSmbStatus addr s
  | .smbEventNext addr => Sys2Proof.Machine.execSmbEventNext addr s
  | .smbThermal addr => Sys2Proof.Machine.execSmbThermal addr s
  | .smbArm addr value pec => Sys2Proof.Machine.execSmbArm addr value pec s
  | .smbArmWindowExpire => Sys2Proof.Machine.execSmbArmWindowExpire s
  | .smbReset addr kind level pec => Sys2Proof.Machine.execSmbReset addr kind level pec s
  | .smbPark addr park level pec => Sys2Proof.Machine.execSmbPark addr park level pec s
  | .smbStandby addr enter pec => Sys2Proof.Machine.execSmbStandby addr enter pec s
  | .smbRemove addr mode limitLo limitHi pec => Sys2Proof.Machine.execSmbRemove addr mode limitLo limitHi pec s
  | .smbResult addr => Sys2Proof.Machine.execSmbResult addr s
  | .lampLineReceive line => Sys2Proof.Machine.execLampLineReceive line s
  | .lampHelp => Sys2Proof.Machine.execLampHelp s
  | .lampId => Sys2Proof.Machine.execLampId s
  | .lampStatus => Sys2Proof.Machine.execLampStatus s
  | .lampLog n => Sys2Proof.Machine.execLampLog n s
  | .lampRepair => Sys2Proof.Machine.execLampRepair s
  | .lampBaud rate => Sys2Proof.Machine.execLampBaud rate s
  | .lampBaudApply => Sys2Proof.Machine.execLampBaudApply s
  | .lampRegRead addr count => Sys2Proof.Machine.execLampRegRead addr count s
  | .lampRegWrite addr value => Sys2Proof.Machine.execLampRegWrite addr value s
  | .lampMemRead addr count => Sys2Proof.Machine.execLampMemRead addr count s
  | .lampResetCold => Sys2Proof.Machine.execLampResetCold s
  | .lampResetWarm => Sys2Proof.Machine.execLampResetWarm s
  | .lampResetLevel level => Sys2Proof.Machine.execLampResetLevel level s
  | .lampResetFace face => Sys2Proof.Machine.execLampResetFace face s
  | .lampPark level => Sys2Proof.Machine.execLampPark level s
  | .lampUnpark level => Sys2Proof.Machine.execLampUnpark level s
  | .lampStandbyOn => Sys2Proof.Machine.execLampStandbyOn s
  | .lampStandbyOff => Sys2Proof.Machine.execLampStandbyOff s
  | .lampKeyload slot roles key => Sys2Proof.Machine.execLampKeyload slot roles key s
  | .lampHfload slot => Sys2Proof.Machine.execLampHfload slot s
  | .lampPlanload slot => Sys2Proof.Machine.execLampPlanload slot s
  | .lampImageFrame length data crc => Sys2Proof.Machine.execLampImageFrame length data crc s
  | .lampTransferTimeout => Sys2Proof.Machine.execLampTransferTimeout s
  | .lampLock moduleId => Sys2Proof.Machine.execLampLock moduleId s
  | .arithFlagsClear p value => Sys2Proof.Machine.execArithFlagsClear p value s
  | .trapRecordClear p value => Sys2Proof.Machine.execTrapRecordClear p value s
  | .spillRecordClear p value => Sys2Proof.Machine.execSpillRecordClear p value s
  | .tagFaultClear p value => Sys2Proof.Machine.execTagFaultClear p value s
  | .addrErrClear level value => Sys2Proof.Machine.execAddrErrClear level value s
  | .hstErrClear p value => Sys2Proof.Machine.execHstErrClear p value s
  | .waitRecordClear level value => Sys2Proof.Machine.execWaitRecordClear level value s
  | .roundAbortRecordClear level value => Sys2Proof.Machine.execRoundAbortRecordClear level value s
  | .eccRecordClear level value => Sys2Proof.Machine.execEccRecordClear level value s
  | .takeoverRecordClear level value => Sys2Proof.Machine.execTakeoverRecordClear level value s
  | .phaseLastClear value => Sys2Proof.Machine.execPhaseLastClear value s
  | .counterReadClear addr => Sys2Proof.Machine.execCounterReadClear addr s
  | .timNowLoRead => Sys2Proof.Machine.execTimNowLoRead s
  | .registerWriteOther addr value => Sys2Proof.Machine.execRegisterWriteOther addr value s
  | .hoistCopy p engine offset work => Sys2Proof.Machine.execHoistCopy p engine offset work s
  | .hoistFill p engine offset work => Sys2Proof.Machine.execHoistFill p engine offset work s
  | .tram p engine offset layer work => Sys2Proof.Machine.execTram p engine offset layer work s
  | .transactionIssue p engine => Sys2Proof.Machine.execTransactionIssue p engine s
  | .descriptorComplete p engine => Sys2Proof.Machine.execDescriptorComplete p engine s
  | .busError p engine => Sys2Proof.Machine.execBusError p engine s
  | .fusedStageCommand p offset work => Sys2Proof.Machine.execFusedStageCommand p offset work s
  | .computeStep p ctx op => Sys2Proof.Machine.execComputeStep p ctx op s
  | .muster p offset work => Sys2Proof.Machine.execMuster p offset work s
  | .musterRelease scope unit id => Sys2Proof.Machine.execMusterRelease scope unit id s
  | .skipPublish p ring bytes tag => Sys2Proof.Machine.execSkipPublish p ring bytes tag s
  | .skipRelease p ring => Sys2Proof.Machine.execSkipRelease p ring s
  | .poolBorrow ring ctx => Sys2Proof.Machine.execPoolBorrow ring ctx s
  | .borrowReturnBy ring => Sys2Proof.Machine.execBorrowReturnBy ring s
  | .ringMonitorSample level => Sys2Proof.Machine.execRingMonitorSample level s
  | .waitJoinSample => Sys2Proof.Machine.execWaitJoinSample s
  | .tramChunkArrive home p layer chunk dueBy data => Sys2Proof.Machine.execTramChunkArrive home p layer chunk dueBy data s
  | .tramRefetch p engine => Sys2Proof.Machine.execTramRefetch p engine s
  | .faceIdleGate p => Sys2Proof.Machine.execFaceIdleGate p s
  | .faceUngate p => Sys2Proof.Machine.execFaceUngate p s
  | .motionBandStart p session band => Sys2Proof.Machine.execMotionBandStart p session band s
  | .columnBlockLoad p block => Sys2Proof.Machine.execColumnBlockLoad p block s
  | .motionTileStart p => Sys2Proof.Machine.execMotionTileStart p s
  | .motionBandPublish p => Sys2Proof.Machine.execMotionBandPublish p s
  | .regionMapPaint session detections late => Sys2Proof.Machine.execRegionMapPaint session detections late s
  | .coderJobSubmit p descriptor records => Sys2Proof.Machine.execCoderJobSubmit p descriptor records s
  | .coderJobDispatch level => Sys2Proof.Machine.execCoderJobDispatch level s
  | .coderCacheFill level coder ctx uncorrectable => Sys2Proof.Machine.execCoderCacheFill level coder ctx uncorrectable s
  | .coderContextSwitch level coder arrived => Sys2Proof.Machine.execCoderContextSwitch level coder arrived s
  | .coderJobComplete level coder ctx tallyOk => Sys2Proof.Machine.execCoderJobComplete level coder ctx tallyOk s
  | .compress p offset work => Sys2Proof.Machine.execCompress p offset work s
  | .decompress p offset work => Sys2Proof.Machine.execDecompress p offset work s
  | .verify p offset work => Sys2Proof.Machine.execVerify p offset work s
  | .compressorDispatch level => Sys2Proof.Machine.execCompressorDispatch level s
  | .segmentComplete level unit => Sys2Proof.Machine.execSegmentComplete level unit s
  | .sessionActivate session => Sys2Proof.Machine.execSessionActivate session s
  | .frameStart session => Sys2Proof.Machine.execFrameStart session s
  | .bandLaunch session band => Sys2Proof.Machine.execBandLaunch session band s
  | .encodeDeadline session => Sys2Proof.Machine.execEncodeDeadline session s
  | .sliceEmit session => Sys2Proof.Machine.execSliceEmit session s
  | .destinationSend session dest tallyOk => Sys2Proof.Machine.execDestinationSend session dest tallyOk s
  | .spectatorSkip session dest => Sys2Proof.Machine.execSpectatorSkip session dest s
  | .decodeFrameDeadline session => Sys2Proof.Machine.execDecodeFrameDeadline session s
  | .decodeFrameOutput session => Sys2Proof.Machine.execDecodeFrameOutput session s
  | .sessionParkComplete session => Sys2Proof.Machine.execSessionParkComplete session s
  | .sessionFree session => Sys2Proof.Machine.execSessionFree session s
  | .ethFrameReceive port frame tallyOk => Sys2Proof.Machine.execEthFrameReceive port frame tallyOk s
  | .usfPacketReceive port src dstUdp ssrc rtpSeq payload => Sys2Proof.Machine.execUsfPacketReceive port src dstUdp ssrc rtpSeq payload s
  | .fragmentTimeout port ssrc => Sys2Proof.Machine.execFragmentTimeout port ssrc s
  | .rawMediaPacket port dstUdp ssrc payload => Sys2Proof.Machine.execRawMediaPacket port dstUdp ssrc payload s
  | .usfStreamHeader session unit => Sys2Proof.Machine.execUsfStreamHeader session unit s
  | .usfFrameHeader session unit => Sys2Proof.Machine.execUsfFrameHeader session unit s
  | .usfSlice session unit => Sys2Proof.Machine.execUsfSlice session unit s
  | .usfEndOfStream session unit => Sys2Proof.Machine.execUsfEndOfStream session unit s
  | .usfLossReport session unit primary => Sys2Proof.Machine.execUsfLossReport session unit primary s
  | .usfReservedType session unit => Sys2Proof.Machine.execUsfReservedType session unit s
  | .roundArm id => Sys2Proof.Machine.execRoundArm id s
  | .roundMemberComplete id memberIx ok => Sys2Proof.Machine.execRoundMemberComplete id memberIx ok s
  | .roundDecision id => Sys2Proof.Machine.execRoundDecision id s
  | .roundFireTimed id => Sys2Proof.Machine.execRoundFireTimed id s
  | .roundFireCompletion id => Sys2Proof.Machine.execRoundFireCompletion id s
  | .roundDeadline id => Sys2Proof.Machine.execRoundDeadline id s
  | .faceWatchdogExpire p => Sys2Proof.Machine.execFaceWatchdogExpire p s
  | .facePowerFault p => Sys2Proof.Machine.execFacePowerFault p s
  | .faceAutoReset p => Sys2Proof.Machine.execFaceAutoReset p s
  | .faceSoundingDone p passed test => Sys2Proof.Machine.execFaceSoundingDone p passed test s
  | .ringSegment level drift segment => Sys2Proof.Machine.execRingSegment level drift segment s
  | .lpddrDevice device cause => Sys2Proof.Machine.execLpddrDevice device cause s
  | .eccUe address error => Sys2Proof.Machine.execEccUe address error s
  | .patrolScrub address uncorrectable corrected => Sys2Proof.Machine.execPatrolScrub address uncorrectable corrected s
  | .phaseShed phase cause => Sys2Proof.Machine.execPhaseShed phase cause s
  | .junctionReport die tenths => Sys2Proof.Machine.execJunctionReport die tenths s
  | .dvfsThermalStep level => Sys2Proof.Machine.execDvfsThermalStep level s
  | .dvfsStepDone level => Sys2Proof.Machine.execDvfsStepDone level s
  | .mgmtWatchdogExpire => Sys2Proof.Machine.execMgmtWatchdogExpire s
  | .coldStart => Sys2Proof.Machine.execColdStart s
  | .planLoad => Sys2Proof.Machine.execPlanLoad s
  | .memoryInitDone level result => Sys2Proof.Machine.execMemoryInitDone level result s
  | .linkTrainingDone result => Sys2Proof.Machine.execLinkTrainingDone result s
  | .soundingDone failed => Sys2Proof.Machine.execSoundingDone failed s
  | .modelStagingDone => Sys2Proof.Machine.execModelStagingDone s
  | .timeSettled settled traceable => Sys2Proof.Machine.execTimeSettled settled traceable s
  | .survey => Sys2Proof.Machine.execSurvey s
  | .surveyRerun => Sys2Proof.Machine.execSurveyRerun s
  | .helloSend port => Sys2Proof.Machine.execHelloSend port s
  | .helloReceive port frame => Sys2Proof.Machine.execHelloReceive port frame s
  | .neighbourTimeout => Sys2Proof.Machine.execNeighbourTimeout s
  | .electionSettle => Sys2Proof.Machine.execElectionSettle s
  | .streamPortLinkChange port up => Sys2Proof.Machine.execStreamPortLinkChange port up s
  | .streamPortLinkTimeout port => Sys2Proof.Machine.execStreamPortLinkTimeout port s
  | .warmResetResume rehashOk => Sys2Proof.Machine.execWarmResetResume rehashOk s
  | .levelResetComplete level failed => Sys2Proof.Machine.execLevelResetComplete level failed s
  | .levelParkComplete level => Sys2Proof.Machine.execLevelParkComplete level s
  | .levelUnparkComplete level => Sys2Proof.Machine.execLevelUnparkComplete level s
  | .standbyExitComplete => Sys2Proof.Machine.execStandbyExitComplete s
  | .repairLogWrite => Sys2Proof.Machine.execRepairLogWrite s
  | .shadowBuildComplete => Sys2Proof.Machine.execShadowBuildComplete s
  | .stageInstallComplete handle => Sys2Proof.Machine.execStageInstallComplete handle s
  | .stageHandleTimeout handle => Sys2Proof.Machine.execStageHandleTimeout handle s
  | .jobStep job => Sys2Proof.Machine.execJobStep job s
  | .jobStepDone job newLambdas => Sys2Proof.Machine.execJobStepDone job newLambdas s
  | .prechargeContact => Sys2Proof.Machine.execPrechargeContact s
  | .vauxUp strap => Sys2Proof.Machine.execVauxUp strap s
  | .modPresentAssert => Sys2Proof.Machine.execModPresentAssert s
  | .inputValid tenMillivolts => Sys2Proof.Machine.execInputValid tenMillivolts s
  | .modEnRise => Sys2Proof.Machine.execModEnRise s
  | .modEnFall => Sys2Proof.Machine.execModEnFall s
  | .modRemoveOkAssert => Sys2Proof.Machine.execModRemoveOkAssert s
  | .drainLimitExpire => Sys2Proof.Machine.execDrainLimitExpire s
  | .surpriseRemoval cause => Sys2Proof.Machine.execSurpriseRemoval cause s
  | .inputUndervoltage => Sys2Proof.Machine.execInputUndervoltage s
  | .ptpMessageReceive port message => Sys2Proof.Machine.execPtpMessageReceive port message s
  | .ptpSyncSend port => Sys2Proof.Machine.execPtpSyncSend port s
  | .servoHoldover => Sys2Proof.Machine.execServoHoldover s
  | .holdoverExpire => Sys2Proof.Machine.execHoldoverExpire s
  | .xctTimeSend port => Sys2Proof.Machine.execXctTimeSend port s
  | .xctTimeFrame port frame => Sys2Proof.Machine.execXctTimeFrame port frame s
  | .xctLaneFrame port frame => Sys2Proof.Machine.execXctLaneFrame port frame s
  | .xctRelay port frame => Sys2Proof.Machine.execXctRelay port frame s
  | .xctNak port frame => Sys2Proof.Machine.execXctNak port frame s
  | .xctReplayTimeout port => Sys2Proof.Machine.execXctReplayTimeout port s
  | .xctLane port lane => Sys2Proof.Machine.execXctLane port lane s
  | .decodeCloseLaunch session => Sys2Proof.Machine.execDecodeCloseLaunch session s
  | .standbyEntryComplete => Sys2Proof.Machine.execStandbyEntryComplete s
  | .xctAckReceive port frame => Sys2Proof.Machine.execXctAckReceive port frame s

end Sys2Proof.Machine
end

