-- ==== Sys2Proof/Safety.lean ====
section
/-! DEFINITION. What counts as a legal state, and the terms the statements use: a state that takes a request, an OK response. -/

namespace Sys2Proof

/-- The register file is canonical: addresses rise and no entry equals its reset value. -/
def regsWf (m : Machine.RegFile) : Bool := Machine.keysRise m && m.all (fun e => e.2 != Machine.regReset e.1)

/-- Device memory, flash and the register file keep their canonical forms. -/
def Machine.State.Canonical (s : Machine.State) : Prop :=
  Machine.Memory.wf Machine.memUnlisted s.mem = true ∧ Machine.Memory.wf Machine.flashUnlisted s.flash = true ∧
    regsWf s.regs = true

/-- Headframe runs and no command is before the request (R442); its key slot holds a key with the role of the opcode's group (R451); no
response is held under its REQ_ID (R447), and no general status of R453 stands in its way. kind: the KIND it stages, 0 for none. -/
abbrev Machine.State.Takes (s : Machine.State) (rq : Req) (op kind : Nat) : Prop :=
  s.boot.hfRunning = true ∧ (s.key rq.slot).isSome = true ∧ s.entryTurn (Machine.reqEntry rq op) = true ∧
    s.hasRole rq.slot (op / 256) = true ∧ s.heldFor rq.slot rq.reqId = none ∧ s.gate op kind = 0

/-- The state with the request's queue entry taken (R442). -/
abbrev Machine.State.taken (s : Machine.State) (rq : Req) (op : Nat) : Machine.State :=
  s.takeEntry (Machine.reqEntry rq op)

/-- The response to a request with STATUS OK: ACCEPT_TIME and what the opcode returns, sent to the requester and held for a
repetition of the same request (R447, R450). req is the request's body. -/
def Machine.State.okReply (s : Machine.State) (rq : Req) (op : Nat) (req body : Bytes) : Machine.State :=
  (s.sendCtrl rq.port rq.src 1 rq.slot op rq.reqId 0 0 (Machine.natBe 8 s.now ++ body)).hold
    { slot := rq.slot, reqId := rq.reqId, opcode := op, body := req, status := 0, detail := 0,
      resp := Machine.natBe 8 s.now ++ body }

/-- t differs from s at most in what the control path keeps and in what has been sent. -/
abbrev Machine.State.SameButControl (s t : Machine.State) : Prop :=
  { t with ctrl := s.ctrl, outbox := s.outbox } = s

/-- The request of a control frame command and its opcode (R454). -/
def Instr.requestOf : Instr → Option (Req × Nat)
  | .probe rq => some (rq, 0x0001)
  | .status rq => some (rq, 0x0010)
  | .sessionStatus rq _ => some (rq, 0x0011)
  | .sessionCounters rq _ _ => some (rq, 0x0012)
  | .jobStatus rq _ => some (rq, 0x0013)
  | .eventRead rq _ _ => some (rq, 0x0014)
  | .eventSubscribe rq _ => some (rq, 0x0015)
  | .repairRead rq _ _ => some (rq, 0x0016)
  | .regRead rq _ _ => some (rq, 0x0017)
  | .regWrite rq _ _ => some (rq, 0x0018)
  | .attest rq _ => some (rq, 0x0019)
  | .modelList rq _ _ => some (rq, 0x001A)
  | .sesOpen rq _ => some (rq, 0x0100)
  | .sesClose rq _ _ _ => some (rq, 0x0101)
  | .sesPark rq _ => some (rq, 0x0102)
  | .sesResume rq _ _ => some (rq, 0x0103)
  | .sesReset rq _ => some (rq, 0x0104)
  | .sesSet rq _ _ _ _ _ => some (rq, 0x0105)
  | .migrate rq _ _ _ => some (rq, 0x0106)
  | .jobStart rq _ => some (rq, 0x0200)
  | .jobSuspend rq _ => some (rq, 0x0201)
  | .jobResume rq _ => some (rq, 0x0202)
  | .jobCancel rq _ => some (rq, 0x0203)
  | .jobRelease rq _ => some (rq, 0x0204)
  | .jobExport rq _ _ _ => some (rq, 0x0205)
  | .stageBegin rq _ _ _ _ => some (rq, 0x0300)
  | .stageData rq _ _ _ => some (rq, 0x0301)
  | .stageCommit rq _ => some (rq, 0x0302)
  | .stageAbort rq _ => some (rq, 0x0303)
  | .modelUnstage rq _ => some (rq, 0x0304)
  | .swapArm rq _ => some (rq, 0x0305)
  | .swapDisarm rq => some (rq, 0x0306)
  | .directorySet rq _ => some (rq, 0x0400)
  | .logClear rq _ _ => some (rq, 0x0401)
  | .warmReset rq => some (rq, 0x0500)
  | .levelReset rq _ => some (rq, 0x0501)
  | .faceReset rq _ => some (rq, 0x0502)
  | .levelPark rq _ _ => some (rq, 0x0503)
  | .standby rq _ => some (rq, 0x0504)
  | .remove rq _ _ => some (rq, 0x0505)
  | .keySet rq _ _ _ _ => some (rq, 0x0600)
  | .keyClear rq _ => some (rq, 0x0601)
  | _ => none

/-- The media packet a message on the wire carries: port, address and port of its destination, port it comes from, RTP packet, sound FCS. -/
def Machine.OutMsg.media : Machine.OutMsg → Option (Nat × Nat × Nat × Nat × Bytes × Bool)
  | .usf port addr udp srcUdp rtp fcsOk _ => some (port, addr, udp, srcUdp, rtp, fcsOk)
  | .ctrl .. => none
  | .smb _ => none
  | .lamp .. => none
  | .lampByte _ => none
  | .lampReady => none
  | .report .. => none
  | .crosscut .. => none
  | .relayed .. => none
  | .net .. => none

end Sys2Proof
end

