-- ==== Sys2Proof/Certificates/Slice0/Obligations.lean ====
section
/-! DEFINITION. What this model is claimed to do, for the provers: one statement per definition. -/

open Sys2Proof Sys2Proof.Machine

/-! The queue (this block's commands wait first in, first out). -/

/-- The command at the front of the queue runs on the state with the queue's rest. -/
def Obligations.StepRunsFrontCommand : Prop :=
  ∀ (c : Instr) (rest : List Instr) (s : State), step { s with pending := c :: rest } = exec c { s with pending := rest }

/-- Time passes on an empty queue (R10, R254, R427). The model's choice, log entry 1: a step is one TIME cycle of 4 ns, to which the servo
adds what it has set. Only the clock moves; with no correction it moves by 4 ns modulo 2^64, and while a session is not FREE the correction
is at most 100 ppm of the cycle, so the clock never steps back. -/
def Obligations.EmptyQueueTicks : Prop :=
  ∀ s : State, s.pending = [] →
    ∃ t, step s = .next t ∧ { t with now := s.now, servo := s.servo } = s ∧ { t.servo with frac := s.servo.frac } = s.servo ∧
      (s.servo.rate = 0 → s.servo.frac < 2 ^ 32 → t.now = (s.now + 4) % 2 ^ 64 ∧ t.servo.frac = s.servo.frac) ∧
      ((∃ e ∈ s.sessions, e.2.state ≠ .free) → s.servo.frac < 2 ^ 32 → s.now + 5 < 2 ^ 64 →
        s.now < t.now ∧
          (((t.now * 2 ^ 32 + t.servo.frac : Nat) : Int) - (s.now * 2 ^ 32 + s.servo.frac : Nat) - 4 * 2 ^ 32).natAbs * 1000000 ≤
            100 * (4 * 2 ^ 32))

/-- No command stops the block: errors of the part are records, events and statuses (R41, R341, R453), so every command, on every
state and with every operand, answers a next state. -/
def Obligations.NoCommandStopsTheBlock : Prop :=
  ∀ (c : Instr) (s : State), ∃ t, exec c s = .next t

/-! Reset and the invariants of every step. -/

/-- What reset leaves, as the register tables and the chapters give it, read as software reads it: every session FREE (R239), no
round armed, no event logged, FCE_SFU_ID 0x3403 on a face, ENT_LOT_STAT 0x4040 on a level, TIM_PTP_STAT 7 on the command die, every
other register 0, no key loaded, no reset in progress, no command waiting; its memories and register file are canonical. -/
def Obligations.ResetState : Prop :=
  (∀ id, (State.reset.ses id).state = .free) ∧ State.reset.rounds = [] ∧ State.reset.events.records = [] ∧
    (∀ p, faceWf p = true → State.reset.viewReg (fceReg p 0x240) = 0x3403) ∧
    (∀ l, l < 4 → State.reset.viewReg (lvlReg l 0x310) = 0x4040) ∧ State.reset.viewReg (cmdReg 0xB00) = 7 ∧
    (∀ o, o < 0x100000 → o ≠ 0xB00 → State.reset.viewReg (cmdReg o) = 0) ∧
    (∀ l o, l < 4 → o < 0x10000 → o ≠ 0x310 → State.reset.viewReg (lvlReg l o) = 0) ∧
    (∀ p o, faceWf p = true → o < 0x1000 → o ≠ 0x240 → State.reset.viewReg (fceReg p o) = 0) ∧
    (∀ l d o, l < 4 → d < 16 → o < 0x1000 → State.reset.viewReg (drfReg l d o) = 0) ∧
    (∀ slot, State.reset.key slot = none) ∧ State.reset.resets = [] ∧ State.reset.pending = [] ∧ State.reset.Canonical

/-- Every step keeps device memory, flash and the register file canonical: addresses rise, and no entry equals what its address
reads when unlisted, so that equal memories are equal data. -/
def Obligations.StepKeepsCanonical : Prop :=
  ∀ s t : State, s.Canonical → step s = .next t → t.Canonical

/-- What the root of trust keeps for ever: no step changes a fuse (written at manufacture), clears the production lock (R472) or
lowers a security counter (R361). -/
def Obligations.StepKeepsRootOfTrust : Prop :=
  ∀ s t : State, step s = .next t →
    t.rot.fuses = s.rot.fuses ∧ (s.rot.locked = true → t.rot.locked = true) ∧ s.rot.svnPlan ≤ t.rot.svnPlan ∧
      s.rot.svnHf ≤ t.rot.svnHf

/-! Control frames that read (R445, R454 to R468). -/

/-- Each read answers OK with what its row of R454 returns, and a clearing read clears in the same step (R464): PROBE on key slot
0xFF needs no key and carries no ACCEPT_TIME (R445). -/
def Obligations.ControlReadsAnswer : Prop :=
  ∀ (s : State) (rq : Req),
    (rq.slot = 0xFF → s.boot.hfRunning = true → s.entryTurn (reqEntry rq 1) = true →
      exec (.probe rq) s = .next ((s.taken rq 1).sendCtrl rq.port rq.src 1 0xFF 1 rq.reqId 0 0
        (natBe 8 s.rot.fuses.moduleId ++ natBe 8 s.rot.epoch.toNat ++ natBe 4 s.rot.hfRelease ++ natBe 1 s.phase ++ zeros 3))) ∧
    (s.Takes rq 0x10 0 →
      exec (.status rq) s = .next ((s.taken rq 0x10).okReply rq 0x10 []
        ([0x900, 0xA00, 0xA04, 0x920, 0x924, 0x928, 0x930, 0xB00].flatMap (fun o => natBe 4 ((s.taken rq 0x10).viewReg (cmdReg o)).toNat)))) ∧
    (∀ id : BitVec 32, s.Takes rq 0x11 0 → id.toNat < 2 ^ 20 →
      exec (.sessionStatus rq id) s = .next ((s.taken rq 0x11).okReply rq 0x11 (natBe 4 id.toNat) (s.descriptor id.toNat))) ∧
    (∀ (id : BitVec 32) (clear : Bool), s.Takes rq 0x12 0 → id.toNat < 2 ^ 20 →
      let t := (s.taken rq 0x12).okReply rq 0x12 (natBe 4 id.toNat ++ natBe 1 (b2n clear) ++ zeros 3)
        ((s.ses id.toNat).counterBytes ++ (s.ses id.toNat).settings.bytes)
      exec (.sessionCounters rq id clear) s = .next (if clear then t.clearCounters id.toNat else t)) ∧
    (∀ (job : BitVec 32) (j : Job), s.Takes rq 0x13 0 → s.job job.toNat = some j →
      exec (.jobStatus rq job) s = .next ((s.taken rq 0x13).okReply rq 0x13 (natBe 4 job.toNat) (s.jobRecord j))) ∧
    (∀ first count : BitVec 16, s.Takes rq 0x14 0 → count.toNat ≤ 64 → first.toNat < 1024 →
      exec (.eventRead rq first count) s = .next ((s.taken rq 0x14).okReply rq 0x14 (natBe 2 first.toNat ++ natBe 2 count.toNat)
        ((List.range count.toNat).flatMap (fun i => eventWire (spGet {} s.events.records ((first.toNat + i) % 1024)))))) ∧
    (∀ (first : BitVec 32) (count : BitVec 16), s.Takes rq 0x16 0 → count.toNat ≤ 64 →
      exec (.repairRead rq first count) s = .next ((s.taken rq 0x16).okReply rq 0x16
        (natBe 4 first.toNat ++ natBe 2 count.toNat ++ zeros 2)
        (((s.logEntries.drop first.toNat).take count.toNat).flatMap entryWire))) ∧
    (∀ first count : BitVec 16, s.Takes rq 0x1A 0 → count.toNat ≤ 256 → first.toNat + count.toNat ≤ 4096 →
      exec (.modelList rq first count) s = .next ((s.taken rq 0x1A).okReply rq 0x1A (natBe 2 first.toNat ++ natBe 2 count.toNat)
        ((List.range count.toNat).flatMap (fun i => s.modelEntry (first.toNat + i))))) ∧
    (∀ nonce : Bytes, s.Takes rq 0x19 0 → nonce.length = 32 →
      exec (.attest rq nonce) s = .next ((s.taken rq 0x19).okReply rq 0x19 nonce ((s.taken rq 0x19).attestation nonce)).draw.2)

/-- A subscription and the register accesses of a control frame (R465, R468): the requester becomes the slot's subscriber, or is
no longer one; registers are read with the effect of a read, a register is written. -/
def Obligations.ControlSubscribesAndAccessesRegisters : Prop :=
  ∀ (s : State) (rq : Req),
    (∀ on : Bool, s.Takes rq 0x15 0 → s.ctrl.subs.length < 4 →
      ∃ t, exec (.eventSubscribe rq on) s = .next t ∧ t.ctrl.subs = s.ctrl.subs.filter (fun u => u.slot != rq.slot) ++
        (if on then [{ slot := rq.slot, port := rq.port, src := rq.src }] else []) ∧ s.SameButControl t) ∧
    (∀ (addr : BitVec 64), s.Takes rq 0x17 0 → addr.toNat < 2 ^ 48 → s.regError addr.toNat false = none →
      ∃ t, exec (.regRead rq addr 1) s = .next t ∧
        t = ((s.taken rq 0x17).okReply rq 0x17 (natBe 8 addr.toNat ++ natBe 1 1 ++ zeros 3)
          (natBe 4 ((s.taken rq 0x17).viewReg addr.toNat).toNat)).readEffect addr.toNat) ∧
    (∀ (addr : BitVec 64) (value : Word), s.Takes rq 0x18 0 → addr.toNat < 2 ^ 48 → s.regError addr.toNat true = none →
      exec (.regWrite rq addr value) s = .next (((s.taken rq 0x18).okReply rq 0x18 (natBe 8 addr.toNat ++ natBe 4 value.toNat)
        []).writeEffect addr.toNat value))

/-- The frame of the reads: whatever they answer, they change only what the control path keeps and what has been sent. -/
def Obligations.ControlReadsChangeNothingElse : Prop :=
  ∀ (s t : State) (rq : Req) (id job first : BitVec 32) (f c : BitVec 16) (on : Bool),
    (exec (.probe rq) s = .next t ∨ exec (.status rq) s = .next t ∨ exec (.sessionStatus rq id) s = .next t ∨
      exec (.sessionCounters rq id false) s = .next t ∨ exec (.jobStatus rq job) s = .next t ∨ exec (.eventRead rq f c) s = .next t ∨
      exec (.eventSubscribe rq on) s = .next t ∨ exec (.repairRead rq first c) s = .next t ∨ exec (.modelList rq f c) s = .next t) →
    s.SameButControl t

/-! The control path itself (R442 to R453). -/

/-- A response in parts (R448): each part at most MTU − 112 bytes, numbered from 0, and the body is their concatenation. -/
def Obligations.ResponsePartsJoinToBody : Prop :=
  ∀ (mtu : Nat) (body : Bytes), 112 < mtu →
    (ctrlParts mtu body).flatMap (fun p => p.2) = body ∧ (∀ p ∈ ctrlParts mtu body, p.2.length ≤ mtu - 112) ∧
      (ctrlParts mtu body).map (fun p => p.1) = List.range (ctrlParts mtu body).length

/-- Fresh requests and numbered frames (R446): a SEQ is accepted only if it is at least 1, above H − 64 and not seen; once one is noted,
H is the highest, that SEQ is not accepted again and every other one is judged as before against the new H; an authentic request of the
present epoch that is not accepted is dropped with no answer and counted; each frame part the device sends under a key slot carries one
more than the slot's last SEQ, and the slot's TAG, the first of an epoch SEQ 1. -/
def Obligations.RequestsAreFreshAndFramesNumbered : Prop :=
  (∀ (w : ReplayWindow) (q r : Nat),
    (w.accepts q = true ↔ 1 ≤ q ∧ w.high < q + 64 ∧ q ∉ w.seen) ∧ (w.note q).high = max w.high q ∧
      ((w.note q).accepts r = true ↔ 1 ≤ r ∧ max w.high q < r + 64 ∧ r ≠ q ∧ r ∉ w.seen)) ∧
  (∀ (s : State) (port : Nat) (src : NetAddr) (f : Bytes), s.boot.hfRunning = true → s.links.streamUp.getD port false = true →
    s.ctrl.queue.length < 1024 → 32 ≤ f.length → beAt f 0 1 = 1 → beAt f 1 1 = 0 → beAt f 2 1 ≠ 0xFF → s.authentic f = true →
    beAt f 8 8 = s.rot.epoch.toNat → (s.ctrl.windows.getD (beAt f 2 1) {}).accepts (beAt f 16 8) = false →
    exec (.ctrlFrameReceive port src f) s = .next (s.bumpReg (cmdReg 0xE10) 1)) ∧
  (∀ (s : State) (port : Nat) (dst : NetAddr) (kind slot op reqId st detail count : Nat) (part : Nat × Bytes) (w : ReplayWindow),
    s.ctrl.windows[slot]? = some w →
    let t := s.sendPart port dst kind slot op reqId st detail count part
    let h := ctrlHeader kind slot op part.1 count s.rot.epoch.toNat (w.tx + 1) reqId st detail part.2.length
    let tag := s.ctrlTag kind slot (h ++ part.2)
    t.outbox = s.outbox ++ s.asks port dst.ip ++ [.ctrl port dst h part.2 tag
        (s.datagram port dst ((s.port port).getD {}).ctrlUdp (h ++ part.2 ++ tag) true)] ∧
      t.ctrl.windows[slot]? = some { w with tx := w.tx + 1 } ∧ (∀ k, k ≠ slot → t.ctrl.windows[k]? = s.ctrl.windows[k]?)) ∧
  (∀ (s : State) (cause : Nat), ∀ w ∈ (s.beginCold cause).ctrl.windows, w.tx = 0 ∧ w.high = 0 ∧ w.seen = [])

/-- What becomes of a datagram on CTRL_UDP while Headframe runs and the port is up: with 1,024 commands queued it is dropped and
counted (R449); the PROBE of R445 is queued; an unauthentic frame is counted and dropped (R444); an authentic one of another epoch is
answered STALE_EPOCH with an ACCEPT_TIME of 0 (R445), one whose SEQ is out of the window or seen is counted and dropped (R446), and a
fresh, well formed one is queued, its SEQ noted (R442). -/
def Obligations.ControlFrameReceived : Prop :=
  ∀ (s : State) (port : Nat) (src : NetAddr) (f : Bytes),
    s.boot.hfRunning = true → s.links.streamUp.getD port false = true →
    let slot := beAt f 2 1
    let rq : Req := { port := port, src := src, slot := slot, reqId := beAt f 24 4 }
    let w := s.ctrl.windows.getD slot {}
    (1024 ≤ s.ctrl.queue.length → exec (.ctrlFrameReceive port src f) s = .next (s.bumpReg (cmdReg 0xE14) 1)) ∧
    (s.ctrl.queue.length < 1024 → 32 ≤ f.length → beAt f 0 1 = 1 → beAt f 1 1 = 0 →
      (slot = 0xFF → beAt f 4 2 = 1 → beAt f 30 2 = 0 → f.drop 32 = zeros 32 →
        exec (.ctrlFrameReceive port src f) s = .next (s.enqueue (reqEntry rq 1))) ∧
      (slot ≠ 0xFF → s.authentic f = false →
        exec (.ctrlFrameReceive port src f) s = .next (s.bumpReg (cmdReg 0xE0C) 1)) ∧
      (slot ≠ 0xFF → s.authentic f = true → beAt f 8 8 ≠ s.rot.epoch.toNat →
        exec (.ctrlFrameReceive port src f) s =
          .next (s.sendCtrl port src 1 slot (beAt f 4 2) rq.reqId 22 0 (zeros 8))) ∧
      (slot ≠ 0xFF → s.authentic f = true → beAt f 8 8 = s.rot.epoch.toNat → w.accepts (beAt f 16 8) = false →
        exec (.ctrlFrameReceive port src f) s = .next (s.bumpReg (cmdReg 0xE10) 1)) ∧
      (slot ≠ 0xFF → s.authentic f = true → beAt f 8 8 = s.rot.epoch.toNat → w.accepts (beAt f 16 8) = true →
        bodyFits (beAt f 4 2) (sub f 32 (beAt f 30 2)) = true → headerFits f = true →
        ∃ t, exec (.ctrlFrameReceive port src f) s = .next t ∧
          t.ctrl.queue = s.ctrl.queue ++ [reqEntry rq (beAt f 4 2)] ∧
          t.ctrl.windows = s.ctrl.windows.set slot (w.note (beAt f 16 8)) ∧ { t with ctrl := s.ctrl } = s))

/-- A control command has no effect beyond its answer where its key slot lacks the role of its opcode's group (R451), a response
is held under its REQ_ID (R447), or its module may not act on it (R374, R396, R405, R453: the general statuses); an authenticated
PROBE needs no role. The staging commands' last clause is left to their KIND. -/
def Obligations.RefusedRequestsHaveNoEffect : Prop :=
  ∀ (c : Instr) (s t : State) (rq : Req) (op : Nat), c.requestOf = some (rq, op) → op ≠ 1 →
    (s.hasRole rq.slot (op / 256) = false ∨ (s.heldFor rq.slot rq.reqId).isSome = true ∨
      (op / 256 ≠ 3 ∧ s.gate op 0 ≠ 0)) → exec c s = .next t → s.SameButControl t

/-! Sessions over the control path (R246 to R253, R455 to R457). -/

/-- OPEN (R246, R247, R456): a request whose fields are valid, for a FREE session, a claim that covers it, a usable model the header
names, a binding no session holds, and which the checks of R247 let through, is answered OK; the session is OPENING from its START0 at
the launch grain, with all counters and slots empty, in a free placement entry of its class, and no other session, register or byte of
memory changes. -/
def Obligations.OpenLeavesSessionOpening : Prop :=
  ∀ (s : State) (rq : Req) (b : OpenBody), s.Takes rq 0x100 0 → openBad b = false →
    let u := s.taken rq 0x100
    let m := u.model b.modelSlot.toNat
    let id := b.session.toNat
    (u.ses id).state = .free →
    u.claimed (needs (openDecode b) (openSub b) b.header) (u.activeSessions + 1) (u.residentSessions + 1) = true →
    m.state = 3 → pkgNamed m.pkg b.header = true → b.ratePoint.toNat < m.pkg.ratePoints →
    u.bindingHeld b.inPort.toNat b.inSsrc.toNat = false → (u.openChecked b).status = 0 →
    ∃ t, exec (.sesOpen rq b) s = .next t ∧ (t.ses id).state = .opening ∧ (t.ses id).decode = openDecode b ∧
      (t.ses id).modelSlot = b.modelSlot.toNat ∧ (t.ses id).start0 = launchGrain b.start0.toNat ∧
      (t.ses id).frameIndex = 0 ∧ (t.ses id).counters = List.replicate 29 0 ∧ (t.ses id).slots = List.replicate 8 {} ∧
      (t.ses id).placement ∈ u.freePlacements b.cls.toNat b.modelSlot.toNat ∧ s.now + 1000000 ≤ (t.ses id).start0 ∧
      (∀ j, j ≠ id → t.ses j = s.ses j) ∧ t.regs = s.regs ∧ t.mem = s.mem

/-- The commands on an open session (R246, R248, R250, R253, R457): an immediate close ends it, a graceful one waits for its launch
time while it is active; a park takes place at once where no frame is in progress and else waits; a parked session resumes from the
copy that reads; a reset is the session's reset; settings wait in order for their launch time; a migration asks for its round. -/
def Obligations.SessionCommandsAct : Prop :=
  ∀ (s : State) (rq : Req) (sid : BitVec 32), sid.toNat < 2 ^ 20 →
    let id := sid.toNat
    (∀ launch : BitVec 64, s.Takes rq 0x101 0 → (s.ses id).state ≠ .free →
      let req := natBe 4 id ++ natBe 1 1 ++ zeros 3 ++ natBe 8 launch.toNat
      ((s.ses id).state ≠ .closing →
        exec (.sesClose rq sid 1 launch) s = .next (((s.taken rq 0x101).okReply rq 0x101 req []).toClosing id false)) ∧
      ((s.ses id).state = .closing →
        exec (.sesClose rq sid 1 launch) s = .next ((s.taken rq 0x101).okReply rq 0x101 req []))) ∧
    (∀ launch : BitVec 64, s.Takes rq 0x101 0 → (s.ses id).state = .active → launch.toNat ≤ s.now + 60000000000 →
      ∃ t, exec (.sesClose rq sid 0 launch) s = .next t ∧
        t.ses id = { s.ses id with closeAsked := some { launch := max launch.toNat s.now } } ∧ (∀ j, j ≠ id → t.ses j = s.ses j)) ∧
    (s.Takes rq 0x102 0 → (s.ses id).state = .active →
      exec (.sesPark rq sid) s = .next (((s.taken rq 0x102).okReply rq 0x102 (natBe 4 id) []).askPark id)) ∧
    (∀ tr : BitVec 64, s.Takes rq 0x103 0 → (s.ses id).state = .parked →
      ((s.taken rq 0x103).resumeChecked id tr.toNat).status = 0 → s.copyReads (s.ses id) 0 = true →
      ∃ t, exec (.sesResume rq sid tr) s = .next t ∧ (t.ses id).state = .resuming ∧
        (t.ses id).committed = (s.ses id).copyA.image ∧ (t.ses id).settings = (s.ses id).copyA.settings ∧
        (t.ses id).start0 = launchGrain (max tr.toNat (s.now + 1000000)) ∧ (t.ses id).slots = (s.ses id).slots ∧
        (t.ses id).placement ∈ (s.taken rq 0x103).freePlacements (s.ses id).cls (s.ses id).modelSlot ∧
        (∀ j, j ≠ id → t.ses j = s.ses j)) ∧
    (s.Takes rq 0x104 0 → (s.ses id).state = .active → s.sesResetBusy id = false →
      exec (.sesReset rq sid) s = .next (((s.taken rq 0x104).okReply rq 0x104 (natBe 4 id) []).resetSession id)) ∧
    (∀ (rate : BitVec 8) (launch : BitVec 64) (off : BitVec 32) (g : Bytes), s.Takes rq 0x105 0 →
      (s.ses id).state = .active → settingsOk g = true → s.setBad id rate.toNat off.toNat = false →
      launch.toNat ≤ s.now + 60000000000 →
      ∃ t, exec (.sesSet rq sid rate launch off g) s = .next t ∧
        (let p : PendingSet :=
          { launch := max launch.toNat s.now, settings := parseSettings g, ratePoint := rate.toNat, deadlineOff := off.toNat }
         t.ses id = { s.ses id with sets := (s.ses id).sets ++ [p] }) ∧ (∀ j, j ≠ id → t.ses j = s.ses j)) ∧
    (∀ cls l : BitVec 8, s.Takes rq 0x106 0 → (s.ses id).state = .active → (l.toNat < 4 ∨ l.toNat = 0xFF) →
      (s.taken rq 0x106).migrateTo id cls.toNat l.toNat ≠ [] →
      ∃ n d, n ∈ (s.taken rq 0x106).migrateTo id cls.toNat l.toNat ∧
        exec (.migrate rq sid cls l) s = .next ({ (s.taken rq 0x106).okReply rq 0x106
          (natBe 4 id ++ natBe 1 cls.toNat ++ natBe 1 l.toNat ++ zeros 2) [] with draws := d }.requestRound (.migration id n) none 0))

/-- What those effects do to a session: closing it ends in CLOSING with no frame in progress, parking an active, opening or resuming one in
PARKING and another not at all, a reset leaves every reference slot empty, no frame in progress and ages 0; a session with a frame in
progress only notes the park. -/
def Obligations.SessionTransitions : Prop :=
  ∀ (s : State) (id : Nat),
    (∀ graceful, ((s.toClosing id graceful).ses id).state = .closing ∧ ((s.toClosing id graceful).ses id).frame = none ∧
      ((s.toClosing id graceful).ses id).dec.frames = []) ∧
    (((s.ses id).state = .active ∨ (s.ses id).state = .opening ∨ (s.ses id).state = .resuming) →
      ((s.toParking id).ses id).state = .parking ∧ ((s.toParking id).ses id).frame = none ∧
        ((s.ses id).busy = false → ((s.askPark id).ses id).state = .parking)) ∧
    ((s.ses id).state ≠ .active → (s.ses id).state ≠ .opening → (s.ses id).state ≠ .resuming → s.toParking id = s) ∧
    ((s.resetSession id).ses id).slots = List.replicate 8 {} ∧ ((s.resetSession id).ses id).frame = none ∧
    ((s.resetSession id).ses id).ltAge = 0 ∧ ((s.resetSession id).ses id).refreshAge = 0 ∧
    ((s.ses id).busy = true → (s.askPark id).ses id = { s.ses id with parkAsked := true })

/-! Adaptation jobs (R458 to R461). -/

/-- A job's control frames complete (R458, R459, R461): a JOB_START whose checks pass adds a running job with the seed, steps and source it
names, on a free entry of its class and a device in service; a suspend stops a running job at once where no step runs, and else after the
step; a resume runs a suspended one again in a free entry; a cancel ends one that has not ended; a release forgets an ended one; an export
returns the bytes of the parameter image. Where a command has no effect in a job's state it answers OK and changes no job. -/
def Obligations.JobCommandsAct : Prop :=
  ∀ (s : State) (rq : Req),
    (∀ b : JobBody, s.Takes rq 0x200 0 → b.jobId ≠ 0 → b.steps ≠ 0 → b.source.toNat < 2 ^ 20 → b.modelSlot.toNat < 4096 →
      (s.ses b.source.toNat).state ≠ .free → (s.ses b.source.toNat).modelSlot = b.modelSlot.toNat → bitAt s.boot.enabled 5 = true →
      s.job b.jobId.toNat = none → (s.model b.modelSlot.toNat).state = 3 → hasLearned (s.pkg b.modelSlot.toNat) = true →
      (s.taken rq 0x200).freePlacements b.cls.toNat b.modelSlot.toNat ≠ [] → (∃ d, d < 16 ∧ s.lpddrOk d = true) → s.jobs.length < 256 →
      ∃ t p d, exec (.jobStart rq b) s = .next t ∧ p ∈ (s.taken rq 0x200).freePlacements b.cls.toNat b.modelSlot.toNat ∧ d < 16 ∧
        s.lpddrOk d = true ∧ t.jobs = s.jobs ++
          [{ id := b.jobId.toNat, modelSlot := b.modelSlot.toNat, source := b.source.toNat, seed := b.seed, steps := b.steps.toNat,
             startAt := s.now, params := startParams (s.pkg b.modelSlot.toNat), placement := p, device := d }]) ∧
    (∀ (jid : BitVec 32) (j : Job), s.job jid.toNat = some j →
      (s.Takes rq 0x201 0 → j.state.ended = false →
        let t := (s.taken rq 0x201).okReply rq 0x201 (natBe 4 jid.toNat) []
        exec (.jobSuspend rq jid) s = .next (if j.state = .running then
          t.setJob { j with state := if j.stepping then .suspending else .suspended, fed := false } else t)) ∧
      (s.Takes rq 0x202 0 →
        (j.state = .running → exec (.jobResume rq jid) s = .next ((s.taken rq 0x202).okReply rq 0x202 (natBe 4 jid.toNat) [])) ∧
        (j.state = .suspended → (s.taken rq 0x202).jobPlaces j ≠ [] →
          ∃ t n, exec (.jobResume rq jid) s = .next t ∧ n ∈ (s.taken rq 0x202).jobPlaces j ∧
            t.jobs = (s.setJob { j with state := .running, placement := n, fed := false }).jobs)) ∧
      (s.Takes rq 0x203 0 →
        let t := (s.taken rq 0x203).okReply rq 0x203 (natBe 4 jid.toNat) []
        exec (.jobCancel rq jid) s = .next (if j.state.ended then t else t.cancelJob j)) ∧
      (s.Takes rq 0x204 0 → j.state.ended = true →
        ∃ t, exec (.jobRelease rq jid) s = .next t ∧ t.jobs = s.jobs.filter (fun k => k.id != j.id)) ∧
      (∀ off n : BitVec 32, s.Takes rq 0x205 0 → (j.state = .suspended ∨ j.state = .done) → 0 < n.toNat → n.toNat ≤ 65536 →
        off.toNat + n.toNat ≤ j.image.length →
        exec (.jobExport rq jid off n) s = .next ((s.taken rq 0x205).okReply rq 0x205
          (natBe 4 jid.toNat ++ natBe 4 off.toNat ++ natBe 4 n.toNat) (sub j.image off.toNat n.toNat))))

/-- A job's steps (R163 to R165, R458, R459): a running job that its source has fed a committed frame begins a step, which keeps its
parameters; the step's end counts it, the last one ends the job DONE at the present time, and a suspending job is then suspended. Of the
values the update has formed (of a tensor that a layer of the step has written, what it wrote; else the operand's, log entry 62), a λ whose
new value is NaN, infinite, zero, negative, below 2^−24 or above 2^24 keeps its old value and counts in REJECTED_SCALES, and every other
parameter takes its new value. -/
def Obligations.JobStepEnds : Prop :=
  ∀ (s : State) (id : Nat) (j : Job) (new : List (BitVec 32)), s.job id = some j →
    let k := s.pkg j.modelSlot
    let e := s.stepEnds j new
    let marks := lambdaMarks k
    let ups := updates k j.tensors (learnedTensors k) new
    (j.state = .running → j.fed = true → j.stepping = false → s.boot.warmCause = none →
      exec (.jobStep id) s = .next (s.setJob (s.stepBegins j)) ∧ (s.stepBegins j).stepping = true ∧ (s.stepBegins j).fed = false ∧
        (s.stepBegins j).params = j.params ∧ (s.stepBegins j).step = j.step) ∧
    (j.stepping = true → (j.state = .running ∨ j.state = .suspending) → exec (.jobStepDone id new) s = .next (s.setJob e)) ∧
    e.step = j.step + 1 ∧ e.stepping = false ∧ (j.steps ≤ j.step + 1 → e.state = .done ∧ e.endAt = s.now) ∧
    (j.step + 1 < j.steps → e.state = if j.state = .suspending then .suspended else j.state) ∧
    (marks.length = j.params.length →
      ups.length = j.params.length ∧ e.params.length = j.params.length ∧
      (∀ i, i < j.params.length → e.params.getD i 0 = match ups.getD i none with
        | none => j.params.getD i 0
        | some v => if marks.getD i false = true ∧ lambdaRejected v = true then j.params.getD i 0 else v) ∧
      e.rejected = min (j.rejected + (marks.zip ups).countP (fun q => q.1 && q.2.any lambdaRejected)) 0xFFFFFFFF ∧
      ((∀ n ∈ learnedTensors k, ∀ q ∈ j.tensors, q.1 ≠ n) → new.length = j.params.length → ups = new.map some))

/-! Staging, models and flash (R232, R235, R349, R350, R365, R370, R462, R463). -/

/-- A staging handle's life (R462): begun with a handle of the device's choice, filled at its offsets, dropped by an abort, by a
commit once its image is installed, or 60 s after the last command that named it. -/
def Obligations.StagingHandlesLive : Prop :=
  ∀ (s : State) (rq : Req) (hn : BitVec 32) (h : StageHandle),
    (∀ (k : BitVec 8) (m : BitVec 16) (n : BitVec 32) (fire : BitVec 64), s.Takes rq 0x300 k.toNat → 1 ≤ k.toNat → k.toNat ≤ 4 →
      0 < n.toNat → n.toNat ≤ kindLimit k.toNat → m.toNat < 4096 → s.handles.length < 4 →
      s.handles.foldl (fun a x => a + x.total) 0 + n.toNat ≤ 2 ^ 30 →
      ∃ t, exec (.stageBegin rq k m n fire) s = .next t ∧ t.draws = s.draws + 1 ∧ t.handles = s.handles ++
        [{ handle := Config.handleBase + BitVec.ofNat 32 s.draws, kind := k.toNat, modelSlot := m.toNat, total := n.toNat,
           fire := fire.toNat, lastAt := s.now }]) ∧
    (s.handle hn = some h →
      (∀ (off : BitVec 32) (data : Bytes), s.Takes rq 0x301 h.kind → off.toNat + data.length ≤ h.total → h.installing = false →
        h.installed = false →
        ∃ t, exec (.stageData rq hn off data) s = .next t ∧ t.handles = s.handles.map (fun x => if x.handle == h.handle then
          { h with data := putData h.data off.toNat data, lastAt := s.now } else x)) ∧
      (s.Takes rq 0x302 h.kind → h.installing = false → h.installed = true →
        ∃ t, exec (.stageCommit rq hn) s = .next t ∧ t.handles = s.handles.filter (fun x => x.handle != h.handle)) ∧
      (s.Takes rq 0x303 h.kind → h.installing = false →
        ∃ t, exec (.stageAbort rq hn) s = .next t ∧ t.handles = s.handles.filter (fun x => x.handle != h.handle)) ∧
      (s.boot.hfRunning = true → h.installing = false → h.lastAt + 60000000000 ≤ s.now →
        exec (.stageHandleTimeout hn.toNat) s = .next { s with handles := s.handles.filter (fun x => x.handle != h.handle) }))

/-- A commit whose container is whole and passes R354 begins its installation (R462, R463): a Plan or Headframe image into the flash
slot the directory does not name, a model into its empty slot with the shadow being built, a claim into a claim slot that holds no
sound claim. The installation's end stores the image in flash, from where it reads back. -/
def Obligations.StagingInstalls : Prop :=
  ∀ (s : State) (rq : Req) (hn : BitVec 32) (h : StageHandle), s.handle hn = some h →
    (let u := s.taken rq 0x302
     s.Takes rq 0x302 h.kind → h.installing = false → h.installed = false → h.total ≤ h.data.length →
     u.checkContainer h.kind h.bytes = 0 →
      ((h.kind = 1 ∨ h.kind = 3) →
        exec (.stageCommit rq hn) s = .next ((u.okReply rq 0x302 (natBe 4 hn.toNat) []).beginInstall h
          (1 - bits u.directory (if h.kind = 3 then 0 else 1) 1))) ∧
      (h.kind = 2 → ((contPackage h.bytes).arith = 1 → bitAt s.boot.enabled 7 = true) → (s.model h.modelSlot).state = 0 →
        u.shadowState = 0 →
        exec (.stageCommit rq hn) s = .next ((u.okReply rq 0x302 (natBe 4 hn.toNat) []).beginModel h (contPackage h.bytes))) ∧
      (∀ n, h.kind = 4 →
        let sweep := fun (t : State) => if t.boot.claimsTimed then t.eraseExpired else t
        (sweep u).freeClaimSlot = some n →
        exec (.stageCommit rq hn) s = .next ((sweep (u.okReply rq 0x302 (natBe 4 hn.toNat) [])).beginInstall h n))) ∧
    (s.boot.hfRunning = true → h.installing = true → (h.kind = 2 → 2 ≤ (s.model h.modelSlot).state) →
      exec (.stageInstallComplete hn.toNat) s = .next
        ((s.installed h).setHandle { h with installing := false, installed := true, lastAt := s.now })) ∧
    (h.kind = 1 → ∀ i, i < h.bytes.length →
      spGet flashUnlisted (s.installed h).flash (planBase h.modelSlot + i) = h.bytes.getD i flashUnlisted)

/-- Models and their shadow (R232, R235, R463), the directory and the field-repair log: a usable slot no work names is unstaged with a
shadow build, a finished build makes a staged slot wait for the swap, a swap is armed at its launch grain for at least 100 µs ahead
and disarmed before its decision, the directory takes its bits, and the log is rewritten without the entries of the unit. -/
def Obligations.ModelShadowAndFlashCommands : Prop :=
  ∀ (s : State) (rq : Req),
    (∀ m : BitVec 16, s.Takes rq 0x304 0 → m.toNat < 4096 → (s.model m.toNat).state ≠ 0 → (s.model m.toNat).planCarried = false →
      s.modelUsed m.toNat = false → (s.taken rq 0x304).shadowState = 0 →
      ∃ t, exec (.modelUnstage rq m) s = .next t ∧ (t.model m.toNat).state = 4 ∧
        t.shadow = some { slot := m.toNat, remove := true, handle := none } ∧ (∀ k, k ≠ m.toNat → t.model k = s.model k)) ∧
    (∀ at' : BitVec 64, s.Takes rq 0x305 0 → (s.taken rq 0x305).shadowState = 2 → s.pwr.standby = 0 →
      s.now + 100000 ≤ at'.toNat →
      exec (.swapArm rq at') s = .next ((((s.taken rq 0x305).okReply rq 0x305 (natBe 8 at'.toNat) []).setShadow 3).requestRound
        .swap (some (launchGrain at'.toNat)) 0)) ∧
    (∀ r : Round, s.Takes rq 0x306 0 → s.rounds.find? (fun r => decide (r.flip = .swap) && !r.decided) = some r →
      exec (.swapDisarm rq) s = .next ((((s.taken rq 0x306).okReply rq 0x306 [] []).dropRound r 5).setShadow 2)) ∧
    (∀ b : BitVec 8, s.Takes rq 0x400 0 → b.toNat < 8 →
      exec (.directorySet rq b) s = .next (((s.taken rq 0x400).okReply rq 0x400 (natBe 1 b.toNat ++ zeros 3) []).writeDirectory
        b.toNat)) ∧
    (∀ (k : BitVec 8) (ix : BitVec 16), s.Takes rq 0x401 0 → isUnit { kind := k.toNat, index := ix.toNat } = true →
      exec (.logClear rq k ix) s = .next ((((s.taken rq 0x401).okReply rq 0x401 (natBe 1 k.toNat ++ zeros 1 ++ natBe 2 ix.toNat)
        []).compactLog (fun v => v != { kind := k.toNat, index := ix.toNat })).logStat)) ∧
    (∀ b : ShadowBuild, s.boot.hfRunning = true → s.shadow = some b → s.shadowState = 1 →
      ∃ t, exec .shadowBuildComplete s = .next t ∧ (b.remove = false → (t.model b.slot).state = 2) ∧
        (b.remove = true → t.models = s.models) ∧ (∀ k, k ≠ b.slot → t.model k = s.model k))

/-! Resets, power states, removal and keys over the control path (R383 to R405, R451, R452). -/

/-- A reset asked for over the control path is accepted with its CAUSE (R384, R385), and the power commands act as R394 to R396 and
R405 say. -/
def Obligations.PowerCommandsAct : Prop :=
  ∀ (s : State) (rq : Req),
    (s.Takes rq 0x500 0 → s.resetBusy 1 0 = false →
      exec (.warmReset rq) s = .next (((s.taken rq 0x500).okReply rq 0x500 [] []).acceptReset 1 0 4 false)) ∧
    (∀ l : BitVec 8, l.toNat < 4 →
      (s.Takes rq 0x501 0 → (s.taken rq 0x501).levelResetStatus l.toNat = 0 →
        exec (.levelReset rq l) s = .next (((s.taken rq 0x501).okReply rq 0x501 (natBe 1 l.toNat ++ zeros 3) []).acceptReset 2
          l.toNat 4 false)) ∧
      (s.Takes rq 0x503 0 → (s.taken rq 0x503).parkStatus l.toNat = 0 →
        exec (.levelPark rq l 1) s = .next (((s.taken rq 0x503).okReply rq 0x503 (natBe 1 l.toNat ++ natBe 1 1 ++ zeros 2)
          []).beginPark l.toNat false)) ∧
      (s.Takes rq 0x503 0 → (s.level l.toNat).parked = 2 → s.pwr.standby = 0 →
        exec (.levelPark rq l 0) s = .next (((s.taken rq 0x503).okReply rq 0x503 (natBe 1 l.toNat ++ natBe 1 0 ++ zeros 2)
          []).beginUnpark l.toNat))) ∧
    (∀ p : BitVec 16, s.Takes rq 0x502 0 → faceWf p.toNat = true → (s.taken rq 0x502).faceResetStatus p.toNat = 0 →
      exec (.faceReset rq p) s = .next (((s.taken rq 0x502).okReply rq 0x502 (natBe 2 p.toNat ++ zeros 2) []).acceptReset 3
        p.toNat 4 false)) ∧
    (s.Takes rq 0x504 0 → (s.taken rq 0x504).standbyStatus = 0 →
      exec (.standby rq 1) s = .next ((s.taken rq 0x504).okReply rq 0x504 (natBe 1 1 ++ zeros 3) []).beginStandby) ∧
    (s.Takes rq 0x504 0 → s.pwr.standby = 2 →
      exec (.standby rq 0) s = .next ((s.taken rq 0x504).okReply rq 0x504 (natBe 1 0 ++ zeros 3) []).endStandby) ∧
    (∀ limit : BitVec 16, s.Takes rq 0x505 0 → s.pwr.removeOk = false → s.removing = true →
      exec (.remove rq 0 limit) s = .next (((s.taken rq 0x505).okReply rq 0x505 (natBe 1 0 ++ zeros 1 ++ natBe 2 limit.toNat)
        []).withdrawRemoval)) ∧
    (∀ limit : BitVec 16, s.Takes rq 0x505 0 → s.pwr.removeOk = false → s.resets = [] →
      exec (.remove rq 1 limit) s = .next (((s.taken rq 0x505).okReply rq 0x505 (natBe 1 1 ++ zeros 1 ++ natBe 2 limit.toNat)
        []).startRemoval { drain := false, limitAt := s.now + 1000000000 * limit.toNat, closed := false }) ∧
      (1 ≤ limit.toNat → limit.toNat ≤ 3600 →
        exec (.remove rq 2 limit) s = .next (((s.taken rq 0x505).okReply rq 0x505 (natBe 1 2 ++ zeros 1 ++ natBe 2 limit.toNat)
          []).startRemoval { drain := true, limitAt := s.now + 1000000000 * limit.toNat, closed := false })))

/-- A key change (R451, R452): KEY_SET loads WRAPPED exclusive-OR the KMAC of the requesting slot's key, KEY_CLEAR empties the slot;
either clears the slot's replay state, held responses and subscription, after the response, and leaves every other slot as it was. A
change that would leave no slot with the KEYS role is answered WRONG_STATE and changes no key. -/
def Obligations.KeyCommandsAct : Prop :=
  ∀ (s : State) (rq : Req) (slot roles : BitVec 8) (nonce wrapped : Bytes),
    slot.toNat < 8 → roles.getLsbD 7 = false → nonce.length = 16 → wrapped.length = 32 →
    (∀ (k : Option KeySlot) (c : Instr) (op : Nat),
      ((c = .keySet rq slot roles nonce wrapped ∧ op = 0x600 ∧
          k = some { key := s.unwrap rq slot.toNat nonce wrapped, roles := roles }) ∨
        (c = .keyClear rq slot ∧ op = 0x601 ∧ k = none)) →
      s.Takes rq op 0 →
      (s.lastKeys slot.toNat k = false →
        ∃ t, exec c s = .next t ∧ t.rot.keys = s.rot.keys.set slot.toNat k ∧
          (∀ h ∈ t.ctrl.held, h.slot ≠ slot.toNat) ∧ (∀ x ∈ t.ctrl.subs, x.slot ≠ slot.toNat) ∧
          (∀ w, t.ctrl.windows[slot.toNat]? = some w → w.high = 0 ∧ w.seen = []) ∧ t.regs = s.regs ∧ t.mem = s.mem) ∧
      (s.lastKeys slot.toNat k = true → ∃ t, exec c s = .next t ∧ s.SameButControl t))

/-! The SMBus sideband (R439, R479). -/

/-- The SMBus reads (R439): to the endpoint's address while VAUX is there, each is a block read answered with its fields least
significant byte first, and EVENT_NEXT removes the oldest alert; a transaction to another address, or without VAUX, does nothing. -/
def Obligations.SmbusReadsAnswer : Prop :=
  ∀ (s : State) (addr : BitVec 7), s.pwr.vaux = true → addr.toNat = 0x58 + s.rot.strap.toNat →
    exec (.smbIdentity addr) s = .next (s.smbReply 0x01 (natLe 2 0x8600 ++ natLe 1 0xB0 ++ natLe 1 0 ++
      natLe 8 s.rot.fuses.moduleId ++ natLe 4 s.rot.hfRelease ++ natLe 4 s.rot.planId)) ∧
    exec (.smbStatus addr) s = .next (s.smbReply 0x02 (natLe 4 s.smbBoot ++ natLe 4 s.smbPower ++
      natLe 4 (s.viewReg (cmdReg 0xA04)).toNat ++ natLe 1 s.topAlert ++ natLe 1 s.rot.alertsLost ++ natLe 2 0)) ∧
    (s.rot.alerts = [] → exec (.smbEventNext addr) s = .next (s.smbReply 0x03 (zeros 32))) ∧
    (∀ e r, s.rot.alerts = e :: r →
      exec (.smbEventNext addr) s = .next (({ s with rot := { s.rot with alerts := r } } : State).smbReply 0x03 (eventBytes e))) ∧
    exec (.smbThermal addr) s = .next (({ s with draws := s.draws + 2 } : State).smbReply 0x04 (natLe 2 (Config.sensor s.draws) ++
      natLe 2 (Config.sensor (s.draws + 1)) ++ natLe 2 (codeOf 16 s.hottest) ++ natLe 2 0)) ∧
    exec (.smbResult addr) s = .next (s.smbReply 0x14 [BitVec.ofNat 8 s.rot.smbStatus, BitVec.ofNat 8 s.rot.smbCommand])

/-- The SMBus commands of an ARM window (R383, R384, R394 to R396, R405, R439): ARM with 0xA5 and a valid PEC opens it for 1 s and it
closes when the second has passed; outside it a command of 0x10 to 0x13 completes NOT_ARMED and does nothing else; in it, while Headframe
runs and no command waits in its queue, each is accepted with its CAUSE, leaves OK for RESULT and ends the window, and behind commands that
wait it waits as the last of them (R442); with no Headframe a cold reset is the root of trust's and everything else completes NOT_READY. -/
def Obligations.SmbusCommandsAct : Prop :=
  ∀ (s : State) (addr : BitVec 7), s.pwr.vaux = true → addr.toNat = 0x58 + s.rot.strap.toNat →
    exec (.smbArm addr 0xA5 (s.smbPec 0x1F [0xA5])) s =
      .next { s with rot := { s.rot with armUntil := some (s.now + 1000000000) } } ∧
    (∀ t, s.rot.armUntil = some t → t ≤ s.now →
      exec .smbArmWindowExpire s = .next { s with rot := { s.rot with armUntil := none } }) ∧
    (∀ (c : Instr) (code : Nat) (a b d : Byte) (e : HfEntry),
      ((c = .smbReset addr a b (s.smbPec 0x10 [a, b]) ∧ code = 0x10 ∧ e = smbEntry 0x10 [a, b]) ∨
        (c = .smbPark addr a b (s.smbPec 0x11 [a, b]) ∧ code = 0x11 ∧ e = smbEntry 0x11 [a, b]) ∨
        (c = .smbStandby addr a (s.smbPec 0x12 [a]) ∧ code = 0x12 ∧ e = smbEntry 0x12 [a]) ∨
        (c = .smbRemove addr a b d (s.smbPec 0x13 [a, b, d]) ∧ code = 0x13 ∧ e = smbEntry 0x13 [a, b, d])) →
      s.ctrl.queue.head? ≠ some e →
      (s.armed = false → exec c s = .next { s with rot := { s.rot with smbStatus := 13, smbCommand := code } }) ∧
      (s.armed = true → s.boot.hfRunning = true → s.pwr.pwrgd = true → s.ctrl.queue ≠ [] → s.ctrl.queue.length < 1024 →
        ∃ t, exec c s = .next t ∧ t.ctrl = { s.ctrl with queue := s.ctrl.queue ++ [e] } ∧ t.rot = { s.rot with armUntil := none } ∧
          { t with ctrl := s.ctrl, rot := s.rot } = s)) ∧
    (s.armed = true →
      let u := fun (code : Nat) =>
        ({ s with rot := { s.rot with armUntil := none, smbStatus := 0, smbCommand := code } } : State)
      (s.boot.hfRunning = true → s.pwr.pwrgd = true → s.ctrl.queue = [] →
        (∀ l : Byte, s.resetBusy 0 0 = false →
          exec (.smbReset addr 1 l (s.smbPec 0x10 [1, l])) s = .next ((u 0x10).acceptReset 0 0 3 false)) ∧
        (∀ l : Byte, s.resetBusy 1 0 = false →
          exec (.smbReset addr 2 l (s.smbPec 0x10 [2, l])) s = .next ((u 0x10).acceptReset 1 0 3 false)) ∧
        (∀ l : Byte, l.toNat < 4 → s.levelResetStatus l.toNat = 0 →
          exec (.smbReset addr 3 l (s.smbPec 0x10 [3, l])) s = .next ((u 0x10).acceptReset 2 l.toNat 3 false)) ∧
        (∀ l : Byte, l.toNat < 4 → s.parkStatus l.toNat = 0 →
          exec (.smbPark addr 1 l (s.smbPec 0x11 [1, l])) s = .next ((u 0x11).beginPark l.toNat false)) ∧
        (∀ l : Byte, l.toNat < 4 → s.unparkStatus l.toNat = 0 →
          exec (.smbPark addr 0 l (s.smbPec 0x11 [0, l])) s = .next ((u 0x11).beginUnpark l.toNat)) ∧
        (s.standbyStatus = 0 → exec (.smbStandby addr 1 (s.smbPec 0x12 [1])) s = .next (u 0x12).beginStandby) ∧
        (s.pwr.standby = 2 → exec (.smbStandby addr 0 (s.smbPec 0x12 [0])) s = .next (u 0x12).endStandby) ∧
        (∀ lo hi : Byte, s.pwr.removeOk = false → s.removing = true →
          exec (.smbRemove addr 0 lo hi (s.smbPec 0x13 [0, lo, hi])) s = .next (u 0x13).withdrawRemoval) ∧
        (∀ lo hi : Byte, s.pwr.removeOk = false → s.resets = [] →
          exec (.smbRemove addr 1 lo hi (s.smbPec 0x13 [1, lo, hi])) s = .next ((u 0x13).startRemoval
            { drain := false, limitAt := s.now + 1000000000 * (lo.toNat + 256 * hi.toNat), closed := false })) ∧
        (∀ lo hi : Byte, s.pwr.removeOk = false → s.resets = [] → 1 ≤ lo.toNat + 256 * hi.toNat → lo.toNat + 256 * hi.toNat ≤ 3600 →
          exec (.smbRemove addr 2 lo hi (s.smbPec 0x13 [2, lo, hi])) s = .next ((u 0x13).startRemoval
            { drain := true, limitAt := s.now + 1000000000 * (lo.toNat + 256 * hi.toNat), closed := false }))) ∧
      (s.boot.hfRunning = false → s.pwr.enable = true → s.resetBusy 0 0 = false →
        (∀ l : Byte, exec (.smbReset addr 1 l (s.smbPec 0x10 [1, l])) s = .next ((u 0x10).acceptReset 0 0 3 false)) ∧
        (∀ en : Byte, exec (.smbStandby addr en (s.smbPec 0x12 [en])) s =
          .next { s with rot := { s.rot with armUntil := none, smbStatus := 9, smbCommand := 0x12 } })))

/-! The Lamp monitor (R440, R470 to R474). -/

/-- Lamp's reads and its line rate (R440, R442, R470, R471): while Lamp is at work on a line, the command is offered and none waits in
Headframe's queue, each prints what its row says and answers OK, and behind commands that wait it waits as the last of them; a line waits
among at most four; a rate is answered at the old rate and applied when its 10 ms are over. -/
def Obligations.LampReadsPrint : Prop :=
  ∀ s : State, s.lampReady = true →
    (s.boot.hfRunning = true → s.ctrl.queue ≠ [] → s.ctrl.queue.length < 1024 → (∀ e ∈ s.ctrl.queue, e.path ≠ 2) →
      exec .lampHelp s = .next (s.takeLine.enqueue (lampEntry 0 [])) ∧ exec .lampId s = .next (s.takeLine.enqueue (lampEntry 1 [])) ∧
        exec .lampStatus s = .next (s.takeLine.enqueue (lampEntry 2 []))) ∧
    (∀ c t, s.lamp.newBaud = some (c, t) → t ≤ s.now → exec .lampBaudApply s = .next
      (({ s with lamp := { s.lamp with newBaud := none } } : State).setField (cmdReg 0xE20) 1 2 c)) ∧
    (∀ line, lineBad line = false → s.lamp.lines.length < 4 →
      exec (.lampLineReceive line) s = .next { s with lamp := { s.lamp with lines := s.lamp.lines ++ [line] } }) ∧
    ((s.boot.hfRunning = true → s.ctrl.queue = []) →
    let u := s.takeLine
    let told := fun (data : List Nat) => u.send (.lamp data true 0)
    exec .lampHelp s = .next (told ((List.range 15).filter s.lampOffers)) ∧
    exec .lampId s = .next (told [0x8600, 0xB0, s.rot.fuses.moduleId, s.rot.hfRelease, s.rot.planId]) ∧
    exec .lampStatus s = .next (told ([0x900, 0xA00, 0xA04, 0x920, 0x924, 0x928, 0x930, 0xB00].map (fun o =>
      (u.viewReg (cmdReg o)).toNat))) ∧
    (s.phase ≠ 12 →
      (∀ n, 1 ≤ n → n ≤ 64 → exec (.lampLog n) s = .next (told ((u.newestEvents n).flatMap (fun e =>
        (eventBytes e).map (fun b => b.toNat))))) ∧
      exec .lampRepair s = .next (told ((latestOnly u.logEntries).flatMap (fun e => e.map (fun b => b.toNat)))) ∧
      (∀ a, a < 2 ^ 48 → u.regError a false = none →
        exec (.lampRegRead a 1) s = .next ((told [(u.viewReg a).toNat]).readEffect a)) ∧
      (s.rot.locked = false → ∀ a n, 1 ≤ n → n ≤ 256 → a + n ≤ 2 ^ 48 → u.memFails a n = none →
        exec (.lampMemRead a n) s = .next (told ((u.memBytes a n).map (fun b => b.toNat)))) ∧
      (s.rot.locked = false → ∀ a v, a < 2 ^ 48 → u.regError a true = none →
        exec (.lampRegWrite a v) s = .next ((told []).writeEffect a v))) ∧
    (∀ rate c, baudCode rate = some c → exec (.lampBaud rate) s = .next
      ({ told [] with lamp := { (told []).lamp with newBaud := some (c, s.now + 10000000) } } : State)))

/-- Lamp's commands on the module (R383, R384, R394 to R396, R451, R471, R472): before the production lock, while Headframe runs and no
command waits in its queue, each answers OK and acts with CAUSE 5; the lock's own identifier sets the lock, and from then on these commands are answered LOCKED and do
nothing. -/
def Obligations.LampCommandsAct : Prop :=
  ∀ s : State, s.lampReady = true → s.phase ≠ 12 → (s.boot.hfRunning = true → s.ctrl.queue = []) →
    let u := s.takeLine
    let told := u.send (.lamp [] true 0)
    (s.rot.locked = false →
      (u.resetBusy 0 0 = false → exec .lampResetCold s = .next (told.acceptReset 0 0 5 false)) ∧
      (u.resetBusy 1 0 = false → exec .lampResetWarm s = .next (told.acceptReset 1 0 5 false)) ∧
      (∀ l, l < 4 → (u.levelResetStatus l = 0 → exec (.lampResetLevel l) s = .next (told.acceptReset 2 l 5 false)) ∧
        (u.parkStatus l = 0 → exec (.lampPark l) s = .next (told.beginPark l false)) ∧
        (u.unparkStatus l = 0 → exec (.lampUnpark l) s = .next (told.beginUnpark l))) ∧
      (∀ p, faceWf p = true → u.faceResetStatus p = 0 → exec (.lampResetFace p) s = .next (told.acceptReset 3 p 5 false)) ∧
      (u.standbyStatus = 0 → exec .lampStandbyOn s = .next told.beginStandby) ∧
      (u.pwr.standby = 2 → exec .lampStandbyOff s = .next told.endStandby) ∧
      (∀ slot roles key, slot < 8 → roles < 128 → key.length = 32 → exec (.lampKeyload slot roles key) s =
        .next (told.changeKey slot (some { key := key, roles := BitVec.ofNat 8 roles }))) ∧
      (∃ t, exec (.lampLock s.rot.fuses.moduleId) s = .next t ∧ t.rot.locked = true ∧ t.field (cmdReg 0xE20) 0 1 = 1)) ∧
    (s.rot.locked = true → ∀ (c : Instr) (l p slot roles : Nat) (key : Bytes) (a : Nat) (v : Word),
      (c = .lampResetCold ∨ c = .lampResetWarm ∨ c = .lampResetLevel l ∨ c = .lampResetFace p ∨ c = .lampPark l ∨ c = .lampUnpark l ∨
        c = .lampStandbyOn ∨ c = .lampStandbyOff ∨ c = .lampKeyload slot roles key ∨ c = .lampRegWrite a v ∨
        c = .lampMemRead a p ∨ c = .lampPlanload slot ∨ c = .lampLock p) →
      exec c s = .next (u.send (.lamp [] false 20)))

/-- Lamp's image transfers (R473, R474): hfload and planload answer READY and wait for frames; a sound frame of up to 1,024 bytes is
taken and answered 0x06, any other 0x15; a stalled transfer ends after 2 s with ERR TIMEOUT; an empty frame ends it, and a container
that does not pass R354 is answered REFUSED (a Plan's code kept in PLAN_ERR), one that does is stored; in PHASE 12 a verified hfload is followed by a cold start. -/
def Obligations.LampTransfersImages : Prop :=
  ∀ s : State,
    (∀ slot, slot < 2 → s.lampReady = true → (s.boot.hfRunning = true → s.ctrl.queue = []) →
      exec (.lampHfload slot) s = .next (s.takeLine.beginTransfer 3 slot) ∧
      (s.phase ≠ 12 → s.rot.locked = false → exec (.lampPlanload slot) s = .next (s.takeLine.beginTransfer 1 slot))) ∧
    (∀ x : ImageXfer, s.lamp.transfer = some x →
      (∀ (n : BitVec 16) (data : Bytes) (crc : Word), n ≠ 0 →
        let sound := decide (n.toNat ≤ 1024) && data.length == n.toNat && crc32c data == crc.toNat
        ∃ t, exec (.lampImageFrame n data crc) s = .next t ∧
          t.lamp.transfer = some { x with lastAt := s.now, data := if sound then x.data ++ data else x.data } ∧
          t.outbox = s.outbox ++ [.lampByte (if sound then 0x06 else 0x15)]) ∧
      (∀ (data : Bytes) (crc : Word), x.data.length ≤ kindLimit x.kind →
        let u : State := { s with lamp := { s.lamp with transfer := none } }
        (u.checkContainer x.kind x.data ≠ 0 → exec (.lampImageFrame 0 data crc) s =
          .next ((if x.kind = 1 then u.setPlanErr (u.checkContainer x.kind x.data) else u).send (.lamp [] false 15))) ∧
        (u.checkContainer x.kind x.data = 0 → s.phase = 12 → x.kind = 3 →
          exec (.lampImageFrame 0 data crc) s = .next (((u.storeImage x).send (.lamp [] true 0)).acceptReset 0 0 5 false)) ∧
        (u.checkContainer x.kind x.data = 0 → s.phase ≠ 12 →
          exec (.lampImageFrame 0 data crc) s = .next ((u.storeImage x).send (.lamp [] true 0)))) ∧
      (x.lastAt + 2000000000 ≤ s.now →
        exec .lampTransferTimeout s = .next (({ s with lamp := { s.lamp with transfer := none } } : State).send (.lamp [] false 21))))

/-! Register accesses with an effect of their own (R5, R6). -/

/-- Writes that clear (R42, R104, R115, R169, R273, R297, R299, R346, R411): writing FCE_ARITH_FLAGS clears, of bits [5:0], those written
as 1; writing 1 to VALID of a record register returns every word of the record to its reset value, ready for the next event, and writing
0 to it clears only the W1C bits of the record's mask that are written as 1; in CMD_PHASE_LAST VALID alone clears, PHASE and CAUSE staying;
no other register and nothing else changes. -/
def Obligations.WritesClearFlagsAndRecords : Prop :=
  (∀ (s : State) (p : Nat) (v : Word), faceWf p = true → s.answers (fceReg p 0x200) = true →
    ∃ t, exec (.arithFlagsClear p v) s = .next t ∧ t.reg (fceReg p 0x200) = s.reg (fceReg p 0x200) &&& ~~~(v &&& 0x3F) ∧
      (∀ a, a ≠ fceReg p 0x200 → t.reg a = s.reg a) ∧ { t with regs := s.regs } = s) ∧
  (∀ (s : State) (c : Instr) (v : Word) (valid : Nat) (words : List Nat) (mask : Word),
    ((∃ p, faceWf p = true ∧
        ((c = .trapRecordClear p v ∧ valid = fceReg p 0x210 ∧ words = wordsFrom (fceReg p 0x210) 8) ∨
          (c = .spillRecordClear p v ∧ valid = fceReg p 0x290 ∧ words = wordsFrom (fceReg p 0x290) 5) ∨
          (c = .tagFaultClear p v ∧ valid = fceReg p 0x2B0 ∧ words = wordsFrom (fceReg p 0x2B0) 4) ∨
          (c = .hstErrClear p v ∧ valid = fceReg p 0x500 ∧ words = wordsFrom (fceReg p 0x500) 4)) ∧ mask = 0) ∨
      (∃ l, l < 4 ∧
        ((c = .waitRecordClear l v ∧ valid = lvlReg l 0x600 ∧ words = wordsFrom (lvlReg l 0x600) 2) ∨
          (c = .takeoverRecordClear l v ∧ valid = lvlReg l 0x51C ∧ words = wordsFrom (lvlReg l 0x514) 3)) ∧ mask = 0) ∨
      (∃ l, levelOptWf l = true ∧
        ((c = .addrErrClear l v ∧ valid = lvlOrCmd l 0x104 ∧ words = wordsFrom (lvlOrCmd l 0x100) 2 ∧ mask = 0x40000000) ∨
          (c = .roundAbortRecordClear l v ∧ valid = lvlOrCmd l 0x810 ∧ words = wordsFrom (lvlOrCmd l 0x810) 2 ∧ mask = 0) ∨
          (c = .eccRecordClear l v ∧ valid = lvlOrCmd l 0x830 ∧ words = wordsFrom (lvlOrCmd l 0x830) 3 ∧ mask = 0)))) →
    s.answers valid = true →
    ∃ t, exec c s = .next t ∧ { t with regs := s.regs } = s ∧
      (v.getLsbD 31 = true → (∀ a ∈ words, t.reg a = regReset a) ∧ (∀ a, a ∉ words → t.reg a = s.reg a)) ∧
      (v.getLsbD 31 = false → t.reg valid = s.reg valid &&& ~~~(v &&& mask) ∧ (∀ a, a ≠ valid → t.reg a = s.reg a))) ∧
  (∀ (s : State) (v : Word), ∃ t, exec (.phaseLastClear v) s = .next t ∧
    t.field (cmdReg 0xA24) 31 1 = (if v.getLsbD 31 then 0 else s.field (cmdReg 0xA24) 31 1) ∧
    t.field (cmdReg 0xA24) 0 31 = s.field (cmdReg 0xA24) 0 31 ∧ (∀ a, a ≠ cmdReg 0xA24 → t.reg a = s.reg a) ∧
    { t with regs := s.regs } = s)

/-- Reads with an effect and writes without one (R5, R6, R441): reading an RC register returns its value and clears it, reading TIM_NOW_LO
returns bits [31:0] of the shift clock and latches bits [63:32] in TIM_NOW_HI, nothing else changing; a write to a read-only register of
the command die, of a drift, of a level or of a face leaves the state as it is. -/
def Obligations.ReadsClearAndReadOnlyWritesAreIgnored : Prop :=
  (∀ s : State,
    (∀ a, regRc a = true → s.answers a = true →
      ∃ t, exec (.counterReadClear a) s = .next t ∧ t.reg a = 0 ∧ (∀ b, b ≠ a → t.reg b = s.reg b) ∧ { t with regs := s.regs } = s) ∧
    (∃ t, exec .timNowLoRead s = .next t ∧ s.viewReg (cmdReg 0xB08) = BitVec.ofNat 32 s.now ∧
      t.reg (cmdReg 0xB0C) = BitVec.ofNat 32 (s.now / 2 ^ 32) ∧ (∀ b, b ≠ cmdReg 0xB0C → t.reg b = s.reg b) ∧
      { t with regs := s.regs } = s)) ∧
  (∀ (s : State) (v : Word),
    (∀ o, o < 0x100000 → o ∉ [0x104, 0x810, 0x830, 0xA24] → s.answers (cmdReg o) = true →
      exec (.registerWriteOther (cmdReg o) v) s = .next s) ∧
    (∀ l d o, l < 4 → d < 16 → o < 0x1000 → s.answers (drfReg l d o) = true →
      exec (.registerWriteOther (drfReg l d o) v) s = .next s) ∧
    (∀ l o, l < 4 → o < 0x10000 → o ∉ [0x104, 0x51C, 0x600, 0x810, 0x830] → s.answers (lvlReg l o) = true →
      exec (.registerWriteOther (lvlReg l o) v) s = .next s) ∧
    (∀ p o, faceWf p = true → o < 0x1000 → o ∉ [0x200, 0x210, 0x290, 0x2B0, 0x500] → s.answers (fceReg p o) = true →
      exec (.registerWriteOther (fceReg p o) v) s = .next s))

/-! Data engines (R274 to R288). -/

/-- An engine takes a descriptor (R21, R257, R274, R293, R298): it joins the back of the engine's queue as its 64 bytes stand in the face
store, numbered by its issue, the face is no longer gated, and nothing but that face changes. A TRAM descriptor whose source lies in its own
store and whose turn it is begins to inject its chunk at once, a granule at a time as its rate credit goes; read whole, the chunk is on its
way, due BUDGET after the injection began, and counts in DRF_TRAM_CHUNKS. -/
def Obligations.EnginesTakeDescriptors : Prop :=
  ∀ (s : State) (p e off layer : Nat) (work : Work) (c : Instr) (op ly : Nat),
    ((c = .hoistCopy p e off work ∧ op = 1 ∧ ly = 0) ∨ (c = .hoistFill p e off work ∧ op = 2 ∧ ly = 0) ∨
      (c = .tram p e off layer work ∧ op = 3 ∧ ly = layer)) →
    s.canQueue p e off op work = true → e < (s.face p).engines.length →
    let b := s.readMem (storeBase p + off) 64
    let d := parseDesc b
    let q : QueuedDesc := { offset := off, bytes := b, work := work, layer := ly, stored := false, seq := (s.face p).workSeq }
    ((op ≠ 3 ∨ tramInjects p d = false ∨ (s.engine p e).queue ≠ []) →
      ∃ t, exec c s = .next t ∧ (t.engine p e).queue = (s.engine p e).queue ++ [q] ∧ (t.face p).gated = false ∧
        (t.face p).lastWork = s.now ∧ (t.face p).workSeq = (s.face p).workSeq + 1 ∧ (∀ k, k ≠ e → t.engine p k = s.engine p k) ∧
        (∀ k, k ≠ p → t.face k = s.face k) ∧ { t with faces := s.faces } = s) ∧
    (op = 3 → tramInjects p d = true → (s.engine p e).queue = [] → (s.engine p e).stopped = false → d.count ≠ 0 →
      s.itsTurn p work.ctx (s.face p).workSeq = true →
      let g := (s.engine p e).accrue s.now (if d.rateEn then d.share else 0)
      let a := d.src + g.pos
      let n := min (d.count - g.pos) (granLeft a)
      (d.rateEn = true → 256 * n ≤ g.credit) → s.accessError a n false = none → s.poisonAt [(a, n)] = none →
      ∃ t, exec c s = .next t ∧ t.mem = s.mem ∧
        t.regNat (fceReg p (0x404 + 16 * e)) = min (s.regNat (fceReg p (0x404 + 16 * e)) + n) 0xFFFFFFFF ∧
        (g.pos + n < d.count → (t.engine p e).queue = [q] ∧ (t.engine p e).pos = g.pos + n ∧ t.trams = s.trams) ∧
        (d.count ≤ g.pos + n → (t.engine p e).queue = [{ q with stored := true }] ∧
          t.trams = s.trams ++ [{ home := p, layer := layer, chunk := d.param, dueBy := (if g.pos = 0 then s.now else g.sentAt) + d.budget,
                                  data := g.page ++ s.memBytes a n, key := s.workKey work }] ∧
          t.regNat (drfReg (levelOf p) (driftOf p) 0x100) =
            min (s.regNat (drfReg (levelOf p) (driftOf p) 0x100) + 1) 0xFFFFFFFF))

/-- A transaction of a dense descriptor that does not hold bytes back, behind no chunk of its face and with no error in its way (R24, R30,
R274, R275, R279, R297, R334): it moves the next piece, at most 64
bytes within one granule; its bytes stand at the destination, read from the source or from the FILL pattern; every byte outside them is as
it was; the engine and HST_ENGn_BYTES count them. -/
def Obligations.TransactionMovesItsPiece : Prop :=
  ∀ (s : State) (p e : Nat) (qd : QueuedDesc) (rest : List QueuedDesc) (q : Piece),
    faceWf p = true → e < 6 → s.faceUp p = true → (s.engine p e).queue = qd :: rest → (s.engine p e).stopped = false →
    (s.engine p e).err = none → (s.face p).mayIssue s.now = true → s.itsTurn p qd.work.ctx qd.seq = true →
    let d := parseDesc qd.bytes
    let g := { (s.engine p e).accrue s.now (if d.rateEn then d.share else 0) with key := s.transferKey p qd }
    d.op ≠ 3 → (s.engine p e).finished d = false → d.staged = false → s.nextPiece p g d = .ok q →
    s.pieceBehind p e q = false → (d.rateEn = true → 256 * q.len ≤ g.credit) → s.runError false q.src = none → s.poisonAt q.src = none →
    (∀ r ∈ q.src, r.1 < regBase) → s.tallyFails p g d (if d.op = 2 then 0 else ifRing d.srcRing q.len) = none →
    s.discarded (d.dstLog && (!q.aux || d.dstRing.isSome)) q.dst = false → s.accessError q.dst q.len true = none → q.dst < regBase →
    q.len ≤ 64 ∧ q.dst % 64 + q.len ≤ 64 ∧
      ∃ t, exec (.transactionIssue p e) s = .next t ∧
        t.readMem q.dst q.len = (if q.src = [] then fillBytes d g.pos q.len else q.src.flatMap (fun r => s.memBytes r.1 r.2)) ∧
        (∀ a, a < q.dst ∨ q.dst + q.len ≤ a → t.readByte a = s.readByte a) ∧
        (t.engine p e).pos = (s.engine p e).pos + q.len ∧ (t.engine p e).key = s.transferKey p qd ∧
        t.regNat (fceReg p (0x404 + 16 * e)) = min (s.regNat (fceReg p (0x404 + 16 * e)) + q.len) 0xFFFFFFFF ∧
        (∀ a, a ≠ fceReg p (0x404 + 16 * e) → t.reg a = s.reg a)

/-- A descriptor completes (R29, R276, R297): when everything it moves has moved, it leaves the queue with status 0, its completion
counter advances by one modulo 2^32 and the next descriptor starts at its beginning; no memory changes. -/
def Obligations.DescriptorCompletes : Prop :=
  ∀ (s : State) (p e : Nat) (qd : QueuedDesc) (rest : List QueuedDesc),
    faceWf p = true → e < 6 → s.faceRuns p = true → (s.engine p e).queue = qd :: rest → (s.engine p e).stopped = false →
    s.headDone p e = true → (s.face p).fused = none →
    (parseDesc qd.bytes).ctr < (s.face p).counters.length →
    let c := (parseDesc qd.bytes).ctr
    ∃ t, exec (.descriptorComplete p e) s = .next t ∧ (t.engine p e).queue = rest ∧ (t.engine p e).status = 0 ∧
      (t.engine p e).pos = 0 ∧ (t.engine p e).unit = 0 ∧ (t.engine p e).fill = 0 ∧ (t.engine p e).drain = 0 ∧
      (t.face p).counters = (s.face p).counters.set c (((s.face p).counters.getD c 0 + 1) % 2 ^ 32) ∧
      (t.face p).rings = (s.face p).rings ∧ (∀ k, k ≠ p → t.face k = s.face k) ∧ { t with faces := s.faces } = s

/-- A transfer of length zero (R13, R276): no transaction issues for it, it takes and releases no skip and consumes no rate credit;
it completes with DONE and its counter advances. -/
def Obligations.ZeroLengthTransferCompletes : Prop :=
  ∀ (s : State) (p e : Nat) (qd : QueuedDesc) (rest : List QueuedDesc),
    faceWf p = true → e < 6 → s.faceRuns p = true → (s.engine p e).queue = qd :: rest → (s.engine p e).stopped = false →
    (s.engine p e).fill = 0 → (s.engine p e).drain = 0 →
    (s.face p).fused = none → (parseDesc qd.bytes).count = 0 →
    (parseDesc qd.bytes).ctr < (s.face p).counters.length →
    let c := (parseDesc qd.bytes).ctr
    exec (.transactionIssue p e) s = .next s ∧
      ∃ t, exec (.descriptorComplete p e) s = .next t ∧ (t.engine p e).status = 0 ∧ (t.engine p e).queue = rest ∧
        (t.engine p e).credit = (s.engine p e).credit ∧ (t.face p).rings = (s.face p).rings ∧
        (t.face p).counters.getD c 0 = ((s.face p).counters.getD c 0 + 1) % 2 ^ 32 ∧ t.mem = s.mem ∧ t.regs = s.regs

/-- A bus error (R287, R297): the face stops with all its engines and its compute stages, for the work of the engine that erred first (of one
time the lowest-numbered); the record takes that engine, its KIND and the address while VALID is 0; every other error, and that one too where
VALID is 1, is only counted as missed; no memory changes. -/
def Obligations.BusErrorStopsTheFace : Prop :=
  ∀ (s : State) (p e k : Nat) (er : Nat × Nat),
    faceWf p = true → s.faceUp p = true → (s.engine p k).err.isSome = true → e < 6 → (s.engine p e).err = some er → er.1 < 8 →
    (∀ j, j < 6 → (s.engine p j).err.isSome = true →
      (s.engine p e).errAt < (s.engine p j).errAt ∨ ((s.engine p e).errAt = (s.engine p j).errAt ∧ e ≤ j)) →
    let n := (List.range 6).countP (fun j => (s.engine p j).err.isSome)
    ∃ t, exec (.busError p k) s = .next t ∧ (t.face p).stopped = true ∧ (t.face p).stageStop = true ∧
      (t.face p).stopWork = (s.engine p e).queue.head?.map (fun q => q.work.ctx) ∧
      (∀ g ∈ (t.face p).engines, g.stopped = true) ∧ (∀ j, j ≠ p → t.face j = s.face j) ∧ t.mem = s.mem ∧
      (s.field (fceReg p 0x500) 31 1 = 0 →
        t.regNat (fceReg p 0x500) = e + 16 * er.1 + 2 ^ 31 ∧ t.reg (fceReg p 0x504) = BitVec.ofNat 32 er.2 ∧
          t.regNat (fceReg p 0x510) = min (s.regNat (fceReg p 0x510) + (n - 1)) 0xFFFFFFFF) ∧
      (s.field (fceReg p 0x500) 31 1 = 1 → t.reg (fceReg p 0x500) = s.reg (fceReg p 0x500) ∧
        t.regNat (fceReg p 0x510) = min (s.regNat (fceReg p 0x510) + n) 0xFFFFFFFF)

/-! Face command streams: fused stages, compute steps, musters (R289 to R292). -/

/-- A fused stage command (R257, R289): where the face may take it and each of its steps may start, with SKIPS 0 it completes at once and
its counter advances; else it is in progress with nothing drained and the descriptors of its engine steps are queued on their engines in
their order. -/
def Obligations.FusedStageStarts : Prop :=
  ∀ (s : State) (p off : Nat) (work : Work), faceWf p = true → s.faceRuns p = true → s.faceHeld p = false → s.workOpen work = true →
    off + 40 ≤ storeBytes → (s.face p).fused = none →
    let b := s.readMem (storeBase p + off) 40
    fusedOk b = true → s.stepsOk p b work = true →
    (fusedSkips b = 0 → exec (.fusedStageCommand p off work) s = .next (s.bumpCtr p (fusedCtr b))) ∧
    (fusedSkips b ≠ 0 → ∃ t, exec (.fusedStageCommand p off work) s = .next t ∧
      (t.face p).fused = some { bytes := b, drained := 0, work := work, seq := (s.face p).workSeq, offset := off, ran := List.replicate 8 0 } ∧
      (∀ k, k < (s.face p).engines.length → k < 6 → (t.engine p k).queue.map (fun q => q.offset) =
        (s.engine p k).queue.map (fun q => q.offset) ++ ((fusedList b).filter (fun st => st.engine == k)).map (fun st => st.ptr)) ∧
      (∀ j, j ≠ p → t.face j = s.face j) ∧ { t with faces := s.faces } = s)

/-- A compute step (R14, R151, R257, R290): the work item has the layer to run, it is its turn, its record keeps R290, and the range lies in
its output. On an empty input ring it waits (R282). Where its input's tags agree and the skip matches its tally the step runs: an element of
a wide output gets the code of the layer's value there, no other tensor of the work but the map that a late step paints, no memory and no
other face changes. A row length of 0 forms nothing and raises no error; tags that differ are a tag fault and form nothing, as a skip that
does not match its tally does (log entry 101); a gradient step forms λ's gradient (R163). -/
def Obligations.ComputeStepFormsItsRange : Prop :=
  ∀ (s : State) (p : Nat) (ctx : Ctx) (op : ComputeOp) (e : Env), s.envOf ctx = some e →
    let k := s.pkg e.model
    let l := k.layers.getD (opLayer op) {}
    let out := s.outRec e l.out
    let u := s.atStep p e op l
    faceWf p = true → s.faceRuns p = true → s.faceHeld p = false → (s.face p).stageStop = false → (s.face p).fused = none →
    s.stepTurn p ctx op = true → computeOk op.record = true → opLayer op < k.layers.length → (l.opclass ≠ 4 ∨ opFunc op ≠ 0) →
    ((∃ j, ctx = .job j) ∨ l.runs e.inter = true) → (e.dec && bitAt l.flags 0) = false →
    let row := l.opclass == 5 || (l.opclass == 6 && decide (l.subop ≤ 2))
    let agree := u.stepTags p op = none ∨ ∃ q, u.stepTags p op = some q ∧ tagsAgree q = true
    let right := agree ∧ u.stepTally p op = none
    (op.grad = none → rangeOk out (policyOf k l.out) (tensorCols out e.hdr) (tensorElems out e.hdr) op.lo op.count = true →
      (∀ r, op.inRing = some r → (s.ring p r).occ = 0 →
        exec (.computeStep p ctx op) s = .next (s.setRing p r { s.ring p r with waitData := true })) ∧
      ((∀ r, op.inRing = some r → (s.ring p r).occ ≠ 0) →
        (right → row = true → opRowLen op = 0 → exec (.computeStep p ctx op) s = .next u) ∧
        (right → (row = false ∨ opRowLen op ≠ 0) →
          ∃ t, exec (.computeStep p ctx op) s = .next t ∧ t = u.runStep p e op l ∧ t.mem = s.mem ∧ (∀ q, q ≠ p → t.face q = s.face q) ∧
            (∀ n d, n ≠ l.out → mapTensor k ≠ some n → spGet d (t.written e) n = spGet d (s.written e) n) ∧
            (let v := u.lateMap e l
             let a := v.layerIn e (if v.isGrey e then some (v.grey e).1 else none) l (opFunc op) (opAxis op) (opRowLen op)
             a.empty = false → (out.fmt = 0 ∨ out.fmt = 1) → (∀ i, v.skips e l (opLayer op) a i = false) →
             (out.role ≠ 4 ∨ ∀ q ∈ s.wrote e, q.1 = l.out → q.2 ≤ opLayer op) →
             ∀ i, i < op.count → (spGet {} (t.written e) l.out).data.getD (op.lo + i) 0 =
               (wideCode a.compat out.fmt (a.elem (op.lo + i))).1)) ∧
        (∀ q, u.stepTags p op = some q → tagsAgree q = false →
          exec (.computeStep p ctx op) s = .next (u.tagFault p q.1 (opLayer op) ctx q.2.1 q.2.2.1 q.2.2.2)) ∧
        (∀ r, agree → u.stepTally p op = some r → exec (.computeStep p ctx op) s = .next (u.stageTally p r ctx)))) ∧
    (∀ g n, op.grad = some (g, n) → (∃ j, ctx = .job j) → bitAt l.flags 1 = true → g < k.tensors.length →
      (k.tensors.getD n {}).fmt = 1 → op.lo + op.count ≤ tensorElems (k.tensors.getD n {}) e.hdr →
      (∀ r, op.inRing = some r → (s.ring p r).occ ≠ 0) → right →
      exec (.computeStep p ctx op) s = .next (u.runGradient p e op l g n))

/-- A muster (R291, R292): the first face of a scope and identifier opens it, those of its participants whose slots are absent counted as
arrived; each further one arrives, a face that has arrived already waits for the release; and when all its participants have arrived it is
released at its tick: at NOT_BEFORE, but no earlier than the last arrival plus the scope's spread, at the launch grain; a release after the
deadline is counted, and the faces that waited arrive at the next muster. -/
def Obligations.MustersArriveAndRelease : Prop :=
  ∀ (s : State) (p off : Nat) (work : Work), faceWf p = true → s.faceRuns p = true → s.quiet p = true → s.hasJobs p = false →
    s.workOpen work = true → off + 16 ≤ storeBytes →
    let b := s.readMem (storeBase p + off) 16
    let c := parseMuster b
    let u := s.scopeUnit p c.scope work.ctx
    let lf := (s.logicalOf p).getD 0
    let n := s.placementOf work.ctx
    let w : MusterWait := { face := lf, parts := c.parts, notBefore := c.notBefore, deadline := work.deadline, placement := n }
    (musterOk b = true → s.inMuster lf (sameMuster c.scope u c.id) = false →
      (s.musters.any (sameMuster c.scope u c.id) = false →
        exec (.muster p off work) s = .next (({ s with musters := s.musters ++
          [{ scope := c.scope, unit := u, id := c.id, parts := c.parts, notBefore := c.notBefore,
             arrived := (lf :: s.absentIn c.scope u n).eraseDups, lastAt := s.now, deadline := work.deadline, placement := n,
             waiting := [] }] } : State).endItem p off)) ∧
      (∀ m, s.musters = [m] → sameMuster c.scope u c.id m = true →
        (m.arrived.contains lf = false → m.arrived.length < m.parts →
          exec (.muster p off work) s = .next
            (({ s with musters := [{ m with arrived := m.arrived ++ [lf], lastAt := s.now }] } : State).endItem p off)) ∧
        ((m.arrived.contains lf = true ∨ m.parts ≤ m.arrived.length) →
          exec (.muster p off work) s = .next
            (({ s with musters := [{ m with waiting := m.waiting ++ [w] }] } : State).endItem p off)))) ∧
    (∀ m ∈ s.musters, ∀ lf, s.logicalOf p = some lf → (lf ∈ m.arrived ∨ ∃ w ∈ m.waiting, w.face = lf) → s.faceHeld p = true) ∧
    (∀ m, s.musters = [m] → m.parts ≤ m.arrived.length → s.releaseTick m ≤ s.now →
      (m.waiting = [] → ∃ t, exec (.musterRelease m.scope m.unit m.id) s = .next t ∧ t.musters = [] ∧
        (s.releaseTick m ≤ m.deadline → t = { s with musters := [] }) ∧
        (m.deadline < s.releaseTick m → t.regNat (lvlReg (musterLevel m) 0x620) =
          min (s.regNat (lvlReg (musterLevel m) 0x620) + 1) 0xFFFFFFFF)) ∧
      (∀ v, m.waiting = [v] → ∃ t k, exec (.musterRelease m.scope m.unit m.id) s = .next t ∧ t.musters = [k] ∧
        sameMuster m.scope m.unit m.id k = true ∧ v.face ∈ k.arrived ∧ k.parts = v.parts ∧ k.notBefore = v.notBefore ∧
        k.deadline = v.deadline ∧ k.lastAt = s.now ∧ k.waiting = [])) ∧
    (∀ m : MusterState, s.releaseTick m = launchGrain (if m.parts = 0 then m.notBefore
      else max m.notBefore (m.lastAt + s.spread m.scope m.unit)))

/-! Rings, borrowed buffers, the ring monitor, trams and idle faces (R281 to R284, R291 to R296, R393). -/

/-- Rings (R150, R282, R283, R295, R332): occupancy is (TAIL − HEAD) modulo 65,536, whatever the 16-bit counters hold; a skip published on a
ring with room advances TAIL by one, its metadata word holding its bytes, its tag where it has one and its CRC-32C, and on a full ring
the producer waits; a skip released advances HEAD by one, its producer no longer waits and a pool buffer it held goes back, and on an
empty ring the consumer waits. No other ring changes, and of the engines that serve the ring only how far their skip is filled or
drained. -/
def Obligations.RingSkipsMove : Prop :=
  (∀ g : Ring, g.head < 65536 → g.tail < 65536 →
    g.occ < 65536 ∧ (g.head + g.occ) % 65536 = g.tail ∧
      (∀ n, n < 65536 → { g with tail := (g.head + n) % 65536 }.occ = n)) ∧
  (∀ (s : State) (p r bytes : Nat) (tag : Option (BitVec 4)),
    faceWf p = true → r < 16 → s.faceRuns p = true → s.mayPublish p r bytes tag = true → r < (s.face p).rings.length →
    (∀ k, s.ringRoom p r = true → s.fillPlace p r = some k → (s.face p).fused = none →
      ∃ t, exec (.skipPublish p r bytes tag) s = .next t ∧ (t.ring p r).tail = ((s.ring p r).tail + 1) % 65536 ∧
        (t.ring p r).head = (s.ring p r).head ∧ (t.ring p r).filling = none ∧
        spGet {} (t.ring p r).skips (s.ring p r).tail = { bytes := bytes, tag := (tag.map (fun x => x.toNat)).getD 0,
                                                          tagged := tag.isSome,
                                                          tally := crc32c (s.readMem (s.bufferAt p r k) bytes), place := k } ∧
        (∀ x m, tag = some x → s.fillerOf p r = none → (s.face p).making = some m →
          (t.ring p r).made = some (m.1, m.2.1, (s.ring p r).nextBlock m) ∧ x.toNat = (s.ring p r).nextBlock m % 16) ∧
        (∀ q j, (q ≠ p ∨ j ≠ r) → t.ring q j = s.ring q j) ∧
        (∀ q e, { t.engine q e with fill := (s.engine q e).fill, handed := (s.engine q e).handed } = s.engine q e) ∧
        { t with faces := s.faces } = s) ∧
    (s.ringRoom p r = false → exec (.skipPublish p r bytes tag) s = .next (s.setRing p r { s.ring p r with waitSpace := true }))) ∧
  (∀ (s : State) (p r : Nat), faceWf p = true → r < 16 → s.faceRuns p = true → s.mayRelease p r = true → r < (s.face p).rings.length →
    (s.face p).fused = none →
    ((s.ring p r).occ ≠ 0 →
      ∃ t, exec (.skipRelease p r) s = .next t ∧ (t.ring p r).head = ((s.ring p r).head + 1) % 65536 ∧
        (t.ring p r).tail = (s.ring p r).tail ∧ (t.ring p r).waitSpace = false ∧ (t.ring p r).lastHead = some s.now ∧
        (∀ k due w, (s.ring p r).headSkip = some w → w.place = k + 128 → (k, due) ∉ (t.ring p r).pool) ∧
        (∀ j, j ≠ r → t.ring p j = s.ring p j) ∧ (∀ e, { t.engine p e with drain := (s.engine p e).drain } = s.engine p e) ∧
        (∀ q, q ≠ p → t.face q = s.face q) ∧ { t with faces := s.faces } = s) ∧
    ((s.ring p r).occ = 0 → exec (.skipRelease p r) s = .next (s.setRing p r { s.ring p r with waitData := true })))

/-- Borrowing (R225, R295): a full ring that may borrow takes a pool buffer no ring of its face holds, to be returned one frame period
or JOB_SLACK later, and a lot ring a free lot of its level likewise. At its return time a face's ring borrows no more and keeps only the
buffers that still hold data, and a lot ring gives its lots back but for as many as still hold data; LVL_REVOKED counts those that were due and
still hold data. -/
def Obligations.BuffersBorrowAndReturn : Prop :=
  (∀ (s : State) (ctx : Ctx) (p r : Nat), faceWf p = true → r < 16 → s.faceRuns p = true → s.mayBorrow p r = true →
    r < (s.face p).rings.length →
    ∃ t k, exec (.poolBorrow (.face p r) ctx) s = .next t ∧ k ∈ s.poolFree p ∧
      t.ring p r = { s.ring p r with pool := (s.ring p r).pool ++ [(k, s.now + s.slack ctx)], borrower := some ctx,
                                     waitSpace := false } ∧
      k ∉ t.poolFree p ∧ (∀ j, j ≠ r → t.ring p j = s.ring p j) ∧ (∀ q, q ≠ p → t.face q = s.face q) ∧ { t with faces := s.faces } = s) ∧
  (∀ (s : State) (ctx : Ctx) (l c x w : Nat), l < 4 → c < 16 → x < 4 → w < 3 → s.levelUp l = true → s.mayBorrowLot l c x w = true →
    l < s.levels.length →
    ∃ t k, exec (.poolBorrow (.lot l c x w) ctx) s = .next t ∧ k ∈ s.freeLots l ∧
      { t.level l with coders := (s.level l).coders } =
        { s.level l with sharedLots := (s.level l).sharedLots ++ [(.lot l c x w, k, s.now + s.slack ctx)] } ∧
      k ∉ t.freeLots l ∧ (∀ j, j ≠ l → t.level j = s.level j) ∧ t.faces = s.faces ∧ t.mem = s.mem) ∧
  (∀ (s : State) (p r : Nat), faceWf p = true → r < 16 → (∃ k ∈ (s.ring p r).pool, k.2 ≤ s.now) → r < (s.face p).rings.length →
    let g := s.ring p r
    let holds := fun (k : Nat × Nat) => g.skips.any (fun w => w.2.place == k.1 + 128) || g.filling == some (k.1 + 128)
    ∃ t, exec (.borrowReturnBy (.face p r)) s = .next t ∧ (t.ring p r).noBorrow = true ∧
      (t.ring p r).pool.map (fun k => k.1) = (g.pool.filter holds).map (fun k => k.1) ∧
      (∀ k ∈ g.pool, holds k = true → s.now < k.2 → k ∈ (t.ring p r).pool) ∧
      (∀ j, j ≠ r → t.ring p j = s.ring p j) ∧ t.mem = s.mem ∧
      t.regNat (lvlReg (levelOf p) 0x610) =
        min (s.regNat (lvlReg (levelOf p) 0x610) + g.pool.countP (fun k => holds k && decide (k.2 ≤ s.now))) 0xFFFFFFFF) ∧
  (∀ (s : State) (l c x w : Nat), l < 4 → c < 16 → x < 4 → w < 3 → l < s.levels.length → s.now < 2 ^ 64 →
    let of := fun (o : RingRef × Nat × Nat) => o.1 == .lot l c x w
    let due := fun (o : RingRef × Nat × Nat) => of o && decide (o.2.2 ≤ s.now)
    let back := fun (o : RingRef × Nat × Nat) => of o && o.2.2 == 2 ^ 64
    (∃ o ∈ (s.level l).sharedLots, due o = true) →
    ∃ t, exec (.borrowReturnBy (.lot l c x w)) s = .next t ∧ t.faces = s.faces ∧ t.mem = s.mem ∧
      (∀ o ∈ (s.level l).sharedLots, due o = false → o.2.2 ≠ 2 ^ 64 → o ∈ (t.level l).sharedLots) ∧
      (∀ o ∈ (t.level l).sharedLots, due o = false ∧ (∃ q ∈ (s.level l).sharedLots, q.1 = o.1 ∧ q.2.1 = o.2.1)) ∧
      (t.level l).sharedLots.countP back =
        min ((s.level l).sharedLots.countP (fun o => due o || back o)) ((s.dueLots l c x w).lotsInUse l c x w) ∧
      t.regNat (lvlReg l 0x610) =
        min (s.regNat (lvlReg l 0x610) + ((t.level l).sharedLots.countP back - (s.level l).sharedLots.countP back)) 0xFFFFFFFF)

/-- The ring monitor (R296): a sample remembers the rings of the cycles of waits it finds, with their HEAD and TAIL; a cycle that the sample
before saw with the same rings and counters is declared a cyclic wait, and the faces of its rings stop. Without a cycle nothing is
remembered. -/
def Obligations.RingMonitorSamples : Prop :=
  ∀ (s : State) (l : Nat), l < 4 → s.levelUp l = true → l < s.levels.length →
    let sel := fun p => levelOf p == l
    let seen := (s.level l).waitSeen
    (∀ c ∈ s.cycles sel, ∀ w ∈ c, w ∈ s.waits sel) ∧
    (s.waits sel = [] → exec (.ringMonitorSample l) s = .next (s.setLevel l { s.level l with waitSeen := [] })) ∧
    ((∀ c ∈ s.cycles sel, seenCycle seen c = false) →
      exec (.ringMonitorSample l) s = .next (s.setLevel l { s.level l with waitSeen := (s.cycles sel).flatMap cycleMark })) ∧
    (∀ c ∈ s.cycles sel, seenCycle seen c = true →
      ∃ t, exec (.ringMonitorSample l) s = .next t ∧ (∀ w ∈ c, (t.face w.p).stopped = true) ∧
        (t.level l).waitSeen = ((s.cycles sel).filter (fun d => !seenCycle seen d)).flatMap cycleMark) ∧
    ((∀ c ∈ s.cycles (fun _ => true), seenCycle s.joinSeen c = false) →
      exec .waitJoinSample s = .next { s with joinSeen := (s.cycles (fun _ => true)).flatMap cycleMark })

/-- Trams (R24, R293, R294, R298): the next chunk of its home's flow reaches a face its ring lets it reach; at a face with a matching
receive descriptor, in time and with a free skip, it is stored whole in that skip and published; late the face leaves the multicast, which
is counted, and later reads the chunk from its home copy, to its end where the rate credit allows; a face with no such descriptor lets it pass. -/
def Obligations.TramsDeliver : Prop :=
  ∀ (s : State) (p : Nat) (c : TramChunk),
    faceWf p = true → faceWf c.home = true → p ≠ c.home → levelOf p = levelOf c.home → driftOf p = driftOf c.home →
    s.nextChunk c.home p = some c → s.tramReaches (levelOf p) (driftOf p) (posOf c.home) (posOf p) = true →
    (s.tramMover p c.layer c.chunk = none →
      exec (.tramChunkArrive c.home p c.layer c.chunk c.dueBy c.data) s = .next (s.chunkSeen c p)) ∧
    (∀ e r k d, s.faceRuns p = true → s.tramMover p c.layer c.chunk = some e → s.tramDesc p e c.layer c.chunk = some d →
      d.dstRing = some r → r < (s.face p).rings.length → s.nextPlace p r = some k → s.bufferAt p r k < regBase →
      (s.ringRoom p r = true → (s.ring p r).filling = none → s.now ≤ c.dueBy → c.data.length ≤ (s.ringRec p r).skipBytes →
        ∃ t, exec (.tramChunkArrive c.home p c.layer c.chunk c.dueBy c.data) s = .next t ∧
          (∀ i, i < c.data.length → t.readByte (s.bufferAt p r k + i) = c.data.getD i 0) ∧
          (∀ a, a < s.bufferAt p r k ∨ s.bufferAt p r k + c.data.length ≤ a → t.readByte a = s.readByte a) ∧
          (t.ring p r).tail = ((s.ring p r).tail + 1) % 65536 ∧
          (spGet {} (t.ring p r).skips (s.ring p r).tail).place = k ∧
          (spGet {} (t.ring p r).skips (s.ring p r).tail).bytes = c.data.length) ∧
      (c.dueBy < s.now → ∃ t, exec (.tramChunkArrive c.home p c.layer c.chunk c.dueBy c.data) s = .next t ∧
        (t.face p).missed = (s.face p).missed ++ [{ engine := e, layer := c.layer, chunk := c.chunk, dueBy := c.dueBy,
                                                    bytes := c.data.length }] ∧
        t.regNat (drfReg (levelOf p) (driftOf p) 0x104) = min (s.regNat (drfReg (levelOf p) (driftOf p) 0x104) + 1) 0xFFFFFFFF ∧
        t.mem = s.mem)) ∧
    (∀ m e r k d, (s.face p).missed = [m] → m.engine = e → s.faceRuns p = true → s.tramDesc p e m.layer m.chunk = some d →
      d.dstRing = some r → (if m.done = 0 then s.nextPlace p r else (s.ring p r).filling) = some k →
      (m.done = 0 → (s.ring p r).filling = none) → s.ringRoom p r = true → r < (s.face p).rings.length → (s.engine p e).stopped = false →
      let a := d.auxSrc + m.done
      let n := m.bytes - m.done
      s.spanError a n false = none → s.poisonAt [(a, n)] = none → s.bufferAt p r k + m.done < regBase →
      (d.rateEn = true → 256 * n ≤ ((s.engine p e).accrue s.now d.share).credit) →
      ∃ t, exec (.tramRefetch p e) s = .next t ∧ (t.face p).missed = [] ∧
        (∀ i, i < n → t.readByte (s.bufferAt p r k + m.done + i) = (s.memBytes a n).getD i 0) ∧
        (t.ring p r).tail = ((s.ring p r).tail + 1) % 65536 ∧
        t.regNat (fceReg p 0x520) = min (s.regNat (fceReg p 0x520) + 1) 0xFFFFFFFF)

/-- Idle (R393): a face without work for 1 µs gates its clocks and an arriving descriptor or tick ungates it; nothing but the gate
changes. -/
def Obligations.IdleFacesGate : Prop :=
  ∀ (s : State) (p : Nat), faceWf p = true →
    (s.quiet p = true → (s.face p).lastWork + 1000 ≤ s.now →
      exec (.faceIdleGate p) s = .next (s.setFace p { s.face p with gated := true })) ∧
    (s.quiet p = false → exec (.faceIdleGate p) s = .next s) ∧
    exec (.faceUngate p) s = .next (s.setFace p { s.face p with gated := false })

/-! Motion, the region unit, the entropy coders, zero compression and the block compressor (R187 to R231, R301 to R319). -/

/-- The motion engine takes a launched band of a video encode frame with two tile buffers filled; a column block is loaded in its
order into slot (block mod 6) and no other slot changes; a tile runs once its five column blocks are there, appends its blocks and
counts their classes; a finished band publishes its classes in the packed skip map, its flow and its cost, and frees the engine (R204 to
R213). In a packed map each block of a band reads as its own class. -/
def Obligations.MotionCommandsAct : Prop :=
  (∀ (s : State) (p : Nat), faceWf p = true → s.faceRuns p = true →
    let m := (s.face p).motion
    (∀ (session band : Nat) (f : EncFrame), m.busy = false → (s.ses session).decode = false → (s.ses session).media = 1 →
      (s.ses session).frame = some f → band < sliceCount (s.ses session).header → (f.slices.getD band {}).st = 1 →
      ∃ t, exec (.motionBandStart p session band) s = .next t ∧ (t.face p).motion.busy = true ∧
        (t.face p).motion.session = session ∧ (t.face p).motion.band = band ∧ (t.face p).motion.vectors = [] ∧
        (t.face p).motion.columns = [] ∧ (t.face p).gated = false ∧ (∀ k, k ≠ p → t.face k = s.face k) ∧
        { t with faces := s.faces } = s) ∧
    (∀ (x : Session) (f : EncFrame) (h : Bytes), s.motionFrame p = some (x, f, h) →
      (∀ (block : Int) (pls : List Plane), x.planes (1 + f.refSlot) = some pls → f.searches = true →
        m.mayLoad (tileCount h) block = true →
        ∃ t, exec (.columnBlockLoad p block) s = .next t ∧
          ((block % 6).toNat, block, columnSamples (pls.getD 0 {}) m.band block) ∈ (t.face p).motion.columns ∧
          (∀ c : Nat × Int × List Nat, c.1 ≠ (block % 6).toNat → (c ∈ (t.face p).motion.columns ↔ c ∈ m.columns)) ∧
          (∀ k, k ≠ p → t.face k = s.face k) ∧ { t with faces := s.faces } = s) ∧
      (m.tilesDone < tileCount h → (f.searches = true → m.ready m.tilesDone = true) →
        ∃ t new, exec (.motionTileStart p) s = .next t ∧ (t.face p).motion.vectors = m.vectors ++ new ∧ new.length = 16 ∧
          (∀ k, k < 3 → t.regNat (fceReg p (0x304 + 4 * k)) = min (s.regNat (fceReg p (0x304 + 4 * k)) + classCount new k)
            0xFFFFFFFF) ∧ t.sessions = s.sessions ∧ t.mem = s.mem) ∧
      (m.tilesDone = tileCount h →
        ∃ t g, exec (.motionBandPublish p) s = .next t ∧ (t.ses m.session).frame = some g ∧
          g.bandsDone = f.bandsDone ++ [m.band] ∧ g.slices = f.slices ∧
          g.skipMap = putBand f.skipMap (codedWidth h) m.band (bandClasses (codedWidth h) m.band m.vectors) ∧
          g.flow = mergeBlocks f.flow (m.vectors.map (fun v => (v.block, v.vx * 4, v.vy * 4))) ∧
          g.cost = mergeBlocks f.cost (m.vectors.map (fun v => (v.block, v.cost))) ∧
          (t.face p).motion.busy = false ∧ (t.face p).motion.previous = m.vectors ∧ (∀ k, k ≠ p → t.face k = s.face k) ∧
          t.regs = s.regs ∧ t.mem = s.mem))) ∧
  (∀ (map : Bytes) (w b i : Nat) (l : List Nat), w % 64 = 0 → l.length = w / 4 → (∀ v ∈ l, v < 4) → i < w / 4 →
    skipClass (putBand map w b l) (b * (w / 4) + i) = l.getD i 0)

/-- A region map (R197 to R202): each 16 × 16 block of the packed map takes the greatest weight of the selected boxes and the focus box
that overlap it, 0 where none does; a map painted in time counts its NaN candidates, a late one is painted from the focus box alone and
counted late; nothing but its session changes. -/
def Obligations.RegionMapPaints : Prop :=
  ∀ (s : State) (id : Nat) (dets : List Detection) (late : Bool) (f : EncFrame) (r : RegionRec),
    (s.ses id).frame = some f → (s.pkg (s.ses id).modelSlot).region = some r → (s.ses id).decode = false →
    (s.ses id).media = 1 → f.rateMap = none → (∀ v ∈ r.weights, v < 16) → (s.ses id).settings.weight < 16 →
    let w := hdrWidth (s.ses id).header
    let h := hdrHeight (s.ses id).header
    let cands := r.candidates ((s.pkg (s.ses id).modelSlot).arith == 1) w h dets
    let boxes := focusBox (s.ses id).settings w h :: (if late then [] else r.painted cands)
    ∃ t g map, exec (.regionMapPaint id dets late) s = .next t ∧ (t.ses id).frame = some g ∧ g.rateMap = some map ∧
      (r.painted cands).length ≤ r.maxKeep ∧
      (∀ i, i < (w + 15) / 16 * ((h + 15) / 16) →
        let x := i % ((w + 15) / 16) * 16
        let y := i / ((w + 15) / 16) * 16
        (∀ b ∈ boxes, max b.1 x < min b.2.1 (x + 16) → max b.2.2.1 y < min b.2.2.2.1 (y + 16) → b.2.2.2.2 ≤ mapValue map i) ∧
        (mapValue map i = 0 ∨ ∃ b ∈ boxes, max b.1 x < min b.2.1 (x + 16) ∧ max b.2.2.1 y < min b.2.2.2.1 (y + 16) ∧
          b.2.2.2.2 = mapValue map i)) ∧
      g.slices = f.slices ∧
      (t.ses id).counters = (if late then (s.ses id).bump 15 1 else (s.ses id).bump 14 (cands.countP (fun c => c.2))).counters ∧
      (∀ k, k ≠ id → t.ses k = s.ses k) ∧ { t with sessions := s.sessions } = s

/-- The entropy coders' commands (R216 to R223, R229, R231): a broken descriptor completes REFUSED at once, another queues with its lots
held; a free context takes, of the 256 first that may start, the job due first and fills; an error in its tables ends it POOL_ERROR; a
coder runs the context that can proceed and is due first; a complete encode job closes where its ring has room for the bytes and ends DONE,
and a decode job ends DONE, or MALFORMED where its last read does not agree or its slice tally does not. -/
def Obligations.CoderCommandsAct : Prop :=
  ∀ (s : State),
    (∀ (p n : Nat) (desc : Bytes), faceWf p = true → s.faceRuns p = true →
      let l := levelOf p
      (s.coderOk l desc = false → ∃ t, exec (.coderJobSubmit p desc n) s = .next t ∧
        (t.face p).portDone = (s.face p).portDone ++ [((parseCoder desc).session, (parseCoder desc).slice, 3, 0)] ∧
        (∀ k, k ≠ p → t.face k = s.face k) ∧ { t with faces := s.faces } = s) ∧
      (s.coderOk l desc = true → l < s.levels.length →
        ∃ t j, exec (.coderJobSubmit p desc n) s = .next t ∧ (t.level l).coderQ = (s.level l).coderQ ++ [j] ∧ j.desc = desc ∧
          j.face = p ∧ j.seq = (s.level l).coderSeq ∧ (t.level l).coderSeq = (s.level l).coderSeq + 1 ∧
          (∀ k ∈ (parseCoder desc).lots, (k, j.seq, (parseCoder desc).session) ∈ (t.level l).lotOwners) ∧ t.mem = s.mem)) ∧
    (∀ l, l < 4 → s.levelUp l = true →
      (∀ j q, coderHead (((s.level l).coderQ.take 256).filter s.coderReady) = some j → s.freeCtx l = some q →
        exec (.coderJobDispatch l) s = .next ((s.setLevel l { s.level l with coderQ := (s.level l).coderQ.erase j }).setCtx l q.1 q.2
          { job := some j, filling := true })) ∧
      (∀ c, c < 16 →
        (∀ x, x < 4 → ∀ j, (s.ctxAt l c x).job = some j →
          let v := s.ctxAt l c x
          let d := parseCoder j.desc
          (v.filling = true →
            let base := { v with filling := false, running := true, cache := s.fillCache l d }.look d.decode (s.jobTensors d)
            (d.decode = false → exec (.coderCacheFill l c x false) s = .next
              (((s.setCtx l c x { base with range := encStart }).bumpReg (lvlReg l (0x408 + 16 * c)) 0).runNext l c)) ∧
            (∀ r, d.decode = true → 4 ≤ d.bytes → 4 ≤ j.data.length → decStart (j.data.take d.bytes) = some r →
              exec (.coderCacheFill l c x false) s = .next
                (((s.setCtx l c x { base with range := r }).bumpReg (lvlReg l (0x408 + 16 * c)) 4).runNext l c)) ∧
            exec (.coderCacheFill l c x true) s = .next ((s.poolUe l d.bank (some (.session d.session))).poolError l c x d.bank
              (some (.session d.session)))) ∧
          (v.filling = false → v.done = jobElems (s.jobTensors d) →
            (∀ ok, d.decode = false →
              (v.lotFill 0 + v.close.grown v ≤ s.lotCap l c x 0 → exec (.coderJobComplete l c x ok) s = .next
                (((s.setCtx l c x v.close).bumpReg (lvlReg l (0x408 + 16 * c)) (v.close.range.out.length - v.range.out.length)).endCoder
                  l c x 0)) ∧
              (s.lotCap l c x 0 < v.lotFill 0 + v.close.grown v → exec (.coderJobComplete l c x ok) s = .next
                (s.setCtx l c x { v with need := v.close.grown v }))) ∧
            (d.decode = true → v.malformed = false → v.range.read = d.bytes →
              (crc32c j.data = j.tally → exec (.coderJobComplete l c x true) s = .next (s.endCoder l c x 0)) ∧
              (∀ ok, (ok = false ∨ crc32c j.data ≠ j.tally) → exec (.coderJobComplete l c x ok) s = .next
                ((((s.bumpReg (lvlReg l 0x840) 1).raise 0x13 1 0 l noFace (some (.session d.session)) (0x10 + c) 0).bumpReg
                  (lvlReg l 0x314) 1).endCoder l c x 1))) ∧
            (∀ ok, d.decode = true → (v.malformed = true ∨ v.range.read ≠ d.bytes) →
              exec (.coderJobComplete l c x ok) s = .next ((s.bumpReg (lvlReg l 0x314) 1).endCoder l c x 1)))) ∧
        (∀ a : List (Nat × Nat × Nat), (∀ e ∈ a, e.1 < 4) →
          ((s.arriveRecords l c a).switchTo l c = none → exec (.coderContextSwitch l c a) s = .next (s.arriveRecords l c a)) ∧
          (∀ i, (s.arriveRecords l c a).switchTo l c = some i →
            exec (.coderContextSwitch l c a) s = .next ((s.arriveRecords l c a).runAt l c i)))))

/-- The block compressor's commands (R285, R310 to R313): a descriptor of any OP queues on its face's level with its key, its deadline or
the issue time plus JOB_SLACK; a free unit takes, of the 64 first, the queued job that goes first, a refused one ending at once with
STATUS REFUSED; a unit's next segment is compressed, or decoded and for DECOMPRESS written. -/
def Obligations.CompressorCommandsAct : Prop :=
  ∀ (s : State),
    (∀ (p off : Nat) (work : Work) (c : Instr) (op : Nat),
      ((c = .compress p off work ∧ op = 1) ∨ (c = .decompress p off work ∧ op = 2) ∨ (c = .verify p off work ∧ op = 3)) →
      s.canBlk p off op work = true → levelOf p < s.levels.length →
      ∃ t j, exec c s = .next t ∧ (t.level (levelOf p)).blkQ = (s.level (levelOf p)).blkQ ++ [j] ∧ j.face = p ∧
        j.desc = s.readMem (storeBase p + off) 64 ∧ j.ctx = work.ctx ∧ (∀ id, work.ctx = .session id → j.key = work.deadline) ∧
        (∀ id, work.ctx = .job id → j.key = s.now + s.jobSlack) ∧
        (∀ l, l ≠ levelOf p → t.level l = s.level l) ∧ (∀ q, q ≠ p → t.face q = s.face q) ∧
        { t with levels := s.levels, faces := s.faces } = s) ∧
    (∀ l j u, l < 4 → s.levelUp l = true → blkHead ((s.level l).blkQ.take 64) = some j → s.freeBlkUnit l = some u →
      let v := s.setLevel l { s.level l with blkQ := (s.level l).blkQ.erase j }
      exec (.compressorDispatch l) s = .next ((v.beginBlk l u j).declareReads s.badReads) ∧
        (blkOk j.desc = false → exec (.compressorDispatch l) s = .next (v.refuseBlk j))) ∧
    (∀ l u j, l < 4 → u < 4 → s.levelUp l = true → (s.level l).blkUnits.getD u none = some j →
      ((parseBlk j.desc).op = 1 → exec (.segmentComplete l u) s = .next ((s.compressSeg l u j).declareReads s.badReads)) ∧
      ((parseBlk j.desc).op ≠ 1 → exec (.segmentComplete l u) s = .next ((s.decompressSeg l u j).declareReads s.badReads)))

/-- Zero compression loses nothing (R187 to R189): a page made from the bytes of up to 4,096 elements expands to exactly those bytes,
in FP16 and in Ore8. -/
def Obligations.ZeroCompressionRoundTrip : Prop :=
  ∀ (ore : Bool) (n : Nat) (dense : Bytes), n ≤ 4096 → dense.length = n * zcElem ore →
    zcExpand ore n (zcPage (zcElem ore) dense) = some dense

/-! Sessions as frames run (R246 to R259, R267, R270, R271). -/

/-- A session's time-driven rows (R246, R249, R253, R255 to R259, R267): activation at START0, of either direction; of an encode session, a
frame start takes the settings due and opens the next frame on the bank of its start time, in whole-frame mode on the latest picture
complete by then with every slice launched, or counts SOURCE_LATE and skips it; a band launches with the references chosen, or is dropped
when too late; at its deadline a frame drops what it has not emitted; the next slice is emitted. -/
def Obligations.EncodeSessionsRun : Prop :=
  ∀ (s : State) (id : Nat), s.sesLive id = true →
    let x := s.ses id
    ((x.state = .opening ∨ x.state = .resuming) → x.start0 ≤ s.now →
      ∃ t, exec (.sessionActivate id) s = .next t ∧
        t.ses id = { x with state := .active, resumed := x.resumed || (!x.decode && x.state == .resuming) } ∧
        (∀ j, j ≠ id → t.ses j = s.ses j) ∧ { t with sessions := s.sessions } = s) ∧
    (x.decode = false → x.state = .active → x.frame = none → x.startOf x.frameIndex ≤ s.now →
      let u := s.beforeFrame id
      let z := u.ses id
      let b := u.bankAt (z.startOf z.frameIndex)
      let y := (z.applySets (z.startOf z.frameIndex)).countSkips (u.groupOf z).skipRefresh
      let at' := y.startOf y.frameIndex
      (z.closesNow = true → exec (.frameStart id) s = .next (u.toClosing id true)) ∧
      (z.closesNow = false → y.subframe = true →
        ∃ t f, exec (.frameStart id) s = .next t ∧ t.ses id = y.openFrame b none ∧ (t.ses id).frame = some f ∧ f.num = y.nextFrameNum ∧
          f.start = at' ∧ f.deadline = y.deadlineOf y.frameIndex ∧ f.bank = (b == 1) ∧ f.slices.length = sliceCount y.header ∧
          (∀ k ∈ f.slices, k.st = 0) ∧ (∀ j, j ≠ id → t.ses j = u.ses j) ∧ t.mem = u.mem) ∧
      (z.closesNow = false → y.subframe = false → y.frame = none → y.ready at' = [] →
        ∃ t, exec (.frameStart id) s = .next t ∧ t.ses id = { y with frameIndex := y.frameIndex + 1 }.bump 19 1 ∧
          (∀ j, j ≠ id → t.ses j = u.ses j) ∧ { t with sessions := u.sessions, regs := u.regs } = u) ∧
      (∀ p, z.closesNow = false → y.subframe = false → (y.ready at').getLast? = some p →
        ∃ t f, exec (.frameStart id) s = .next t ∧ (t.ses id).frame = some f ∧ f.num = y.nextFrameNum ∧
          f.start = at' ∧ f.deadline = y.deadlineOf y.frameIndex ∧ f.bank = (b == 1) ∧
          f.pic = some p.num ∧ f.source = p.planes y.header ∧ f.chosen = true ∧ f.slices.length = sliceCount y.header ∧
          (∀ k ∈ f.slices, k.st = 1) ∧ (∀ c ∈ (t.ses id).ingest, c.doneBy at' = false) ∧
          (∀ j, j ≠ id → t.ses j = u.ses j) ∧ t.mem = u.mem)) ∧
    (∀ f, x.decode = false → x.frame = some f →
      (∀ band p tm, x.subframe = true → band < f.slices.length → (f.slices.getD band {}).st = 0 → f.start ≤ s.now →
        x.framePicture f = some p → p.bandTime band = some tm → tm ≤ s.now →
        (f.deadline < s.now + s.bandBudget x → exec (.bandLaunch id band) s = .next
          ((s.setSes id (x.takeBand f p band)).dropSlices id [band])) ∧
        (s.now + s.bandBudget x ≤ f.deadline → ∃ t g, exec (.bandLaunch id band) s = .next t ∧ (t.ses id).frame = some g ∧
          (g.slices.getD band {}).st = 1 ∧ (∀ i, i ≠ band → g.slices.getD i {} = f.slices.getD i {}) ∧
          g.source = p.planes x.header ∧ g.chosen = true ∧ (∀ j, j ≠ id → t.ses j = s.ses j) ∧
          { t with sessions := s.sessions } = s)) ∧
      (f.ckpt = false → f.deadline ≤ s.now →
        exec (.encodeDeadline id) s = .next ((s.setSes id (x.givePicture f)).dropRest id)) ∧
      (∀ i, f.nextSlice x.subframe = some i → s.now ≤ f.deadline →
        exec (.sliceEmit id) s = .next ((s.setSes id (x.emitSlice i s.now)).encodeSettled id) ∧
        (f.headerSent = true → x.egress.dests.any (fun d => !d.skipping) = true →
          ∃ v, (x.emitSlice i s.now).egress.units = x.egress.units ++ [v] ∧
            v.bytes = usfUnit 3 x.egress.unitSeq (natBe 4 f.num ++ natBe 1 i ++ zeros 3 ++ (f.slices.getD i {}).data))) ∧
      (∀ g, ((List.range f.slices.length).foldl Session.dropSlice x).frame = some g → ∀ k ∈ g.slices, 3 ≤ k.st))

/-- How a session's life goes on (R246, R248, R253, R270, R271): a parked or closing session completes, a closing one at the latest after 1 ms; a destination sends its next
units and releases its holds; one over its limits is put into skipping and holds nothing more; a decode session's graceful close takes
effect at its launch time. -/
def Obligations.SessionsSendAndEnd : Prop :=
  ∀ (s : State) (id : Nat), s.sesLive id = true →
    let x := s.ses id
    (x.state = .parking →
      (x.closeAsked = none → ∃ t, exec (.sessionParkComplete id) s = .next t ∧
        t.ses id = { x with state := .parked, workBase := 0, committed := {}, pending := none } ∧
        (∀ j, j ≠ id → t.ses j = s.ses j) ∧ { t with sessions := s.sessions } = s) ∧
      (∀ c, x.closeAsked = some c → ∃ t, exec (.sessionParkComplete id) s = .next t ∧ (t.ses id).state = .closing)) ∧
    (x.state = .closing → (x.egress.units = [] ∨ x.closingAt + 1000000 ≤ s.now) → ∃ t, exec (.sessionFree id) s = .next t ∧ t.ses id = {} ∧ (t.ses id).state = .free ∧
      (∀ j, j ≠ id → t.ses j = s.ses j) ∧ { t with sessions := s.sessions } = s) ∧
    (x.decode = false → ∀ dest, dest < x.egress.dests.length →
      let d := (s.groupOf x).dests.getD dest {}
      let mine := x.egress.units.filter (fun u => u.holds.contains dest)
      let port := (s.port d.portSel).getD {}
      let q := usfPayloads (unitSpace port.mtu d.addr) mine
      let seq := (x.egress.dests.getD dest {}).rtpSeq
      (x.state ≠ .free → d.portSel < 2 → s.links.streamUp.getD d.portSel false = true → q.1 ≠ [] →
        (∀ u ∈ q.1, u.tallyFails = false) →
        ∃ t new, exec (.destinationSend id dest true) s = .next t ∧ t.outbox = s.outbox ++ new ∧
          new.filterMap OutMsg.media =
            ((List.range q.2.length).zip q.2).map (fun p => (d.portSel, d.addr, d.udp, port.mediaUdp, rtpPacket
              (q.1.any (fun u => u.last) && p.1 + 1 == q.2.length) d.payload ((seq + p.1) % 65536)
              (rtpStamp x.header ((q.1.head?.map (fun u => u.pts)).getD 0)) x.streamId p.2, true)) ∧
          (∀ u ∈ (t.ses id).egress.units, u.holds ≠ []) ∧
          ((t.ses id).egress.dests.getD dest {}).rtpSeq = (seq + q.2.length) % 65536 ∧ (∀ j, j ≠ id → t.ses j = s.ses j) ∧
          t.regs = s.regs ∧ t.mem = s.mem) ∧
      ((x.egress.dests.getD dest {}).skipping = false →
        (d.holdMax < mine.foldl (fun n u => n + u.bytes.length) 0 ∨ (∃ u ∈ mine, u.since + 1000 * d.holdAge < s.now)) →
        ∃ t, exec (.spectatorSkip id dest) s = .next t ∧ ((t.ses id).egress.dests.getD dest {}).skipping = true ∧
          (∀ u ∈ (t.ses id).egress.units, dest ∉ u.holds ∧ u.holds ≠ []) ∧
          (t.ses id).counters = (x.bump 28 1).counters ∧ (dest = 0 → (t.ses id).refreshDue = true) ∧
          (∀ j, j ≠ id → t.ses j = s.ses j) ∧ { t with sessions := s.sessions } = s)) ∧
    (∀ c : PendingClose, x.decode = true → x.state = .active → x.closeAsked = some c → launchGrain c.launch ≤ s.now → x.dec.closing = false →
      exec (.decodeCloseLaunch id) s = .next ((s.setSes id { x with dec := { x.dec with closing := true } }).afterCommit id) ∧
      (x.dec.frames = [] → ((s.setSes id { x with dec := { x.dec with closing := true } }).afterCommit id |>.ses id).state = .closing))

/-! Received streams (R51 to R67, R252, R268) and the stream ports (R334, R418 to R425). -/

/-- Received units (R51 to R65, R268): what a session checks and counts, in order: size, CHECK, VERSION, TYPE, LENGTH; a sound unit acts
by its TYPE, a frame header that opens a frame also starting it; an encode session looks at loss reports alone, counting those it takes and those it does not; a decode session's open
frame closes at its deadline, and a final one is put out with its marks. -/
def Obligations.ReceivedUnitsAct : Prop :=
  ∀ (s : State) (id : Nat) (u : Bytes), s.sesLive id = true → (s.ses id).state = .active →
    let x := s.ses id
    let v := s.takeUnit id u
    (x.decode = true → ∀ c : Instr,
      ((c = .usfStreamHeader id u ∧ usfType u = 1) ∨ (c = .usfFrameHeader id u ∧ usfType u = 2) ∨
        (c = .usfSlice id u ∧ usfType u = 3) ∨ (c = .usfEndOfStream id u ∧ usfType u = 5) ∨
        (c = .usfReservedType id u ∧ usfDefined u = false)) →
      let w := v.setSes id ((v.ses id).countSeq (usfSeq u))
      (usfSized u = false → exec c s = .next (v.bumpSes id 1 1)) ∧
      (usfSized u = true → usfCheckOk u = false → exec c s = .next (v.bumpSes id 0 1)) ∧
      (usfSized u = true → usfCheckOk u = true → usfType u ≠ 4 →
        (usfVersion u ≠ 1 → exec c s = .next (w.bumpSes id 1 1)) ∧
        (usfVersion u = 1 → usfDefined u = false → exec c s = .next (w.bumpSes id 2 1)) ∧
        (usfVersion u = 1 → usfDefined u = true → usfLengthOk u = false → exec c s = .next (w.bumpSes id 1 1)) ∧
        (usfVersion u = 1 → usfDefined u = true → usfLengthOk u = true →
          let t := w.typedUnit id u
          (usfType u ≠ 2 → exec c s = .next t) ∧
          (usfType u = 2 → exec c s = .next (if ((t.ses id).dec.lastOpened, (t.ses id).dec.lastStart) = (x.dec.lastOpened, x.dec.lastStart)
            then t else t.migrateAtStart id))))) ∧
    (x.decode = true → usfType u = 4 → usfSized u = true → usfCheckOk u = true → usfVersion u = 1 →
      ∀ primary, exec (.usfLossReport id u primary) s = .next v) ∧
    (x.decode = false → usfType u = 4 → usfSized u = true → usfCheckOk u = true → usfVersion u = 1 → usfLengthOk u = true →
      ∀ primary, ∃ t, exec (.usfLossReport id u primary) s = .next t ∧
        (x.acceptsReport primary (usfPayload u) = true → (t.ses id).counters = (x.bump 23 1).counters ∧
          (t.ses id).reportSeq = beAt (usfPayload u) 16 4 ∧ (t.ses id).lateReports = x.lateReports ++
            [(s.now, x.ackMask (usfPayload u), beAt (usfPayload u) 12 2 != 0)]) ∧
        (x.acceptsReport primary (usfPayload u) = false → (t.ses id).counters = (x.bump 24 1).counters ∧
          (t.ses id).lateReports = x.lateReports) ∧
        (∀ j, j ≠ id → t.ses j = s.ses j) ∧ { t with sessions := s.sessions } = s) ∧
    (∀ f, x.decode = true → x.openDec = some f → f.deadline ≤ s.now → exec (.decodeFrameDeadline id) s = .next (s.closeOpen id)) ∧
    (∀ f rest, x.decode = true → x.dec.frames = f :: rest → f.final = true →
      let y := x.noteOutput f s.now
      exec (.decodeFrameOutput id) s = .next (((((s.missLevel id (x.outputLate f s.now)).setSes id y).outputFrame id f (s.outputPlanes x f)).reportLoss id
        (hdrStreamId f.hdr) (f.left.slots x)).frameDone id f.left))

/-- The stream ports' rows (R334, R418, R421 to R425): a damaged frame counts in FCS errors, one of a wrong size or turned away by the
filter in drops, a PAUSE frame in its counter, and another station's frame is ignored; a USF packet's units join the receive queue of
the session its binding names; unfinished units are given up after 2 ms; a raw media packet joins its session's ingest. -/
def Obligations.StreamPortsReceive : Prop :=
  ∀ (s : State) (port : Nat), port < 2 → s.links.streamUp.getD port false = true →
    let a := 0xD00 + 16 * port
    (∀ (b : Bytes) (ok : Bool),
      let sound := decide (4 ≤ b.length) && leAt b (b.length - 4) 4 == crcFcs (b.take (b.length - 4))
      let fate := s.frameFate port b (Config.freeChoice s.draws % 256) (Config.freeChoice (s.draws + 1) % 65536)
      (sound = false → exec (.ethFrameReceive port b ok) s = .next (s.bumpReg (cmdReg a) 1)) ∧
      (sound = true → (b.length < 64 ∨ 9222 < b.length) → exec (.ethFrameReceive port b ok) s = .next (s.bumpReg (cmdReg (a + 4)) 1)) ∧
      (sound = true → 64 ≤ b.length → b.length ≤ 9222 →
        (isPause b = true → exec (.ethFrameReceive port b ok) s = .next (s.bumpReg (cmdReg (a + 8)) 1)) ∧
        (isPause b = false →
          (ok = true → fate = .drop → exec (.ethFrameReceive port b ok) s = .next (s.bumpReg (cmdReg (a + 4)) 1)) ∧
          (ok = true → (fate = .pass ∨ fate = .ignore) → exec (.ethFrameReceive port b ok) s = .next s) ∧
          (∀ type body, ok = true → fate = .answer type body → ∃ t m, exec (.ethFrameReceive port b ok) s = .next t ∧
            t.outbox = s.outbox ++ [.net port m] ∧ t.regs = s.regs ∧ t.sessions = s.sessions) ∧
          (∀ ip mac, ok = true → fate = .learn ip mac → exec (.ethFrameReceive port b ok) s = .next (s.learnMac port ip mac)) ∧
          (ok = false → ∃ t, exec (.ethFrameReceive port b ok) s = .next t ∧ t.sessions = s.sessions ∧ t.mem = s.mem)))) ∧
    (s.boot.warmCause = none →
      (∀ (src : NetAddr) (udp ssrc seq : Nat) (b : Bytes),
        (s.usfTarget port udp ssrc src = none → exec (.usfPacketReceive port src udp ssrc seq b) s = .next (s.rxDrop port)) ∧
        (∀ id, s.usfTarget port udp ssrc src = some id →
          (b.length < 4 → exec (.usfPacketReceive port src udp ssrc seq b) s = .next (s.rxDrop port)) ∧
          (4 ≤ b.length → bits (beAt b 0 4) 30 2 = 0 → ∃ t, exec (.usfPacketReceive port src udp ssrc seq b) s = .next t ∧
            (t.ses id).dec.rx = (s.ses id).dec.rx ++ splitUnits (b.drop 4).length (b.drop 4) ∧
            (∀ j, j ≠ id → t.ses j = s.ses j) ∧ { t with sessions := s.sessions } = s) ∧
          (4 ≤ b.length → bits (beAt b 0 4) 30 2 ≠ 0 → exec (.usfPacketReceive port src udp ssrc seq b) s = .next
            (s.takeFragment id port ssrc seq (bits (beAt b 0 4) 30 2) (bits (beAt b 0 4) 0 16) src (b.drop 4))))) ∧
      (∀ (udp ssrc : Nat) (b : Bytes) (id : Nat), s.boundTo port udp ssrc = some id → (s.ses id).decode = false →
        (b.length < 32 → exec (.rawMediaPacket port udp ssrc b) s = .next (s.rxDrop port)) ∧
        (32 ≤ b.length → ∃ t, exec (.rawMediaPacket port udp ssrc b) s = .next t ∧ t.ses id = (s.ses id).takeRaw b s.now ∧
          (∀ c, (s.ses id).picture (beAt b 0 4) = some c → (t.ses id).ingest = (s.ses id).ingest.map (fun c =>
            if c.num = beAt b 0 4 then (c.put (s.ses id).header (beAt b 24 1) (beAt b 20 4) (b.drop 32)).noteBands (s.ses id).header
              s.now else c)) ∧
          (∀ j, j ≠ id → t.ses j = s.ses j) ∧ { t with sessions := s.sessions } = s))) ∧
    (∀ ssrc, ∃ t, exec (.fragmentTimeout port ssrc) s = .next t ∧ { t with frags := s.frags } = s ∧
      (∀ f, f ∈ t.frags ↔ f ∈ s.frags ∧ ¬ (f.port = port ∧ f.ssrc = ssrc ∧ f.since + 2000000 ≤ s.now)))

/-! Rounds (R322 to R331). -/

/-- The rows of the round controllers (R322 to R331): a waiting round is armed where its controller has room and no flip member is
held; a member completes, or fails and aborts its round; at T − 2 µs a timed round is told to fire, aborts or is refused; it fires at
its time, or a completion-triggered one at the first tick after its last member plus the lead; at its deadline it aborts. -/
def Obligations.RoundsRun : Prop :=
  ∀ (s : State) (id : Nat) (r : Round), s.round id = some r →
    (r.armed = false → r.hold = false →
      let u := s.preemptFor r.flip
      (u.roundRoom r.flip.controller = true → u.keysHeld (u.flipKeys r.flip) = false →
        exec (.roundArm id) s = .next (u.setRound { r with
          armed := true, armedAt := s.now, deadline := s.roundDeadlineOf r,
          doneAt := if !r.flip.byTime && r.members.all (fun m => m.st == 1) then some s.now else none })) ∧
      ((u.roundRoom r.flip.controller = false ∨ u.keysHeld (u.flipKeys r.flip) = true) → exec (.roundArm id) s = .next u)) ∧
    (∀ i m, r.armed = true → r.decided = false → r.members[i]? = some m → m.st = 0 → s.boot.warmCause = none →
      (s.memberFails r i = false → ∃ t q, exec (.roundMemberComplete id i true) s = .next t ∧ t.round id = some q ∧
        q.members[i]? = some { m with st := 1 } ∧ (∀ j, j ≠ i → q.members[j]? = r.members[j]?) ∧
        (r.flip.byTime = false → (∀ n ∈ q.members, n.st = 1) → q.doneAt = some s.now) ∧
        (r.flip.byTime = true → q.doneAt = r.doneAt) ∧ { t with rounds := s.rounds } = s) ∧
      (∀ good, (good = false ∨ s.memberFails r i = true) →
        exec (.roundMemberComplete id i good) s = .next (s.abortWith r 1 [i]))) ∧
    (∀ at', r.timed = some at' → r.decided = false → at' ≤ s.now + 2000 →
      (r.armed = false → exec (.roundDecision id) s = .next (s.refuseRound r)) ∧
      (r.armed = true → (∀ m ∈ r.members, m.st = 1) →
        exec (.roundDecision id) s = .next (s.setRound { r with decided := true })) ∧
      (r.armed = true → (∃ m ∈ r.members, m.st ≠ 1) → exec (.roundDecision id) s = .next (s.abortRound r 2))) ∧
    (∀ at', r.timed = some at' → r.armed = true → r.decided = true → at' ≤ s.now →
      exec (.roundFireTimed id) s = .next (s.fireRound r at').beginDue) ∧
    (∀ done, r.doneAt = some done → r.armed = true → r.flip.byTime = false →
      launchGrain (done + match r.flip with | .checkpoint _ => 100 | _ => 2000) ≤ s.now →
      exec (.roundFireCompletion id) s = .next (s.fireDone r).beginDue ∧
        ((∀ ls, r.flip ≠ .remap ls) → s.fireDone r = s.fireRound r s.now)) ∧
    (r.armed = true → r.flip.byTime = false → r.doneAt = none → r.deadline ≤ s.now →
      exec (.roundDeadline id) s = .next (s.abortWith r 3 r.pendingMembers))

/-- What rounds flip (R232, R261, R266, R329): a swap makes the other bank current and the models that waited for it usable; a
migration gives its session the new placement and clears DEGRADED; an aborted armed round is gone, no member flips, and its
controller counts it. -/
def Obligations.RoundsFlipTheirMembers : Prop :=
  ∀ (s : State),
    (∀ t, (s.fireSwap t).curBank = 1 - s.curBank ∧ (∀ m, (s.model m).state = 2 → ((s.fireSwap t).model m).state = 3)) ∧
    (∀ id p, (s.ses id).state ≠ .free → (s.fireMigration id p).ses id = { s.ses id with placement := p, degraded := false } ∧
      (∀ j, j ≠ id → (s.fireMigration id p).ses j = s.ses j)) ∧
    (∀ (r : Round) (reason : Nat), r ∈ s.rounds → r.armed = true →
      (s.dropRound r reason).round r.id = none ∧ (s.dropRound r reason).sessions = s.sessions ∧
        (s.dropRound r reason).models = s.models ∧
        (s.dropRound r reason).regNat (lvlOrCmd r.flip.controller 0x808) =
          min (s.regNat (lvlOrCmd r.flip.controller 0x808) + 1) 0xFFFFFFFF)

/-! Faults of the part's units (R25, R35, R263, R337 to R340, R383, R392, R400 to R402, R416). -/

/-- Faults (R25, R35, R263, R337 to R340, R383, R391, R392, R400 to R402, R416): a face that expires or loses power is declared failed
and its automatic reset follows once; a faulted ring segment, device or phase is recorded; corrected errors are counted and granules that cannot be corrected are poisoned until read; a junction
over 100 °C is hot until below 97 °C and at 110 °C the module powers down; DVFS steps down when hot and up again when cool. -/
def Obligations.FaultsAct : Prop :=
  ∀ (s : State),
    (∀ p, s.canFail p = true →
      exec (.faceWatchdogExpire p) s = .next (s.faceFail p 3) ∧ exec (.facePowerFault p) s = .next (s.faceFail p 2) ∧
      (∀ cause, ((s.faceFail p cause).face p).failed = true ∧ ((s.faceFail p cause).face p).failedAt = s.now ∧
        ((s.faceFail p cause).face p).cause = cause)) ∧
    (∀ p, faceWf p = true → (s.face p).failed = true → (s.face p).autoDone = false → (s.face p).inReset = false →
      (s.face p).failedAt + 100000000 ≤ s.now → (s.level (levelOf p)).parked = 0 → s.resetBusy 2 (levelOf p) = false →
      s.boot.hfRunning = true → exec (.faceAutoReset p) s = .next (s.acceptReset 3 p 0 true)) ∧
    (∀ p passed test, faceWf p = true → (s.face p).inReset = true → (s.level (levelOf p)).parked = 0 →
      exec (.faceSoundingDone p passed test) s = .next (s.endFaceReset p passed test)) ∧
    (∀ l d k, l < 4 → d < 16 → k < 17 → s.levelUp l = true → (s.level l).inService = true →
      s.field (drfReg l d 0x10) k 1 = 0 →
      ∃ t, exec (.ringSegment l d k) s = .next t ∧ t.field (drfReg l d 0x10) k 1 = 1 ∧
        t.field (drfReg l d 0x10) 24 8 = min (s.field (drfReg l d 0x10) 24 8 + 1) 255 ∧
        (∀ j, j < 17 → j ≠ k → t.field (drfReg l d 0x10) j 1 = s.field (drfReg l d 0x10) j 1) ∧ t.faces = s.faces ∧
        t.mem = s.mem) ∧
    (∀ d c, d < 16 → s.lpddrOk d = true → exec (.lpddrDevice d c) s = .next (s.lpddrFault d (lpddrCode c) (fun _ => 1))) ∧
    (∀ a u, eccWf u = true → s.pwr.pwrgd = true →
      exec (.eccUe a { use := u }) s = .next (s.eccUse a u) ∧ exec (.eccUe a { use := u, corrected := true }) s = .next (s.eccCorrected a u)) ∧
    (s.pwr.pwrgd = true →
      let poison := fun (t : State) (a : Nat) => { t with poisoned := (t.poisoned ++ poisonedAt a).eraseDups }
      (∀ a n, 0x010000000000 ≤ a → a < 0x014000000000 → s.levelUp (dramLevel a) = true →
        let t := s.bumpReg (lvlReg (dramLevel a) 0x820) n
        (0 < n → exec (.patrolScrub a false n) s = .next t) ∧ exec (.patrolScrub a true n) s = .next (poison t a)) ∧
      (∀ a n, a < 0x010000000000 → s.levelUp (deviceOf a / 4) = true →
        let t := s.bumpReg (lvlReg (deviceOf a / 4) 0x820) n
        (0 < n → exec (.patrolScrub a false n) s = .next (t.deviceCorrected (deviceOf a) n) ∧
          exec (.patrolScrub a true n) s = .next (poison (t.deviceCorrected (deviceOf a) n) a)) ∧
        (n = 0 → exec (.patrolScrub a true n) s = .next (poison t a)))) ∧
    (∀ n c, n < 140 → 1 ≤ c → c ≤ 3 → s.pwr.pwrgd = true → s.phasesLeft n 1 = 1 →
      let u := s.setField (cmdReg (0xA10 + 4 * (n / 32))) (n % 32) 1 1
      (u.field (cmdReg 0xA24) 31 1 = 1 →
        exec (.phaseShed n c) s = .next ((u.raise 0x24 2 1 (phaseLevel n) noFace none n 0).railBelow n)) ∧
      (u.field (cmdReg 0xA24) 31 1 = 0 → exec (.phaseShed n c) s = .next
        (((u.setRegNat (cmdReg 0xA24) (n + c * 256 + 2 ^ 31)).raise 0x24 2 1 (phaseLevel n) noFace none n 0).railBelow n))) ∧
    (∀ die (v : Int), die < 5 → s.pwr.pwrgd = true →
      let hot := if v > 1000 then true else if v < 970 then false else s.pwr.hot.getD die false
      let u := { s with pwr := { s.pwr with junction := s.pwr.junction.set die v, hot := s.pwr.hot.set die hot } }
      (v < 1100 → die < s.pwr.hot.length → exec (.junctionReport die v) s = .next u) ∧
      (1100 ≤ v → exec (.junctionReport die v) s = .next (u.thermalTrip die v))) ∧
    (∀ l, l < 4 → s.boot.hfRunning = true → (s.level l).inService = true → (s.level l).dvfsNext = none → l < s.levels.length →
      let v := s.level l
      (s.pwr.hot.getD l false = true → v.dvfs < 9 → s.pwr.lastStep.getD l 0 + 10000000 ≤ s.now →
        ∃ t, exec (.dvfsThermalStep l) s = .next t ∧ (t.level l).dvfsNext = some (v.dvfs + 1) ∧ (t.level l).thermal = true ∧
          (∀ k, k ≠ l → t.level k = s.level k)) ∧
      (s.pwr.hot.getD l false = false → v.thermal = true → s.pwr.lastStep.getD l 0 + 100000000 ≤ s.now →
        (if v.phaseLim then s.phaseFloor l else 0) < v.dvfs → ∃ t, exec (.dvfsThermalStep l) s = .next t ∧ (t.level l).dvfsNext = some (v.dvfs - 1) ∧
          (∀ k, k ≠ l → t.level k = s.level k)) ∧
      (s.pwr.hot.getD l false = false → v.thermal = false → exec (.dvfsThermalStep l) s = .next s)) ∧
    (∀ l n, l < 4 → (s.level l).dvfsNext = some n →
      exec (.dvfsStepDone l) s = .next (s.setLevel l { s.level l with dvfs := n, dvfsNext := none })) ∧
    (s.boot.hfRunning = true → s.rot.lastKick + 100000000 ≤ s.now → s.resetBusy 1 0 = false →
      exec .mgmtWatchdogExpire s = .next (s.acceptReset 1 0 7 false))

/-! Bring-up (R350, R360 to R377). -/

/-- The rows of a start (R350, R360, R365 to R377): each does its part in its phase: power good starts the root of trust with a new
epoch, the Plan of the directory's slot or its fallback is loaded or PLAN_ERR set, memories and links train in their steps with what failed
disabled, sounding forms the disabled set and asks for the remap round that binds the levels that may serve, models are staged, time settles
as R377 has it, and the survey sets the outcome, again after a change. -/
def Obligations.BringUpRowsAct : Prop :=
  ∀ (s : State),
    (s.pwr.pwrgd = true → s.phase ≤ 1 → s.boot.warmCause = none → s.boot.hfRunning = false →
      ∃ t, exec .coldStart s = .next t ∧ t.rot.epoch = Config.freeEpoch s.draws ∧ (t.phase = 2 ∨ t.phase = 12) ∧
        t.boot.origin = s.now ∧ t.mem = s.mem) ∧
    (s.boot.hfRunning = true → s.boot.plan = none → 2 ≤ s.phase → s.phase ≤ 5 →
      let on := fun (t : State) => if s.phase = 2 then t.loadClaims.setPhase 3 else t.loadClaims
      let a := bits s.directory 1 1
      let b := s.flashContainer (planBase a) 0x7000000
      let c := s.flashContainer (planBase (1 - a)) 0x7000000
      (s.checkPlan b = 0 → exec .planLoad s = .next (on (s.loadPlan b a 0))) ∧
      (s.checkPlan b ≠ 0 → bitAt s.directory 2 = false → exec .planLoad s = .next (on (s.setPlanErr (s.checkPlan b)))) ∧
      (s.checkPlan b ≠ 0 → bitAt s.directory 2 = true →
        let t := s.setPlanErr (s.checkPlan b)
        (t.checkPlan c = 0 → exec .planLoad s = .next (on (t.loadPlan c (1 - a) 1))) ∧
        (t.checkPlan c ≠ 0 → exec .planLoad s = .next (on (t.setPlanErr (t.checkPlan c)))))) ∧
    (∀ l r, s.boot.hfRunning = true → s.levelWaits l = true →
      let t := s.memoryReady l r
      ((s.phase = 4 ∨ s.phase = 5) → exec (.memoryInitDone l r) s = .next (t.setPhase 5).advance) ∧
      (9 ≤ s.phase → exec (.memoryInitDone l r) s = .next t) ∧ t.boot.memDone = s.boot.memDone ++ [l] ∧
      (∀ u ∈ r.failed, u.kind = 8 → u.index / 4 = l → u ∈ t.boot.disabled) ∧ (r.locked = false → l ∈ t.boot.unlocked)) ∧
    ((s.boot.hfRunning = true ∨ s.boot.warmCause.isSome = true) →
      (∀ m w, m < 24 → s.ucieTrains m = true → s.links.ucie.getD m 0 = 0 → exec (.linkTrainingDone (.ucie m w)) s = .next
        ((if s.phase = 2 ∧ s.boot.warmCause.isNone then s.setPhase 3 else s).ucieTrained m w).advance) ∧
      (∀ p lanes, p < 4 → s.xctTrains p = true → exec (.linkTrainingDone (.crosscut p lanes)) s = .next (s.xctTrained p lanes).advance)) ∧
    (∀ failed, s.boot.hfRunning = true → s.boot.sounded = false → s.boot.memDone ≠ [] → (List.range 4).any s.levelWaits = false →
      (s.phase = 7 ∨ 9 ≤ s.phase) →
      let u := s.soundLevels failed
      let fit := s.boot.memDone.filter u.levelFit
      (fit = [] → exec (.soundingDone failed) s = .next u) ∧
      (fit ≠ [] → exec (.soundingDone failed) s = .next (u.requestRound (.remap fit) none 0)) ∧
      (∀ v ∈ s.rot.fuses.fusedBad, v.kind = 1 → v.index / 512 ∈ s.boot.memDone → v ∈ u.boot.disabled)) ∧
    (s.boot.hfRunning = true → s.boot.sounded = true → s.boot.memDone.all (fun l => (s.level l).inService || !s.levelFit l) = true →
      s.phase = 7 → ∃ t, exec .modelStagingDone s = .next t ∧ t.phase = 8 ∧ t.boot.memDone = []) ∧
    (∀ a b, (s.timeRule = (a, b) → exec (.timeSettled a b) s = .next (s.timeVerdict a b)) ∧
      (s.timeRule ≠ (a, b) → exec (.timeSettled a b) s = .next s)) ∧
    (s.boot.hfRunning = true → s.phase = 8 → exec .survey s = .next ((s.finishStart.endReset 0 0).endReset 1 0)) ∧
    (s.boot.hfRunning = true → s.boot.surveyDue = true → 9 ≤ s.phase → s.phase ≤ 11 →
      exec .surveyRerun s = .next s.runSurvey ∧ s.runSurvey.boot.surveyDue = false) ∧
    (∀ p, p < 2 → ∃ t, exec (.streamPortLinkChange p true) s = .next t ∧ t.links.streamUp = s.links.streamUp.set p true ∧
      t.boot.surveyDue = true) ∧
    (∀ p, p < 2 → ∃ t, exec (.streamPortLinkChange p false) s = .next t ∧ t.links.streamUp = s.links.streamUp.set p false ∧
      t.boot.surveyDue = true) ∧
    (∀ p, p < 2 → 6 ≤ s.phase → s.links.linksStart + 500000000 ≤ s.now → s.links.streamUp.getD p false = false →
      ∃ t, exec (.streamPortLinkTimeout p) s = .next t ∧ t.links.streamUp = s.links.streamUp.set p false ∧ t.mem = s.mem)

/-! Resets, low power and hot plug (R379 to R407). -/

/-- The ends of resets and of low-power states, the repair log, and the connector (R370, R379 to R381, R388, R394 to R396, R399, R403
to R407): power comes only where every condition of R403 holds, and goes with MOD_EN after MOD_REMOVE_OK, or as a surprise removal or
a brown-out before it. -/
def Obligations.ResetsAndHotPlugAct : Prop :=
  ∀ (s : State),
    (s.boot.warmCause.isSome = true → ∀ ok, s.startHeadframe.boot.hfRunning = false →
      (ok = false ∨ s.boot.warmFast = [] ∨ (List.range 24).all s.ucieSettled = true) →
      exec (.warmResetResume ok) s = .next s.startHeadframe) ∧
    (s.boot.warmCause.isSome = true → s.startHeadframe.boot.hfRunning = true → ∀ ok, (ok = false ∨ s.boot.warmFast = []) →
      exec (.warmResetResume ok) s = .next (s.startHeadframe.noteWarm.warmAllFull.setField (cmdReg 0x900) 20 4 0)) ∧
    (s.boot.warmCause.isSome = true → s.startHeadframe.boot.hfRunning = true → s.boot.warmFast ≠ [] →
      (List.range 24).all s.ucieSettled = true →
      let t := s.startHeadframe.noteWarm.warmFastPath s.boot.warmFast
      ((∀ l, l < 4 → l ∈ s.boot.warmFast ∨ (s.level l).parked ≠ 0) → exec (.warmResetResume true) s = .next (t.endReset 1 0)) ∧
      ((∃ l, l < 4 ∧ l ∉ s.boot.warmFast ∧ (s.level l).parked = 0) → exec (.warmResetResume true) s = .next t)) ∧
    (∀ l, l < 4 →
      (∀ failed, (s.level l).inReset = true → s.remapPending l = false → s.boot.hfRunning = true →
        exec (.levelResetComplete l failed) s = .next (s.endLevelReset l failed)) ∧
      ((s.level l).parked = 1 → exec (.levelParkComplete l) s = .next (s.endPark l)) ∧
      ((s.level l).parked = 3 → s.pwr.standby ≠ 3 → s.boot.hfRunning = true →
        exec (.levelUnparkComplete l) s = .next ((s.takeBanks l).endUnpark l))) ∧
    (s.pwr.standby = 1 → (∀ l, l < 4 → (s.level l).inService = true → (s.level l).parked = 2) →
      exec .standbyEntryComplete s = .next (s.setStandby 2)) ∧
    (s.pwr.standby = 3 → (∀ l, l < 4 → (s.level l).parked = 0 ∨ (s.level l).parked = 3) →
      ∃ t, exec .standbyExitComplete s = .next t ∧ t.pwr.standby = 0 ∧ t.boot.surveyDue = true) ∧
    (∀ e rest, s.boot.logPending = e :: rest →
      ∃ t, exec .repairLogWrite s = .next t ∧ t.boot.logPending = rest ∧ t.flash = (s.appendLog e).flash ∧ t.mem = s.mem) ∧
    ((s.pwr.precharged = false ∨ s.pwr.present = false) → exec .prechargeContact s = .next
      { s with pwr := { s.pwr with precharged := true, vaux := false, inputOk := false, bulkOk := false, volts := 0, watts := 0,
                                   brownOut := false, surprise := false, overTemp := false } }) ∧
    (∀ k, s.pwr.precharged = true → s.pwr.vaux = false → s.pwr.fetClosed = true →
      ∃ t, exec (.vauxUp k) s = .next t ∧ t.pwr = { s.pwr with vaux := true } ∧ t.rot.strap = k ∧ t.rot.alerts = [] ∧
        t.rot.fuses = s.rot.fuses ∧ t.flash = s.flash ∧ t.mem = s.mem) ∧
    (∀ (k : BitVec 2) (mv : Nat), s.pwr.fetClosed = false →
      (s.pwr.precharged = true → s.pwr.vaux = false → s.pwr.present = true → s.pwr.enable = true → s.pwr.inputOk = true →
        s.pwr.bulkOk = true → s.pwr.overTemp = false →
        ∃ t, exec (.vauxUp k) s = .next t ∧ t.pwr.pwrgd = true ∧ t.pwr.fetClosed = true) ∧
      (s.pwr.precharged = true → s.pwr.present = false →
        (s.pwr.vaux = true → s.pwr.enable = true → s.pwr.inputOk = true → s.pwr.bulkOk = true → s.pwr.overTemp = false →
          ∃ t, exec .modPresentAssert s = .next t ∧ t.pwr.pwrgd = true) ∧
        (s.pwr.enable = false → exec .modPresentAssert s = .next { s with pwr := { s.pwr with present := true } })) ∧
      (s.pwr.precharged = true → 4600 ≤ mv → mv ≤ 5800 →
        (s.pwr.vaux = true → s.pwr.present = true → s.pwr.enable = true → s.pwr.overTemp = false →
          ∃ t, exec (.inputValid mv) s = .next t ∧ t.pwr.pwrgd = true) ∧
        (s.pwr.enable = false → ∃ t, exec (.inputValid mv) s = .next t ∧ t.pwr.inputOk = true ∧ t.pwr.bulkOk = true ∧
          t.pwr.volts = mv ∧ t.pwr.pwrgd = s.pwr.pwrgd ∧ t.regs = s.regs)) ∧
      (s.pwr.enable = false →
        (s.pwr.vaux = true → s.pwr.present = true → s.pwr.inputOk = true → s.pwr.bulkOk = true →
          ∃ t, exec .modEnRise s = .next t ∧ t.pwr.pwrgd = true) ∧
        (s.pwr.present = false → exec .modEnRise s = .next { s with pwr := { s.pwr with enable := true, overTemp := false } }))) ∧
    (s.pwr.enable = true →
      let u := { s with pwr := { s.pwr with enable := false } }
      (s.pwr.removeOk = true → exec .modEnFall s = .next u.railsOff) ∧
      (s.pwr.removeOk = false → exec .modEnFall s = .next u.surpriseOff ∧
        exec (.surpriseRemoval .enableFell) s = .next u.surpriseOff)) ∧
    (∀ m, s.boot.hfRunning = true → s.pwr.removal = some m →
      (s.pwr.removeOk = false → (∀ e ∈ s.sessions, e.2.state = .free) → s.flashBusy = false →
        ∃ t, exec .modRemoveOkAssert s = .next t ∧ t.pwr.removeOk = true ∧ t.pwrState = 5) ∧
      (m.drain = true → m.closed = false → m.limitAt ≤ s.now →
        ∃ t, exec .drainLimitExpire s = .next t ∧ t.pwr.removal = some { m with closed := true })) ∧
    (s.pwr.present = true → ∃ t, exec (.surpriseRemoval .presence) s = .next t ∧ t.pwr.present = false ∧
      (s.pwr.fetClosed = true → t.pwr.surprise = true ∧ t.pwr.pwrgd = false) ∧ t.flash = s.flash) ∧
    (s.pwr.inputOk = true →
      exec (.surpriseRemoval .overVoltage) s = .next { s with pwr := { s.pwr with inputOk := false, bulkOk := false } }.surpriseOff ∧
      exec .inputUndervoltage s = .next
        { s with pwr := { s.pwr with inputOk := false, bulkOk := false, brownOut := s.pwr.fetClosed } }.surpriseOff)

/-! Time and the crosscut ports (R376, R377, R426 to R435). -/

/-- Time (R426 to R428): a message of IEEE 1588 of another clock acts by its type: an Announce is noted, and the better of the two ports'
masters is followed; a slave's one-step Sync, or its Follow_Up, gives the difference of receipt and origin, and with the answer to its
Delay_Req the path delay and the offset; a master answers a Delay_Req; syncs go out 16 times a second, Announces every 2 s
(the model's choice, log entry 106); 3 s without a measurement is holdover, or free-running where the servo was unlocked, and 10 s more free-running. -/
def Obligations.TimeRowsAct : Prop :=
  ∀ (s : State) (p : Nat), p < 2 → s.boot.hfRunning = true → s.links.streamUp.getD p false = true →
    let q := s.ptp p
    (∀ m, s.ptpTakes m = true →
      let type := beAt m 0 1 % 16
      let steps := (s.servo.announce.getD p []).getD 6 0 + 1
      (type = 11 → beAt m 53 8 ≠ s.rot.fuses.moduleId →
        exec (.ptpMessageReceive p m) s = .next ((s.ptpAnnounced p m).judgeTime s) ∧
        (s.ptpAnnounced p m).servo.announce =
          s.servo.announce.set p [beAt m 47 1, beAt m 48 1, beAt m 49 1, beAt m 50 2, beAt m 52 1, beAt m 53 8, beAt m 61 2] ∧
        (∃ k, (s.ptpAnnounced p m).servo.masterPort = some k ∧ k < 2)) ∧
      (type = 1 → s.servo.masterPort ≠ some p → exec (.ptpMessageReceive p m) s = .next (s.ptpAnswer p m)) ∧
      ((type = 0 ∨ type = 8 ∨ type = 9) →
        (s.servo.masterPort ≠ some p → exec (.ptpMessageReceive p m) s = .next s) ∧
        (s.servo.masterPort = some p → exec (.ptpMessageReceive p m) s = .next ((s.ptpFromMaster p m).judgeTime s))) ∧
      (type = 0 → bitAt (beAt m 6 2) 9 = false →
        s.ptpFromMaster p m = s.ptpDown p ((s.now : Int) - ptpTimeAt m 34 - ptpCorrection m) steps) ∧
      (∀ at' c, type = 8 → q.sync = some (beAt m 30 2, at', c) →
        s.ptpFromMaster p m = s.ptpDown p ((at' : Int) - ptpTimeAt m 34 - c - ptpCorrection m) steps) ∧
      (∀ t1 d, type = 9 → sub m 44 10 = s.ptpIdent p → q.req = some (beAt m 30 2, t1) → q.down = some d → p < s.servo.ptp.length →
        ((s.ptpFromMaster p m).ptp p).delay = some ((d + ((ptpTimeAt m 34 : Int) - t1 - ptpCorrection m)) / 2))) ∧
    (∀ down steps d, q.delay = some d →
      let s1 := s.setPtp p { q with sync := none, down := some down }
      let u := { s1 with servo := { s1.servo with external := true } }.elect
      s.ptpDown p down steps = if u.isGrand then u.measure (u.streamSource p) steps (down - d) else u) ∧
    (∀ source steps off, let t := s.measure source steps off
      t.regNat (cmdReg 0xB04) = sat32 off ∧ (off.natAbs ≤ 1000000 → t.now = s.now) ∧
        ((s.sessions.any (fun e => e.2.state != .free)) = true → t.now = s.now)) ∧
    (s.servo.syncAt.getD p 0 + 62500000 ≤ s.now →
      let u := { s with servo := { s.servo with syncAt := s.servo.syncAt.set p s.now } }
      (s.servo.masterPort = some p → exec (.ptpSyncSend p) s = .next (u.ptpRequestOut p)) ∧
      (s.servo.masterPort ≠ some p →
        (∀ at', q.annAt = some at' → s.now < at' + 2000000000 → exec (.ptpSyncSend p) s = .next (u.ptpSyncOut p)) ∧
        ((q.annAt = none ∨ ∃ at', q.annAt = some at' ∧ at' + 2000000000 ≤ s.now) →
          exec (.ptpSyncSend p) s = .next ((u.ptpSyncOut p).ptpAnnounceOut p s.bestNow s.stepsToBest)))) ∧
    (s.servo.lastAt + 3000000000 ≤ s.now →
      (s.servoState = 1 → ∃ t, exec .servoHoldover s = .next t ∧ t.servoState = 2 ∧ t.servo.holdAt = s.now ∧ t.now = s.now) ∧
      (s.servoState = 0 → s.servoSource ≠ 7 → exec .servoHoldover s = .next (s.freeRun.judgeTime s))) ∧
    (s.servoState = 2 → s.servo.holdAt + 10000000000 ≤ s.now → exec .holdoverExpire s = .next (s.freeRun.judgeTime s)) ∧
    s.freeRun.servoSource = 7 ∧ s.freeRun.servoState = 0 ∧ s.freeRun.servo.external = false ∧ s.freeRun.servo.masterPort = none

/-- The crosscut ports (R376, R430 to R435): a sound frame next in order acts by its TYPE and is acknowledged, another is answered with a
NAK, and one of an unknown TYPE is dropped and counted; an ACK frees the frames it covers and a NAK or 10 µs without one resends the rest; hellos, times and lanes as R432 to R434 say;
a relayed frame goes out unchanged or is dropped and counted. -/
def Obligations.CrosscutRowsAct : Prop :=
  ∀ (s : State) (p : Nat) (b : Bytes), p < 4 → s.xctUp p = true →
    let a := cmdReg (0xC00 + 16 * p)
    ((xctSound b = false ∨ bitAt (beAt b 1 1) 0 = true ∨ (xctAckOnly b = false ∧ s.xctInOrder p b = false)) →
      exec (.xctNak p b) s = .next (s.xctTake p b)) ∧
    (xctSound b = true →
      let t := s.xctTake p b
      ((xctUnknown b = true ∧ s.xctInOrder p b = true) → exec (.xctAckReceive p b) s = .next
        (t.setXct p { t.xct p with dropped := (t.xct p).dropped + 1 })) ∧
      ((xctUnknown b = false ∨ s.xctInOrder p b = false) → exec (.xctAckReceive p b) s = .next (s.xctHeader p b))) ∧
    ((s.xct p).replay ≠ [] → (s.xct p).ackAt + 10000 ≤ s.now → exec (.xctReplayTimeout p) s = .next (s.xctResend p) ∧
      (s.xctResend p).regNat (cmdReg (0xC0C + 16 * p)) =
        min (s.regNat (cmdReg (0xC0C + 16 * p)) + (s.xct p).replay.length) 0xFFFFFFFF) ∧
    (s.xctIs p 4 b = true →
      let out := beAt (xctPayload b) 0 1
      (s.links.streamUp.getD out false = true → exec (.xctRelay p b) s = .next
        ((s.xctTake p b).send (.relayed out ((xctPayload b).drop 4)))) ∧
      (s.links.streamUp.getD out false = false → out < 2 → exec (.xctRelay p b) s = .next
        ((s.xctTake p b).bumpReg (cmdReg (0xD04 + 16 * out)) 1)) ∧
      (s.links.streamUp.getD out false = false → 2 ≤ out → exec (.xctRelay p b) s = .next (s.xctTake p b))) ∧
    (s.xctIs p 2 b = true → exec (.xctTimeFrame p b) s = .next ((s.xctTake p b).timeFrame p (xctPayload b))) ∧
    (s.boot.hfRunning = true → (s.xct p).timeAt + 15625000 ≤ s.now → exec (.xctTimeSend p) s = .next
      (((s.setXct p { s.xct p with timeAt := s.now }).xctSend p 2 (timePayload 1 s.now 0 0)).xctSend p 2 (timePayload 2 s.now 0 0))) ∧
    (s.boot.hfRunning = true → (s.xct p).helloAt + 10000000 ≤ s.now → exec (.helloSend p) s = .next
      ((s.setXct p { s.xct p with helloAt := s.now }).xctSend p 1 (s.helloPayload p))) ∧
    (s.boot.hfRunning = true → s.xctIs p 1 b = true → 40 ≤ (xctPayload b).length →
      exec (.helloReceive p b) s = .next (((s.xctTake p b).hello p (xctPayload b)).judgeTime s)) ∧
    (s.xctIs p 3 b = true →
      ((s.xct p).laneBusy = true → exec (.xctLaneFrame p b) s = .next
        ((s.xctTake p b).setXct p { (s.xctTake p b).xct p with laneBusy := false })) ∧
      ((s.xct p).laneBusy = false → exec (.xctLaneFrame p b) s = .next (((s.xctTake p b).xctResend p).laneSend p))) ∧
    (∀ n, n < 4 → s.field a (4 + n) 1 = 1 →
      let u := (((s.setField a (4 + n) 1 0).raise 0x23 2 1 0 noFace none p n).logUnit { kind := 9, index := 4 * p + n } 1 3 0x23)
      let w := laneWidth ((List.range 4).countP (fun n => u.field a (4 + n) 1 == 1))
      (w = 0 → exec (.xctLane p n) s = .next ((u.xctDisable p).judgeTime s)) ∧
      (w ≠ 0 → p < s.links.xct.length → ∃ t, exec (.xctLane p n) s = .next t ∧ t.field a 2 2 = widthCode w ∧ t.field a (4 + n) 1 = 0 ∧
        (t.xct p).laneBusy = true ∧ t.boot.surveyDue = true)) ∧
    ((∀ k ∈ s.links.known, s.now < k.seen + 50000000) → exec .neighbourTimeout s = .next s) ∧
    ((∃ k ∈ s.links.known, k.seen + 50000000 ≤ s.now) → ∃ t, exec .neighbourTimeout s = .next t ∧
      (∀ k, k ∈ t.links.known ↔ k ∈ s.links.known ∧ s.now < k.seen + 50000000) ∧ t.links.topologyAt = s.now ∧ t.mem = s.mem) ∧
    (s.boot.hfRunning = true → s.links.settledElection = false → (s.links.best = s.bestNow ∨ s.links.best = []) → s.links.topologyAt + 30000000 ≤ s.now →
      s.links.bestAt + 30000000 ≤ s.now → exec .electionSettle s = .next
        ({ s with links := { s.links with best := s.bestNow, settledElection := true } }.judgeTime s))

/-- The launch grain (R11): 4 ns; a launch time with bit [0] or bit [1] set takes effect at the next multiple of 4 ns, another at itself:
so a command stamped 1,000,000,002 launches at 1,000,000,004. A session's start, resumed or opened, and a swap's fire are asked for at
it. -/
def Obligations.LaunchTimesTakeTheGrain : Prop :=
  (∀ t, launchGrain t % 4 = 0 ∧ t ≤ launchGrain t ∧ launchGrain t < t + 4) ∧ launchGrain 1000000002 = 1000000004 ∧
    (∀ (s : State) (rq : Req) (at' : BitVec 64), s.Takes rq 0x305 0 → (s.taken rq 0x305).shadowState = 2 →
      s.pwr.standby = 0 → s.now + 100000 ≤ at'.toNat →
      exec (.swapArm rq at') s = .next ((((s.taken rq 0x305).okReply rq 0x305 (natBe 8 at'.toNat) []).setShadow 3).requestRound
        .swap (some (launchGrain at'.toNat)) 0))
end

