-- ==== Sys2Proof/Laws/State.lean ====
section
/-! SUPPORT. What each named update of State leaves: one lemma per field it does not touch, and what its own field reads after. -/

namespace Sys2Proof.Machine

variable (s : State)

/-! setReg -/

@[simp] theorem State.setReg_now (a : Nat) (v : Word) : (s.setReg a v).now = s.now := rfl
@[simp] theorem State.setReg_pending (a : Nat) (v : Word) : (s.setReg a v).pending = s.pending := rfl
@[simp] theorem State.setReg_draws (a : Nat) (v : Word) : (s.setReg a v).draws = s.draws := rfl
@[simp] theorem State.setReg_outbox (a : Nat) (v : Word) : (s.setReg a v).outbox = s.outbox := rfl
@[simp] theorem State.setReg_mem (a : Nat) (v : Word) : (s.setReg a v).mem = s.mem := rfl
@[simp] theorem State.setReg_flash (a : Nat) (v : Word) : (s.setReg a v).flash = s.flash := rfl
@[simp] theorem State.setReg_rot (a : Nat) (v : Word) : (s.setReg a v).rot = s.rot := rfl
@[simp] theorem State.setReg_pwr (a : Nat) (v : Word) : (s.setReg a v).pwr = s.pwr := rfl
@[simp] theorem State.setReg_boot (a : Nat) (v : Word) : (s.setReg a v).boot = s.boot := rfl
@[simp] theorem State.setReg_events (a : Nat) (v : Word) : (s.setReg a v).events = s.events := rfl
@[simp] theorem State.setReg_ctrl (a : Nat) (v : Word) : (s.setReg a v).ctrl = s.ctrl := rfl
@[simp] theorem State.setReg_lamp (a : Nat) (v : Word) : (s.setReg a v).lamp = s.lamp := rfl
@[simp] theorem State.setReg_handles (a : Nat) (v : Word) : (s.setReg a v).handles = s.handles := rfl
@[simp] theorem State.setReg_models (a : Nat) (v : Word) : (s.setReg a v).models = s.models := rfl
@[simp] theorem State.setReg_jobs (a : Nat) (v : Word) : (s.setReg a v).jobs = s.jobs := rfl
@[simp] theorem State.setReg_sessions (a : Nat) (v : Word) : (s.setReg a v).sessions = s.sessions := rfl
@[simp] theorem State.setReg_faces (a : Nat) (v : Word) : (s.setReg a v).faces = s.faces := rfl
@[simp] theorem State.setReg_levels (a : Nat) (v : Word) : (s.setReg a v).levels = s.levels := rfl
@[simp] theorem State.setReg_rounds (a : Nat) (v : Word) : (s.setReg a v).rounds = s.rounds := rfl
@[simp] theorem State.setReg_nextRound (a : Nat) (v : Word) : (s.setReg a v).nextRound = s.nextRound := rfl
@[simp] theorem State.setReg_musters (a : Nat) (v : Word) : (s.setReg a v).musters = s.musters := rfl
@[simp] theorem State.setReg_links (a : Nat) (v : Word) : (s.setReg a v).links = s.links := rfl
@[simp] theorem State.setReg_servo (a : Nat) (v : Word) : (s.setReg a v).servo = s.servo := rfl
@[simp] theorem State.setReg_frags (a : Nat) (v : Word) : (s.setReg a v).frags = s.frags := rfl
@[simp] theorem State.setReg_resets (a : Nat) (v : Word) : (s.setReg a v).resets = s.resets := rfl
@[simp] theorem State.setReg_shadow (a : Nat) (v : Word) : (s.setReg a v).shadow = s.shadow := rfl
@[simp] theorem State.setReg_joinSeen (a : Nat) (v : Word) : (s.setReg a v).joinSeen = s.joinSeen := rfl
@[simp] theorem State.setReg_blkFirst (a : Nat) (v : Word) : (s.setReg a v).blkFirst = s.blkFirst := rfl
@[simp] theorem State.setReg_trams (a : Nat) (v : Word) : (s.setReg a v).trams = s.trams := rfl
@[simp] theorem State.setReg_poisoned (a : Nat) (v : Word) : (s.setReg a v).poisoned = s.poisoned := rfl
@[simp] theorem State.setReg_badReads (a : Nat) (v : Word) : (s.setReg a v).badReads = s.badReads := rfl

/-! setRegNat -/

@[simp] theorem State.setRegNat_now (a v : Nat) : (s.setRegNat a v).now = s.now := rfl
@[simp] theorem State.setRegNat_pending (a v : Nat) : (s.setRegNat a v).pending = s.pending := rfl
@[simp] theorem State.setRegNat_draws (a v : Nat) : (s.setRegNat a v).draws = s.draws := rfl
@[simp] theorem State.setRegNat_outbox (a v : Nat) : (s.setRegNat a v).outbox = s.outbox := rfl
@[simp] theorem State.setRegNat_mem (a v : Nat) : (s.setRegNat a v).mem = s.mem := rfl
@[simp] theorem State.setRegNat_flash (a v : Nat) : (s.setRegNat a v).flash = s.flash := rfl
@[simp] theorem State.setRegNat_rot (a v : Nat) : (s.setRegNat a v).rot = s.rot := rfl
@[simp] theorem State.setRegNat_pwr (a v : Nat) : (s.setRegNat a v).pwr = s.pwr := rfl
@[simp] theorem State.setRegNat_boot (a v : Nat) : (s.setRegNat a v).boot = s.boot := rfl
@[simp] theorem State.setRegNat_events (a v : Nat) : (s.setRegNat a v).events = s.events := rfl
@[simp] theorem State.setRegNat_ctrl (a v : Nat) : (s.setRegNat a v).ctrl = s.ctrl := rfl
@[simp] theorem State.setRegNat_lamp (a v : Nat) : (s.setRegNat a v).lamp = s.lamp := rfl
@[simp] theorem State.setRegNat_handles (a v : Nat) : (s.setRegNat a v).handles = s.handles := rfl
@[simp] theorem State.setRegNat_models (a v : Nat) : (s.setRegNat a v).models = s.models := rfl
@[simp] theorem State.setRegNat_jobs (a v : Nat) : (s.setRegNat a v).jobs = s.jobs := rfl
@[simp] theorem State.setRegNat_sessions (a v : Nat) : (s.setRegNat a v).sessions = s.sessions := rfl
@[simp] theorem State.setRegNat_faces (a v : Nat) : (s.setRegNat a v).faces = s.faces := rfl
@[simp] theorem State.setRegNat_levels (a v : Nat) : (s.setRegNat a v).levels = s.levels := rfl
@[simp] theorem State.setRegNat_rounds (a v : Nat) : (s.setRegNat a v).rounds = s.rounds := rfl
@[simp] theorem State.setRegNat_nextRound (a v : Nat) : (s.setRegNat a v).nextRound = s.nextRound := rfl
@[simp] theorem State.setRegNat_musters (a v : Nat) : (s.setRegNat a v).musters = s.musters := rfl
@[simp] theorem State.setRegNat_links (a v : Nat) : (s.setRegNat a v).links = s.links := rfl
@[simp] theorem State.setRegNat_servo (a v : Nat) : (s.setRegNat a v).servo = s.servo := rfl
@[simp] theorem State.setRegNat_frags (a v : Nat) : (s.setRegNat a v).frags = s.frags := rfl
@[simp] theorem State.setRegNat_resets (a v : Nat) : (s.setRegNat a v).resets = s.resets := rfl
@[simp] theorem State.setRegNat_shadow (a v : Nat) : (s.setRegNat a v).shadow = s.shadow := rfl
@[simp] theorem State.setRegNat_joinSeen (a v : Nat) : (s.setRegNat a v).joinSeen = s.joinSeen := rfl
@[simp] theorem State.setRegNat_blkFirst (a v : Nat) : (s.setRegNat a v).blkFirst = s.blkFirst := rfl
@[simp] theorem State.setRegNat_trams (a v : Nat) : (s.setRegNat a v).trams = s.trams := rfl
@[simp] theorem State.setRegNat_poisoned (a v : Nat) : (s.setRegNat a v).poisoned = s.poisoned := rfl
@[simp] theorem State.setRegNat_badReads (a v : Nat) : (s.setRegNat a v).badReads = s.badReads := rfl

/-! setField -/

@[simp] theorem State.setField_now (a lo n v : Nat) : (s.setField a lo n v).now = s.now := rfl
@[simp] theorem State.setField_pending (a lo n v : Nat) : (s.setField a lo n v).pending = s.pending := rfl
@[simp] theorem State.setField_draws (a lo n v : Nat) : (s.setField a lo n v).draws = s.draws := rfl
@[simp] theorem State.setField_outbox (a lo n v : Nat) : (s.setField a lo n v).outbox = s.outbox := rfl
@[simp] theorem State.setField_mem (a lo n v : Nat) : (s.setField a lo n v).mem = s.mem := rfl
@[simp] theorem State.setField_flash (a lo n v : Nat) : (s.setField a lo n v).flash = s.flash := rfl
@[simp] theorem State.setField_rot (a lo n v : Nat) : (s.setField a lo n v).rot = s.rot := rfl
@[simp] theorem State.setField_pwr (a lo n v : Nat) : (s.setField a lo n v).pwr = s.pwr := rfl
@[simp] theorem State.setField_boot (a lo n v : Nat) : (s.setField a lo n v).boot = s.boot := rfl
@[simp] theorem State.setField_events (a lo n v : Nat) : (s.setField a lo n v).events = s.events := rfl
@[simp] theorem State.setField_ctrl (a lo n v : Nat) : (s.setField a lo n v).ctrl = s.ctrl := rfl
@[simp] theorem State.setField_lamp (a lo n v : Nat) : (s.setField a lo n v).lamp = s.lamp := rfl
@[simp] theorem State.setField_handles (a lo n v : Nat) : (s.setField a lo n v).handles = s.handles := rfl
@[simp] theorem State.setField_models (a lo n v : Nat) : (s.setField a lo n v).models = s.models := rfl
@[simp] theorem State.setField_jobs (a lo n v : Nat) : (s.setField a lo n v).jobs = s.jobs := rfl
@[simp] theorem State.setField_sessions (a lo n v : Nat) : (s.setField a lo n v).sessions = s.sessions := rfl
@[simp] theorem State.setField_faces (a lo n v : Nat) : (s.setField a lo n v).faces = s.faces := rfl
@[simp] theorem State.setField_levels (a lo n v : Nat) : (s.setField a lo n v).levels = s.levels := rfl
@[simp] theorem State.setField_rounds (a lo n v : Nat) : (s.setField a lo n v).rounds = s.rounds := rfl
@[simp] theorem State.setField_nextRound (a lo n v : Nat) : (s.setField a lo n v).nextRound = s.nextRound := rfl
@[simp] theorem State.setField_musters (a lo n v : Nat) : (s.setField a lo n v).musters = s.musters := rfl
@[simp] theorem State.setField_links (a lo n v : Nat) : (s.setField a lo n v).links = s.links := rfl
@[simp] theorem State.setField_servo (a lo n v : Nat) : (s.setField a lo n v).servo = s.servo := rfl
@[simp] theorem State.setField_frags (a lo n v : Nat) : (s.setField a lo n v).frags = s.frags := rfl
@[simp] theorem State.setField_resets (a lo n v : Nat) : (s.setField a lo n v).resets = s.resets := rfl
@[simp] theorem State.setField_shadow (a lo n v : Nat) : (s.setField a lo n v).shadow = s.shadow := rfl
@[simp] theorem State.setField_joinSeen (a lo n v : Nat) : (s.setField a lo n v).joinSeen = s.joinSeen := rfl
@[simp] theorem State.setField_blkFirst (a lo n v : Nat) : (s.setField a lo n v).blkFirst = s.blkFirst := rfl
@[simp] theorem State.setField_trams (a lo n v : Nat) : (s.setField a lo n v).trams = s.trams := rfl
@[simp] theorem State.setField_poisoned (a lo n v : Nat) : (s.setField a lo n v).poisoned = s.poisoned := rfl
@[simp] theorem State.setField_badReads (a lo n v : Nat) : (s.setField a lo n v).badReads = s.badReads := rfl

/-! bumpReg -/

@[simp] theorem State.bumpReg_now (a n : Nat) : (s.bumpReg a n).now = s.now := rfl
@[simp] theorem State.bumpReg_pending (a n : Nat) : (s.bumpReg a n).pending = s.pending := rfl
@[simp] theorem State.bumpReg_draws (a n : Nat) : (s.bumpReg a n).draws = s.draws := rfl
@[simp] theorem State.bumpReg_outbox (a n : Nat) : (s.bumpReg a n).outbox = s.outbox := rfl
@[simp] theorem State.bumpReg_mem (a n : Nat) : (s.bumpReg a n).mem = s.mem := rfl
@[simp] theorem State.bumpReg_flash (a n : Nat) : (s.bumpReg a n).flash = s.flash := rfl
@[simp] theorem State.bumpReg_rot (a n : Nat) : (s.bumpReg a n).rot = s.rot := rfl
@[simp] theorem State.bumpReg_pwr (a n : Nat) : (s.bumpReg a n).pwr = s.pwr := rfl
@[simp] theorem State.bumpReg_boot (a n : Nat) : (s.bumpReg a n).boot = s.boot := rfl
@[simp] theorem State.bumpReg_events (a n : Nat) : (s.bumpReg a n).events = s.events := rfl
@[simp] theorem State.bumpReg_ctrl (a n : Nat) : (s.bumpReg a n).ctrl = s.ctrl := rfl
@[simp] theorem State.bumpReg_lamp (a n : Nat) : (s.bumpReg a n).lamp = s.lamp := rfl
@[simp] theorem State.bumpReg_handles (a n : Nat) : (s.bumpReg a n).handles = s.handles := rfl
@[simp] theorem State.bumpReg_models (a n : Nat) : (s.bumpReg a n).models = s.models := rfl
@[simp] theorem State.bumpReg_jobs (a n : Nat) : (s.bumpReg a n).jobs = s.jobs := rfl
@[simp] theorem State.bumpReg_sessions (a n : Nat) : (s.bumpReg a n).sessions = s.sessions := rfl
@[simp] theorem State.bumpReg_faces (a n : Nat) : (s.bumpReg a n).faces = s.faces := rfl
@[simp] theorem State.bumpReg_levels (a n : Nat) : (s.bumpReg a n).levels = s.levels := rfl
@[simp] theorem State.bumpReg_rounds (a n : Nat) : (s.bumpReg a n).rounds = s.rounds := rfl
@[simp] theorem State.bumpReg_nextRound (a n : Nat) : (s.bumpReg a n).nextRound = s.nextRound := rfl
@[simp] theorem State.bumpReg_musters (a n : Nat) : (s.bumpReg a n).musters = s.musters := rfl
@[simp] theorem State.bumpReg_links (a n : Nat) : (s.bumpReg a n).links = s.links := rfl
@[simp] theorem State.bumpReg_servo (a n : Nat) : (s.bumpReg a n).servo = s.servo := rfl
@[simp] theorem State.bumpReg_frags (a n : Nat) : (s.bumpReg a n).frags = s.frags := rfl
@[simp] theorem State.bumpReg_resets (a n : Nat) : (s.bumpReg a n).resets = s.resets := rfl
@[simp] theorem State.bumpReg_shadow (a n : Nat) : (s.bumpReg a n).shadow = s.shadow := rfl
@[simp] theorem State.bumpReg_joinSeen (a n : Nat) : (s.bumpReg a n).joinSeen = s.joinSeen := rfl
@[simp] theorem State.bumpReg_blkFirst (a n : Nat) : (s.bumpReg a n).blkFirst = s.blkFirst := rfl
@[simp] theorem State.bumpReg_trams (a n : Nat) : (s.bumpReg a n).trams = s.trams := rfl
@[simp] theorem State.bumpReg_poisoned (a n : Nat) : (s.bumpReg a n).poisoned = s.poisoned := rfl
@[simp] theorem State.bumpReg_badReads (a n : Nat) : (s.bumpReg a n).badReads = s.badReads := rfl

/-! bumpField -/

@[simp] theorem State.bumpField_now (a lo w n : Nat) : (s.bumpField a lo w n).now = s.now := rfl
@[simp] theorem State.bumpField_pending (a lo w n : Nat) : (s.bumpField a lo w n).pending = s.pending := rfl
@[simp] theorem State.bumpField_draws (a lo w n : Nat) : (s.bumpField a lo w n).draws = s.draws := rfl
@[simp] theorem State.bumpField_outbox (a lo w n : Nat) : (s.bumpField a lo w n).outbox = s.outbox := rfl
@[simp] theorem State.bumpField_mem (a lo w n : Nat) : (s.bumpField a lo w n).mem = s.mem := rfl
@[simp] theorem State.bumpField_flash (a lo w n : Nat) : (s.bumpField a lo w n).flash = s.flash := rfl
@[simp] theorem State.bumpField_rot (a lo w n : Nat) : (s.bumpField a lo w n).rot = s.rot := rfl
@[simp] theorem State.bumpField_pwr (a lo w n : Nat) : (s.bumpField a lo w n).pwr = s.pwr := rfl
@[simp] theorem State.bumpField_boot (a lo w n : Nat) : (s.bumpField a lo w n).boot = s.boot := rfl
@[simp] theorem State.bumpField_events (a lo w n : Nat) : (s.bumpField a lo w n).events = s.events := rfl
@[simp] theorem State.bumpField_ctrl (a lo w n : Nat) : (s.bumpField a lo w n).ctrl = s.ctrl := rfl
@[simp] theorem State.bumpField_lamp (a lo w n : Nat) : (s.bumpField a lo w n).lamp = s.lamp := rfl
@[simp] theorem State.bumpField_handles (a lo w n : Nat) : (s.bumpField a lo w n).handles = s.handles := rfl
@[simp] theorem State.bumpField_models (a lo w n : Nat) : (s.bumpField a lo w n).models = s.models := rfl
@[simp] theorem State.bumpField_jobs (a lo w n : Nat) : (s.bumpField a lo w n).jobs = s.jobs := rfl
@[simp] theorem State.bumpField_sessions (a lo w n : Nat) : (s.bumpField a lo w n).sessions = s.sessions := rfl
@[simp] theorem State.bumpField_faces (a lo w n : Nat) : (s.bumpField a lo w n).faces = s.faces := rfl
@[simp] theorem State.bumpField_levels (a lo w n : Nat) : (s.bumpField a lo w n).levels = s.levels := rfl
@[simp] theorem State.bumpField_rounds (a lo w n : Nat) : (s.bumpField a lo w n).rounds = s.rounds := rfl
@[simp] theorem State.bumpField_nextRound (a lo w n : Nat) : (s.bumpField a lo w n).nextRound = s.nextRound := rfl
@[simp] theorem State.bumpField_musters (a lo w n : Nat) : (s.bumpField a lo w n).musters = s.musters := rfl
@[simp] theorem State.bumpField_links (a lo w n : Nat) : (s.bumpField a lo w n).links = s.links := rfl
@[simp] theorem State.bumpField_servo (a lo w n : Nat) : (s.bumpField a lo w n).servo = s.servo := rfl
@[simp] theorem State.bumpField_frags (a lo w n : Nat) : (s.bumpField a lo w n).frags = s.frags := rfl
@[simp] theorem State.bumpField_resets (a lo w n : Nat) : (s.bumpField a lo w n).resets = s.resets := rfl
@[simp] theorem State.bumpField_shadow (a lo w n : Nat) : (s.bumpField a lo w n).shadow = s.shadow := rfl
@[simp] theorem State.bumpField_joinSeen (a lo w n : Nat) : (s.bumpField a lo w n).joinSeen = s.joinSeen := rfl
@[simp] theorem State.bumpField_blkFirst (a lo w n : Nat) : (s.bumpField a lo w n).blkFirst = s.blkFirst := rfl
@[simp] theorem State.bumpField_trams (a lo w n : Nat) : (s.bumpField a lo w n).trams = s.trams := rfl
@[simp] theorem State.bumpField_poisoned (a lo w n : Nat) : (s.bumpField a lo w n).poisoned = s.poisoned := rfl
@[simp] theorem State.bumpField_badReads (a lo w n : Nat) : (s.bumpField a lo w n).badReads = s.badReads := rfl

/-! keepRegs -/

@[simp] theorem State.keepRegs_now (k : Nat → Bool) : (s.keepRegs k).now = s.now := rfl
@[simp] theorem State.keepRegs_pending (k : Nat → Bool) : (s.keepRegs k).pending = s.pending := rfl
@[simp] theorem State.keepRegs_draws (k : Nat → Bool) : (s.keepRegs k).draws = s.draws := rfl
@[simp] theorem State.keepRegs_outbox (k : Nat → Bool) : (s.keepRegs k).outbox = s.outbox := rfl
@[simp] theorem State.keepRegs_mem (k : Nat → Bool) : (s.keepRegs k).mem = s.mem := rfl
@[simp] theorem State.keepRegs_flash (k : Nat → Bool) : (s.keepRegs k).flash = s.flash := rfl
@[simp] theorem State.keepRegs_rot (k : Nat → Bool) : (s.keepRegs k).rot = s.rot := rfl
@[simp] theorem State.keepRegs_pwr (k : Nat → Bool) : (s.keepRegs k).pwr = s.pwr := rfl
@[simp] theorem State.keepRegs_boot (k : Nat → Bool) : (s.keepRegs k).boot = s.boot := rfl
@[simp] theorem State.keepRegs_events (k : Nat → Bool) : (s.keepRegs k).events = s.events := rfl
@[simp] theorem State.keepRegs_ctrl (k : Nat → Bool) : (s.keepRegs k).ctrl = s.ctrl := rfl
@[simp] theorem State.keepRegs_lamp (k : Nat → Bool) : (s.keepRegs k).lamp = s.lamp := rfl
@[simp] theorem State.keepRegs_handles (k : Nat → Bool) : (s.keepRegs k).handles = s.handles := rfl
@[simp] theorem State.keepRegs_models (k : Nat → Bool) : (s.keepRegs k).models = s.models := rfl
@[simp] theorem State.keepRegs_jobs (k : Nat → Bool) : (s.keepRegs k).jobs = s.jobs := rfl
@[simp] theorem State.keepRegs_sessions (k : Nat → Bool) : (s.keepRegs k).sessions = s.sessions := rfl
@[simp] theorem State.keepRegs_faces (k : Nat → Bool) : (s.keepRegs k).faces = s.faces := rfl
@[simp] theorem State.keepRegs_levels (k : Nat → Bool) : (s.keepRegs k).levels = s.levels := rfl
@[simp] theorem State.keepRegs_rounds (k : Nat → Bool) : (s.keepRegs k).rounds = s.rounds := rfl
@[simp] theorem State.keepRegs_nextRound (k : Nat → Bool) : (s.keepRegs k).nextRound = s.nextRound := rfl
@[simp] theorem State.keepRegs_musters (k : Nat → Bool) : (s.keepRegs k).musters = s.musters := rfl
@[simp] theorem State.keepRegs_links (k : Nat → Bool) : (s.keepRegs k).links = s.links := rfl
@[simp] theorem State.keepRegs_servo (k : Nat → Bool) : (s.keepRegs k).servo = s.servo := rfl
@[simp] theorem State.keepRegs_frags (k : Nat → Bool) : (s.keepRegs k).frags = s.frags := rfl
@[simp] theorem State.keepRegs_resets (k : Nat → Bool) : (s.keepRegs k).resets = s.resets := rfl
@[simp] theorem State.keepRegs_shadow (k : Nat → Bool) : (s.keepRegs k).shadow = s.shadow := rfl
@[simp] theorem State.keepRegs_joinSeen (k : Nat → Bool) : (s.keepRegs k).joinSeen = s.joinSeen := rfl
@[simp] theorem State.keepRegs_blkFirst (k : Nat → Bool) : (s.keepRegs k).blkFirst = s.blkFirst := rfl
@[simp] theorem State.keepRegs_trams (k : Nat → Bool) : (s.keepRegs k).trams = s.trams := rfl
@[simp] theorem State.keepRegs_poisoned (k : Nat → Bool) : (s.keepRegs k).poisoned = s.poisoned := rfl
@[simp] theorem State.keepRegs_badReads (k : Nat → Bool) : (s.keepRegs k).badReads = s.badReads := rfl

/-! writeMem -/

@[simp] theorem State.writeMem_now (a : Nat) (b : Bytes) : (s.writeMem a b).now = s.now := rfl
@[simp] theorem State.writeMem_pending (a : Nat) (b : Bytes) : (s.writeMem a b).pending = s.pending := rfl
@[simp] theorem State.writeMem_draws (a : Nat) (b : Bytes) : (s.writeMem a b).draws = s.draws := rfl
@[simp] theorem State.writeMem_outbox (a : Nat) (b : Bytes) : (s.writeMem a b).outbox = s.outbox := rfl
@[simp] theorem State.writeMem_regs (a : Nat) (b : Bytes) : (s.writeMem a b).regs = s.regs := rfl
@[simp] theorem State.writeMem_flash (a : Nat) (b : Bytes) : (s.writeMem a b).flash = s.flash := rfl
@[simp] theorem State.writeMem_rot (a : Nat) (b : Bytes) : (s.writeMem a b).rot = s.rot := rfl
@[simp] theorem State.writeMem_pwr (a : Nat) (b : Bytes) : (s.writeMem a b).pwr = s.pwr := rfl
@[simp] theorem State.writeMem_boot (a : Nat) (b : Bytes) : (s.writeMem a b).boot = s.boot := rfl
@[simp] theorem State.writeMem_events (a : Nat) (b : Bytes) : (s.writeMem a b).events = s.events := rfl
@[simp] theorem State.writeMem_ctrl (a : Nat) (b : Bytes) : (s.writeMem a b).ctrl = s.ctrl := rfl
@[simp] theorem State.writeMem_lamp (a : Nat) (b : Bytes) : (s.writeMem a b).lamp = s.lamp := rfl
@[simp] theorem State.writeMem_handles (a : Nat) (b : Bytes) : (s.writeMem a b).handles = s.handles := rfl
@[simp] theorem State.writeMem_models (a : Nat) (b : Bytes) : (s.writeMem a b).models = s.models := rfl
@[simp] theorem State.writeMem_jobs (a : Nat) (b : Bytes) : (s.writeMem a b).jobs = s.jobs := rfl
@[simp] theorem State.writeMem_sessions (a : Nat) (b : Bytes) : (s.writeMem a b).sessions = s.sessions := rfl
@[simp] theorem State.writeMem_faces (a : Nat) (b : Bytes) : (s.writeMem a b).faces = s.faces := rfl
@[simp] theorem State.writeMem_levels (a : Nat) (b : Bytes) : (s.writeMem a b).levels = s.levels := rfl
@[simp] theorem State.writeMem_rounds (a : Nat) (b : Bytes) : (s.writeMem a b).rounds = s.rounds := rfl
@[simp] theorem State.writeMem_nextRound (a : Nat) (b : Bytes) : (s.writeMem a b).nextRound = s.nextRound := rfl
@[simp] theorem State.writeMem_musters (a : Nat) (b : Bytes) : (s.writeMem a b).musters = s.musters := rfl
@[simp] theorem State.writeMem_links (a : Nat) (b : Bytes) : (s.writeMem a b).links = s.links := rfl
@[simp] theorem State.writeMem_servo (a : Nat) (b : Bytes) : (s.writeMem a b).servo = s.servo := rfl
@[simp] theorem State.writeMem_frags (a : Nat) (b : Bytes) : (s.writeMem a b).frags = s.frags := rfl
@[simp] theorem State.writeMem_resets (a : Nat) (b : Bytes) : (s.writeMem a b).resets = s.resets := rfl
@[simp] theorem State.writeMem_shadow (a : Nat) (b : Bytes) : (s.writeMem a b).shadow = s.shadow := rfl
@[simp] theorem State.writeMem_joinSeen (a : Nat) (b : Bytes) : (s.writeMem a b).joinSeen = s.joinSeen := rfl
@[simp] theorem State.writeMem_blkFirst (a : Nat) (b : Bytes) : (s.writeMem a b).blkFirst = s.blkFirst := rfl
@[simp] theorem State.writeMem_trams (a : Nat) (b : Bytes) : (s.writeMem a b).trams = s.trams := rfl
@[simp] theorem State.writeMem_badReads (a : Nat) (b : Bytes) : (s.writeMem a b).badReads = s.badReads := rfl

/-! placeHomes -/

@[simp] theorem State.placeHomes_now (k : ModelPkg) (ls : List Nat) : (s.placeHomes k ls).now = s.now := rfl
@[simp] theorem State.placeHomes_pending (k : ModelPkg) (ls : List Nat) : (s.placeHomes k ls).pending = s.pending := rfl
@[simp] theorem State.placeHomes_draws (k : ModelPkg) (ls : List Nat) : (s.placeHomes k ls).draws = s.draws := rfl
@[simp] theorem State.placeHomes_outbox (k : ModelPkg) (ls : List Nat) : (s.placeHomes k ls).outbox = s.outbox := rfl
@[simp] theorem State.placeHomes_regs (k : ModelPkg) (ls : List Nat) : (s.placeHomes k ls).regs = s.regs := rfl
@[simp] theorem State.placeHomes_flash (k : ModelPkg) (ls : List Nat) : (s.placeHomes k ls).flash = s.flash := rfl
@[simp] theorem State.placeHomes_rot (k : ModelPkg) (ls : List Nat) : (s.placeHomes k ls).rot = s.rot := rfl
@[simp] theorem State.placeHomes_pwr (k : ModelPkg) (ls : List Nat) : (s.placeHomes k ls).pwr = s.pwr := rfl
@[simp] theorem State.placeHomes_boot (k : ModelPkg) (ls : List Nat) : (s.placeHomes k ls).boot = s.boot := rfl
@[simp] theorem State.placeHomes_events (k : ModelPkg) (ls : List Nat) : (s.placeHomes k ls).events = s.events := rfl
@[simp] theorem State.placeHomes_ctrl (k : ModelPkg) (ls : List Nat) : (s.placeHomes k ls).ctrl = s.ctrl := rfl
@[simp] theorem State.placeHomes_lamp (k : ModelPkg) (ls : List Nat) : (s.placeHomes k ls).lamp = s.lamp := rfl
@[simp] theorem State.placeHomes_handles (k : ModelPkg) (ls : List Nat) : (s.placeHomes k ls).handles = s.handles := rfl
@[simp] theorem State.placeHomes_models (k : ModelPkg) (ls : List Nat) : (s.placeHomes k ls).models = s.models := rfl
@[simp] theorem State.placeHomes_jobs (k : ModelPkg) (ls : List Nat) : (s.placeHomes k ls).jobs = s.jobs := rfl
@[simp] theorem State.placeHomes_sessions (k : ModelPkg) (ls : List Nat) : (s.placeHomes k ls).sessions = s.sessions := rfl
@[simp] theorem State.placeHomes_faces (k : ModelPkg) (ls : List Nat) : (s.placeHomes k ls).faces = s.faces := rfl
@[simp] theorem State.placeHomes_levels (k : ModelPkg) (ls : List Nat) : (s.placeHomes k ls).levels = s.levels := rfl
@[simp] theorem State.placeHomes_rounds (k : ModelPkg) (ls : List Nat) : (s.placeHomes k ls).rounds = s.rounds := rfl
@[simp] theorem State.placeHomes_nextRound (k : ModelPkg) (ls : List Nat) : (s.placeHomes k ls).nextRound = s.nextRound := rfl
@[simp] theorem State.placeHomes_musters (k : ModelPkg) (ls : List Nat) : (s.placeHomes k ls).musters = s.musters := rfl
@[simp] theorem State.placeHomes_links (k : ModelPkg) (ls : List Nat) : (s.placeHomes k ls).links = s.links := rfl
@[simp] theorem State.placeHomes_servo (k : ModelPkg) (ls : List Nat) : (s.placeHomes k ls).servo = s.servo := rfl
@[simp] theorem State.placeHomes_frags (k : ModelPkg) (ls : List Nat) : (s.placeHomes k ls).frags = s.frags := rfl
@[simp] theorem State.placeHomes_resets (k : ModelPkg) (ls : List Nat) : (s.placeHomes k ls).resets = s.resets := rfl
@[simp] theorem State.placeHomes_shadow (k : ModelPkg) (ls : List Nat) : (s.placeHomes k ls).shadow = s.shadow := rfl
@[simp] theorem State.placeHomes_joinSeen (k : ModelPkg) (ls : List Nat) : (s.placeHomes k ls).joinSeen = s.joinSeen := rfl
@[simp] theorem State.placeHomes_blkFirst (k : ModelPkg) (ls : List Nat) : (s.placeHomes k ls).blkFirst = s.blkFirst := rfl
@[simp] theorem State.placeHomes_trams (k : ModelPkg) (ls : List Nat) : (s.placeHomes k ls).trams = s.trams := rfl
@[simp] theorem State.placeHomes_poisoned (k : ModelPkg) (ls : List Nat) : (s.placeHomes k ls).poisoned = s.poisoned := rfl
@[simp] theorem State.placeHomes_badReads (k : ModelPkg) (ls : List Nat) : (s.placeHomes k ls).badReads = s.badReads := rfl

/-! loadChunks -/

@[simp] theorem State.loadChunks_now (p : Nat) : (s.loadChunks p).now = s.now := rfl
@[simp] theorem State.loadChunks_pending (p : Nat) : (s.loadChunks p).pending = s.pending := rfl
@[simp] theorem State.loadChunks_draws (p : Nat) : (s.loadChunks p).draws = s.draws := rfl
@[simp] theorem State.loadChunks_outbox (p : Nat) : (s.loadChunks p).outbox = s.outbox := rfl
@[simp] theorem State.loadChunks_regs (p : Nat) : (s.loadChunks p).regs = s.regs := rfl
@[simp] theorem State.loadChunks_flash (p : Nat) : (s.loadChunks p).flash = s.flash := rfl
@[simp] theorem State.loadChunks_rot (p : Nat) : (s.loadChunks p).rot = s.rot := rfl
@[simp] theorem State.loadChunks_pwr (p : Nat) : (s.loadChunks p).pwr = s.pwr := rfl
@[simp] theorem State.loadChunks_boot (p : Nat) : (s.loadChunks p).boot = s.boot := rfl
@[simp] theorem State.loadChunks_events (p : Nat) : (s.loadChunks p).events = s.events := rfl
@[simp] theorem State.loadChunks_ctrl (p : Nat) : (s.loadChunks p).ctrl = s.ctrl := rfl
@[simp] theorem State.loadChunks_lamp (p : Nat) : (s.loadChunks p).lamp = s.lamp := rfl
@[simp] theorem State.loadChunks_handles (p : Nat) : (s.loadChunks p).handles = s.handles := rfl
@[simp] theorem State.loadChunks_models (p : Nat) : (s.loadChunks p).models = s.models := rfl
@[simp] theorem State.loadChunks_jobs (p : Nat) : (s.loadChunks p).jobs = s.jobs := rfl
@[simp] theorem State.loadChunks_sessions (p : Nat) : (s.loadChunks p).sessions = s.sessions := rfl
@[simp] theorem State.loadChunks_faces (p : Nat) : (s.loadChunks p).faces = s.faces := rfl
@[simp] theorem State.loadChunks_levels (p : Nat) : (s.loadChunks p).levels = s.levels := rfl
@[simp] theorem State.loadChunks_rounds (p : Nat) : (s.loadChunks p).rounds = s.rounds := rfl
@[simp] theorem State.loadChunks_nextRound (p : Nat) : (s.loadChunks p).nextRound = s.nextRound := rfl
@[simp] theorem State.loadChunks_musters (p : Nat) : (s.loadChunks p).musters = s.musters := rfl
@[simp] theorem State.loadChunks_links (p : Nat) : (s.loadChunks p).links = s.links := rfl
@[simp] theorem State.loadChunks_servo (p : Nat) : (s.loadChunks p).servo = s.servo := rfl
@[simp] theorem State.loadChunks_frags (p : Nat) : (s.loadChunks p).frags = s.frags := rfl
@[simp] theorem State.loadChunks_resets (p : Nat) : (s.loadChunks p).resets = s.resets := rfl
@[simp] theorem State.loadChunks_shadow (p : Nat) : (s.loadChunks p).shadow = s.shadow := rfl
@[simp] theorem State.loadChunks_joinSeen (p : Nat) : (s.loadChunks p).joinSeen = s.joinSeen := rfl
@[simp] theorem State.loadChunks_blkFirst (p : Nat) : (s.loadChunks p).blkFirst = s.blkFirst := rfl
@[simp] theorem State.loadChunks_trams (p : Nat) : (s.loadChunks p).trams = s.trams := rfl
@[simp] theorem State.loadChunks_poisoned (p : Nat) : (s.loadChunks p).poisoned = s.poisoned := rfl
@[simp] theorem State.loadChunks_badReads (p : Nat) : (s.loadChunks p).badReads = s.badReads := rfl

/-! clearMem -/

@[simp] theorem State.clearMem_now (a n : Nat) : (s.clearMem a n).now = s.now := rfl
@[simp] theorem State.clearMem_pending (a n : Nat) : (s.clearMem a n).pending = s.pending := rfl
@[simp] theorem State.clearMem_draws (a n : Nat) : (s.clearMem a n).draws = s.draws := rfl
@[simp] theorem State.clearMem_outbox (a n : Nat) : (s.clearMem a n).outbox = s.outbox := rfl
@[simp] theorem State.clearMem_regs (a n : Nat) : (s.clearMem a n).regs = s.regs := rfl
@[simp] theorem State.clearMem_flash (a n : Nat) : (s.clearMem a n).flash = s.flash := rfl
@[simp] theorem State.clearMem_rot (a n : Nat) : (s.clearMem a n).rot = s.rot := rfl
@[simp] theorem State.clearMem_pwr (a n : Nat) : (s.clearMem a n).pwr = s.pwr := rfl
@[simp] theorem State.clearMem_boot (a n : Nat) : (s.clearMem a n).boot = s.boot := rfl
@[simp] theorem State.clearMem_events (a n : Nat) : (s.clearMem a n).events = s.events := rfl
@[simp] theorem State.clearMem_ctrl (a n : Nat) : (s.clearMem a n).ctrl = s.ctrl := rfl
@[simp] theorem State.clearMem_lamp (a n : Nat) : (s.clearMem a n).lamp = s.lamp := rfl
@[simp] theorem State.clearMem_handles (a n : Nat) : (s.clearMem a n).handles = s.handles := rfl
@[simp] theorem State.clearMem_models (a n : Nat) : (s.clearMem a n).models = s.models := rfl
@[simp] theorem State.clearMem_jobs (a n : Nat) : (s.clearMem a n).jobs = s.jobs := rfl
@[simp] theorem State.clearMem_sessions (a n : Nat) : (s.clearMem a n).sessions = s.sessions := rfl
@[simp] theorem State.clearMem_faces (a n : Nat) : (s.clearMem a n).faces = s.faces := rfl
@[simp] theorem State.clearMem_levels (a n : Nat) : (s.clearMem a n).levels = s.levels := rfl
@[simp] theorem State.clearMem_rounds (a n : Nat) : (s.clearMem a n).rounds = s.rounds := rfl
@[simp] theorem State.clearMem_nextRound (a n : Nat) : (s.clearMem a n).nextRound = s.nextRound := rfl
@[simp] theorem State.clearMem_musters (a n : Nat) : (s.clearMem a n).musters = s.musters := rfl
@[simp] theorem State.clearMem_links (a n : Nat) : (s.clearMem a n).links = s.links := rfl
@[simp] theorem State.clearMem_servo (a n : Nat) : (s.clearMem a n).servo = s.servo := rfl
@[simp] theorem State.clearMem_frags (a n : Nat) : (s.clearMem a n).frags = s.frags := rfl
@[simp] theorem State.clearMem_resets (a n : Nat) : (s.clearMem a n).resets = s.resets := rfl
@[simp] theorem State.clearMem_shadow (a n : Nat) : (s.clearMem a n).shadow = s.shadow := rfl
@[simp] theorem State.clearMem_joinSeen (a n : Nat) : (s.clearMem a n).joinSeen = s.joinSeen := rfl
@[simp] theorem State.clearMem_blkFirst (a n : Nat) : (s.clearMem a n).blkFirst = s.blkFirst := rfl
@[simp] theorem State.clearMem_trams (a n : Nat) : (s.clearMem a n).trams = s.trams := rfl
@[simp] theorem State.clearMem_badReads (a n : Nat) : (s.clearMem a n).badReads = s.badReads := rfl

/-! writeFlash -/

@[simp] theorem State.writeFlash_now (a : Nat) (b : Bytes) : (s.writeFlash a b).now = s.now := rfl
@[simp] theorem State.writeFlash_pending (a : Nat) (b : Bytes) : (s.writeFlash a b).pending = s.pending := rfl
@[simp] theorem State.writeFlash_draws (a : Nat) (b : Bytes) : (s.writeFlash a b).draws = s.draws := rfl
@[simp] theorem State.writeFlash_outbox (a : Nat) (b : Bytes) : (s.writeFlash a b).outbox = s.outbox := rfl
@[simp] theorem State.writeFlash_regs (a : Nat) (b : Bytes) : (s.writeFlash a b).regs = s.regs := rfl
@[simp] theorem State.writeFlash_mem (a : Nat) (b : Bytes) : (s.writeFlash a b).mem = s.mem := rfl
@[simp] theorem State.writeFlash_rot (a : Nat) (b : Bytes) : (s.writeFlash a b).rot = s.rot := rfl
@[simp] theorem State.writeFlash_pwr (a : Nat) (b : Bytes) : (s.writeFlash a b).pwr = s.pwr := rfl
@[simp] theorem State.writeFlash_boot (a : Nat) (b : Bytes) : (s.writeFlash a b).boot = s.boot := rfl
@[simp] theorem State.writeFlash_events (a : Nat) (b : Bytes) : (s.writeFlash a b).events = s.events := rfl
@[simp] theorem State.writeFlash_ctrl (a : Nat) (b : Bytes) : (s.writeFlash a b).ctrl = s.ctrl := rfl
@[simp] theorem State.writeFlash_lamp (a : Nat) (b : Bytes) : (s.writeFlash a b).lamp = s.lamp := rfl
@[simp] theorem State.writeFlash_handles (a : Nat) (b : Bytes) : (s.writeFlash a b).handles = s.handles := rfl
@[simp] theorem State.writeFlash_models (a : Nat) (b : Bytes) : (s.writeFlash a b).models = s.models := rfl
@[simp] theorem State.writeFlash_jobs (a : Nat) (b : Bytes) : (s.writeFlash a b).jobs = s.jobs := rfl
@[simp] theorem State.writeFlash_sessions (a : Nat) (b : Bytes) : (s.writeFlash a b).sessions = s.sessions := rfl
@[simp] theorem State.writeFlash_faces (a : Nat) (b : Bytes) : (s.writeFlash a b).faces = s.faces := rfl
@[simp] theorem State.writeFlash_levels (a : Nat) (b : Bytes) : (s.writeFlash a b).levels = s.levels := rfl
@[simp] theorem State.writeFlash_rounds (a : Nat) (b : Bytes) : (s.writeFlash a b).rounds = s.rounds := rfl
@[simp] theorem State.writeFlash_nextRound (a : Nat) (b : Bytes) : (s.writeFlash a b).nextRound = s.nextRound := rfl
@[simp] theorem State.writeFlash_musters (a : Nat) (b : Bytes) : (s.writeFlash a b).musters = s.musters := rfl
@[simp] theorem State.writeFlash_links (a : Nat) (b : Bytes) : (s.writeFlash a b).links = s.links := rfl
@[simp] theorem State.writeFlash_servo (a : Nat) (b : Bytes) : (s.writeFlash a b).servo = s.servo := rfl
@[simp] theorem State.writeFlash_frags (a : Nat) (b : Bytes) : (s.writeFlash a b).frags = s.frags := rfl
@[simp] theorem State.writeFlash_resets (a : Nat) (b : Bytes) : (s.writeFlash a b).resets = s.resets := rfl
@[simp] theorem State.writeFlash_shadow (a : Nat) (b : Bytes) : (s.writeFlash a b).shadow = s.shadow := rfl
@[simp] theorem State.writeFlash_joinSeen (a : Nat) (b : Bytes) : (s.writeFlash a b).joinSeen = s.joinSeen := rfl
@[simp] theorem State.writeFlash_blkFirst (a : Nat) (b : Bytes) : (s.writeFlash a b).blkFirst = s.blkFirst := rfl
@[simp] theorem State.writeFlash_trams (a : Nat) (b : Bytes) : (s.writeFlash a b).trams = s.trams := rfl
@[simp] theorem State.writeFlash_poisoned (a : Nat) (b : Bytes) : (s.writeFlash a b).poisoned = s.poisoned := rfl
@[simp] theorem State.writeFlash_badReads (a : Nat) (b : Bytes) : (s.writeFlash a b).badReads = s.badReads := rfl

/-! eraseFlash -/

@[simp] theorem State.eraseFlash_now (a n : Nat) : (s.eraseFlash a n).now = s.now := rfl
@[simp] theorem State.eraseFlash_pending (a n : Nat) : (s.eraseFlash a n).pending = s.pending := rfl
@[simp] theorem State.eraseFlash_draws (a n : Nat) : (s.eraseFlash a n).draws = s.draws := rfl
@[simp] theorem State.eraseFlash_outbox (a n : Nat) : (s.eraseFlash a n).outbox = s.outbox := rfl
@[simp] theorem State.eraseFlash_regs (a n : Nat) : (s.eraseFlash a n).regs = s.regs := rfl
@[simp] theorem State.eraseFlash_mem (a n : Nat) : (s.eraseFlash a n).mem = s.mem := rfl
@[simp] theorem State.eraseFlash_rot (a n : Nat) : (s.eraseFlash a n).rot = s.rot := rfl
@[simp] theorem State.eraseFlash_pwr (a n : Nat) : (s.eraseFlash a n).pwr = s.pwr := rfl
@[simp] theorem State.eraseFlash_boot (a n : Nat) : (s.eraseFlash a n).boot = s.boot := rfl
@[simp] theorem State.eraseFlash_events (a n : Nat) : (s.eraseFlash a n).events = s.events := rfl
@[simp] theorem State.eraseFlash_ctrl (a n : Nat) : (s.eraseFlash a n).ctrl = s.ctrl := rfl
@[simp] theorem State.eraseFlash_lamp (a n : Nat) : (s.eraseFlash a n).lamp = s.lamp := rfl
@[simp] theorem State.eraseFlash_handles (a n : Nat) : (s.eraseFlash a n).handles = s.handles := rfl
@[simp] theorem State.eraseFlash_models (a n : Nat) : (s.eraseFlash a n).models = s.models := rfl
@[simp] theorem State.eraseFlash_jobs (a n : Nat) : (s.eraseFlash a n).jobs = s.jobs := rfl
@[simp] theorem State.eraseFlash_sessions (a n : Nat) : (s.eraseFlash a n).sessions = s.sessions := rfl
@[simp] theorem State.eraseFlash_faces (a n : Nat) : (s.eraseFlash a n).faces = s.faces := rfl
@[simp] theorem State.eraseFlash_levels (a n : Nat) : (s.eraseFlash a n).levels = s.levels := rfl
@[simp] theorem State.eraseFlash_rounds (a n : Nat) : (s.eraseFlash a n).rounds = s.rounds := rfl
@[simp] theorem State.eraseFlash_nextRound (a n : Nat) : (s.eraseFlash a n).nextRound = s.nextRound := rfl
@[simp] theorem State.eraseFlash_musters (a n : Nat) : (s.eraseFlash a n).musters = s.musters := rfl
@[simp] theorem State.eraseFlash_links (a n : Nat) : (s.eraseFlash a n).links = s.links := rfl
@[simp] theorem State.eraseFlash_servo (a n : Nat) : (s.eraseFlash a n).servo = s.servo := rfl
@[simp] theorem State.eraseFlash_frags (a n : Nat) : (s.eraseFlash a n).frags = s.frags := rfl
@[simp] theorem State.eraseFlash_resets (a n : Nat) : (s.eraseFlash a n).resets = s.resets := rfl
@[simp] theorem State.eraseFlash_shadow (a n : Nat) : (s.eraseFlash a n).shadow = s.shadow := rfl
@[simp] theorem State.eraseFlash_joinSeen (a n : Nat) : (s.eraseFlash a n).joinSeen = s.joinSeen := rfl
@[simp] theorem State.eraseFlash_blkFirst (a n : Nat) : (s.eraseFlash a n).blkFirst = s.blkFirst := rfl
@[simp] theorem State.eraseFlash_trams (a n : Nat) : (s.eraseFlash a n).trams = s.trams := rfl
@[simp] theorem State.eraseFlash_poisoned (a n : Nat) : (s.eraseFlash a n).poisoned = s.poisoned := rfl
@[simp] theorem State.eraseFlash_badReads (a n : Nat) : (s.eraseFlash a n).badReads = s.badReads := rfl

/-! setFace -/

@[simp] theorem State.setFace_now (p : Nat) (f : Face) : (s.setFace p f).now = s.now := rfl
@[simp] theorem State.setFace_pending (p : Nat) (f : Face) : (s.setFace p f).pending = s.pending := rfl
@[simp] theorem State.setFace_draws (p : Nat) (f : Face) : (s.setFace p f).draws = s.draws := rfl
@[simp] theorem State.setFace_outbox (p : Nat) (f : Face) : (s.setFace p f).outbox = s.outbox := rfl
@[simp] theorem State.setFace_regs (p : Nat) (f : Face) : (s.setFace p f).regs = s.regs := rfl
@[simp] theorem State.setFace_mem (p : Nat) (f : Face) : (s.setFace p f).mem = s.mem := rfl
@[simp] theorem State.setFace_flash (p : Nat) (f : Face) : (s.setFace p f).flash = s.flash := rfl
@[simp] theorem State.setFace_rot (p : Nat) (f : Face) : (s.setFace p f).rot = s.rot := rfl
@[simp] theorem State.setFace_pwr (p : Nat) (f : Face) : (s.setFace p f).pwr = s.pwr := rfl
@[simp] theorem State.setFace_boot (p : Nat) (f : Face) : (s.setFace p f).boot = s.boot := rfl
@[simp] theorem State.setFace_events (p : Nat) (f : Face) : (s.setFace p f).events = s.events := rfl
@[simp] theorem State.setFace_ctrl (p : Nat) (f : Face) : (s.setFace p f).ctrl = s.ctrl := rfl
@[simp] theorem State.setFace_lamp (p : Nat) (f : Face) : (s.setFace p f).lamp = s.lamp := rfl
@[simp] theorem State.setFace_handles (p : Nat) (f : Face) : (s.setFace p f).handles = s.handles := rfl
@[simp] theorem State.setFace_models (p : Nat) (f : Face) : (s.setFace p f).models = s.models := rfl
@[simp] theorem State.setFace_jobs (p : Nat) (f : Face) : (s.setFace p f).jobs = s.jobs := rfl
@[simp] theorem State.setFace_sessions (p : Nat) (f : Face) : (s.setFace p f).sessions = s.sessions := rfl
@[simp] theorem State.setFace_levels (p : Nat) (f : Face) : (s.setFace p f).levels = s.levels := rfl
@[simp] theorem State.setFace_rounds (p : Nat) (f : Face) : (s.setFace p f).rounds = s.rounds := rfl
@[simp] theorem State.setFace_nextRound (p : Nat) (f : Face) : (s.setFace p f).nextRound = s.nextRound := rfl
@[simp] theorem State.setFace_musters (p : Nat) (f : Face) : (s.setFace p f).musters = s.musters := rfl
@[simp] theorem State.setFace_links (p : Nat) (f : Face) : (s.setFace p f).links = s.links := rfl
@[simp] theorem State.setFace_servo (p : Nat) (f : Face) : (s.setFace p f).servo = s.servo := rfl
@[simp] theorem State.setFace_frags (p : Nat) (f : Face) : (s.setFace p f).frags = s.frags := rfl
@[simp] theorem State.setFace_resets (p : Nat) (f : Face) : (s.setFace p f).resets = s.resets := rfl
@[simp] theorem State.setFace_shadow (p : Nat) (f : Face) : (s.setFace p f).shadow = s.shadow := rfl
@[simp] theorem State.setFace_joinSeen (p : Nat) (f : Face) : (s.setFace p f).joinSeen = s.joinSeen := rfl
@[simp] theorem State.setFace_blkFirst (p : Nat) (f : Face) : (s.setFace p f).blkFirst = s.blkFirst := rfl
@[simp] theorem State.setFace_trams (p : Nat) (f : Face) : (s.setFace p f).trams = s.trams := rfl
@[simp] theorem State.setFace_poisoned (p : Nat) (f : Face) : (s.setFace p f).poisoned = s.poisoned := rfl
@[simp] theorem State.setFace_badReads (p : Nat) (f : Face) : (s.setFace p f).badReads = s.badReads := rfl

/-! setEngine -/

@[simp] theorem State.setEngine_now (p e : Nat) (g : Engine) : (s.setEngine p e g).now = s.now := rfl
@[simp] theorem State.setEngine_pending (p e : Nat) (g : Engine) : (s.setEngine p e g).pending = s.pending := rfl
@[simp] theorem State.setEngine_draws (p e : Nat) (g : Engine) : (s.setEngine p e g).draws = s.draws := rfl
@[simp] theorem State.setEngine_outbox (p e : Nat) (g : Engine) : (s.setEngine p e g).outbox = s.outbox := rfl
@[simp] theorem State.setEngine_regs (p e : Nat) (g : Engine) : (s.setEngine p e g).regs = s.regs := rfl
@[simp] theorem State.setEngine_mem (p e : Nat) (g : Engine) : (s.setEngine p e g).mem = s.mem := rfl
@[simp] theorem State.setEngine_flash (p e : Nat) (g : Engine) : (s.setEngine p e g).flash = s.flash := rfl
@[simp] theorem State.setEngine_rot (p e : Nat) (g : Engine) : (s.setEngine p e g).rot = s.rot := rfl
@[simp] theorem State.setEngine_pwr (p e : Nat) (g : Engine) : (s.setEngine p e g).pwr = s.pwr := rfl
@[simp] theorem State.setEngine_boot (p e : Nat) (g : Engine) : (s.setEngine p e g).boot = s.boot := rfl
@[simp] theorem State.setEngine_events (p e : Nat) (g : Engine) : (s.setEngine p e g).events = s.events := rfl
@[simp] theorem State.setEngine_ctrl (p e : Nat) (g : Engine) : (s.setEngine p e g).ctrl = s.ctrl := rfl
@[simp] theorem State.setEngine_lamp (p e : Nat) (g : Engine) : (s.setEngine p e g).lamp = s.lamp := rfl
@[simp] theorem State.setEngine_handles (p e : Nat) (g : Engine) : (s.setEngine p e g).handles = s.handles := rfl
@[simp] theorem State.setEngine_models (p e : Nat) (g : Engine) : (s.setEngine p e g).models = s.models := rfl
@[simp] theorem State.setEngine_jobs (p e : Nat) (g : Engine) : (s.setEngine p e g).jobs = s.jobs := rfl
@[simp] theorem State.setEngine_sessions (p e : Nat) (g : Engine) : (s.setEngine p e g).sessions = s.sessions := rfl
@[simp] theorem State.setEngine_levels (p e : Nat) (g : Engine) : (s.setEngine p e g).levels = s.levels := rfl
@[simp] theorem State.setEngine_rounds (p e : Nat) (g : Engine) : (s.setEngine p e g).rounds = s.rounds := rfl
@[simp] theorem State.setEngine_nextRound (p e : Nat) (g : Engine) : (s.setEngine p e g).nextRound = s.nextRound := rfl
@[simp] theorem State.setEngine_musters (p e : Nat) (g : Engine) : (s.setEngine p e g).musters = s.musters := rfl
@[simp] theorem State.setEngine_links (p e : Nat) (g : Engine) : (s.setEngine p e g).links = s.links := rfl
@[simp] theorem State.setEngine_servo (p e : Nat) (g : Engine) : (s.setEngine p e g).servo = s.servo := rfl
@[simp] theorem State.setEngine_frags (p e : Nat) (g : Engine) : (s.setEngine p e g).frags = s.frags := rfl
@[simp] theorem State.setEngine_resets (p e : Nat) (g : Engine) : (s.setEngine p e g).resets = s.resets := rfl
@[simp] theorem State.setEngine_shadow (p e : Nat) (g : Engine) : (s.setEngine p e g).shadow = s.shadow := rfl
@[simp] theorem State.setEngine_joinSeen (p e : Nat) (g : Engine) : (s.setEngine p e g).joinSeen = s.joinSeen := rfl
@[simp] theorem State.setEngine_blkFirst (p e : Nat) (g : Engine) : (s.setEngine p e g).blkFirst = s.blkFirst := rfl
@[simp] theorem State.setEngine_trams (p e : Nat) (g : Engine) : (s.setEngine p e g).trams = s.trams := rfl
@[simp] theorem State.setEngine_poisoned (p e : Nat) (g : Engine) : (s.setEngine p e g).poisoned = s.poisoned := rfl
@[simp] theorem State.setEngine_badReads (p e : Nat) (g : Engine) : (s.setEngine p e g).badReads = s.badReads := rfl

/-! setRing -/

@[simp] theorem State.setRing_now (p r : Nat) (g : Ring) : (s.setRing p r g).now = s.now := rfl
@[simp] theorem State.setRing_pending (p r : Nat) (g : Ring) : (s.setRing p r g).pending = s.pending := rfl
@[simp] theorem State.setRing_draws (p r : Nat) (g : Ring) : (s.setRing p r g).draws = s.draws := rfl
@[simp] theorem State.setRing_outbox (p r : Nat) (g : Ring) : (s.setRing p r g).outbox = s.outbox := rfl
@[simp] theorem State.setRing_regs (p r : Nat) (g : Ring) : (s.setRing p r g).regs = s.regs := rfl
@[simp] theorem State.setRing_mem (p r : Nat) (g : Ring) : (s.setRing p r g).mem = s.mem := rfl
@[simp] theorem State.setRing_flash (p r : Nat) (g : Ring) : (s.setRing p r g).flash = s.flash := rfl
@[simp] theorem State.setRing_rot (p r : Nat) (g : Ring) : (s.setRing p r g).rot = s.rot := rfl
@[simp] theorem State.setRing_pwr (p r : Nat) (g : Ring) : (s.setRing p r g).pwr = s.pwr := rfl
@[simp] theorem State.setRing_boot (p r : Nat) (g : Ring) : (s.setRing p r g).boot = s.boot := rfl
@[simp] theorem State.setRing_events (p r : Nat) (g : Ring) : (s.setRing p r g).events = s.events := rfl
@[simp] theorem State.setRing_ctrl (p r : Nat) (g : Ring) : (s.setRing p r g).ctrl = s.ctrl := rfl
@[simp] theorem State.setRing_lamp (p r : Nat) (g : Ring) : (s.setRing p r g).lamp = s.lamp := rfl
@[simp] theorem State.setRing_handles (p r : Nat) (g : Ring) : (s.setRing p r g).handles = s.handles := rfl
@[simp] theorem State.setRing_models (p r : Nat) (g : Ring) : (s.setRing p r g).models = s.models := rfl
@[simp] theorem State.setRing_jobs (p r : Nat) (g : Ring) : (s.setRing p r g).jobs = s.jobs := rfl
@[simp] theorem State.setRing_sessions (p r : Nat) (g : Ring) : (s.setRing p r g).sessions = s.sessions := rfl
@[simp] theorem State.setRing_levels (p r : Nat) (g : Ring) : (s.setRing p r g).levels = s.levels := rfl
@[simp] theorem State.setRing_rounds (p r : Nat) (g : Ring) : (s.setRing p r g).rounds = s.rounds := rfl
@[simp] theorem State.setRing_nextRound (p r : Nat) (g : Ring) : (s.setRing p r g).nextRound = s.nextRound := rfl
@[simp] theorem State.setRing_musters (p r : Nat) (g : Ring) : (s.setRing p r g).musters = s.musters := rfl
@[simp] theorem State.setRing_links (p r : Nat) (g : Ring) : (s.setRing p r g).links = s.links := rfl
@[simp] theorem State.setRing_servo (p r : Nat) (g : Ring) : (s.setRing p r g).servo = s.servo := rfl
@[simp] theorem State.setRing_frags (p r : Nat) (g : Ring) : (s.setRing p r g).frags = s.frags := rfl
@[simp] theorem State.setRing_resets (p r : Nat) (g : Ring) : (s.setRing p r g).resets = s.resets := rfl
@[simp] theorem State.setRing_shadow (p r : Nat) (g : Ring) : (s.setRing p r g).shadow = s.shadow := rfl
@[simp] theorem State.setRing_joinSeen (p r : Nat) (g : Ring) : (s.setRing p r g).joinSeen = s.joinSeen := rfl
@[simp] theorem State.setRing_blkFirst (p r : Nat) (g : Ring) : (s.setRing p r g).blkFirst = s.blkFirst := rfl
@[simp] theorem State.setRing_trams (p r : Nat) (g : Ring) : (s.setRing p r g).trams = s.trams := rfl
@[simp] theorem State.setRing_poisoned (p r : Nat) (g : Ring) : (s.setRing p r g).poisoned = s.poisoned := rfl
@[simp] theorem State.setRing_badReads (p r : Nat) (g : Ring) : (s.setRing p r g).badReads = s.badReads := rfl

/-! setLevel -/

@[simp] theorem State.setLevel_now (l : Nat) (v : Level) : (s.setLevel l v).now = s.now := rfl
@[simp] theorem State.setLevel_pending (l : Nat) (v : Level) : (s.setLevel l v).pending = s.pending := rfl
@[simp] theorem State.setLevel_draws (l : Nat) (v : Level) : (s.setLevel l v).draws = s.draws := rfl
@[simp] theorem State.setLevel_outbox (l : Nat) (v : Level) : (s.setLevel l v).outbox = s.outbox := rfl
@[simp] theorem State.setLevel_regs (l : Nat) (v : Level) : (s.setLevel l v).regs = s.regs := rfl
@[simp] theorem State.setLevel_mem (l : Nat) (v : Level) : (s.setLevel l v).mem = s.mem := rfl
@[simp] theorem State.setLevel_flash (l : Nat) (v : Level) : (s.setLevel l v).flash = s.flash := rfl
@[simp] theorem State.setLevel_rot (l : Nat) (v : Level) : (s.setLevel l v).rot = s.rot := rfl
@[simp] theorem State.setLevel_pwr (l : Nat) (v : Level) : (s.setLevel l v).pwr = s.pwr := rfl
@[simp] theorem State.setLevel_boot (l : Nat) (v : Level) : (s.setLevel l v).boot = s.boot := rfl
@[simp] theorem State.setLevel_events (l : Nat) (v : Level) : (s.setLevel l v).events = s.events := rfl
@[simp] theorem State.setLevel_ctrl (l : Nat) (v : Level) : (s.setLevel l v).ctrl = s.ctrl := rfl
@[simp] theorem State.setLevel_lamp (l : Nat) (v : Level) : (s.setLevel l v).lamp = s.lamp := rfl
@[simp] theorem State.setLevel_handles (l : Nat) (v : Level) : (s.setLevel l v).handles = s.handles := rfl
@[simp] theorem State.setLevel_models (l : Nat) (v : Level) : (s.setLevel l v).models = s.models := rfl
@[simp] theorem State.setLevel_jobs (l : Nat) (v : Level) : (s.setLevel l v).jobs = s.jobs := rfl
@[simp] theorem State.setLevel_sessions (l : Nat) (v : Level) : (s.setLevel l v).sessions = s.sessions := rfl
@[simp] theorem State.setLevel_faces (l : Nat) (v : Level) : (s.setLevel l v).faces = s.faces := rfl
@[simp] theorem State.setLevel_rounds (l : Nat) (v : Level) : (s.setLevel l v).rounds = s.rounds := rfl
@[simp] theorem State.setLevel_nextRound (l : Nat) (v : Level) : (s.setLevel l v).nextRound = s.nextRound := rfl
@[simp] theorem State.setLevel_musters (l : Nat) (v : Level) : (s.setLevel l v).musters = s.musters := rfl
@[simp] theorem State.setLevel_links (l : Nat) (v : Level) : (s.setLevel l v).links = s.links := rfl
@[simp] theorem State.setLevel_servo (l : Nat) (v : Level) : (s.setLevel l v).servo = s.servo := rfl
@[simp] theorem State.setLevel_frags (l : Nat) (v : Level) : (s.setLevel l v).frags = s.frags := rfl
@[simp] theorem State.setLevel_resets (l : Nat) (v : Level) : (s.setLevel l v).resets = s.resets := rfl
@[simp] theorem State.setLevel_shadow (l : Nat) (v : Level) : (s.setLevel l v).shadow = s.shadow := rfl
@[simp] theorem State.setLevel_joinSeen (l : Nat) (v : Level) : (s.setLevel l v).joinSeen = s.joinSeen := rfl
@[simp] theorem State.setLevel_blkFirst (l : Nat) (v : Level) : (s.setLevel l v).blkFirst = s.blkFirst := rfl
@[simp] theorem State.setLevel_trams (l : Nat) (v : Level) : (s.setLevel l v).trams = s.trams := rfl
@[simp] theorem State.setLevel_poisoned (l : Nat) (v : Level) : (s.setLevel l v).poisoned = s.poisoned := rfl
@[simp] theorem State.setLevel_badReads (l : Nat) (v : Level) : (s.setLevel l v).badReads = s.badReads := rfl

/-! setSes -/

@[simp] theorem State.setSes_now (id : Nat) (x : Session) : (s.setSes id x).now = s.now := rfl
@[simp] theorem State.setSes_pending (id : Nat) (x : Session) : (s.setSes id x).pending = s.pending := rfl
@[simp] theorem State.setSes_draws (id : Nat) (x : Session) : (s.setSes id x).draws = s.draws := rfl
@[simp] theorem State.setSes_outbox (id : Nat) (x : Session) : (s.setSes id x).outbox = s.outbox := rfl
@[simp] theorem State.setSes_regs (id : Nat) (x : Session) : (s.setSes id x).regs = s.regs := rfl
@[simp] theorem State.setSes_mem (id : Nat) (x : Session) : (s.setSes id x).mem = s.mem := rfl
@[simp] theorem State.setSes_flash (id : Nat) (x : Session) : (s.setSes id x).flash = s.flash := rfl
@[simp] theorem State.setSes_rot (id : Nat) (x : Session) : (s.setSes id x).rot = s.rot := rfl
@[simp] theorem State.setSes_pwr (id : Nat) (x : Session) : (s.setSes id x).pwr = s.pwr := rfl
@[simp] theorem State.setSes_boot (id : Nat) (x : Session) : (s.setSes id x).boot = s.boot := rfl
@[simp] theorem State.setSes_events (id : Nat) (x : Session) : (s.setSes id x).events = s.events := rfl
@[simp] theorem State.setSes_ctrl (id : Nat) (x : Session) : (s.setSes id x).ctrl = s.ctrl := rfl
@[simp] theorem State.setSes_lamp (id : Nat) (x : Session) : (s.setSes id x).lamp = s.lamp := rfl
@[simp] theorem State.setSes_handles (id : Nat) (x : Session) : (s.setSes id x).handles = s.handles := rfl
@[simp] theorem State.setSes_models (id : Nat) (x : Session) : (s.setSes id x).models = s.models := rfl
@[simp] theorem State.setSes_jobs (id : Nat) (x : Session) : (s.setSes id x).jobs = s.jobs := rfl
@[simp] theorem State.setSes_faces (id : Nat) (x : Session) : (s.setSes id x).faces = s.faces := rfl
@[simp] theorem State.setSes_levels (id : Nat) (x : Session) : (s.setSes id x).levels = s.levels := rfl
@[simp] theorem State.setSes_rounds (id : Nat) (x : Session) : (s.setSes id x).rounds = s.rounds := rfl
@[simp] theorem State.setSes_nextRound (id : Nat) (x : Session) : (s.setSes id x).nextRound = s.nextRound := rfl
@[simp] theorem State.setSes_musters (id : Nat) (x : Session) : (s.setSes id x).musters = s.musters := rfl
@[simp] theorem State.setSes_links (id : Nat) (x : Session) : (s.setSes id x).links = s.links := rfl
@[simp] theorem State.setSes_servo (id : Nat) (x : Session) : (s.setSes id x).servo = s.servo := rfl
@[simp] theorem State.setSes_frags (id : Nat) (x : Session) : (s.setSes id x).frags = s.frags := rfl
@[simp] theorem State.setSes_resets (id : Nat) (x : Session) : (s.setSes id x).resets = s.resets := rfl
@[simp] theorem State.setSes_shadow (id : Nat) (x : Session) : (s.setSes id x).shadow = s.shadow := rfl
@[simp] theorem State.setSes_joinSeen (id : Nat) (x : Session) : (s.setSes id x).joinSeen = s.joinSeen := rfl
@[simp] theorem State.setSes_blkFirst (id : Nat) (x : Session) : (s.setSes id x).blkFirst = s.blkFirst := rfl
@[simp] theorem State.setSes_trams (id : Nat) (x : Session) : (s.setSes id x).trams = s.trams := rfl
@[simp] theorem State.setSes_poisoned (id : Nat) (x : Session) : (s.setSes id x).poisoned = s.poisoned := rfl
@[simp] theorem State.setSes_badReads (id : Nat) (x : Session) : (s.setSes id x).badReads = s.badReads := rfl

/-! freeSes -/

@[simp] theorem State.freeSes_now (id : Nat) : (s.freeSes id).now = s.now := rfl
@[simp] theorem State.freeSes_pending (id : Nat) : (s.freeSes id).pending = s.pending := rfl
@[simp] theorem State.freeSes_draws (id : Nat) : (s.freeSes id).draws = s.draws := rfl
@[simp] theorem State.freeSes_outbox (id : Nat) : (s.freeSes id).outbox = s.outbox := rfl
@[simp] theorem State.freeSes_regs (id : Nat) : (s.freeSes id).regs = s.regs := rfl
@[simp] theorem State.freeSes_mem (id : Nat) : (s.freeSes id).mem = s.mem := rfl
@[simp] theorem State.freeSes_flash (id : Nat) : (s.freeSes id).flash = s.flash := rfl
@[simp] theorem State.freeSes_rot (id : Nat) : (s.freeSes id).rot = s.rot := rfl
@[simp] theorem State.freeSes_pwr (id : Nat) : (s.freeSes id).pwr = s.pwr := rfl
@[simp] theorem State.freeSes_boot (id : Nat) : (s.freeSes id).boot = s.boot := rfl
@[simp] theorem State.freeSes_events (id : Nat) : (s.freeSes id).events = s.events := rfl
@[simp] theorem State.freeSes_ctrl (id : Nat) : (s.freeSes id).ctrl = s.ctrl := rfl
@[simp] theorem State.freeSes_lamp (id : Nat) : (s.freeSes id).lamp = s.lamp := rfl
@[simp] theorem State.freeSes_handles (id : Nat) : (s.freeSes id).handles = s.handles := rfl
@[simp] theorem State.freeSes_models (id : Nat) : (s.freeSes id).models = s.models := rfl
@[simp] theorem State.freeSes_jobs (id : Nat) : (s.freeSes id).jobs = s.jobs := rfl
@[simp] theorem State.freeSes_faces (id : Nat) : (s.freeSes id).faces = s.faces := rfl
@[simp] theorem State.freeSes_levels (id : Nat) : (s.freeSes id).levels = s.levels := rfl
@[simp] theorem State.freeSes_rounds (id : Nat) : (s.freeSes id).rounds = s.rounds := rfl
@[simp] theorem State.freeSes_nextRound (id : Nat) : (s.freeSes id).nextRound = s.nextRound := rfl
@[simp] theorem State.freeSes_musters (id : Nat) : (s.freeSes id).musters = s.musters := rfl
@[simp] theorem State.freeSes_links (id : Nat) : (s.freeSes id).links = s.links := rfl
@[simp] theorem State.freeSes_servo (id : Nat) : (s.freeSes id).servo = s.servo := rfl
@[simp] theorem State.freeSes_frags (id : Nat) : (s.freeSes id).frags = s.frags := rfl
@[simp] theorem State.freeSes_resets (id : Nat) : (s.freeSes id).resets = s.resets := rfl
@[simp] theorem State.freeSes_shadow (id : Nat) : (s.freeSes id).shadow = s.shadow := rfl
@[simp] theorem State.freeSes_joinSeen (id : Nat) : (s.freeSes id).joinSeen = s.joinSeen := rfl
@[simp] theorem State.freeSes_blkFirst (id : Nat) : (s.freeSes id).blkFirst = s.blkFirst := rfl
@[simp] theorem State.freeSes_trams (id : Nat) : (s.freeSes id).trams = s.trams := rfl
@[simp] theorem State.freeSes_poisoned (id : Nat) : (s.freeSes id).poisoned = s.poisoned := rfl
@[simp] theorem State.freeSes_badReads (id : Nat) : (s.freeSes id).badReads = s.badReads := rfl

/-! bumpSes -/

@[simp] theorem State.bumpSes_now (id i n : Nat) : (s.bumpSes id i n).now = s.now := rfl
@[simp] theorem State.bumpSes_pending (id i n : Nat) : (s.bumpSes id i n).pending = s.pending := rfl
@[simp] theorem State.bumpSes_draws (id i n : Nat) : (s.bumpSes id i n).draws = s.draws := rfl
@[simp] theorem State.bumpSes_outbox (id i n : Nat) : (s.bumpSes id i n).outbox = s.outbox := rfl
@[simp] theorem State.bumpSes_regs (id i n : Nat) : (s.bumpSes id i n).regs = s.regs := rfl
@[simp] theorem State.bumpSes_mem (id i n : Nat) : (s.bumpSes id i n).mem = s.mem := rfl
@[simp] theorem State.bumpSes_flash (id i n : Nat) : (s.bumpSes id i n).flash = s.flash := rfl
@[simp] theorem State.bumpSes_rot (id i n : Nat) : (s.bumpSes id i n).rot = s.rot := rfl
@[simp] theorem State.bumpSes_pwr (id i n : Nat) : (s.bumpSes id i n).pwr = s.pwr := rfl
@[simp] theorem State.bumpSes_boot (id i n : Nat) : (s.bumpSes id i n).boot = s.boot := rfl
@[simp] theorem State.bumpSes_events (id i n : Nat) : (s.bumpSes id i n).events = s.events := rfl
@[simp] theorem State.bumpSes_ctrl (id i n : Nat) : (s.bumpSes id i n).ctrl = s.ctrl := rfl
@[simp] theorem State.bumpSes_lamp (id i n : Nat) : (s.bumpSes id i n).lamp = s.lamp := rfl
@[simp] theorem State.bumpSes_handles (id i n : Nat) : (s.bumpSes id i n).handles = s.handles := rfl
@[simp] theorem State.bumpSes_models (id i n : Nat) : (s.bumpSes id i n).models = s.models := rfl
@[simp] theorem State.bumpSes_jobs (id i n : Nat) : (s.bumpSes id i n).jobs = s.jobs := rfl
@[simp] theorem State.bumpSes_faces (id i n : Nat) : (s.bumpSes id i n).faces = s.faces := rfl
@[simp] theorem State.bumpSes_levels (id i n : Nat) : (s.bumpSes id i n).levels = s.levels := rfl
@[simp] theorem State.bumpSes_rounds (id i n : Nat) : (s.bumpSes id i n).rounds = s.rounds := rfl
@[simp] theorem State.bumpSes_nextRound (id i n : Nat) : (s.bumpSes id i n).nextRound = s.nextRound := rfl
@[simp] theorem State.bumpSes_musters (id i n : Nat) : (s.bumpSes id i n).musters = s.musters := rfl
@[simp] theorem State.bumpSes_links (id i n : Nat) : (s.bumpSes id i n).links = s.links := rfl
@[simp] theorem State.bumpSes_servo (id i n : Nat) : (s.bumpSes id i n).servo = s.servo := rfl
@[simp] theorem State.bumpSes_frags (id i n : Nat) : (s.bumpSes id i n).frags = s.frags := rfl
@[simp] theorem State.bumpSes_resets (id i n : Nat) : (s.bumpSes id i n).resets = s.resets := rfl
@[simp] theorem State.bumpSes_shadow (id i n : Nat) : (s.bumpSes id i n).shadow = s.shadow := rfl
@[simp] theorem State.bumpSes_joinSeen (id i n : Nat) : (s.bumpSes id i n).joinSeen = s.joinSeen := rfl
@[simp] theorem State.bumpSes_blkFirst (id i n : Nat) : (s.bumpSes id i n).blkFirst = s.blkFirst := rfl
@[simp] theorem State.bumpSes_trams (id i n : Nat) : (s.bumpSes id i n).trams = s.trams := rfl
@[simp] theorem State.bumpSes_poisoned (id i n : Nat) : (s.bumpSes id i n).poisoned = s.poisoned := rfl
@[simp] theorem State.bumpSes_badReads (id i n : Nat) : (s.bumpSes id i n).badReads = s.badReads := rfl

/-! setModel -/

@[simp] theorem State.setModel_now (m : Nat) (v : ModelSlot) : (s.setModel m v).now = s.now := rfl
@[simp] theorem State.setModel_pending (m : Nat) (v : ModelSlot) : (s.setModel m v).pending = s.pending := rfl
@[simp] theorem State.setModel_draws (m : Nat) (v : ModelSlot) : (s.setModel m v).draws = s.draws := rfl
@[simp] theorem State.setModel_outbox (m : Nat) (v : ModelSlot) : (s.setModel m v).outbox = s.outbox := rfl
@[simp] theorem State.setModel_regs (m : Nat) (v : ModelSlot) : (s.setModel m v).regs = s.regs := rfl
@[simp] theorem State.setModel_mem (m : Nat) (v : ModelSlot) : (s.setModel m v).mem = s.mem := rfl
@[simp] theorem State.setModel_flash (m : Nat) (v : ModelSlot) : (s.setModel m v).flash = s.flash := rfl
@[simp] theorem State.setModel_rot (m : Nat) (v : ModelSlot) : (s.setModel m v).rot = s.rot := rfl
@[simp] theorem State.setModel_pwr (m : Nat) (v : ModelSlot) : (s.setModel m v).pwr = s.pwr := rfl
@[simp] theorem State.setModel_boot (m : Nat) (v : ModelSlot) : (s.setModel m v).boot = s.boot := rfl
@[simp] theorem State.setModel_events (m : Nat) (v : ModelSlot) : (s.setModel m v).events = s.events := rfl
@[simp] theorem State.setModel_ctrl (m : Nat) (v : ModelSlot) : (s.setModel m v).ctrl = s.ctrl := rfl
@[simp] theorem State.setModel_lamp (m : Nat) (v : ModelSlot) : (s.setModel m v).lamp = s.lamp := rfl
@[simp] theorem State.setModel_handles (m : Nat) (v : ModelSlot) : (s.setModel m v).handles = s.handles := rfl
@[simp] theorem State.setModel_jobs (m : Nat) (v : ModelSlot) : (s.setModel m v).jobs = s.jobs := rfl
@[simp] theorem State.setModel_sessions (m : Nat) (v : ModelSlot) : (s.setModel m v).sessions = s.sessions := rfl
@[simp] theorem State.setModel_faces (m : Nat) (v : ModelSlot) : (s.setModel m v).faces = s.faces := rfl
@[simp] theorem State.setModel_levels (m : Nat) (v : ModelSlot) : (s.setModel m v).levels = s.levels := rfl
@[simp] theorem State.setModel_rounds (m : Nat) (v : ModelSlot) : (s.setModel m v).rounds = s.rounds := rfl
@[simp] theorem State.setModel_nextRound (m : Nat) (v : ModelSlot) : (s.setModel m v).nextRound = s.nextRound := rfl
@[simp] theorem State.setModel_musters (m : Nat) (v : ModelSlot) : (s.setModel m v).musters = s.musters := rfl
@[simp] theorem State.setModel_links (m : Nat) (v : ModelSlot) : (s.setModel m v).links = s.links := rfl
@[simp] theorem State.setModel_servo (m : Nat) (v : ModelSlot) : (s.setModel m v).servo = s.servo := rfl
@[simp] theorem State.setModel_frags (m : Nat) (v : ModelSlot) : (s.setModel m v).frags = s.frags := rfl
@[simp] theorem State.setModel_resets (m : Nat) (v : ModelSlot) : (s.setModel m v).resets = s.resets := rfl
@[simp] theorem State.setModel_shadow (m : Nat) (v : ModelSlot) : (s.setModel m v).shadow = s.shadow := rfl
@[simp] theorem State.setModel_joinSeen (m : Nat) (v : ModelSlot) : (s.setModel m v).joinSeen = s.joinSeen := rfl
@[simp] theorem State.setModel_blkFirst (m : Nat) (v : ModelSlot) : (s.setModel m v).blkFirst = s.blkFirst := rfl
@[simp] theorem State.setModel_trams (m : Nat) (v : ModelSlot) : (s.setModel m v).trams = s.trams := rfl
@[simp] theorem State.setModel_poisoned (m : Nat) (v : ModelSlot) : (s.setModel m v).poisoned = s.poisoned := rfl
@[simp] theorem State.setModel_badReads (m : Nat) (v : ModelSlot) : (s.setModel m v).badReads = s.badReads := rfl

/-! setJob -/

@[simp] theorem State.setJob_now (j : Job) : (s.setJob j).now = s.now := rfl
@[simp] theorem State.setJob_pending (j : Job) : (s.setJob j).pending = s.pending := rfl
@[simp] theorem State.setJob_draws (j : Job) : (s.setJob j).draws = s.draws := rfl
@[simp] theorem State.setJob_outbox (j : Job) : (s.setJob j).outbox = s.outbox := rfl
@[simp] theorem State.setJob_regs (j : Job) : (s.setJob j).regs = s.regs := rfl
@[simp] theorem State.setJob_mem (j : Job) : (s.setJob j).mem = s.mem := rfl
@[simp] theorem State.setJob_flash (j : Job) : (s.setJob j).flash = s.flash := rfl
@[simp] theorem State.setJob_rot (j : Job) : (s.setJob j).rot = s.rot := rfl
@[simp] theorem State.setJob_pwr (j : Job) : (s.setJob j).pwr = s.pwr := rfl
@[simp] theorem State.setJob_boot (j : Job) : (s.setJob j).boot = s.boot := rfl
@[simp] theorem State.setJob_events (j : Job) : (s.setJob j).events = s.events := rfl
@[simp] theorem State.setJob_ctrl (j : Job) : (s.setJob j).ctrl = s.ctrl := rfl
@[simp] theorem State.setJob_lamp (j : Job) : (s.setJob j).lamp = s.lamp := rfl
@[simp] theorem State.setJob_handles (j : Job) : (s.setJob j).handles = s.handles := rfl
@[simp] theorem State.setJob_models (j : Job) : (s.setJob j).models = s.models := rfl
@[simp] theorem State.setJob_sessions (j : Job) : (s.setJob j).sessions = s.sessions := rfl
@[simp] theorem State.setJob_faces (j : Job) : (s.setJob j).faces = s.faces := rfl
@[simp] theorem State.setJob_levels (j : Job) : (s.setJob j).levels = s.levels := rfl
@[simp] theorem State.setJob_rounds (j : Job) : (s.setJob j).rounds = s.rounds := rfl
@[simp] theorem State.setJob_nextRound (j : Job) : (s.setJob j).nextRound = s.nextRound := rfl
@[simp] theorem State.setJob_musters (j : Job) : (s.setJob j).musters = s.musters := rfl
@[simp] theorem State.setJob_links (j : Job) : (s.setJob j).links = s.links := rfl
@[simp] theorem State.setJob_servo (j : Job) : (s.setJob j).servo = s.servo := rfl
@[simp] theorem State.setJob_frags (j : Job) : (s.setJob j).frags = s.frags := rfl
@[simp] theorem State.setJob_resets (j : Job) : (s.setJob j).resets = s.resets := rfl
@[simp] theorem State.setJob_shadow (j : Job) : (s.setJob j).shadow = s.shadow := rfl
@[simp] theorem State.setJob_joinSeen (j : Job) : (s.setJob j).joinSeen = s.joinSeen := rfl
@[simp] theorem State.setJob_blkFirst (j : Job) : (s.setJob j).blkFirst = s.blkFirst := rfl
@[simp] theorem State.setJob_trams (j : Job) : (s.setJob j).trams = s.trams := rfl
@[simp] theorem State.setJob_poisoned (j : Job) : (s.setJob j).poisoned = s.poisoned := rfl
@[simp] theorem State.setJob_badReads (j : Job) : (s.setJob j).badReads = s.badReads := rfl

/-! send -/

@[simp] theorem State.send_now (m : OutMsg) : (s.send m).now = s.now := rfl
@[simp] theorem State.send_pending (m : OutMsg) : (s.send m).pending = s.pending := rfl
@[simp] theorem State.send_draws (m : OutMsg) : (s.send m).draws = s.draws := rfl
@[simp] theorem State.send_regs (m : OutMsg) : (s.send m).regs = s.regs := rfl
@[simp] theorem State.send_mem (m : OutMsg) : (s.send m).mem = s.mem := rfl
@[simp] theorem State.send_flash (m : OutMsg) : (s.send m).flash = s.flash := rfl
@[simp] theorem State.send_rot (m : OutMsg) : (s.send m).rot = s.rot := rfl
@[simp] theorem State.send_pwr (m : OutMsg) : (s.send m).pwr = s.pwr := rfl
@[simp] theorem State.send_boot (m : OutMsg) : (s.send m).boot = s.boot := rfl
@[simp] theorem State.send_events (m : OutMsg) : (s.send m).events = s.events := rfl
@[simp] theorem State.send_ctrl (m : OutMsg) : (s.send m).ctrl = s.ctrl := rfl
@[simp] theorem State.send_lamp (m : OutMsg) : (s.send m).lamp = s.lamp := rfl
@[simp] theorem State.send_handles (m : OutMsg) : (s.send m).handles = s.handles := rfl
@[simp] theorem State.send_models (m : OutMsg) : (s.send m).models = s.models := rfl
@[simp] theorem State.send_jobs (m : OutMsg) : (s.send m).jobs = s.jobs := rfl
@[simp] theorem State.send_sessions (m : OutMsg) : (s.send m).sessions = s.sessions := rfl
@[simp] theorem State.send_faces (m : OutMsg) : (s.send m).faces = s.faces := rfl
@[simp] theorem State.send_levels (m : OutMsg) : (s.send m).levels = s.levels := rfl
@[simp] theorem State.send_rounds (m : OutMsg) : (s.send m).rounds = s.rounds := rfl
@[simp] theorem State.send_nextRound (m : OutMsg) : (s.send m).nextRound = s.nextRound := rfl
@[simp] theorem State.send_musters (m : OutMsg) : (s.send m).musters = s.musters := rfl
@[simp] theorem State.send_links (m : OutMsg) : (s.send m).links = s.links := rfl
@[simp] theorem State.send_servo (m : OutMsg) : (s.send m).servo = s.servo := rfl
@[simp] theorem State.send_frags (m : OutMsg) : (s.send m).frags = s.frags := rfl
@[simp] theorem State.send_resets (m : OutMsg) : (s.send m).resets = s.resets := rfl
@[simp] theorem State.send_shadow (m : OutMsg) : (s.send m).shadow = s.shadow := rfl
@[simp] theorem State.send_joinSeen (m : OutMsg) : (s.send m).joinSeen = s.joinSeen := rfl
@[simp] theorem State.send_blkFirst (m : OutMsg) : (s.send m).blkFirst = s.blkFirst := rfl
@[simp] theorem State.send_trams (m : OutMsg) : (s.send m).trams = s.trams := rfl
@[simp] theorem State.send_poisoned (m : OutMsg) : (s.send m).poisoned = s.poisoned := rfl
@[simp] theorem State.send_badReads (m : OutMsg) : (s.send m).badReads = s.badReads := rfl

/-! takeEntry -/

@[simp] theorem State.takeEntry_now (e : HfEntry) : (s.takeEntry e).now = s.now := rfl
@[simp] theorem State.takeEntry_pending (e : HfEntry) : (s.takeEntry e).pending = s.pending := rfl
@[simp] theorem State.takeEntry_draws (e : HfEntry) : (s.takeEntry e).draws = s.draws := rfl
@[simp] theorem State.takeEntry_outbox (e : HfEntry) : (s.takeEntry e).outbox = s.outbox := rfl
@[simp] theorem State.takeEntry_regs (e : HfEntry) : (s.takeEntry e).regs = s.regs := rfl
@[simp] theorem State.takeEntry_mem (e : HfEntry) : (s.takeEntry e).mem = s.mem := rfl
@[simp] theorem State.takeEntry_flash (e : HfEntry) : (s.takeEntry e).flash = s.flash := rfl
@[simp] theorem State.takeEntry_rot (e : HfEntry) : (s.takeEntry e).rot = s.rot := rfl
@[simp] theorem State.takeEntry_pwr (e : HfEntry) : (s.takeEntry e).pwr = s.pwr := rfl
@[simp] theorem State.takeEntry_boot (e : HfEntry) : (s.takeEntry e).boot = s.boot := rfl
@[simp] theorem State.takeEntry_events (e : HfEntry) : (s.takeEntry e).events = s.events := rfl
@[simp] theorem State.takeEntry_lamp (e : HfEntry) : (s.takeEntry e).lamp = s.lamp := rfl
@[simp] theorem State.takeEntry_handles (e : HfEntry) : (s.takeEntry e).handles = s.handles := rfl
@[simp] theorem State.takeEntry_models (e : HfEntry) : (s.takeEntry e).models = s.models := rfl
@[simp] theorem State.takeEntry_jobs (e : HfEntry) : (s.takeEntry e).jobs = s.jobs := rfl
@[simp] theorem State.takeEntry_sessions (e : HfEntry) : (s.takeEntry e).sessions = s.sessions := rfl
@[simp] theorem State.takeEntry_faces (e : HfEntry) : (s.takeEntry e).faces = s.faces := rfl
@[simp] theorem State.takeEntry_levels (e : HfEntry) : (s.takeEntry e).levels = s.levels := rfl
@[simp] theorem State.takeEntry_rounds (e : HfEntry) : (s.takeEntry e).rounds = s.rounds := rfl
@[simp] theorem State.takeEntry_nextRound (e : HfEntry) : (s.takeEntry e).nextRound = s.nextRound := rfl
@[simp] theorem State.takeEntry_musters (e : HfEntry) : (s.takeEntry e).musters = s.musters := rfl
@[simp] theorem State.takeEntry_links (e : HfEntry) : (s.takeEntry e).links = s.links := rfl
@[simp] theorem State.takeEntry_servo (e : HfEntry) : (s.takeEntry e).servo = s.servo := rfl
@[simp] theorem State.takeEntry_frags (e : HfEntry) : (s.takeEntry e).frags = s.frags := rfl
@[simp] theorem State.takeEntry_resets (e : HfEntry) : (s.takeEntry e).resets = s.resets := rfl
@[simp] theorem State.takeEntry_shadow (e : HfEntry) : (s.takeEntry e).shadow = s.shadow := rfl
@[simp] theorem State.takeEntry_joinSeen (e : HfEntry) : (s.takeEntry e).joinSeen = s.joinSeen := rfl
@[simp] theorem State.takeEntry_blkFirst (e : HfEntry) : (s.takeEntry e).blkFirst = s.blkFirst := rfl
@[simp] theorem State.takeEntry_trams (e : HfEntry) : (s.takeEntry e).trams = s.trams := rfl
@[simp] theorem State.takeEntry_poisoned (e : HfEntry) : (s.takeEntry e).poisoned = s.poisoned := rfl
@[simp] theorem State.takeEntry_badReads (e : HfEntry) : (s.takeEntry e).badReads = s.badReads := rfl

/-! enqueue -/

@[simp] theorem State.enqueue_now (e : HfEntry) : (s.enqueue e).now = s.now := rfl
@[simp] theorem State.enqueue_pending (e : HfEntry) : (s.enqueue e).pending = s.pending := rfl
@[simp] theorem State.enqueue_draws (e : HfEntry) : (s.enqueue e).draws = s.draws := rfl
@[simp] theorem State.enqueue_outbox (e : HfEntry) : (s.enqueue e).outbox = s.outbox := rfl
@[simp] theorem State.enqueue_regs (e : HfEntry) : (s.enqueue e).regs = s.regs := rfl
@[simp] theorem State.enqueue_mem (e : HfEntry) : (s.enqueue e).mem = s.mem := rfl
@[simp] theorem State.enqueue_flash (e : HfEntry) : (s.enqueue e).flash = s.flash := rfl
@[simp] theorem State.enqueue_rot (e : HfEntry) : (s.enqueue e).rot = s.rot := rfl
@[simp] theorem State.enqueue_pwr (e : HfEntry) : (s.enqueue e).pwr = s.pwr := rfl
@[simp] theorem State.enqueue_boot (e : HfEntry) : (s.enqueue e).boot = s.boot := rfl
@[simp] theorem State.enqueue_events (e : HfEntry) : (s.enqueue e).events = s.events := rfl
@[simp] theorem State.enqueue_lamp (e : HfEntry) : (s.enqueue e).lamp = s.lamp := rfl
@[simp] theorem State.enqueue_handles (e : HfEntry) : (s.enqueue e).handles = s.handles := rfl
@[simp] theorem State.enqueue_models (e : HfEntry) : (s.enqueue e).models = s.models := rfl
@[simp] theorem State.enqueue_jobs (e : HfEntry) : (s.enqueue e).jobs = s.jobs := rfl
@[simp] theorem State.enqueue_sessions (e : HfEntry) : (s.enqueue e).sessions = s.sessions := rfl
@[simp] theorem State.enqueue_faces (e : HfEntry) : (s.enqueue e).faces = s.faces := rfl
@[simp] theorem State.enqueue_levels (e : HfEntry) : (s.enqueue e).levels = s.levels := rfl
@[simp] theorem State.enqueue_rounds (e : HfEntry) : (s.enqueue e).rounds = s.rounds := rfl
@[simp] theorem State.enqueue_nextRound (e : HfEntry) : (s.enqueue e).nextRound = s.nextRound := rfl
@[simp] theorem State.enqueue_musters (e : HfEntry) : (s.enqueue e).musters = s.musters := rfl
@[simp] theorem State.enqueue_links (e : HfEntry) : (s.enqueue e).links = s.links := rfl
@[simp] theorem State.enqueue_servo (e : HfEntry) : (s.enqueue e).servo = s.servo := rfl
@[simp] theorem State.enqueue_frags (e : HfEntry) : (s.enqueue e).frags = s.frags := rfl
@[simp] theorem State.enqueue_resets (e : HfEntry) : (s.enqueue e).resets = s.resets := rfl
@[simp] theorem State.enqueue_shadow (e : HfEntry) : (s.enqueue e).shadow = s.shadow := rfl
@[simp] theorem State.enqueue_joinSeen (e : HfEntry) : (s.enqueue e).joinSeen = s.joinSeen := rfl
@[simp] theorem State.enqueue_blkFirst (e : HfEntry) : (s.enqueue e).blkFirst = s.blkFirst := rfl
@[simp] theorem State.enqueue_trams (e : HfEntry) : (s.enqueue e).trams = s.trams := rfl
@[simp] theorem State.enqueue_poisoned (e : HfEntry) : (s.enqueue e).poisoned = s.poisoned := rfl
@[simp] theorem State.enqueue_badReads (e : HfEntry) : (s.enqueue e).badReads = s.badReads := rfl

/-! removeRound -/

@[simp] theorem State.removeRound_now (id : Nat) : (s.removeRound id).now = s.now := rfl
@[simp] theorem State.removeRound_pending (id : Nat) : (s.removeRound id).pending = s.pending := rfl
@[simp] theorem State.removeRound_draws (id : Nat) : (s.removeRound id).draws = s.draws := rfl
@[simp] theorem State.removeRound_outbox (id : Nat) : (s.removeRound id).outbox = s.outbox := rfl
@[simp] theorem State.removeRound_regs (id : Nat) : (s.removeRound id).regs = s.regs := rfl
@[simp] theorem State.removeRound_mem (id : Nat) : (s.removeRound id).mem = s.mem := rfl
@[simp] theorem State.removeRound_flash (id : Nat) : (s.removeRound id).flash = s.flash := rfl
@[simp] theorem State.removeRound_rot (id : Nat) : (s.removeRound id).rot = s.rot := rfl
@[simp] theorem State.removeRound_pwr (id : Nat) : (s.removeRound id).pwr = s.pwr := rfl
@[simp] theorem State.removeRound_boot (id : Nat) : (s.removeRound id).boot = s.boot := rfl
@[simp] theorem State.removeRound_events (id : Nat) : (s.removeRound id).events = s.events := rfl
@[simp] theorem State.removeRound_ctrl (id : Nat) : (s.removeRound id).ctrl = s.ctrl := rfl
@[simp] theorem State.removeRound_lamp (id : Nat) : (s.removeRound id).lamp = s.lamp := rfl
@[simp] theorem State.removeRound_handles (id : Nat) : (s.removeRound id).handles = s.handles := rfl
@[simp] theorem State.removeRound_models (id : Nat) : (s.removeRound id).models = s.models := rfl
@[simp] theorem State.removeRound_jobs (id : Nat) : (s.removeRound id).jobs = s.jobs := rfl
@[simp] theorem State.removeRound_sessions (id : Nat) : (s.removeRound id).sessions = s.sessions := rfl
@[simp] theorem State.removeRound_faces (id : Nat) : (s.removeRound id).faces = s.faces := rfl
@[simp] theorem State.removeRound_levels (id : Nat) : (s.removeRound id).levels = s.levels := rfl
@[simp] theorem State.removeRound_nextRound (id : Nat) : (s.removeRound id).nextRound = s.nextRound := rfl
@[simp] theorem State.removeRound_musters (id : Nat) : (s.removeRound id).musters = s.musters := rfl
@[simp] theorem State.removeRound_links (id : Nat) : (s.removeRound id).links = s.links := rfl
@[simp] theorem State.removeRound_servo (id : Nat) : (s.removeRound id).servo = s.servo := rfl
@[simp] theorem State.removeRound_frags (id : Nat) : (s.removeRound id).frags = s.frags := rfl
@[simp] theorem State.removeRound_resets (id : Nat) : (s.removeRound id).resets = s.resets := rfl
@[simp] theorem State.removeRound_shadow (id : Nat) : (s.removeRound id).shadow = s.shadow := rfl
@[simp] theorem State.removeRound_joinSeen (id : Nat) : (s.removeRound id).joinSeen = s.joinSeen := rfl
@[simp] theorem State.removeRound_blkFirst (id : Nat) : (s.removeRound id).blkFirst = s.blkFirst := rfl
@[simp] theorem State.removeRound_trams (id : Nat) : (s.removeRound id).trams = s.trams := rfl
@[simp] theorem State.removeRound_poisoned (id : Nat) : (s.removeRound id).poisoned = s.poisoned := rfl
@[simp] theorem State.removeRound_badReads (id : Nat) : (s.removeRound id).badReads = s.badReads := rfl

/-! setRound -/

@[simp] theorem State.setRound_now (r : Round) : (s.setRound r).now = s.now := rfl
@[simp] theorem State.setRound_pending (r : Round) : (s.setRound r).pending = s.pending := rfl
@[simp] theorem State.setRound_draws (r : Round) : (s.setRound r).draws = s.draws := rfl
@[simp] theorem State.setRound_outbox (r : Round) : (s.setRound r).outbox = s.outbox := rfl
@[simp] theorem State.setRound_regs (r : Round) : (s.setRound r).regs = s.regs := rfl
@[simp] theorem State.setRound_mem (r : Round) : (s.setRound r).mem = s.mem := rfl
@[simp] theorem State.setRound_flash (r : Round) : (s.setRound r).flash = s.flash := rfl
@[simp] theorem State.setRound_rot (r : Round) : (s.setRound r).rot = s.rot := rfl
@[simp] theorem State.setRound_pwr (r : Round) : (s.setRound r).pwr = s.pwr := rfl
@[simp] theorem State.setRound_boot (r : Round) : (s.setRound r).boot = s.boot := rfl
@[simp] theorem State.setRound_events (r : Round) : (s.setRound r).events = s.events := rfl
@[simp] theorem State.setRound_ctrl (r : Round) : (s.setRound r).ctrl = s.ctrl := rfl
@[simp] theorem State.setRound_lamp (r : Round) : (s.setRound r).lamp = s.lamp := rfl
@[simp] theorem State.setRound_handles (r : Round) : (s.setRound r).handles = s.handles := rfl
@[simp] theorem State.setRound_models (r : Round) : (s.setRound r).models = s.models := rfl
@[simp] theorem State.setRound_jobs (r : Round) : (s.setRound r).jobs = s.jobs := rfl
@[simp] theorem State.setRound_sessions (r : Round) : (s.setRound r).sessions = s.sessions := rfl
@[simp] theorem State.setRound_faces (r : Round) : (s.setRound r).faces = s.faces := rfl
@[simp] theorem State.setRound_levels (r : Round) : (s.setRound r).levels = s.levels := rfl
@[simp] theorem State.setRound_nextRound (r : Round) : (s.setRound r).nextRound = s.nextRound := rfl
@[simp] theorem State.setRound_musters (r : Round) : (s.setRound r).musters = s.musters := rfl
@[simp] theorem State.setRound_links (r : Round) : (s.setRound r).links = s.links := rfl
@[simp] theorem State.setRound_servo (r : Round) : (s.setRound r).servo = s.servo := rfl
@[simp] theorem State.setRound_frags (r : Round) : (s.setRound r).frags = s.frags := rfl
@[simp] theorem State.setRound_resets (r : Round) : (s.setRound r).resets = s.resets := rfl
@[simp] theorem State.setRound_shadow (r : Round) : (s.setRound r).shadow = s.shadow := rfl
@[simp] theorem State.setRound_joinSeen (r : Round) : (s.setRound r).joinSeen = s.joinSeen := rfl
@[simp] theorem State.setRound_blkFirst (r : Round) : (s.setRound r).blkFirst = s.blkFirst := rfl
@[simp] theorem State.setRound_trams (r : Round) : (s.setRound r).trams = s.trams := rfl
@[simp] theorem State.setRound_poisoned (r : Round) : (s.setRound r).poisoned = s.poisoned := rfl
@[simp] theorem State.setRound_badReads (r : Round) : (s.setRound r).badReads = s.badReads := rfl

/-! takeLine -/

@[simp] theorem State.takeLine_now : (s.takeLine).now = s.now := rfl
@[simp] theorem State.takeLine_pending : (s.takeLine).pending = s.pending := rfl
@[simp] theorem State.takeLine_draws : (s.takeLine).draws = s.draws := rfl
@[simp] theorem State.takeLine_regs : (s.takeLine).regs = s.regs := rfl
@[simp] theorem State.takeLine_mem : (s.takeLine).mem = s.mem := rfl
@[simp] theorem State.takeLine_flash : (s.takeLine).flash = s.flash := rfl
@[simp] theorem State.takeLine_rot : (s.takeLine).rot = s.rot := rfl
@[simp] theorem State.takeLine_pwr : (s.takeLine).pwr = s.pwr := rfl
@[simp] theorem State.takeLine_boot : (s.takeLine).boot = s.boot := rfl
@[simp] theorem State.takeLine_events : (s.takeLine).events = s.events := rfl
@[simp] theorem State.takeLine_ctrl : (s.takeLine).ctrl = s.ctrl := rfl
@[simp] theorem State.takeLine_handles : (s.takeLine).handles = s.handles := rfl
@[simp] theorem State.takeLine_models : (s.takeLine).models = s.models := rfl
@[simp] theorem State.takeLine_jobs : (s.takeLine).jobs = s.jobs := rfl
@[simp] theorem State.takeLine_sessions : (s.takeLine).sessions = s.sessions := rfl
@[simp] theorem State.takeLine_faces : (s.takeLine).faces = s.faces := rfl
@[simp] theorem State.takeLine_levels : (s.takeLine).levels = s.levels := rfl
@[simp] theorem State.takeLine_rounds : (s.takeLine).rounds = s.rounds := rfl
@[simp] theorem State.takeLine_nextRound : (s.takeLine).nextRound = s.nextRound := rfl
@[simp] theorem State.takeLine_musters : (s.takeLine).musters = s.musters := rfl
@[simp] theorem State.takeLine_links : (s.takeLine).links = s.links := rfl
@[simp] theorem State.takeLine_servo : (s.takeLine).servo = s.servo := rfl
@[simp] theorem State.takeLine_frags : (s.takeLine).frags = s.frags := rfl
@[simp] theorem State.takeLine_resets : (s.takeLine).resets = s.resets := rfl
@[simp] theorem State.takeLine_shadow : (s.takeLine).shadow = s.shadow := rfl
@[simp] theorem State.takeLine_joinSeen : (s.takeLine).joinSeen = s.joinSeen := rfl
@[simp] theorem State.takeLine_blkFirst : (s.takeLine).blkFirst = s.blkFirst := rfl
@[simp] theorem State.takeLine_trams : (s.takeLine).trams = s.trams := rfl
@[simp] theorem State.takeLine_poisoned : (s.takeLine).poisoned = s.poisoned := rfl
@[simp] theorem State.takeLine_badReads : (s.takeLine).badReads = s.badReads := rfl

end Sys2Proof.Machine
end

