-- ==== Sys2Proof/Laws/Memory.lean ====
section
/-! SUPPORT. Sparse maps: what a read gives after a write, and that every operation keeps the canonical form of device
memory, of flash and of the register file. -/

namespace Sys2Proof.Machine

variable {α : Type}

/-! Reads. -/

theorem spGet_nil (d : α) (a : Nat) : spGet d [] a = d := rfl

theorem spGet_cons (d : α) (e : Nat × α) (r : List (Nat × α)) (a : Nat) :
    spGet d (e :: r) a = if e.1 = a then e.2 else spGet d r a := by
  unfold spGet
  by_cases h : e.1 = a <;> simp [h]

theorem spGet_spDrop_other (d : α) (m : List (Nat × α)) {a b : Nat} (h : b ≠ a) : spGet d (spDrop m a) b = spGet d m b := by
  induction m with
  | nil => rfl
  | cons e r ih =>
    by_cases he : e.1 = a
    · have h1 : spDrop (e :: r) a = spDrop r a := by simp [spDrop, he]
      rw [h1, ih, spGet_cons, if_neg (by omega)]
    · have h1 : spDrop (e :: r) a = e :: spDrop r a := by simp [spDrop, he]
      rw [h1, spGet_cons, spGet_cons, ih]

theorem spGet_spDrop_same (d : α) (m : List (Nat × α)) (a : Nat) : spGet d (spDrop m a) a = d := by
  induction m with
  | nil => rfl
  | cons e r ih =>
    by_cases he : e.1 = a
    · have h1 : spDrop (e :: r) a = spDrop r a := by simp [spDrop, he]
      rw [h1, ih]
    · have h1 : spDrop (e :: r) a = e :: spDrop r a := by simp [spDrop, he]
      rw [h1, spGet_cons, if_neg he, ih]

theorem spGet_spInsert (d v : α) (a b : Nat) (m : List (Nat × α)) (h : b = a → ∀ e ∈ m, e.1 ≠ a) :
    spGet d (spInsert a v m) b = if b = a then v else spGet d m b := by
  induction m with
  | nil => simp [spInsert, spGet_cons, spGet_nil, eq_comm]
  | cons e r ih =>
    have ih' := ih (fun hb x hx => h hb x (List.mem_cons_of_mem _ hx))
    unfold spInsert
    split
    · rw [spGet_cons, ih', spGet_cons]
      by_cases hb : b = a
      · have := h hb e List.mem_cons_self
        simp [hb, this]
      · simp [hb]
    · rw [spGet_cons]; simp [eq_comm]

theorem mem_spDrop {m : List (Nat × α)} {a : Nat} {e : Nat × α} : e ∈ spDrop m a ↔ e ∈ m ∧ e.1 ≠ a := by
  simp [spDrop]

/-- A read of a map after one key is set. -/
@[simp] theorem spGet_spSet (d v : α) (m : List (Nat × α)) (a b : Nat) :
    spGet d (spSet m a v) b = if b = a then v else spGet d m b := by
  unfold spSet
  rw [spGet_spInsert d v a b _ (fun _ e he => (mem_spDrop.1 he).2)]
  by_cases h : b = a
  · simp [h]
  · simp [h, spGet_spDrop_other d m h]

/-- A read of a canonical map after one key is written. -/
@[simp] theorem spGet_spPut [DecidableEq α] (d v : α) (m : List (Nat × α)) (a b : Nat) :
    spGet d (spPut d m a v) b = if b = a then v else spGet d m b := by
  unfold spPut
  split
  · by_cases h : b = a
    · subst h; rename_i hv; simp [spGet_spDrop_same, hv]
    · simp [h, spGet_spDrop_other d m h]
  · simp

/-- A read after a key is dropped: that key reads as an unlisted one. -/
@[simp] theorem spGet_spDrop (d : α) (m : List (Nat × α)) (a b : Nat) :
    spGet d (spDrop m a) b = if b = a then d else spGet d m b := by
  by_cases h : b = a
  · subst h; simp [spGet_spDrop_same]
  · simp [h, spGet_spDrop_other d m h]

/-- A write of a run of bytes leaves every address outside the run as it was. -/
theorem spGet_spPuts_outside [DecidableEq α] (d : α) (l : List α) :
    ∀ (m : List (Nat × α)) (a b : Nat), b < a ∨ a + l.length ≤ b → spGet d (spPuts d m a l) b = spGet d m b := by
  induction l with
  | nil => intro m a b _; rfl
  | cons v r ih =>
    intro m a b h
    have h' : b < a ∨ a + (r.length + 1) ≤ b := by simpa using h
    rw [spPuts, ih (spPut d m a v) (a + 1) b (by omega), spGet_spPut, if_neg (by omega)]

/-- A write of a run of bytes leaves them at its addresses. -/
theorem spGet_spPuts_inside [DecidableEq α] (d : α) (l : List α) :
    ∀ (m : List (Nat × α)) (a i : Nat), i < l.length → spGet d (spPuts d m a l) (a + i) = l.getD i d := by
  induction l with
  | nil => intro m a i h; simp at h
  | cons v r ih =>
    intro m a i h
    rw [spPuts]
    cases i with
    | zero =>
      rw [spGet_spPuts_outside d r _ (a + 1) (a + 0) (by omega), spGet_spPut]
      simp
    | succ i =>
      have h2 : i < r.length := by simpa using h
      have h3 := ih (spPut d m a v) (a + 1) i h2
      have h4 : a + 1 + i = a + (i + 1) := by omega
      rw [h4] at h3
      rw [h3]; simp

/-! The canonical form. -/

theorem keysRise_cons {e : Nat × α} {r : List (Nat × α)} :
    keysRise (e :: r) = true ↔ (∀ x ∈ r, e.1 < x.1) ∧ keysRise r = true := by
  induction r generalizing e with
  | nil => simp [keysRise]
  | cons b r ih =>
    have hb := ih (e := b)
    simp only [keysRise, Bool.and_eq_true, decide_eq_true_eq]
    constructor
    · rintro ⟨h1, h2⟩
      refine ⟨?_, h2⟩
      intro x hx
      rcases List.mem_cons.1 hx with rfl | hx
      · exact h1
      · exact Nat.lt_trans h1 ((hb.1 h2).1 x hx)
    · rintro ⟨h1, h2⟩
      exact ⟨h1 b List.mem_cons_self, h2⟩

theorem keysRise_filter (p : Nat × α → Bool) {m : List (Nat × α)} (h : keysRise m = true) : keysRise (m.filter p) = true := by
  induction m with
  | nil => rfl
  | cons e r ih =>
    rw [keysRise_cons] at h
    by_cases hp : p e = true
    · rw [List.filter_cons_of_pos hp, keysRise_cons]
      exact ⟨fun x hx => h.1 x (List.mem_filter.1 hx).1, ih h.2⟩
    · rw [List.filter_cons_of_neg hp]; exact ih h.2

theorem mem_spInsert {a : Nat} {v : α} {m : List (Nat × α)} {x : Nat × α} : x ∈ spInsert a v m ↔ x = (a, v) ∨ x ∈ m := by
  induction m with
  | nil => simp [spInsert]
  | cons e r ih =>
    unfold spInsert
    split
    · simp only [List.mem_cons, ih]; tauto
    · simp only [List.mem_cons]

theorem keysRise_spInsert {a : Nat} {v : α} {m : List (Nat × α)} (h : keysRise m = true) (hn : ∀ e ∈ m, e.1 ≠ a) :
    keysRise (spInsert a v m) = true := by
  induction m with
  | nil => rfl
  | cons e r ih =>
    have hc := keysRise_cons.1 h
    unfold spInsert
    split
    · rename_i hlt
      rw [keysRise_cons]
      refine ⟨?_, ih hc.2 (fun x hx => hn x (List.mem_cons_of_mem _ hx))⟩
      intro x hx
      rcases mem_spInsert.1 hx with rfl | hx
      · exact hlt
      · exact hc.1 x hx
    · rename_i hge
      have hne := hn e List.mem_cons_self
      rw [keysRise_cons]
      refine ⟨?_, h⟩
      intro x hx
      rcases List.mem_cons.1 hx with rfl | hx
      · show a < x.1; omega
      · have := hc.1 x hx; show a < x.1; omega

theorem keysRise_spSet {m : List (Nat × α)} (a : Nat) (v : α) (h : keysRise m = true) : keysRise (spSet m a v) = true :=
  keysRise_spInsert (keysRise_filter _ h) (fun _ he => (mem_spDrop.1 he).2)

theorem keysRise_spPut [DecidableEq α] {m : List (Nat × α)} (d : α) (a : Nat) (v : α) (h : keysRise m = true) :
    keysRise (spPut d m a v) = true := by
  unfold spPut
  split
  · exact keysRise_filter _ h
  · exact keysRise_spSet a v h

theorem mem_spPut [DecidableEq α] {d v : α} {m : List (Nat × α)} {a : Nat} {e : Nat × α} (h : e ∈ spPut d m a v) :
    e ∈ m ∨ (e = (a, v) ∧ v ≠ d) := by
  unfold spPut at h
  split at h
  · exact .inl (mem_spDrop.1 h).1
  · rename_i hv
    rcases mem_spInsert.1 h with rfl | h
    · exact .inr ⟨rfl, hv⟩
    · exact .inl (mem_spDrop.1 h).1

/-- The canonical form of a memory, said of its entries. -/
theorem Memory.wf_iff {d : Byte} {m : Memory} : Memory.wf d m = true ↔ keysRise m = true ∧ ∀ e ∈ m, e.2 ≠ d := by
  simp [Memory.wf]

/-- Writing one byte keeps the canonical form. -/
theorem Memory.wf_spPut {d : Byte} {m : Memory} (a : Nat) (v : Byte) (h : Memory.wf d m = true) :
    Memory.wf d (spPut d m a v) = true := by
  rw [Memory.wf_iff] at h ⊢
  refine ⟨keysRise_spPut d a v h.1, fun e he => ?_⟩
  rcases mem_spPut he with he | ⟨rfl, hv⟩
  · exact h.2 e he
  · exact hv

/-- Writing a run of bytes keeps the canonical form. -/
theorem Memory.wf_spPuts {d : Byte} (l : Bytes) : ∀ {m : Memory} (a : Nat), Memory.wf d m = true → Memory.wf d (spPuts d m a l) = true := by
  induction l with
  | nil => intro m a h; exact h
  | cons b r ih => intro m a h; exact ih (a + 1) (Memory.wf_spPut a b h)

/-- Keeping some of a memory's entries keeps the canonical form. -/
theorem Memory.wf_filter {d : Byte} {m : Memory} (p : Nat × Byte → Bool) (h : Memory.wf d m = true) :
    Memory.wf d (m.filter p) = true := by
  rw [Memory.wf_iff] at h ⊢
  exact ⟨keysRise_filter p h.1, fun e he => h.2 e (List.mem_filter.1 he).1⟩

/-- Clearing a range keeps the canonical form. -/
theorem Memory.wf_spClear {d : Byte} {m : Memory} (lo n : Nat) (h : Memory.wf d m = true) : Memory.wf d (spClear m lo n) = true :=
  Memory.wf_filter _ h

theorem regsWf_iff {m : RegFile} : regsWf m = true ↔ keysRise m = true ∧ ∀ e ∈ m, e.2 ≠ regReset e.1 := by
  simp [regsWf]

/-! States. -/

theorem State.canonical_setReg {s : State} (a : Nat) (v : Word) (h : s.Canonical) : (s.setReg a v).Canonical := by
  refine ⟨h.1, h.2.1, ?_⟩
  have hr := regsWf_iff.1 h.2.2
  refine regsWf_iff.2 ⟨keysRise_spPut _ a v hr.1, fun e he => ?_⟩
  rcases mem_spPut he with he | ⟨rfl, hv⟩
  · exact hr.2 e he
  · exact hv

theorem State.canonical_setRegNat {s : State} (a v : Nat) (h : s.Canonical) : (s.setRegNat a v).Canonical :=
  s.canonical_setReg a _ h

theorem State.canonical_setField {s : State} (a lo n v : Nat) (h : s.Canonical) : (s.setField a lo n v).Canonical :=
  s.canonical_setReg a _ h

theorem State.canonical_bumpReg {s : State} (a n : Nat) (h : s.Canonical) : (s.bumpReg a n).Canonical :=
  s.canonical_setReg a _ h

theorem State.canonical_bumpField {s : State} (a lo w n : Nat) (h : s.Canonical) : (s.bumpField a lo w n).Canonical :=
  s.canonical_setReg a _ h

theorem State.canonical_keepRegs {s : State} (k : Nat → Bool) (h : s.Canonical) : (s.keepRegs k).Canonical := by
  refine ⟨h.1, h.2.1, ?_⟩
  have hr := regsWf_iff.1 h.2.2
  exact regsWf_iff.2 ⟨keysRise_filter _ hr.1, fun e he => hr.2 e (List.mem_filter.1 he).1⟩

theorem State.canonical_zeroRegs {s : State} (l : List Nat) (h : s.Canonical) : (s.zeroRegs l).Canonical := by
  induction l generalizing s with
  | nil => exact h
  | cons a r ih => exact ih (s.canonical_setReg a _ h)

theorem State.canonical_clearRecord {s : State} (v : Nat) (ws : List Nat) (mask : Nat) (x : Word) (h : s.Canonical) :
    (s.clearRecord v ws mask x).Canonical := by
  unfold State.clearRecord
  split
  · exact s.canonical_zeroRegs ws h
  · exact s.canonical_setReg v _ h

theorem State.canonical_writeMem {s : State} (a : Nat) (b : Bytes) (h : s.Canonical) : (s.writeMem a b).Canonical :=
  ⟨Memory.wf_spPuts b a h.1, h.2⟩

/-- A fold of operations on a memory keeps the canonical form where each does. -/
theorem Memory.wf_foldl {β : Type} {d : Byte} (l : List β) (f : Memory → β → Memory)
    (hf : ∀ m b, Memory.wf d m = true → Memory.wf d (f m b) = true) : ∀ {m : Memory}, Memory.wf d m = true →
    Memory.wf d (l.foldl f m) = true := by
  induction l with
  | nil => intro m h; exact h
  | cons b r ih => intro m h; exact ih (hf m b h)

theorem State.canonical_placeHomes {s : State} (k : ModelPkg) (ls : List Nat) (h : s.Canonical) : (s.placeHomes k ls).Canonical :=
  ⟨Memory.wf_foldl _ _ (fun _ _ hm => Memory.wf_foldl _ _ (fun _ _ hm => Memory.wf_foldl _ _ (fun _ _ hm =>
    Memory.wf_spPuts _ _ hm) hm) hm) h.1, h.2⟩

theorem State.canonical_loadChunks {s : State} (p : Nat) (h : s.Canonical) : (s.loadChunks p).Canonical := by
  refine ⟨?_, h.2⟩
  show Memory.wf _ ((s.logicalOf p).elim s.mem _) = true
  cases s.logicalOf p with
  | none => exact h.1
  | some lf => exact Memory.wf_foldl _ _ (fun _ _ hm => Memory.wf_foldl _ _ (fun _ _ hm => Memory.wf_spPuts _ _ hm) hm) h.1

theorem State.canonical_clearMem {s : State} (a n : Nat) (h : s.Canonical) : (s.clearMem a n).Canonical :=
  ⟨Memory.wf_spClear a n h.1, h.2⟩

theorem State.canonical_writeFlash {s : State} (a : Nat) (b : Bytes) (h : s.Canonical) : (s.writeFlash a b).Canonical :=
  ⟨h.1, Memory.wf_spPuts b a h.2.1, h.2.2⟩

theorem State.canonical_eraseFlash {s : State} (a n : Nat) (h : s.Canonical) : (s.eraseFlash a n).Canonical :=
  ⟨h.1, Memory.wf_spClear a n h.2.1, h.2.2⟩

/-- A state whose memories and registers are those of a canonical one is canonical. -/
theorem State.canonical_of_eq {s t : State} (hm : t.mem = s.mem) (hf : t.flash = s.flash) (hr : t.regs = s.regs)
    (h : s.Canonical) : t.Canonical := by
  unfold State.Canonical at *
  rw [hm, hf, hr]; exact h

/-- Canonical states through a fold of operations that keep them so. -/
theorem State.canonical_each {β : Type} {s : State} (l : List β) (f : State → β → State)
    (hf : ∀ t b, t.Canonical → (f t b).Canonical) (h : s.Canonical) : (s.each l f).Canonical := by
  unfold State.each
  induction l generalizing s with
  | nil => exact h
  | cons b r ih => exact ih (hf s b h)

/-! Registers and units after their updates. -/

/-- A register read after one is written. -/
@[simp] theorem State.reg_setReg (s : State) (a b : Nat) (v : Word) : (s.setReg a v).reg b = if b = a then v else s.reg b := by
  unfold State.reg State.setReg
  by_cases h : b = a
  · subst h; simp
  · have : ∀ d : Word, spGet d (spPut (regReset a) s.regs a v) b = spGet d s.regs b := by
      intro d
      unfold spPut
      split
      · simp [h]
      · simp [h]
    simp [h, this]

@[simp] theorem State.ses_setSes (s : State) (i j : Nat) (x : Session) : (s.setSes i x).ses j = if j = i then x else s.ses j := by
  simp [State.ses, State.setSes]

@[simp] theorem State.ses_freeSes (s : State) (i j : Nat) : (s.freeSes i).ses j = if j = i then {} else s.ses j := by
  simp [State.ses, State.freeSes]

@[simp] theorem State.face_setFace (s : State) (p q : Nat) (f : Face) : (s.setFace p f).face q = if q = p then f else s.face q := by
  simp [State.face, State.setFace]

@[simp] theorem State.model_setModel (s : State) (m n : Nat) (v : ModelSlot) :
    (s.setModel m v).model n = if n = m then v else s.model n := by
  simp [State.model, State.setModel]

/-- A byte of memory read after a write: the byte written inside the run. -/
theorem State.readByte_writeMem_outside (s : State) (a b : Nat) (l : Bytes) (h : b < a ∨ a + l.length ≤ b) :
    (s.writeMem a l).readByte b = s.readByte b :=
  spGet_spPuts_outside memUnlisted l s.mem a b h

theorem State.readByte_writeMem_inside (s : State) (a i : Nat) (l : Bytes) (h : i < l.length) :
    (s.writeMem a l).readByte (a + i) = l.getD i memUnlisted :=
  spGet_spPuts_inside memUnlisted l s.mem a i h

end Sys2Proof.Machine
end

