-- ==== Sys2Proof/Laws/Ops.lean ====
section
/-! SUPPORT. What each shared operation can do, said once: outcomes, requests and responses, events, folds. -/

namespace Sys2Proof.Machine

/-! Outcomes. -/

theorem ok_next {s t : State} (h : ok s = .next t) : t = s := by cases h; rfl

/-- An event's outcome: its effect where its condition holds, else the state unchanged. -/
theorem when_next {c : Bool} {s s' t : State} (h : when c s s' = .next t) : (c = true ∧ t = s') ∨ (c = false ∧ t = s) := by
  unfold when at h
  cases c <;> cases h <;> simp

theorem when_true {c : Bool} (h : c = true) (s s' : State) : when c s s' = .next s' := by simp [when, h]

theorem when_false {c : Bool} (h : c = false) (s s' : State) : when c s s' = .next s := by simp [when, h]

/-! Folds. -/

/-- What every step of a fold keeps, the fold keeps. -/
theorem State.each_keeps {β γ : Type} (q : State → γ) {s : State} (l : List β) (f : State → β → State)
    (hf : ∀ t b, q (f t b) = q t) : q (s.each l f) = q s := by
  unfold State.each
  induction l generalizing s with
  | nil => rfl
  | cons b r ih => exact (ih (s := f s b)).trans (hf s b)

/-- A relation every step of a fold bears out holds of the fold. -/
theorem State.each_rel {β : Type} (R : State → State → Prop) (hrefl : ∀ s, R s s) (htrans : ∀ a b c, R a b → R b c → R a c)
    {s : State} (l : List β) (f : State → β → State) (hf : ∀ t b, R t (f t b)) : R s (s.each l f) := by
  unfold State.each
  induction l generalizing s with
  | nil => exact hrefl s
  | cons b r ih => exact htrans _ _ _ (hf s b) ih

/-! The control path. -/

theorem State.SameButControl.refl (s : State) : s.SameButControl s := rfl

theorem State.SameButControl.trans {s t u : State} (h : s.SameButControl t) (k : t.SameButControl u) : s.SameButControl u := by
  unfold State.SameButControl at *
  rw [← h, ← k]

theorem State.nextSeq_same (s : State) (slot : Nat) : s.SameButControl (s.nextSeq slot).2 := by
  unfold State.nextSeq; split <;> rfl

theorem State.sendPart_same (s : State) (port : Nat) (dst : NetAddr) (kind slot op reqId st detail count : Nat) (part : Nat × Bytes) :
    s.SameButControl (s.sendPart port dst kind slot op reqId st detail count part) :=
  (s.nextSeq_same slot).trans rfl

/-- Sending a control frame touches only the device's own sequence numbers and what has been sent. -/
theorem State.sendCtrl_same (s : State) (port : Nat) (dst : NetAddr) (kind slot op reqId st detail : Nat) (body : Bytes) :
    s.SameButControl (s.sendCtrl port dst kind slot op reqId st detail body) :=
  State.each_rel State.SameButControl State.SameButControl.refl (fun _ _ _ h k => h.trans k) _ _ (fun _ _ => State.sendPart_same ..)

theorem State.hold_same (s : State) (h : Held) : s.SameButControl (s.hold h) := by
  unfold State.hold; split <;> rfl

theorem State.takeEntry_same (s : State) (e : HfEntry) : s.SameButControl (s.takeEntry e) := rfl

theorem State.okReply_same (s : State) (rq : Req) (op : Nat) (req body : Bytes) : s.SameButControl (s.okReply rq op req body) :=
  (State.sendCtrl_same ..).trans (State.hold_same ..)

/-- A field kept by the control path: t's where t is s but for the control path. -/
theorem State.SameButControl.keeps {s t : State} {γ : Type} (h : s.SameButControl t) (q : State → γ)
    (hq : ∀ (u : State) c o, q { u with ctrl := c, outbox := o } = q u) : q t = q s := by
  have := congrArg q h
  rwa [hq] at this

/-! Requests. -/

/-- An accepted request, not repeated, permitted: the command's own reply is answered, then takes effect. -/
theorem State.accept_of_takes {s : State} {rq : Req} {op kind : Nat} (h : s.Takes rq op kind) (req : Bytes) (run : State → Reply) :
    s.accept rq op kind req false run = (s.taken rq op).answer rq op req (run (s.taken rq op)) := by
  obtain ⟨_, _, _, h3, h4, h5⟩ := h
  have g3 : (s.taken rq op).hasRole rq.slot (op / 256) = true := h3
  have g4 : (s.taken rq op).heldFor rq.slot rq.reqId = none := h4
  have g5 : (s.taken rq op).gate op kind = 0 := h5
  unfold State.accept
  simp only [g4]
  unfold State.judge
  simp [g3, g5]

theorem State.mayAct_of_takes {s : State} {rq : Req} {op kind : Nat} (h : s.Takes rq op kind) : s.mayAct rq op = true := by
  simp [State.mayAct, h.1, h.2.1, h.2.2.1]

theorem State.request_of_takes {s : State} {rq : Req} {op : Nat} (h : s.Takes rq op 0) (req : Bytes) (run : State → Reply) :
    s.request rq op req false run = .next ((s.taken rq op).answer rq op req (run (s.taken rq op))) := by
  unfold State.request
  rw [State.accept_of_takes h]
  exact when_true (State.mayAct_of_takes h) ..

theorem State.stageRequest_of_takes {s : State} {rq : Req} {op kind : Nat} (h : s.Takes rq op kind) (req : Bytes)
    (run : State → Reply) :
    s.stageRequest rq op kind req false run = .next ((s.taken rq op).answer rq op req (run (s.taken rq op))) := by
  unfold State.stageRequest
  rw [State.accept_of_takes h]
  exact when_true (State.mayAct_of_takes h) ..

/-- A reply with STATUS OK. -/
theorem State.answer_ok (s : State) (rq : Req) (op : Nat) (req body : Bytes) (f : State → State) :
    s.answer rq op req { body := body, after := f } = f (s.okReply rq op req body) := rfl

/-- The reply's effect acts on a state that differs from s in the control path only. -/
theorem State.answer_rel (s : State) (rq : Req) (op : Nat) (req : Bytes) (r : Reply) :
    ∃ u, s.SameButControl u ∧ s.answer rq op req r = r.after u :=
  ⟨_, (State.sendCtrl_same ..).trans (State.hold_same ..), rfl⟩

/-- A judged request gets the command's own reply or a bare status. -/
theorem State.judge_cases (s : State) (slot op kind : Nat) (bad : Bool) (run : State → Reply) :
    s.judge slot op kind bad run = run s ∨ ∃ n, s.judge slot op kind bad run = { status := n } := by
  unfold State.judge
  split
  · exact .inr ⟨_, rfl⟩
  · split
    · exact .inr ⟨_, rfl⟩
    · split
      · exact .inr ⟨_, rfl⟩
      · exact .inl rfl

theorem State.again_same (s : State) (rq : Req) (op : Nat) (req : Bytes) (h : Held) : s.SameButControl (s.again rq op req h) := by
  unfold State.again State.resend
  split <;> exact State.sendCtrl_same ..

/-- Whatever a request is answered, it ends as it began but for the control path, or with the effect of the command's own reply. -/
theorem State.accept_rel (s : State) (rq : Req) (op kind : Nat) (req : Bytes) (bad : Bool) (run : State → Reply) :
    ∃ u, s.SameButControl u ∧ (s.accept rq op kind req bad run = u ∨
      s.accept rq op kind req bad run = (run (s.taken rq op)).after u) := by
  unfold State.accept
  dsimp only
  split
  · rename_i h _
    exact ⟨_, State.SameButControl.trans (s.takeEntry_same (reqEntry rq op)) (State.again_same _ rq op req h), .inl rfl⟩
  · obtain ⟨u, hu, he⟩ := State.answer_rel (s.taken rq op) rq op req ((s.taken rq op).judge rq.slot op kind bad run)
    refine ⟨u, State.SameButControl.trans (s.takeEntry_same (reqEntry rq op)) hu, ?_⟩
    rcases State.judge_cases (s.taken rq op) rq.slot op kind bad run with hj | ⟨n, hj⟩
    · rw [hj] at he; exact .inr (by rw [← he]; unfold State.taken at hj ⊢; rw [hj])
    · rw [hj] at he; exact .inl (by have : ({ status := n } : Reply).after u = u := rfl
                                    rw [this] at he; rw [← he]; unfold State.taken at hj ⊢; rw [hj])

theorem State.request_rel {s t : State} {rq : Req} {op : Nat} {req : Bytes} {bad : Bool} {run : State → Reply}
    (h : s.request rq op req bad run = .next t) :
    ∃ u, s.SameButControl u ∧ (t = u ∨ t = (run (s.taken rq op)).after u) := by
  unfold State.request at h
  rcases when_next h with ⟨_, rfl⟩ | ⟨_, rfl⟩
  · exact State.accept_rel ..
  · exact ⟨_, rfl, .inl rfl⟩

end Sys2Proof.Machine
end

