-- ==== Sys2Proof/Laws/PerInstr.lean ====
section
/-! SUPPORT. What a well-formed command names, per command: the physical face it names exists under R8. -/

namespace Sys2Proof.Laws.WellFormed

/-- The physical face a command names as the one it concerns. -/
def faceOf : Instr → Option Nat
  | .arithFlagsClear p _ => some p
  | .trapRecordClear p _ => some p
  | .spillRecordClear p _ => some p
  | .tagFaultClear p _ => some p
  | .hstErrClear p _ => some p
  | .hoistCopy p _ _ _ => some p
  | .hoistFill p _ _ _ => some p
  | .tram p _ _ _ _ => some p
  | .transactionIssue p _ => some p
  | .descriptorComplete p _ => some p
  | .busError p _ => some p
  | .fusedStageCommand p _ _ => some p
  | .computeStep p _ _ => some p
  | .muster p _ _ => some p
  | .skipPublish p _ _ _ => some p
  | .skipRelease p _ => some p
  | .tramChunkArrive _ p _ _ _ _ => some p
  | .tramRefetch p _ => some p
  | .faceIdleGate p => some p
  | .faceUngate p => some p
  | .motionBandStart p _ _ => some p
  | .columnBlockLoad p _ => some p
  | .motionTileStart p => some p
  | .motionBandPublish p => some p
  | .coderJobSubmit p _ _ => some p
  | .compress p _ _ => some p
  | .decompress p _ _ => some p
  | .verify p _ _ => some p
  | .faceWatchdogExpire p => some p
  | .facePowerFault p => some p
  | .faceAutoReset p => some p
  | .faceSoundingDone p _ _ => some p
  | _ => none

/-- A face it names is a position 0 to 16 of a drift of a level. -/
def Statement (i : Instr) : Prop := i.wf = true → ∀ p, faceOf i = some p → p < 2048 ∧ p % 32 < 17

theorem exists_of_faceWf {p : Nat} (h : faceWf p = true) : p < 2048 ∧ p % 32 < 17 := by
  simpa [faceWf] using h

theorem ctrlFrameReceive : ∀ a0 a1 a2, Statement (.ctrlFrameReceive a0 a1 a2) := by
  intro a0 a1 a2 _ p hp
  cases hp

theorem probe : ∀ a0, Statement (.probe a0) := by
  intro a0 _ p hp
  cases hp

theorem status : ∀ a0, Statement (.status a0) := by
  intro a0 _ p hp
  cases hp

theorem sessionStatus : ∀ a0 a1, Statement (.sessionStatus a0 a1) := by
  intro a0 a1 _ p hp
  cases hp

theorem sessionCounters : ∀ a0 a1 a2, Statement (.sessionCounters a0 a1 a2) := by
  intro a0 a1 a2 _ p hp
  cases hp

theorem jobStatus : ∀ a0 a1, Statement (.jobStatus a0 a1) := by
  intro a0 a1 _ p hp
  cases hp

theorem eventRead : ∀ a0 a1 a2, Statement (.eventRead a0 a1 a2) := by
  intro a0 a1 a2 _ p hp
  cases hp

theorem eventSubscribe : ∀ a0 a1, Statement (.eventSubscribe a0 a1) := by
  intro a0 a1 _ p hp
  cases hp

theorem repairRead : ∀ a0 a1 a2, Statement (.repairRead a0 a1 a2) := by
  intro a0 a1 a2 _ p hp
  cases hp

theorem regRead : ∀ a0 a1 a2, Statement (.regRead a0 a1 a2) := by
  intro a0 a1 a2 _ p hp
  cases hp

theorem regWrite : ∀ a0 a1 a2, Statement (.regWrite a0 a1 a2) := by
  intro a0 a1 a2 _ p hp
  cases hp

theorem attest : ∀ a0 a1, Statement (.attest a0 a1) := by
  intro a0 a1 _ p hp
  cases hp

theorem modelList : ∀ a0 a1 a2, Statement (.modelList a0 a1 a2) := by
  intro a0 a1 a2 _ p hp
  cases hp

theorem sesOpen : ∀ a0 a1, Statement (.sesOpen a0 a1) := by
  intro a0 a1 _ p hp
  cases hp

theorem sesClose : ∀ a0 a1 a2 a3, Statement (.sesClose a0 a1 a2 a3) := by
  intro a0 a1 a2 a3 _ p hp
  cases hp

theorem sesPark : ∀ a0 a1, Statement (.sesPark a0 a1) := by
  intro a0 a1 _ p hp
  cases hp

theorem sesResume : ∀ a0 a1 a2, Statement (.sesResume a0 a1 a2) := by
  intro a0 a1 a2 _ p hp
  cases hp

theorem sesReset : ∀ a0 a1, Statement (.sesReset a0 a1) := by
  intro a0 a1 _ p hp
  cases hp

theorem sesSet : ∀ a0 a1 a2 a3 a4 a5, Statement (.sesSet a0 a1 a2 a3 a4 a5) := by
  intro a0 a1 a2 a3 a4 a5 _ p hp
  cases hp

theorem migrate : ∀ a0 a1 a2 a3, Statement (.migrate a0 a1 a2 a3) := by
  intro a0 a1 a2 a3 _ p hp
  cases hp

theorem jobStart : ∀ a0 a1, Statement (.jobStart a0 a1) := by
  intro a0 a1 _ p hp
  cases hp

theorem jobSuspend : ∀ a0 a1, Statement (.jobSuspend a0 a1) := by
  intro a0 a1 _ p hp
  cases hp

theorem jobResume : ∀ a0 a1, Statement (.jobResume a0 a1) := by
  intro a0 a1 _ p hp
  cases hp

theorem jobCancel : ∀ a0 a1, Statement (.jobCancel a0 a1) := by
  intro a0 a1 _ p hp
  cases hp

theorem jobRelease : ∀ a0 a1, Statement (.jobRelease a0 a1) := by
  intro a0 a1 _ p hp
  cases hp

theorem jobExport : ∀ a0 a1 a2 a3, Statement (.jobExport a0 a1 a2 a3) := by
  intro a0 a1 a2 a3 _ p hp
  cases hp

theorem stageBegin : ∀ a0 a1 a2 a3 a4, Statement (.stageBegin a0 a1 a2 a3 a4) := by
  intro a0 a1 a2 a3 a4 _ p hp
  cases hp

theorem stageData : ∀ a0 a1 a2 a3, Statement (.stageData a0 a1 a2 a3) := by
  intro a0 a1 a2 a3 _ p hp
  cases hp

theorem stageCommit : ∀ a0 a1, Statement (.stageCommit a0 a1) := by
  intro a0 a1 _ p hp
  cases hp

theorem stageAbort : ∀ a0 a1, Statement (.stageAbort a0 a1) := by
  intro a0 a1 _ p hp
  cases hp

theorem modelUnstage : ∀ a0 a1, Statement (.modelUnstage a0 a1) := by
  intro a0 a1 _ p hp
  cases hp

theorem swapArm : ∀ a0 a1, Statement (.swapArm a0 a1) := by
  intro a0 a1 _ p hp
  cases hp

theorem swapDisarm : ∀ a0, Statement (.swapDisarm a0) := by
  intro a0 _ p hp
  cases hp

theorem directorySet : ∀ a0 a1, Statement (.directorySet a0 a1) := by
  intro a0 a1 _ p hp
  cases hp

theorem logClear : ∀ a0 a1 a2, Statement (.logClear a0 a1 a2) := by
  intro a0 a1 a2 _ p hp
  cases hp

theorem warmReset : ∀ a0, Statement (.warmReset a0) := by
  intro a0 _ p hp
  cases hp

theorem levelReset : ∀ a0 a1, Statement (.levelReset a0 a1) := by
  intro a0 a1 _ p hp
  cases hp

theorem faceReset : ∀ a0 a1, Statement (.faceReset a0 a1) := by
  intro a0 a1 _ p hp
  cases hp

theorem levelPark : ∀ a0 a1 a2, Statement (.levelPark a0 a1 a2) := by
  intro a0 a1 a2 _ p hp
  cases hp

theorem standby : ∀ a0 a1, Statement (.standby a0 a1) := by
  intro a0 a1 _ p hp
  cases hp

theorem remove : ∀ a0 a1 a2, Statement (.remove a0 a1 a2) := by
  intro a0 a1 a2 _ p hp
  cases hp

theorem keySet : ∀ a0 a1 a2 a3 a4, Statement (.keySet a0 a1 a2 a3 a4) := by
  intro a0 a1 a2 a3 a4 _ p hp
  cases hp

theorem keyClear : ∀ a0 a1, Statement (.keyClear a0 a1) := by
  intro a0 a1 _ p hp
  cases hp

theorem smbIdentity : ∀ a0, Statement (.smbIdentity a0) := by
  intro a0 _ p hp
  cases hp

theorem smbStatus : ∀ a0, Statement (.smbStatus a0) := by
  intro a0 _ p hp
  cases hp

theorem smbEventNext : ∀ a0, Statement (.smbEventNext a0) := by
  intro a0 _ p hp
  cases hp

theorem smbThermal : ∀ a0, Statement (.smbThermal a0) := by
  intro a0 _ p hp
  cases hp

theorem smbArm : ∀ a0 a1 a2, Statement (.smbArm a0 a1 a2) := by
  intro a0 a1 a2 _ p hp
  cases hp

theorem smbArmWindowExpire : Statement .smbArmWindowExpire := by
  intro _ p hp
  cases hp

theorem smbReset : ∀ a0 a1 a2 a3, Statement (.smbReset a0 a1 a2 a3) := by
  intro a0 a1 a2 a3 _ p hp
  cases hp

theorem smbPark : ∀ a0 a1 a2 a3, Statement (.smbPark a0 a1 a2 a3) := by
  intro a0 a1 a2 a3 _ p hp
  cases hp

theorem smbStandby : ∀ a0 a1 a2, Statement (.smbStandby a0 a1 a2) := by
  intro a0 a1 a2 _ p hp
  cases hp

theorem smbRemove : ∀ a0 a1 a2 a3 a4, Statement (.smbRemove a0 a1 a2 a3 a4) := by
  intro a0 a1 a2 a3 a4 _ p hp
  cases hp

theorem smbResult : ∀ a0, Statement (.smbResult a0) := by
  intro a0 _ p hp
  cases hp

theorem lampLineReceive : ∀ a0, Statement (.lampLineReceive a0) := by
  intro a0 _ p hp
  cases hp

theorem lampHelp : Statement .lampHelp := by
  intro _ p hp
  cases hp

theorem lampId : Statement .lampId := by
  intro _ p hp
  cases hp

theorem lampStatus : Statement .lampStatus := by
  intro _ p hp
  cases hp

theorem lampLog : ∀ a0, Statement (.lampLog a0) := by
  intro a0 _ p hp
  cases hp

theorem lampRepair : Statement .lampRepair := by
  intro _ p hp
  cases hp

theorem lampBaud : ∀ a0, Statement (.lampBaud a0) := by
  intro a0 _ p hp
  cases hp

theorem lampBaudApply : Statement .lampBaudApply := by
  intro _ p hp
  cases hp

theorem lampRegRead : ∀ a0 a1, Statement (.lampRegRead a0 a1) := by
  intro a0 a1 _ p hp
  cases hp

theorem lampRegWrite : ∀ a0 a1, Statement (.lampRegWrite a0 a1) := by
  intro a0 a1 _ p hp
  cases hp

theorem lampMemRead : ∀ a0 a1, Statement (.lampMemRead a0 a1) := by
  intro a0 a1 _ p hp
  cases hp

theorem lampResetCold : Statement .lampResetCold := by
  intro _ p hp
  cases hp

theorem lampResetWarm : Statement .lampResetWarm := by
  intro _ p hp
  cases hp

theorem lampResetLevel : ∀ a0, Statement (.lampResetLevel a0) := by
  intro a0 _ p hp
  cases hp

theorem lampResetFace : ∀ a0, Statement (.lampResetFace a0) := by
  intro a0 _ p hp
  cases hp

theorem lampPark : ∀ a0, Statement (.lampPark a0) := by
  intro a0 _ p hp
  cases hp

theorem lampUnpark : ∀ a0, Statement (.lampUnpark a0) := by
  intro a0 _ p hp
  cases hp

theorem lampStandbyOn : Statement .lampStandbyOn := by
  intro _ p hp
  cases hp

theorem lampStandbyOff : Statement .lampStandbyOff := by
  intro _ p hp
  cases hp

theorem lampKeyload : ∀ a0 a1 a2, Statement (.lampKeyload a0 a1 a2) := by
  intro a0 a1 a2 _ p hp
  cases hp

theorem lampHfload : ∀ a0, Statement (.lampHfload a0) := by
  intro a0 _ p hp
  cases hp

theorem lampPlanload : ∀ a0, Statement (.lampPlanload a0) := by
  intro a0 _ p hp
  cases hp

theorem lampImageFrame : ∀ a0 a1 a2, Statement (.lampImageFrame a0 a1 a2) := by
  intro a0 a1 a2 _ p hp
  cases hp

theorem lampTransferTimeout : Statement .lampTransferTimeout := by
  intro _ p hp
  cases hp

theorem lampLock : ∀ a0, Statement (.lampLock a0) := by
  intro a0 _ p hp
  cases hp

theorem arithFlagsClear : ∀ a0 a1, Statement (.arithFlagsClear a0 a1) := by
  intro a0 a1 h p hp
  cases hp
  exact exists_of_faceWf h

theorem trapRecordClear : ∀ a0 a1, Statement (.trapRecordClear a0 a1) := by
  intro a0 a1 h p hp
  cases hp
  exact exists_of_faceWf h

theorem spillRecordClear : ∀ a0 a1, Statement (.spillRecordClear a0 a1) := by
  intro a0 a1 h p hp
  cases hp
  exact exists_of_faceWf h

theorem tagFaultClear : ∀ a0 a1, Statement (.tagFaultClear a0 a1) := by
  intro a0 a1 h p hp
  cases hp
  exact exists_of_faceWf h

theorem addrErrClear : ∀ a0 a1, Statement (.addrErrClear a0 a1) := by
  intro a0 a1 _ p hp
  cases hp

theorem hstErrClear : ∀ a0 a1, Statement (.hstErrClear a0 a1) := by
  intro a0 a1 h p hp
  cases hp
  exact exists_of_faceWf h

theorem waitRecordClear : ∀ a0 a1, Statement (.waitRecordClear a0 a1) := by
  intro a0 a1 _ p hp
  cases hp

theorem roundAbortRecordClear : ∀ a0 a1, Statement (.roundAbortRecordClear a0 a1) := by
  intro a0 a1 _ p hp
  cases hp

theorem eccRecordClear : ∀ a0 a1, Statement (.eccRecordClear a0 a1) := by
  intro a0 a1 _ p hp
  cases hp

theorem takeoverRecordClear : ∀ a0 a1, Statement (.takeoverRecordClear a0 a1) := by
  intro a0 a1 _ p hp
  cases hp

theorem phaseLastClear : ∀ a0, Statement (.phaseLastClear a0) := by
  intro a0 _ p hp
  cases hp

theorem counterReadClear : ∀ a0, Statement (.counterReadClear a0) := by
  intro a0 _ p hp
  cases hp

theorem timNowLoRead : Statement .timNowLoRead := by
  intro _ p hp
  cases hp

theorem registerWriteOther : ∀ a0 a1, Statement (.registerWriteOther a0 a1) := by
  intro a0 a1 _ p hp
  cases hp

theorem hoistCopy : ∀ a0 a1 a2 a3, Statement (.hoistCopy a0 a1 a2 a3) := by
  intro a0 a1 a2 a3 h p hp
  cases hp
  simp only [Instr.wf, Bool.and_eq_true] at h
  exact exists_of_faceWf (by tauto)

theorem hoistFill : ∀ a0 a1 a2 a3, Statement (.hoistFill a0 a1 a2 a3) := by
  intro a0 a1 a2 a3 h p hp
  cases hp
  simp only [Instr.wf, Bool.and_eq_true] at h
  exact exists_of_faceWf (by tauto)

theorem tram : ∀ a0 a1 a2 a3 a4, Statement (.tram a0 a1 a2 a3 a4) := by
  intro a0 a1 a2 a3 a4 h p hp
  cases hp
  simp only [Instr.wf, Bool.and_eq_true] at h
  exact exists_of_faceWf (by tauto)

theorem transactionIssue : ∀ a0 a1, Statement (.transactionIssue a0 a1) := by
  intro a0 a1 h p hp
  cases hp
  simp only [Instr.wf, Bool.and_eq_true] at h
  exact exists_of_faceWf (by tauto)

theorem descriptorComplete : ∀ a0 a1, Statement (.descriptorComplete a0 a1) := by
  intro a0 a1 h p hp
  cases hp
  simp only [Instr.wf, Bool.and_eq_true] at h
  exact exists_of_faceWf (by tauto)

theorem busError : ∀ a0 a1, Statement (.busError a0 a1) := by
  intro a0 a1 h p hp
  cases hp
  simp only [Instr.wf, Bool.and_eq_true] at h
  exact exists_of_faceWf (by tauto)

theorem fusedStageCommand : ∀ a0 a1 a2, Statement (.fusedStageCommand a0 a1 a2) := by
  intro a0 a1 a2 h p hp
  cases hp
  simp only [Instr.wf, Bool.and_eq_true] at h
  exact exists_of_faceWf (by tauto)

theorem computeStep : ∀ a0 a1 a2, Statement (.computeStep a0 a1 a2) := by
  intro a0 a1 a2 h p hp
  cases hp
  simp only [Instr.wf, Bool.and_eq_true] at h
  exact exists_of_faceWf (by tauto)

theorem muster : ∀ a0 a1 a2, Statement (.muster a0 a1 a2) := by
  intro a0 a1 a2 h p hp
  cases hp
  simp only [Instr.wf, Bool.and_eq_true] at h
  exact exists_of_faceWf (by tauto)

theorem musterRelease : ∀ a0 a1 a2, Statement (.musterRelease a0 a1 a2) := by
  intro a0 a1 a2 _ p hp
  cases hp

theorem skipPublish : ∀ a0 a1 a2 a3, Statement (.skipPublish a0 a1 a2 a3) := by
  intro a0 a1 a2 a3 h p hp
  cases hp
  simp only [Instr.wf, Bool.and_eq_true] at h
  exact exists_of_faceWf (by tauto)

theorem skipRelease : ∀ a0 a1, Statement (.skipRelease a0 a1) := by
  intro a0 a1 h p hp
  cases hp
  simp only [Instr.wf, Bool.and_eq_true] at h
  exact exists_of_faceWf (by tauto)

theorem poolBorrow : ∀ a0 a1, Statement (.poolBorrow a0 a1) := by
  intro a0 a1 _ p hp
  cases hp

theorem borrowReturnBy : ∀ a0, Statement (.borrowReturnBy a0) := by
  intro a0 _ p hp
  cases hp

theorem ringMonitorSample : ∀ a0, Statement (.ringMonitorSample a0) := by
  intro a0 _ p hp
  cases hp

theorem waitJoinSample : Statement .waitJoinSample := by
  intro _ p hp
  cases hp

theorem tramChunkArrive : ∀ a0 a1 a2 a3 a4 a5, Statement (.tramChunkArrive a0 a1 a2 a3 a4 a5) := by
  intro a0 a1 a2 a3 a4 a5 h p hp
  cases hp
  simp only [Instr.wf, Bool.and_eq_true] at h
  exact exists_of_faceWf (by tauto)

theorem tramRefetch : ∀ a0 a1, Statement (.tramRefetch a0 a1) := by
  intro a0 a1 h p hp
  cases hp
  simp only [Instr.wf, Bool.and_eq_true] at h
  exact exists_of_faceWf (by tauto)

theorem faceIdleGate : ∀ a0, Statement (.faceIdleGate a0) := by
  intro a0 h p hp
  cases hp
  exact exists_of_faceWf h

theorem faceUngate : ∀ a0, Statement (.faceUngate a0) := by
  intro a0 h p hp
  cases hp
  exact exists_of_faceWf h

theorem motionBandStart : ∀ a0 a1 a2, Statement (.motionBandStart a0 a1 a2) := by
  intro a0 a1 a2 h p hp
  cases hp
  simp only [Instr.wf, Bool.and_eq_true] at h
  exact exists_of_faceWf (by tauto)

theorem columnBlockLoad : ∀ a0 a1, Statement (.columnBlockLoad a0 a1) := by
  intro a0 a1 h p hp
  cases hp
  exact exists_of_faceWf h

theorem motionTileStart : ∀ a0, Statement (.motionTileStart a0) := by
  intro a0 h p hp
  cases hp
  exact exists_of_faceWf h

theorem motionBandPublish : ∀ a0, Statement (.motionBandPublish a0) := by
  intro a0 h p hp
  cases hp
  exact exists_of_faceWf h

theorem regionMapPaint : ∀ a0 a1 a2, Statement (.regionMapPaint a0 a1 a2) := by
  intro a0 a1 a2 _ p hp
  cases hp

theorem coderJobSubmit : ∀ a0 a1 a2, Statement (.coderJobSubmit a0 a1 a2) := by
  intro a0 a1 a2 h p hp
  cases hp
  exact exists_of_faceWf h

theorem coderJobDispatch : ∀ a0, Statement (.coderJobDispatch a0) := by
  intro a0 _ p hp
  cases hp

theorem coderCacheFill : ∀ a0 a1 a2 a3, Statement (.coderCacheFill a0 a1 a2 a3) := by
  intro a0 a1 a2 a3 _ p hp
  cases hp

theorem coderContextSwitch : ∀ a0 a1 a2, Statement (.coderContextSwitch a0 a1 a2) := by
  intro a0 a1 a2 _ p hp
  cases hp

theorem coderJobComplete : ∀ a0 a1 a2 a3, Statement (.coderJobComplete a0 a1 a2 a3) := by
  intro a0 a1 a2 a3 _ p hp
  cases hp

theorem compress : ∀ a0 a1 a2, Statement (.compress a0 a1 a2) := by
  intro a0 a1 a2 h p hp
  cases hp
  simp only [Instr.wf, Bool.and_eq_true] at h
  exact exists_of_faceWf (by tauto)

theorem decompress : ∀ a0 a1 a2, Statement (.decompress a0 a1 a2) := by
  intro a0 a1 a2 h p hp
  cases hp
  simp only [Instr.wf, Bool.and_eq_true] at h
  exact exists_of_faceWf (by tauto)

theorem verify : ∀ a0 a1 a2, Statement (.verify a0 a1 a2) := by
  intro a0 a1 a2 h p hp
  cases hp
  simp only [Instr.wf, Bool.and_eq_true] at h
  exact exists_of_faceWf (by tauto)

theorem compressorDispatch : ∀ a0, Statement (.compressorDispatch a0) := by
  intro a0 _ p hp
  cases hp

theorem segmentComplete : ∀ a0 a1, Statement (.segmentComplete a0 a1) := by
  intro a0 a1 _ p hp
  cases hp

theorem sessionActivate : ∀ a0, Statement (.sessionActivate a0) := by
  intro a0 _ p hp
  cases hp

theorem frameStart : ∀ a0, Statement (.frameStart a0) := by
  intro a0 _ p hp
  cases hp

theorem bandLaunch : ∀ a0 a1, Statement (.bandLaunch a0 a1) := by
  intro a0 a1 _ p hp
  cases hp

theorem encodeDeadline : ∀ a0, Statement (.encodeDeadline a0) := by
  intro a0 _ p hp
  cases hp

theorem sliceEmit : ∀ a0, Statement (.sliceEmit a0) := by
  intro a0 _ p hp
  cases hp

theorem destinationSend : ∀ a0 a1 a2, Statement (.destinationSend a0 a1 a2) := by
  intro a0 a1 a2 _ p hp
  cases hp

theorem spectatorSkip : ∀ a0 a1, Statement (.spectatorSkip a0 a1) := by
  intro a0 a1 _ p hp
  cases hp

theorem decodeFrameDeadline : ∀ a0, Statement (.decodeFrameDeadline a0) := by
  intro a0 _ p hp
  cases hp

theorem decodeFrameOutput : ∀ a0, Statement (.decodeFrameOutput a0) := by
  intro a0 _ p hp
  cases hp

theorem sessionParkComplete : ∀ a0, Statement (.sessionParkComplete a0) := by
  intro a0 _ p hp
  cases hp

theorem sessionFree : ∀ a0, Statement (.sessionFree a0) := by
  intro a0 _ p hp
  cases hp

theorem ethFrameReceive : ∀ a0 a1 a2, Statement (.ethFrameReceive a0 a1 a2) := by
  intro a0 a1 a2 _ p hp
  cases hp

theorem usfPacketReceive : ∀ a0 a1 a2 a3 a4 a5, Statement (.usfPacketReceive a0 a1 a2 a3 a4 a5) := by
  intro a0 a1 a2 a3 a4 a5 _ p hp
  cases hp

theorem fragmentTimeout : ∀ a0 a1, Statement (.fragmentTimeout a0 a1) := by
  intro a0 a1 _ p hp
  cases hp

theorem rawMediaPacket : ∀ a0 a1 a2 a3, Statement (.rawMediaPacket a0 a1 a2 a3) := by
  intro a0 a1 a2 a3 _ p hp
  cases hp

theorem usfStreamHeader : ∀ a0 a1, Statement (.usfStreamHeader a0 a1) := by
  intro a0 a1 _ p hp
  cases hp

theorem usfFrameHeader : ∀ a0 a1, Statement (.usfFrameHeader a0 a1) := by
  intro a0 a1 _ p hp
  cases hp

theorem usfSlice : ∀ a0 a1, Statement (.usfSlice a0 a1) := by
  intro a0 a1 _ p hp
  cases hp

theorem usfEndOfStream : ∀ a0 a1, Statement (.usfEndOfStream a0 a1) := by
  intro a0 a1 _ p hp
  cases hp

theorem usfLossReport : ∀ a0 a1 a2, Statement (.usfLossReport a0 a1 a2) := by
  intro a0 a1 a2 _ p hp
  cases hp

theorem usfReservedType : ∀ a0 a1, Statement (.usfReservedType a0 a1) := by
  intro a0 a1 _ p hp
  cases hp

theorem roundArm : ∀ a0, Statement (.roundArm a0) := by
  intro a0 _ p hp
  cases hp

theorem roundMemberComplete : ∀ a0 a1 a2, Statement (.roundMemberComplete a0 a1 a2) := by
  intro a0 a1 a2 _ p hp
  cases hp

theorem roundDecision : ∀ a0, Statement (.roundDecision a0) := by
  intro a0 _ p hp
  cases hp

theorem roundFireTimed : ∀ a0, Statement (.roundFireTimed a0) := by
  intro a0 _ p hp
  cases hp

theorem roundFireCompletion : ∀ a0, Statement (.roundFireCompletion a0) := by
  intro a0 _ p hp
  cases hp

theorem roundDeadline : ∀ a0, Statement (.roundDeadline a0) := by
  intro a0 _ p hp
  cases hp

theorem faceWatchdogExpire : ∀ a0, Statement (.faceWatchdogExpire a0) := by
  intro a0 h p hp
  cases hp
  exact exists_of_faceWf h

theorem facePowerFault : ∀ a0, Statement (.facePowerFault a0) := by
  intro a0 h p hp
  cases hp
  exact exists_of_faceWf h

theorem faceAutoReset : ∀ a0, Statement (.faceAutoReset a0) := by
  intro a0 h p hp
  cases hp
  exact exists_of_faceWf h

theorem faceSoundingDone : ∀ a0 a1 a2, Statement (.faceSoundingDone a0 a1 a2) := by
  intro a0 a1 a2 h p hp
  cases hp
  exact exists_of_faceWf h

theorem ringSegment : ∀ a0 a1 a2, Statement (.ringSegment a0 a1 a2) := by
  intro a0 a1 a2 _ p hp
  cases hp

theorem lpddrDevice : ∀ a0 a1, Statement (.lpddrDevice a0 a1) := by
  intro a0 a1 _ p hp
  cases hp

theorem eccUe : ∀ a0 a1, Statement (.eccUe a0 a1) := by
  intro a0 a1 _ p hp
  cases hp

theorem patrolScrub : ∀ a0 a1 a2, Statement (.patrolScrub a0 a1 a2) := by
  intro a0 a1 a2 _ p hp
  cases hp

theorem phaseShed : ∀ a0 a1, Statement (.phaseShed a0 a1) := by
  intro a0 a1 _ p hp
  cases hp

theorem junctionReport : ∀ a0 a1, Statement (.junctionReport a0 a1) := by
  intro a0 a1 _ p hp
  cases hp

theorem dvfsThermalStep : ∀ a0, Statement (.dvfsThermalStep a0) := by
  intro a0 _ p hp
  cases hp

theorem dvfsStepDone : ∀ a0, Statement (.dvfsStepDone a0) := by
  intro a0 _ p hp
  cases hp

theorem mgmtWatchdogExpire : Statement .mgmtWatchdogExpire := by
  intro _ p hp
  cases hp

theorem coldStart : Statement .coldStart := by
  intro _ p hp
  cases hp

theorem planLoad : Statement .planLoad := by
  intro _ p hp
  cases hp

theorem memoryInitDone : ∀ a0 a1, Statement (.memoryInitDone a0 a1) := by
  intro a0 a1 _ p hp
  cases hp

theorem linkTrainingDone : ∀ a0, Statement (.linkTrainingDone a0) := by
  intro a0 _ p hp
  cases hp

theorem soundingDone : ∀ a0, Statement (.soundingDone a0) := by
  intro a0 _ p hp
  cases hp

theorem modelStagingDone : Statement .modelStagingDone := by
  intro _ p hp
  cases hp

theorem timeSettled : ∀ a0 a1, Statement (.timeSettled a0 a1) := by
  intro a0 a1 _ p hp
  cases hp

theorem survey : Statement .survey := by
  intro _ p hp
  cases hp

theorem surveyRerun : Statement .surveyRerun := by
  intro _ p hp
  cases hp

theorem helloSend : ∀ a0, Statement (.helloSend a0) := by
  intro a0 _ p hp
  cases hp

theorem helloReceive : ∀ a0 a1, Statement (.helloReceive a0 a1) := by
  intro a0 a1 _ p hp
  cases hp

theorem neighbourTimeout : Statement .neighbourTimeout := by
  intro _ p hp
  cases hp

theorem electionSettle : Statement .electionSettle := by
  intro _ p hp
  cases hp

theorem streamPortLinkChange : ∀ a0 a1, Statement (.streamPortLinkChange a0 a1) := by
  intro a0 a1 _ p hp
  cases hp

theorem streamPortLinkTimeout : ∀ a0, Statement (.streamPortLinkTimeout a0) := by
  intro a0 _ p hp
  cases hp

theorem warmResetResume : ∀ a0, Statement (.warmResetResume a0) := by
  intro a0 _ p hp
  cases hp

theorem levelResetComplete : ∀ a0 a1, Statement (.levelResetComplete a0 a1) := by
  intro a0 a1 _ p hp
  cases hp

theorem levelParkComplete : ∀ a0, Statement (.levelParkComplete a0) := by
  intro a0 _ p hp
  cases hp

theorem levelUnparkComplete : ∀ a0, Statement (.levelUnparkComplete a0) := by
  intro a0 _ p hp
  cases hp

theorem standbyExitComplete : Statement .standbyExitComplete := by
  intro _ p hp
  cases hp

theorem repairLogWrite : Statement .repairLogWrite := by
  intro _ p hp
  cases hp

theorem shadowBuildComplete : Statement .shadowBuildComplete := by
  intro _ p hp
  cases hp

theorem stageInstallComplete : ∀ a0, Statement (.stageInstallComplete a0) := by
  intro a0 _ p hp
  cases hp

theorem stageHandleTimeout : ∀ a0, Statement (.stageHandleTimeout a0) := by
  intro a0 _ p hp
  cases hp

theorem jobStep : ∀ a0, Statement (.jobStep a0) := by
  intro a0 _ p hp
  cases hp

theorem jobStepDone : ∀ a0 a1, Statement (.jobStepDone a0 a1) := by
  intro a0 a1 _ p hp
  cases hp

theorem prechargeContact : Statement .prechargeContact := by
  intro _ p hp
  cases hp

theorem vauxUp : ∀ a0, Statement (.vauxUp a0) := by
  intro a0 _ p hp
  cases hp

theorem modPresentAssert : Statement .modPresentAssert := by
  intro _ p hp
  cases hp

theorem inputValid : ∀ a0, Statement (.inputValid a0) := by
  intro a0 _ p hp
  cases hp

theorem modEnRise : Statement .modEnRise := by
  intro _ p hp
  cases hp

theorem modEnFall : Statement .modEnFall := by
  intro _ p hp
  cases hp

theorem modRemoveOkAssert : Statement .modRemoveOkAssert := by
  intro _ p hp
  cases hp

theorem drainLimitExpire : Statement .drainLimitExpire := by
  intro _ p hp
  cases hp

theorem surpriseRemoval : ∀ a0, Statement (.surpriseRemoval a0) := by
  intro a0 _ p hp
  cases hp

theorem inputUndervoltage : Statement .inputUndervoltage := by
  intro _ p hp
  cases hp

theorem ptpMessageReceive : ∀ a0 a1, Statement (.ptpMessageReceive a0 a1) := by
  intro a0 a1 _ p hp
  cases hp

theorem ptpSyncSend : ∀ a0, Statement (.ptpSyncSend a0) := by
  intro a0 _ p hp
  cases hp

theorem servoHoldover : Statement .servoHoldover := by
  intro _ p hp
  cases hp

theorem holdoverExpire : Statement .holdoverExpire := by
  intro _ p hp
  cases hp

theorem xctTimeSend : ∀ a0, Statement (.xctTimeSend a0) := by
  intro a0 _ p hp
  cases hp

theorem xctTimeFrame : ∀ a0 a1, Statement (.xctTimeFrame a0 a1) := by
  intro a0 a1 _ p hp
  cases hp

theorem xctLaneFrame : ∀ a0 a1, Statement (.xctLaneFrame a0 a1) := by
  intro a0 a1 _ p hp
  cases hp

theorem xctRelay : ∀ a0 a1, Statement (.xctRelay a0 a1) := by
  intro a0 a1 _ p hp
  cases hp

theorem xctNak : ∀ a0 a1, Statement (.xctNak a0 a1) := by
  intro a0 a1 _ p hp
  cases hp

theorem xctReplayTimeout : ∀ a0, Statement (.xctReplayTimeout a0) := by
  intro a0 _ p hp
  cases hp

theorem xctLane : ∀ a0 a1, Statement (.xctLane a0 a1) := by
  intro a0 a1 _ p hp
  cases hp

theorem decodeCloseLaunch : ∀ a0, Statement (.decodeCloseLaunch a0) := by
  intro a0 _ p hp
  cases hp

theorem standbyEntryComplete : Statement .standbyEntryComplete := by
  intro _ p hp
  cases hp

theorem xctAckReceive : ∀ a0 a1, Statement (.xctAckReceive a0 a1) := by
  intro a0 a1 _ p hp
  cases hp

end Sys2Proof.Laws.WellFormed
end

