-- ==== Sys2Proof/Tests/Slice0.lean ====
section
/-! SUPPORT. Tests of the model: what well-formed commands are, worked examples of the spec, and for each statement of
Certificates/Slice0/Obligations.lean with hypotheses a state and operands that meet them. -/

namespace Sys2Proof.Tests

open Sys2Proof Sys2Proof.Machine

set_option Elab.async false

/-! A running module: Headframe up, PHASE 9, key slot 0 with every role, stream port 0 up, face 0 bound to slot 0 of drift 0. -/

/-- n zero bytes. -/
def bytes (n : Nat) : Bytes := List.replicate n 0
def net0 : NetAddr := { ip := 0, udp := 0 }
def rq0 : Req := { port := 0, src := net0, slot := 0, reqId := 1 }
def work0 : Work := { ctx := .session 0, deadline := 0 }
def op0 : ComputeOp :=
  { record := 0 :: 0 :: 1 :: bytes 13, lo := 0, count := 0, inRing := none, auxAt := 0, entries := 0, grad := none }
def open0 : OpenBody :=
  { session := 0, flags := 0, cls := 0, modelSlot := 0, ratePoint := 0, deadlineOff := 0, start0 := 0, destGroup := 0,
    inPort := 0, inSsrc := 0, streamId := 0, header := bytes 40, settings := bytes 64 }
def job0 : JobBody := { jobId := 1, modelSlot := 0, cls := 0, seed := 0, steps := 1, source := 0 }

/-- The stream header of a 64 × 64 video of model 7 version 1, 25 frames a second, 4:2:0, 8 bits. -/
def hdr0 : Bytes :=
  [1, 1, 0, 0, 0, 0, 0, 0, 0, 0, 0, 7, 0, 1, 0, 0, 0, 0, 0, 0, 0, 0, 0, 0, 0, 64, 0, 64, 0, 25, 0, 1, 0, 8, 1, 0, 0, 0, 0, 0]

/-- A package that the header names: one learned layer whose λ is tensor 0. -/
def pkg0 : ModelPkg :=
  { id := 7, version := 1, d := bytes 32, media := 1, ratePoints := 2, stateBytes := 0, mediaParams := bytes 16,
    tensors := [{ role := 2, c := 1, n := 1, yDiv := 1, xDiv := 1 }, { role := 3, c := 1, n := 1, yDiv := 1, xDiv := 1 },
                { fmt := 1, role := 7, c := 1, n := 1, y := 1, x := 1, dataLen := 4 }],
    layers := [{ opclass := 4, flags := 18, lambda := 2 }, { opclass := 5, flags := 16 }], weights := [0, 0, 0x80, 0x3F] }

/-- A Plan with one placement entry, one port, one destination and LPDDR6 pools on two levels. -/
def plan0 : Plan :=
  { workBytes := 0x20000, placement := [{ cls := 0, modelSlot := 0, bandBudget := 100, faces := [0] }],
    ckptPool := [(0, 0x80000), (0x4000000000, 0x80000)], ports := [{ mtu := 1500, ctrlUdp := 7000, mediaUdp := 7001 }, { mtu := 1500 }],
    groups := [{ dests := [{ addr := 1, udp := 9, portSel := 0, payload := 96, holdMax := 1000, holdAge := 10 }] }] }

def live : State :=
  { State.reset with
    now := 1000000000,
    regs := [(cmdReg 0x900, 9), (drfReg 0 0 0x40, 256), (drfReg 0 0 0x80, 1)],
    rot := { State.reset.rot with keys := (List.replicate 8 none).set 0 (some { key := bytes 32, roles := 0x7F }) },
    pwr := { State.reset.pwr with precharged := true, vaux := true, present := true, enable := true, inputOk := true, bulkOk := true,
                                  fetClosed := true, rails := true, pwrgd := true },
    boot := { State.reset.boot with hfRunning := true, enabled := 0xFF, maxActive := 8, maxResident := 8, plan := some plan0,
                                    accepting := true },
    models := [(0, { state := 3, pkg := pkg0 })],
    faces := [(0, { Face.zero with epoch := 1 })],
    levels := List.replicate 4 { Level.zero with inService := true },
    links := { State.reset.links with streamUp := [true, true] } }


/-! Worked examples of the spec. -/

/-- The face at level 2, drift 5, position 9 (R8, R38). -/
theorem test_address_map :
    physFace 2 5 9 = 1193 ∧ storeBase 1193 = 0x0204A9000000 ∧ dramBase 2 = 0x012000000000 ∧ drfReg 2 5 0 = 0x030000225000 ∧
      drfReg 2 5 0x98 = 0x030000225098 ∧ fceReg 1190 0x100 = 0x0300014A6100 ∧ launchGrain 1000000002 = 1000000004 := by decide

/-- Expansions of narrow formats (chapter 03). -/
theorem test_narrow_expansion :
    convert .fp16 (ofOre8 0x5B) = (0x4580, 0) ∧ convert .fp16 (ofOre8 0x85) = (0x9900, 0) ∧ convert .fp16 (ofOre6 0x2E) = (0xBE00, 0) ∧
      convert .fp16 (ofGrit4 0xFC 2) = (0x3000, 0) ∧ convert .fp16 (ofGrit4 0xFC 0xB) = (0xB500, 0) ∧
      convert .fp16 (ofU8z 0x5A 0x80) = (0xD0C0, 0) := by decide +kernel

/-- Conversion to Ore8 (R93): FP16 0x4633, 124 and 122. -/
theorem test_to_ore8 :
    convert .ore8 (ofFp16 0x4633) = (0x5C, fNX) ∧ convert .ore8 (ofFp16 0x57C0) = (0x7F, fOF + fNX) ∧
      convert .ore8 (Num.ofInt 122) = (0x7F, fNX) := by decide +kernel

/-- The 16-term dot product of chapter 03. -/
def dotExample : List (Machine.Num × Machine.Num) :=
  ([0x6400, 0xE400, 0x001F, 0x0001, 0x8003, 0x0064, 0x8040, 0x0000, 0x0007, 0x800A, 0x000C, 0x03FF, 0x8011, 0x0005, 0x00C8, 0x8002].map
    ofFp16).zip
  ([0x6400, 0x6400, 0x0008, 0x0001, 0x0005, 0x0032, 0x0021, 0x3C00, 0x0009, 0x000A, 0x0019, 0x0002, 0x0003, 0x0005, 0x0001, 0x03E8].map
    ofFp16)

theorem test_dot_product :
    convert .fp32 (dot .native dotExample none).num = (0x2D5E0000, 0) ∧
      convert .fp16 (dot .native dotExample none).num = (0x0000, fUF + fNX) := by decide +kernel

/-- The split of FP32 1.1 (R106). -/
theorem test_split : pieces (ofFp32 0x3F8CCCCD) = [(1126, -10), (819, -21), (1, -23)] := by decide +kernel

/-- The segment selection of TANH for FP16 0x34CD and its negative (R118, R119). -/
theorem test_segment :
    segIndex (sfuB 9) (1229, -12) = 26 ∧ localVar (sfuB 9) (1229, -12) = 0x33400000 ∧
      localVar (sfuB 9) (-1229, -12) = 0x33400000 := by decide +kernel

/-- Exact points (R126): EXP2 of −3, LOG2 of 8 and of 0.5, RCP of −4, SQRT and RSQRT of 16. -/
theorem test_exact_points :
    [(1, 0xC200), (3, 0x4800), (3, 0x3800), (5, 0xC400), (6, 0x4C00), (7, 0x4C00)].map
      (fun q => convert .fp16 (sfu false q.1 (ofFp16 q.2)).num) =
        [(0x3000, 0), (0x4200, 0), (0xBC00, 0), (0xB400, 0), (0x4400, 0), (0x3400, 0)] := by decide +kernel

/-- The soft maximum of chapter 04: 64 elements of −1.0, then 2.0, base 2. -/
theorem test_softmax :
    let out := (softmax false true (List.replicate 64 (ofFp16 0xBC00) ++ [ofFp16 0x4000])).map (fun r => convert .fp16 r.num)
    out.length = 65 ∧ (out.take 64).all (fun v => v == (0x231C, fNX)) = true ∧ out.drop 64 = [(0x2F1C, fNX)] := by decide +kernel

/-- The U8Z row of chapter 05: codes, spill and scale entry. -/
theorem test_fit_and_convert :
    let r := freshRow false (fun _ => false) 5 {} 0 ([0xC0400000, 0x3F480000, 0x41280000, 0x40100000, 0x3D000000].map ofFp32)
    r.elems.map (fun e => e.code) = [0, 60, 216, 84, 48] ∧ r.elems.map (fun e => e.flags) = [0, fNX, 0, 0, fUF + fNX] ∧
      r.elems.map (fun e => e.und) = [false, false, false, false, true] ∧ r.entry = 0x004030FC := by decide +kernel

/-- The stochastic rounding of chapter 05: the draw, and the code of −0.33203125 at exponent −4. -/
theorem test_stochastic_rounding :
    srDraw 1 0 0 0 1 = 3785 ∧ laneAfter (laneSeed 1 0 0 0 1) 0 = 0xEC9FB8B6 ∧
      srElem (-4) 3785 (ofFp16 0xB550) = { code := 0xDA, flags := fNX, sat := false, und := false } ∧
      (srElem (-4) 2559 (ofFp16 0xB550)).code = 0xDB := by decide +kernel

/-- Padding, stride and landing of chapter 06. -/
theorem test_windows :
    convLen 3 3 3 1 7 1 = 3 ∧ [-3, -2, -1, 3].map (fun i => padIndex 2 i 3) = [1, 2, 1, 1] ∧
      [-3, -2, -1, 3].map (fun i => padIndex 3 i 3) = [0, 0, 0, 2] ∧ convLen 16 0 0 1 2 4 = 4 ∧ convLen 8 16 16 16 3 1 = 8 ∧
      [-16, 16].map (fun i => padIndex 2 i 8) = [2, 2] ∧ transLen 4 1 1 1 3 2 1 = 8 ∧
      [0, 1, 2].map (fun u => landRow 0 1 u 1 2 4) = [none, some 0, none] ∧
      [0, 1, 2].map (fun u => landRow 5 1 u 1 2 4) = [some 3, none, some 2] ∧
      [0, 1, 2].map (fun u => landRow 7 1 u 1 2 4) = [none, none, some 3] := by decide

/-- The warp of chapter 06: output (10, 3), flow (−37, 21). -/
theorem test_warp :
    let x : Operand := { n := 1, c := 1, y := 13, x := 2, fmt := 0,
                         get := fun i => ofFp16 (if i = 22 then 0x3800 else if i = 23 then 0x3C00 else if i = 24 then 0x3400 else 0x3A00) }
    let f : Operand := { n := 1, c := 2, y := 11, x := 4, fmt := 0, get := fun i => Num.ofInt (if i < 44 then -37 else 21) }
    convert .fp16 (dot .native (warpTerms {} x f 0 0 10 3) none).num = (0x3A20, 0) := by decide +kernel

/-- The suppression of chapter 06, and the blocks its boxes paint. -/
def box3 : RBox := { x0 := 100, x1 := 200, y0 := 50, y1 := 90, cls := 0, logit := ofFp16 0x4300, cand := 3 }
def box7 : RBox := { x0 := 110, x1 := 210, y0 := 55, y1 := 95, cls := 0, logit := ofFp16 0x4000, cand := 7 }
def box12 : RBox := { x0 := 300, x1 := 340, y0 := 50, y1 := 70, cls := 0, logit := ofFp16 0x4000, cand := 12 }

theorem test_suppression :
    (selectBoxes { iouT := 128, maxKeep := 64, classes := 1 } [box12, box7, box3]).map (fun b => b.cand) = [3, 12] := by decide +kernel

theorem test_paint :
    (paintMap 384 96 [(100, 200, 50, 90, 12), (300, 340, 50, 70, 12)]).countP (fun v => v == 12) = 29 := by decide +kernel

/-- Output samples of chapter 02 (R68). -/
theorem test_output_sample :
    [0x3800, 0x2C00, 0x3C00, 0x3C01, 0x9400].map (fun v => outputSample 8 (ofFp16 v)) = [128, 16, 255, 255, 0] ∧
      [0x3800, 0x2C00, 0x3C00, 0x3C01, 0x9400].map (fun v => outputSample 10 (ofFp16 v)) = [512, 64, 1023, 1023, 0] := by decide +kernel

/-- The worked decode of chapter 02: two symbols, their ŷ, five bytes read. -/
def sliceExample : Bytes := [0x5A, 0x31, 0xC0, 0x07, 0x9E]
def table40 : List Nat := [0, 1024, 30208, 30464, 32768]
def table43 : List Nat := [0, 2048, 12288, 28672, 31744, 32768]

theorem test_range_decode :
    (decStart sliceExample).map (fun r => r.val) = some 0x5A31C007 ∧
      ((decStart sliceExample).bind (decSymbol sliceExample table43 5)).map (fun x => (x.1, x.2.val, x.2.rng)) =
        some (1, 0x4A31C807, 0x4FFFD800) ∧
      (((decStart sliceExample).bind (decSymbol sliceExample table43 5)).bind (fun x => decSymbol sliceExample table40 4 x.2)).map
        (fun x => (x.1, x.2.val, x.2.rng, x.2.read)) = some (2, 0x723E079E, 0x9FFF0000, 5) ∧
      sigmaIndex [0x3000, 0x3400, 0x3800, 0x3C00, 0x4000, 0x4400, 0x4800] 0x3A00 = 3 ∧
      sigmaIndex [0x3000, 0x3400, 0x3800, 0x3C00, 0x4000, 0x4400, 0x4800] 0x2E00 = 0 ∧
      yHat (-1) 0x3800 = 0xBF000000 ∧ yHat 1 0xB400 = 0x3F400000 := by decide +kernel

/-- A value coded is the value decoded, an escape among them (R69, R70, R73). -/
theorem test_coder_round_trip :
    let t : CdfRec := { kind := 1, centre := 2, entries := table43 }
    let w := encClose ([-1, 1, -9, 40].foldl (fun r v => (encValue t v r).2) encStart)
    (decStart w.out).map (fun r => (List.range 4).foldl (fun (q : List (Option Int) × RangeState) _ =>
      let d := decValue w.out t q.2
      (q.1 ++ [d.value], d.range)) ([], r)) |>.map (fun q => q.1) = some [some (-1), some 1, some (-9), some 40] := by decide +kernel

/-- The worked lookup of chapter 07: two directory records and their entries in bank 1 of level 2. -/
theorem test_cdf_pool :
    let s := (((State.reset.writeMem 0x0120BF801F40 (natLe 8 0x0013880007824000)).writeMem 0x0120BF848000
      ([0x3000, 0x3400, 0x3800, 0x3C00, 0x4000, 0x4400, 0x4800].flatMap (natLe 2))).writeMem 0x0120BF809C58
      (natLe 8 0x0000000204431200)).writeMem 0x0120BF862400 (table43.flatMap (natLe 2))
    s.poolRec 2 1 1000 = { kind := 2, centre := 0, first := 5000, entries := [0x3000, 0x3400, 0x3800, 0x3C00, 0x4000, 0x4400, 0x4800] } ∧
      s.poolRec 2 1 5003 = { kind := 1, centre := 2, first := 0, entries := table43 } := by decide +kernel

/-- The worked descriptor of chapter 09: stereo audio interleaved into LPDDR6 device 9. -/
def stereo : Bytes :=
  natLe 4 0x02404131 ++ natLe 4 0x1F1F ++ natLe 8 0x0204A9040000 ++ natLe 8 0x009000001000 ++ natLe 4 960 ++ natLe 4 0x00020001 ++
    zeros 4 ++ natLe 4 0x780 ++ zeros 24

theorem test_interleave :
    let d := parseDesc stereo
    descOk stereo 2 = true ∧ d.count = 3840 ∧ d.srcAddr 2002 = 0x0204A9040B68 ∧ d.dstAddr 2002 = 0x0090000017D2 ∧
      (State.reset.nextPiece 1193 {} d).toOption.map (fun q => (q.src.take 3, q.dst, q.len)) =
        some ([(0x0204A9040000, 2), (0x0204A9040780, 2), (0x0204A9040002, 2)], 0x009000001000, 64) := by decide +kernel

/-- The 4:1 sub-block of chapter 10. -/
theorem test_sub_block :
    let b := codeSub 3 ([0x4100, 0xBD00, 0x34CD, 0x3F00] ++ List.replicate 12 0)
    b.expByte = 0 ∧ b.fields.take 4 = [2, 7, 0, 2] ∧ b.recon.take 4 = [0x4000, 0xBC00, 0x0000, 0x4000] := by decide +kernel

/-- The worked packetisation of chapter 14: MTU 9,000 over IPv6, units of 52, 36 and 9,234 bytes. -/
theorem test_packetisation :
    unitSpace 9000 (2 ^ 127) = 8936 ∧
      (usfPayloads 8936 [{ bytes := bytes 52 }, { bytes := bytes 36 }, { bytes := bytes 9234 }]).2.map (fun b => (b.take 4, b.length)) =
        [([0, 0, 0, 0], 92)] ∧
      (usfPayloads 8936 [{ bytes := bytes 9234 }]).2.map (fun b => (b.take 4, b.length)) =
        [([0x40, 0, 0, 0], 8940), ([0xC0, 0, 0, 1], 302)] := by decide +kernel

/-- Zero compression of a page and back (R187 to R189): a run whose element 1 alone is there. -/
theorem test_zero_compression :
    zcExpand false 64 (zcPage 2 (natLe 2 0 ++ natLe 2 0x8000 ++ zeros 124)) = some (natLe 2 0 ++ natLe 2 0x8000 ++ zeros 124) ∧
      zcPage 2 (natLe 2 0 ++ natLe 2 0x8000 ++ zeros 124) = [3, 0, 0, 0, 0, 0, 0, 0, 2, 0, 0, 0, 0, 0, 0, 0, 0, 0x80, 0, 0, 0, 0, 0, 0] ∧
      zcExpand false 64 [4, 0, 0, 0, 0, 0, 0, 0, 2, 0, 0, 0, 0, 0, 0, 0, 0, 0x80, 0, 0, 0, 0, 0, 0] = none := by decide +kernel

/-- A dense COPY of x bytes with an auxiliary plane of a bytes. -/
def descAux (x a : Nat) : Bytes :=
  natLe 4 1 ++ natLe 4 0x1F1F ++ zeros 16 ++ natLe 4 x ++ natLe 4 0x00010001 ++ zeros 16 ++ zeros 12 ++ natLe 4 (a + 3 * 2 ^ 24)

/-- A skip of 96 bytes with data and auxiliary plane 2 to 1 (R274, R283): 64 bytes of data, then 32 of the plane. -/
theorem test_aux_in_skip :
    let d := { parseDesc (descAux 128 64) with dstRing := some 0 }
    d.count = 128 ∧ d.auxLen = 64 ∧ streamPart 128 64 (some 96) 63 = (false, 63, 1) ∧ streamPart 128 64 (some 96) 64 = (true, 0, 32) ∧
      streamPart 128 64 (some 96) 96 = (false, 64, 64) ∧ streamPart 128 64 (some 96) 160 = (true, 32, 32) ∧
      streamPart 128 64 none 128 = (true, 0, 64) := by
  decide +kernel

/-- Numbers and lines of R470 and R471. -/
theorem test_lamp_lines :
    lampNumber ((ascii "0x0000_0A00").map (fun b => b.toNat)) = some 0xA00 ∧ lampNumber ((ascii "3_000").map (fun b => b.toNat)) = some 3000 ∧
      lampNumber ((ascii "0x").map (fun b => b.toNat)) = none ∧ lineBad (ascii " reg  r 0x0A00 2") = false ∧ lineBad (ascii "park") = true ∧
      lineBad (ascii "keyload 2 0x7F 00112233_44556677_8899aabb_CCDDEEFF_00112233_44556677_8899aabb_CCDDEEFF") = false ∧
      lineBad (ascii "keyload 2 0x7F 0011223344556677_8899aabb_CCDDEEFF_00112233_44556677_8899aabb_CCDDEEFF") = true := by decide +kernel

/-! Well-formed and ill-formed terms, one of the latter for each check of a command. -/

/-- A well-formed term of each of these commands. -/
def wellTerms0 : List Instr :=
  [.ctrlFrameReceive 0 net0 [], .probe rq0, .status rq0, .sessionStatus rq0 0, .sessionCounters rq0 0 true,
   .jobStatus rq0 0, .eventRead rq0 0 0, .eventSubscribe rq0 true, .repairRead rq0 0 0, .regRead rq0 0 0,
   .regWrite rq0 0 0, .attest rq0 (bytes 32), .modelList rq0 0 0, .sesOpen rq0 open0, .sesClose rq0 0 0 0,
   .sesPark rq0 0, .sesResume rq0 0 0, .sesReset rq0 0, .sesSet rq0 0 0 0 0 [], .migrate rq0 0 0 0, .jobStart rq0 job0,
   .jobSuspend rq0 0, .jobResume rq0 0, .jobCancel rq0 0, .jobRelease rq0 0, .jobExport rq0 0 0 0,
   .stageBegin rq0 0 0 0 0, .stageData rq0 0 0 [], .stageCommit rq0 0, .stageAbort rq0 0, .modelUnstage rq0 0,
   .swapArm rq0 0, .swapDisarm rq0, .directorySet rq0 0, .logClear rq0 0 0, .warmReset rq0, .levelReset rq0 0,
   .faceReset rq0 0, .levelPark rq0 0 0, .standby rq0 0]

/-- A well-formed term of each of these commands. -/
def wellTerms1 : List Instr :=
  [.remove rq0 0 0, .keySet rq0 0 0 (bytes 16) (bytes 32), .keyClear rq0 0, .lampLog 0, .lampResetLevel 0, .lampPark 0,
   .lampUnpark 0, .lampKeyload 0 0 (bytes 32), .lampHfload 0, .lampPlanload 0, .lampImageFrame 0 [] 0,
   .arithFlagsClear 0 0, .trapRecordClear 0 0, .spillRecordClear 0 0, .tagFaultClear 0 0, .addrErrClear none 0,
   .hstErrClear 0 0, .waitRecordClear 0 0, .roundAbortRecordClear none 0, .eccRecordClear none 0,
   .takeoverRecordClear 0 0, .hoistCopy 0 0 0 work0, .hoistFill 0 0 0 work0, .tram 0 4 0 0 work0, .transactionIssue 0 0,
   .descriptorComplete 0 0, .busError 0 0, .fusedStageCommand 0 0 work0, .computeStep 0 (.session 0) op0,
   .muster 0 0 work0, .musterRelease 0 0 0, .skipPublish 0 0 0 none, .skipRelease 0 0,
   .poolBorrow (.face 0 0) (.session 0), .borrowReturnBy (.face 0 0), .ringMonitorSample 0,
   .tramChunkArrive 0 0 0 0 0 [], .tramRefetch 0 0, .faceIdleGate 0, .faceUngate 0]

/-- A well-formed term of each of these commands. -/
def wellTerms2 : List Instr :=
  [.motionBandStart 0 0 0, .columnBlockLoad 0 0, .motionTileStart 0, .motionBandPublish 0, .regionMapPaint 0 [] true,
   .coderJobSubmit 0 [] 0, .coderJobDispatch 0, .coderCacheFill 0 0 0 true, .coderContextSwitch 0 0 [],
   .coderJobComplete 0 0 0 true, .compress 0 0 work0, .decompress 0 0 work0, .verify 0 0 work0, .compressorDispatch 0,
   .segmentComplete 0 0, .sessionActivate 0, .frameStart 0, .bandLaunch 0 0, .encodeDeadline 0, .sliceEmit 0,
   .destinationSend 0 0 true, .spectatorSkip 0 0, .decodeFrameDeadline 0, .decodeFrameOutput 0, .sessionParkComplete 0,
   .sessionFree 0, .ethFrameReceive 0 [] true, .usfPacketReceive 0 net0 0 0 0 [], .fragmentTimeout 0 0,
   .rawMediaPacket 0 0 0 [], .usfStreamHeader 0 [], .usfFrameHeader 0 [], .usfSlice 0 [], .usfEndOfStream 0 [],
   .usfLossReport 0 [] true, .usfReservedType 0 [], .faceWatchdogExpire 0, .facePowerFault 0, .faceAutoReset 0,
   .faceSoundingDone 0 true 0]

/-- A well-formed term of each of these commands. -/
def wellTerms3 : List Instr :=
  [.ringSegment 0 0 0, .lpddrDevice 0 .training, .eccUe 0 { use := .roundState 0 }, .phaseShed 0 0, .junctionReport 0 0,
   .dvfsThermalStep 0, .dvfsStepDone 0, .memoryInitDone 0 {}, .helloSend 0, .helloReceive 0 [],
   .streamPortLinkChange 0 true, .streamPortLinkTimeout 0, .levelResetComplete 0 [], .levelParkComplete 0,
   .levelUnparkComplete 0, .ptpMessageReceive 0 [], .ptpSyncSend 0, .xctTimeSend 0, .xctTimeFrame 0 [],
   .xctLaneFrame 0 [], .xctRelay 0 [], .xctNak 0 [], .xctReplayTimeout 0, .xctLane 0 0, .decodeCloseLaunch 0,
   .xctAckReceive 0 []]

/-- The same with one operand out of its range: each check of Instr.wf once. -/
def illTerms0 : List Instr :=
  [.ctrlFrameReceive 2 net0 [], .ctrlFrameReceive 0 { ip := 0, udp := 65536 } [], .probe { rq0 with port := 2 },
   .status { rq0 with port := 2 }, .status { rq0 with slot := 256 }, .status { rq0 with reqId := 4294967296 },
   .status { rq0 with src := { ip := 2 ^ 128, udp := 0 } }, .status { rq0 with src := { ip := 0, udp := 65536 } },
   .sessionStatus { rq0 with port := 2 } 0, .sessionCounters { rq0 with port := 2 } 0 true,
   .jobStatus { rq0 with port := 2 } 0, .eventRead { rq0 with port := 2 } 0 0,
   .eventSubscribe { rq0 with port := 2 } true, .repairRead { rq0 with port := 2 } 0 0,
   .regRead { rq0 with port := 2 } 0 0, .regWrite { rq0 with port := 2 } 0 0, .attest { rq0 with port := 2 } (bytes 32),
   .attest rq0 (bytes 15), .modelList { rq0 with port := 2 } 0 0, .sesOpen { rq0 with port := 2 } open0,
   .sesOpen rq0 { open0 with header := bytes 39 }, .sesOpen rq0 { open0 with settings := bytes 63 },
   .sesClose { rq0 with port := 2 } 0 0 0, .sesPark { rq0 with port := 2 } 0, .sesResume { rq0 with port := 2 } 0 0,
   .sesReset { rq0 with port := 2 } 0, .sesSet { rq0 with port := 2 } 0 0 0 0 [], .migrate { rq0 with port := 2 } 0 0 0,
   .jobStart { rq0 with port := 2 } job0, .jobSuspend { rq0 with port := 2 } 0, .jobResume { rq0 with port := 2 } 0,
   .jobCancel { rq0 with port := 2 } 0, .jobRelease { rq0 with port := 2 } 0, .jobExport { rq0 with port := 2 } 0 0 0,
   .stageBegin { rq0 with port := 2 } 0 0 0 0, .stageData { rq0 with port := 2 } 0 0 [],
   .stageCommit { rq0 with port := 2 } 0, .stageAbort { rq0 with port := 2 } 0, .modelUnstage { rq0 with port := 2 } 0,
   .swapArm { rq0 with port := 2 } 0]

/-- The same with one operand out of its range: each check of Instr.wf once. -/
def illTerms1 : List Instr :=
  [.swapDisarm { rq0 with port := 2 }, .directorySet { rq0 with port := 2 } 0, .logClear { rq0 with port := 2 } 0 0,
   .warmReset { rq0 with port := 2 }, .levelReset { rq0 with port := 2 } 0, .faceReset { rq0 with port := 2 } 0,
   .levelPark { rq0 with port := 2 } 0 0, .standby { rq0 with port := 2 } 0, .remove { rq0 with port := 2 } 0 0,
   .keySet { rq0 with port := 2 } 0 0 (bytes 16) (bytes 32), .keySet rq0 0 0 (bytes 15) (bytes 32),
   .keySet rq0 0 0 (bytes 16) (bytes 31), .keyClear { rq0 with port := 2 } 0, .lampLog 1025, .lampResetLevel 4,
   .lampPark 4, .lampUnpark 4, .lampKeyload 8 0 (bytes 32), .lampKeyload 0 256 (bytes 32), .lampKeyload 0 0 (bytes 31),
   .lampHfload 2, .lampPlanload 4, .arithFlagsClear 17 0, .trapRecordClear 17 0,
   .spillRecordClear 17 0, .tagFaultClear 17 0, .addrErrClear (some 4) 0, .hstErrClear 17 0, .waitRecordClear 4 0,
   .roundAbortRecordClear (some 4) 0, .eccRecordClear (some 4) 0, .takeoverRecordClear 4 0, .hoistCopy 17 0 0 work0,
   .hoistCopy 0 6 0 work0, .hoistCopy 0 0 storeBytes work0, .hoistCopy 0 0 0 { work0 with deadline := 2 ^ 64 },
   .hoistFill 17 0 0 work0, .hoistFill 0 6 0 work0, .hoistFill 0 0 storeBytes work0]

/-- The same with one operand out of its range: each check of Instr.wf once. -/
def illTerms2 : List Instr :=
  [.hoistFill 0 0 0 { work0 with deadline := 2 ^ 64 }, .tram 17 4 0 0 work0, .tram 0 3 0 0 work0,
   .tram 0 4 storeBytes 0 work0, .tram 0 4 0 0 { work0 with deadline := 2 ^ 64 }, .transactionIssue 17 0,
   .transactionIssue 0 6, .descriptorComplete 17 0, .descriptorComplete 0 6, .busError 17 0, .busError 0 6,
   .fusedStageCommand 17 0 work0, .fusedStageCommand 0 storeBytes work0,
   .fusedStageCommand 0 0 { work0 with deadline := 2 ^ 64 }, .computeStep 17 (.session 0) op0, .computeStep 0 (.session 0) { op0 with record := bytes 15 }, .muster 17 0 work0,
   .muster 0 storeBytes work0, .muster 0 0 { work0 with deadline := 2 ^ 64 }, .musterRelease 4 0 0,
   .musterRelease 0 65536 0, .skipPublish 17 0 0 none, .skipPublish 0 16 0 none, .skipRelease 17 0, .skipRelease 0 16,
   .poolBorrow (.face 17 0) (.session 0), .poolBorrow (.face 0 16) (.session 0),
   .poolBorrow (.lot 4 0 0 0) (.session 0), .poolBorrow (.lot 0 16 0 0) (.session 0),
   .poolBorrow (.lot 0 0 4 0) (.session 0), .poolBorrow (.lot 0 0 0 3) (.session 0), .borrowReturnBy (.face 0 16),
   .ringMonitorSample 4, .tramChunkArrive 17 0 0 0 0 [], .tramChunkArrive 0 17 0 0 0 [], .tramRefetch 17 0,
   .tramRefetch 0 6, .faceIdleGate 17, .faceIdleGate 2048, .faceUngate 17, .motionBandStart 17 0 0]

/-- The same with one operand out of its range: each check of Instr.wf once. -/
def illTerms3 : List Instr :=
  [.motionBandStart 0 4294967296 0, .columnBlockLoad 17 0, .motionTileStart 17, .motionBandPublish 17,
   .regionMapPaint 4294967296 [] true, .coderJobSubmit 17 [] 0, .coderJobDispatch 4, .coderCacheFill 4 0 0 true,
   .coderCacheFill 0 16 0 true, .coderCacheFill 0 0 4 true, .coderContextSwitch 4 0 [], .coderContextSwitch 0 16 [],
   .coderJobComplete 4 0 0 true, .coderJobComplete 0 16 0 true, .coderJobComplete 0 0 4 true, .compress 17 0 work0,
   .compress 0 storeBytes work0, .compress 0 0 { work0 with deadline := 2 ^ 64 }, .decompress 17 0 work0,
   .decompress 0 storeBytes work0, .decompress 0 0 { work0 with deadline := 2 ^ 64 }, .verify 17 0 work0,
   .verify 0 storeBytes work0, .verify 0 0 { work0 with deadline := 2 ^ 64 }, .compressorDispatch 4,
   .segmentComplete 4 0, .segmentComplete 0 4, .sessionActivate 4294967296, .frameStart 4294967296,
   .bandLaunch 4294967296 0, .encodeDeadline 4294967296, .sliceEmit 4294967296, .destinationSend 4294967296 0 true,
   .destinationSend 0 64 true, .spectatorSkip 4294967296 0, .spectatorSkip 0 64, .decodeFrameDeadline 4294967296,
   .decodeFrameOutput 4294967296, .sessionParkComplete 4294967296, .sessionFree 4294967296]

/-- The same with one operand out of its range: each check of Instr.wf once. -/
def illTerms4 : List Instr :=
  [.ethFrameReceive 2 [] true, .usfPacketReceive 2 net0 0 0 0 [],
   .usfPacketReceive 0 { ip := 0, udp := 65536 } 0 0 0 [], .usfPacketReceive 0 net0 65536 0 0 [],
   .usfPacketReceive 0 net0 0 4294967296 0 [], .usfPacketReceive 0 net0 0 0 65536 [], .fragmentTimeout 2 0,
   .fragmentTimeout 0 4294967296, .rawMediaPacket 2 0 0 [], .rawMediaPacket 0 65536 0 [],
   .rawMediaPacket 0 0 4294967296 [], .usfStreamHeader 4294967296 [], .usfFrameHeader 4294967296 [],
   .usfSlice 4294967296 [], .usfEndOfStream 4294967296 [], .usfLossReport 4294967296 [] true,
   .usfReservedType 4294967296 [], .faceWatchdogExpire 17, .facePowerFault 17, .faceAutoReset 17,
   .faceSoundingDone 17 true 0, .ringSegment 4 0 0, .ringSegment 0 16 0, .ringSegment 0 0 17, .lpddrDevice 16 .training,
   .eccUe 0 { use := .faceStore 17 }, .eccUe 0 { use := .searchStore 17 0 0 }, .eccUe 0 { use := .pool 4 0 0 }, .eccUe 0 { use := .pool 0 16 0 },
   .eccUe 0 { use := .pool 0 0 4 }, .eccUe 0 { use := .dramOther 0 6 }, .eccUe 0 { use := .lpddrModel 4096 }, .eccUe 0 { use := .lpddrOther 17 0 },
   .eccUe 0 { use := .lot 0 16 0 }, .eccUe 0 { use := .tableCache 0 0 4 }, .eccUe 0 { use := .staging 0 4 }, .eccUe 0 { use := .portIngress 2 },
   .eccUe 0 { use := .portEgress 4294967296 0 }, .eccUe 0 { use := .portEgress 0 64 }, .eccUe 0 { use := .dramUnit 0 4 }, .eccUe 0 { use := .lpddrUnit 4 0 },
   .eccUe 0 { use := .mesh 17 0 }, .eccUe 0 { use := .mesh 0 6 }, .eccUe 0 { use := .roundState 5, corrected := true }, .phaseShed 160 0, .junctionReport 5 0]

/-- The same with one operand out of its range: each check of Instr.wf once. -/
def illTerms5 : List Instr :=
  [.dvfsThermalStep 4, .dvfsStepDone 4, .memoryInitDone 4 {}, .helloSend 4, .helloReceive 4 [],
   .streamPortLinkChange 2 true, .streamPortLinkTimeout 2, .levelResetComplete 4 [], .levelParkComplete 4,
   .levelUnparkComplete 4, .ptpMessageReceive 2 [], .ptpSyncSend 2, .xctTimeSend 4, .xctTimeFrame 4 [],
   .xctLaneFrame 4 [], .xctRelay 4 [], .xctNak 4 [], .xctReplayTimeout 4, .xctLane 4 0, .xctLane 0 4,
   .decodeCloseLaunch 4294967296, .xctAckReceive 4 []]

theorem test_wf_accepts_0 : wellTerms0.all Instr.wf = true := by decide
theorem test_wf_accepts_1 : wellTerms1.all Instr.wf = true := by decide
theorem test_wf_accepts_2 : wellTerms2.all Instr.wf = true := by decide
theorem test_wf_accepts_3 : wellTerms3.all Instr.wf = true := by decide
theorem test_wf_refuses_0 : illTerms0.all (fun i => !i.wf) = true := by decide
theorem test_wf_refuses_1 : illTerms1.all (fun i => !i.wf) = true := by decide
theorem test_wf_refuses_2 : illTerms2.all (fun i => !i.wf) = true := by decide
theorem test_wf_refuses_3 : illTerms3.all (fun i => !i.wf) = true := by decide
theorem test_wf_refuses_4 : illTerms4.all (fun i => !i.wf) = true := by decide
theorem test_wf_refuses_5 : illTerms5.all (fun i => !i.wf) = true := by decide

/-- A data frame of more than 4,096 bytes. -/
theorem test_wf_refuses_long_image_frame : (Instr.lampImageFrame 0 (bytes 4097) 0).wf = false := by
  simp only [Instr.wf, bytes, List.length_replicate]
  decide
/-! Each statement with hypotheses: a state and operands that meet them, clause by clause. -/

def sesIn (x : Session) : State := { live with sessions := [(5, x)] }
def act0 : Session := { state := .active, media := 1, header := hdr0, periodNum := 40000000, periodDen := 1, counters := List.replicate 29 0,
                        slots := List.replicate 8 {}, egress := { dests := [{}] } }
def job1 : Job := { id := 1, params := [1], placement := 0 }
def jobIn (j : Job) : State := { sesIn act0 with jobs := [j] }
def handle1 : StageHandle := { handle := 9, kind := 4, total := 4, data := [(0, 1), (1, 1), (2, 1), (3, 1)] }
def handleIn (h : StageHandle) : State := { live with handles := [h] }

/-- A servo that corrects by more than 100 ppm is held to it while a session is open. -/
theorem witness_EmptyQueueTicks :
    live.pending = [] ∧ live.servo.rate = 0 ∧ live.servo.frac < 2 ^ 32 ∧
      (let s : State := { sesIn act0 with servo := { live.servo with rate := -2000000, frac := 2 ^ 32 - 1 } }
       (∃ e ∈ s.sessions, e.2.state ≠ .free) ∧ s.servo.frac < 2 ^ 32 ∧ s.now + 5 < 2 ^ 64 ∧ s.pending = [] ∧
         s.cycle.now = 1000000004 ∧ s.cycle.servo.frac = 2 ^ 32 - 1 - 1717986) := by decide

theorem witness_ResetState : faceWf 0 = true ∧ faceWf 2032 = true ∧ 0xFFFFF < 0x100000 ∧ 0xFFFFF ≠ 0xB00 := by decide

theorem witness_StepKeepsCanonical :
    live.Canonical ∧ step live = .next { live with now := 1000000004 } ∧ State.reset.Canonical := by
  refine ⟨⟨by decide, by decide, by decide⟩, rfl, by decide, by decide, by decide⟩

theorem witness_StepKeepsRootOfTrust : (step live = .next (tick live)) ∧ ({ live with rot := { live.rot with locked := true } } : State).rot.locked = true :=
  ⟨rfl, by decide⟩

theorem witness_ControlReadsAnswer :
    live.boot.hfRunning = true ∧ ({ rq0 with slot := 0xFF } : Req).slot = 0xFF ∧
      live.entryTurn (reqEntry { rq0 with slot := 0xFF } 1) = true ∧ live.Takes rq0 0x10 0 ∧ live.Takes rq0 0x11 0 ∧
      (0xFFFFF : BitVec 32).toNat < 2 ^ 20 ∧ live.Takes rq0 0x12 0 ∧ (jobIn job1).Takes rq0 0x13 0 ∧
      (jobIn job1).job (1 : BitVec 32).toNat = some job1 ∧ live.Takes rq0 0x14 0 ∧ (64 : BitVec 16).toNat ≤ 64 ∧
      (1023 : BitVec 16).toNat < 1024 ∧ live.Takes rq0 0x16 0 ∧ live.Takes rq0 0x1A 0 ∧
      (3840 : BitVec 16).toNat + (256 : BitVec 16).toNat ≤ 4096 ∧ live.Takes rq0 0x19 0 ∧ (bytes 32).length = 32 := by
  decide

theorem witness_ControlSubscribesAndAccessesRegisters :
    live.Takes rq0 0x15 0 ∧ live.ctrl.subs.length < 4 ∧ live.Takes rq0 0x17 0 ∧ live.Takes rq0 0x18 0 ∧
      (BitVec.ofNat 64 (cmdReg 0)).toNat < 2 ^ 48 ∧ live.regError (BitVec.ofNat 64 (cmdReg 0)).toNat false = none ∧
      live.regError (BitVec.ofNat 64 (fceReg 2032 0xFFC)).toNat true = none := by
  decide

theorem witness_ControlReadsChangeNothingElse :
    ∃ t, exec (.eventSubscribe rq0 true) live = .next t ∧ t.ctrl.subs = [{ slot := 0, port := 0, src := net0 }] :=
  ⟨_, rfl, by decide⟩

theorem witness_ResponsePartsJoinToBody : 112 < 113 ∧ ctrlParts 113 [1, 2] = [(0, [1]), (1, [2])] := by decide

/-- A STATUS request of key slot 0, authentic: its TAG is the slot key's (R444). -/
def frame0 (epoch seq : Nat) : Bytes :=
  let h := ctrlHeader 0 0 0x10 0 1 epoch seq 1 0 0 0
  h ++ kmac256 (bytes 32) h 32 (ctrlCustom 0)
def seen5 : State := { live with ctrl := { live.ctrl with windows := live.ctrl.windows.set 0 { high := 70, seen := [70] } } }
/-- Any frame that carries its tag is authentic. -/
theorem authentic_tagged (s : State) (h : Bytes) (hs : s.key 0 = some { key := bytes 32, roles := 0x7F }) (hh : h.length = 32)
    (hk : (kmac256 (bytes 32) h 32 (ctrlCustom 0)).length = 32)
    (h2 : beAt (h ++ kmac256 (bytes 32) h 32 (ctrlCustom 0)) 2 1 = 0)
    (h30 : beAt (h ++ kmac256 (bytes 32) h 32 (ctrlCustom 0)) 30 2 = 0) :
    s.authentic (h ++ kmac256 (bytes 32) h 32 (ctrlCustom 0)) = true := by
  simp [State.authentic, h2, h30, hs, hh, hk]

theorem authentic_06 : seen5.authentic (frame0 0 6) = true := by
  refine authentic_tagged _ _ ?_ ?_ ?_ ?_ ?_ <;> decide +kernel
theorem authentic_07 : live.authentic (frame0 0 7) = true := by
  refine authentic_tagged _ _ ?_ ?_ ?_ ?_ ?_ <;> decide +kernel
theorem authentic_11 : live.authentic (frame0 1 1) = true := by
  refine authentic_tagged _ _ ?_ ?_ ?_ ?_ ?_ <;> decide +kernel
def probe0 : Bytes := ctrlHeader 0 0xFF 1 0 1 0 0 1 0 0 0 ++ zeros 32

theorem witness_RequestsAreFreshAndFramesNumbered :
    live.links.streamUp.getD 0 false = true ∧ 32 ≤ (frame0 0 6).length ∧ beAt (frame0 0 6) 0 1 = 1 ∧ beAt (frame0 0 6) 1 1 = 0 ∧
      beAt (frame0 0 6) 2 1 ≠ 0xFF ∧ seen5.authentic (frame0 0 6) = true ∧ beAt (frame0 0 6) 8 8 = seen5.rot.epoch.toNat ∧
      (seen5.ctrl.windows.getD (beAt (frame0 0 6) 2 1) {}).accepts (beAt (frame0 0 6) 16 8) = false ∧
      live.ctrl.windows[0]? = some ({} : ReplayWindow) ∧ (live.beginCold 1).ctrl.windows.length = 8 := by
  refine ⟨?_, ?_, ?_, ?_, ?_, authentic_06, ?_, ?_, ?_, ?_⟩ <;> decide +kernel

/-- The windows at the boundary of R446: with H 70 a SEQ of 6 is refused, 7 accepted, 70 seen. -/
theorem test_replay_window :
    let w : ReplayWindow := { high := 70, seen := [70] }
    w.accepts 6 = false ∧ w.accepts 7 = true ∧ w.accepts 70 = false ∧ w.accepts 71 = true ∧ ({} : ReplayWindow).accepts 0 = false := by
  decide

theorem witness_ControlFrameReceived :
    live.boot.hfRunning = true ∧ live.links.streamUp.getD 1 false = true ∧
      1024 ≤ ({ live.ctrl with queue := List.replicate 1024 { path := 0, opcode := 1, slot := 0, reqId := 0 } } : CtrlState).queue.length ∧
      live.ctrl.queue.length < 1024 ∧
      (beAt probe0 2 1 = 0xFF ∧ beAt probe0 4 2 = 1 ∧ beAt probe0 30 2 = 0 ∧ probe0.drop 32 = zeros 32 ∧ beAt probe0 0 1 = 1) ∧
      (beAt (1 :: bytes 40) 2 1 ≠ 0xFF ∧ live.authentic (1 :: bytes 40) = false ∧ beAt (1 :: bytes 40) 0 1 = 1) ∧
      (live.authentic (frame0 1 1) = true ∧ beAt (frame0 1 1) 8 8 ≠ live.rot.epoch.toNat) ∧
      (live.authentic (frame0 0 7) = true ∧ (seen5.ctrl.windows.getD 0 {}).accepts (beAt (frame0 0 7) 16 8) = true ∧
        bodyFits (beAt (frame0 0 7) 4 2) (sub (frame0 0 7) 32 (beAt (frame0 0 7) 30 2)) = true ∧ headerFits (frame0 0 7) = true) := by
  refine ⟨?_, ?_, ?_, ?_, ?_, ?_, ⟨authentic_11, ?_⟩, authentic_07, ?_⟩ <;> decide +kernel

def held1 : Held := { slot := 0, reqId := 1, opcode := 1, body := [], status := 0, detail := 0, resp := [] }

theorem witness_RefusedRequestsHaveNoEffect :
    Instr.requestOf (.warmReset rq0) = some (rq0, 0x500) ∧ ({ live with rot := State.reset.rot } : State).hasRole rq0.slot 5 = false ∧
      (live.setPhase 5).gate 0x500 0 = 9 ∧
      (({ live with ctrl := { live.ctrl with held := [held1] } } : State).heldFor rq0.slot rq0.reqId).isSome = true := by
  decide
def openBody : OpenBody := { open0 with session := 5, ratePoint := 1, deadlineOff := 100000, start0 := 1001000000, header := hdr0 }

/-- A choice among the members of a list that is not empty answers one. -/
theorem pick_some (s : State) (l : List Nat) (h : l ≠ []) : ∃ v ∈ l, s.pick l = (some v, { s with draws := s.draws + 1 }) := by
  cases l with
  | nil => exact absurd rfl h
  | cons a r =>
    have hl : Config.freeChoice s.draws % (a :: r).length < (a :: r).length := Nat.mod_lt _ (by simp)
    exact ⟨(a :: r)[Config.freeChoice s.draws % (a :: r).length], List.getElem_mem hl, by
      simp only [State.pick]; rw [List.getElem?_eq_getElem hl]⟩

theorem pick_one (s : State) (a : Nat) : s.pick [a] = (some a, { s with draws := s.draws + 1 }) := by
  obtain ⟨v, hv, h⟩ := pick_some s [a] (by simp)
  rw [h]; simp at hv; rw [hv]

theorem pick_isSome (s : State) (l : List Nat) (h : l ≠ []) : (s.pick l).1.isSome = true := by
  obtain ⟨v, _, h⟩ := pick_some s l h
  rw [h]; rfl

/-- Two copies find room where two places lie on devices of different levels. -/
theorem allocCopies_isSome (u : State) (n a b : Nat) (h : u.copyPlaces n = [a, b]) (hd : deviceOf a / 4 ≠ deviceOf b / 4) :
    (u.allocCopies n).1.isSome = true := by
  have hf : [a, b].filter (fun v => !([a, b].filter (fun w => deviceOf w / 4 != deviceOf v / 4)).isEmpty) = [a, b] := by
    simp [hd, hd.symm]
  obtain ⟨v, hv, hp⟩ := pick_some u [a, b] (by simp)
  have hne : [a, b].filter (fun w => deviceOf w / 4 != deviceOf v / 4) ≠ [] := by
    simp at hv
    rcases hv with rfl | rfl <;> simp [hd, hd.symm]
  obtain ⟨w, _, hq⟩ := pick_some { u with draws := u.draws + 1 } _ hne
  unfold State.allocCopies
  simp only [h, hf, hp, hq]
  rfl

/-- The checks of an open pass where each of them does. -/
theorem openChecked_zero (u : State) (b : OpenBody) (n a : Nat) (v w : State)
    (hp : u.pick (if u.levelServes (b.session.toNat / 262144) then u.freePlacements b.cls.toNat b.modelSlot.toNat else []) = (some n, v))
    (hw : v.allocWork (b.session.toNat / 262144) (u.pkg b.modelSlot.toNat).stateBytes = (some a, w))
    (hc : (w.allocCopies (copyBytes (u.pkg b.modelSlot.toNat) (openDecode b) b.header)).1.isSome = true)
    (ht : ¬ launchGrain b.start0.toNat < u.now + 1000000) : (u.openChecked b).status = 0 := by
  obtain ⟨q, hq⟩ := Option.isSome_iff_exists.mp hc
  unfold State.openChecked
  simp only [hp, hw, hq, if_neg ht]
  rfl

theorem allocWork_one (v : State) (l n a : Nat) (pl : Plan) (h : v.boot.plan = some pl)
    (e : freePlaces (dramBase l + pl.workOff) pl.workBytes (workBytes n) v.workAreas = [a]) : v.allocWork l n = v.pick [a] := by
  simp [State.allocWork, h, e]

def opening : State := live.taken rq0 0x100

theorem open_checked : (opening.openChecked openBody).status = 0 := by
  have hp := pick_one opening 0
  have hw := (allocWork_one { opening with draws := opening.draws + 1 } 0 0 (dramBase 0) plan0 rfl (by decide +kernel)).trans
    (pick_one _ _)
  have hc := allocCopies_isSome { opening with draws := opening.draws + 1 + 1 } 78016 0 0x4000000000 (by decide +kernel) (by decide)
  have e1 : (if opening.levelServes (openBody.session.toNat / 262144) then
    opening.freePlacements openBody.cls.toNat openBody.modelSlot.toNat else []) = [0] := by decide +kernel
  have e2 : (opening.pkg openBody.modelSlot.toNat).stateBytes = 0 := by decide +kernel
  have e3 : copyBytes (opening.pkg openBody.modelSlot.toNat) (openDecode openBody) openBody.header = 78016 := by decide +kernel
  have e4 : openBody.session.toNat / 262144 = 0 := by decide
  exact openChecked_zero opening openBody 0 (dramBase 0) _ _ (by rw [e1]; exact hp) (by rw [e2, e4]; exact hw)
    (by rw [e3]; exact hc) (by decide +kernel)
theorem witness_OpenLeavesSessionOpening :
    live.Takes rq0 0x100 0 ∧ openBad openBody = false ∧ (opening.ses openBody.session.toNat).state = .free ∧
      opening.claimed (needs (openDecode openBody) (openSub openBody) openBody.header) (opening.activeSessions + 1)
        (opening.residentSessions + 1) = true ∧
      (opening.model openBody.modelSlot.toNat).state = 3 ∧ pkgNamed (opening.model openBody.modelSlot.toNat).pkg openBody.header = true ∧
      openBody.ratePoint.toNat < (opening.model openBody.modelSlot.toNat).pkg.ratePoints ∧
      opening.bindingHeld openBody.inPort.toNat openBody.inSsrc.toNat = false ∧ (opening.openChecked openBody).status = 0 := by
  refine ⟨?_, ?_, ?_, ?_, ?_, ?_, ?_, ?_, open_checked⟩ <;> decide +kernel

def closing0 : Session := { act0 with state := .closing }
def parked0 : Session := { act0 with state := .parked, copyA := { present := true, ok := true } }
/-- Its session in placement entry 1, so that entry 0 is free. -/
def away0 : Session := { act0 with placement := 1 }

/-- The checks of a resume pass where each of them does. -/
theorem resumeChecked_zero (u : State) (id tr n a : Nat) (v w : State)
    (hc : u.claimed (needs (u.ses id).decode (u.ses id).subframe (u.ses id).header) (u.activeSessions + 1) u.residentSessions = true)
    (hp : u.pick (if u.levelServes (id / 262144) then u.freePlacements (u.ses id).cls (u.ses id).modelSlot else []) = (some n, v))
    (hw : v.allocWork (id / 262144) (u.ses id).stateBytes = (some a, w)) : (u.resumeChecked id tr).status = 0 := by
  unfold State.resumeChecked
  simp only [hp, hw, hc]
  rfl

def resuming : State := (sesIn parked0).taken rq0 0x103

theorem resume_checked : (resuming.resumeChecked 5 0).status = 0 := by
  have hp := pick_one resuming 0
  have hw := (allocWork_one { resuming with draws := resuming.draws + 1 } 0 0 (dramBase 0) plan0 rfl (by decide +kernel)).trans
    (pick_one _ _)
  have e1 : (if resuming.levelServes (5 / 262144) then resuming.freePlacements (resuming.ses 5).cls (resuming.ses 5).modelSlot
    else []) = [0] := by decide +kernel
  exact resumeChecked_zero resuming 5 0 0 (dramBase 0) _ _ (by decide +kernel) (by rw [e1]; exact hp) hw

theorem witness_SessionCommandsAct :
    (0xFFFFF : BitVec 32).toNat < 2 ^ 20 ∧ (sesIn act0).Takes rq0 0x101 0 ∧ ((sesIn act0).ses 5).state = .active ∧
      (sesIn closing0).Takes rq0 0x101 0 ∧ ((sesIn closing0).ses 5).state = .closing ∧
      (BitVec.ofNat 64 61000000000).toNat ≤ (sesIn act0).now + 60000000000 ∧ (sesIn act0).Takes rq0 0x102 0 ∧
      (sesIn parked0).Takes rq0 0x103 0 ∧ ((sesIn parked0).ses 5).state = .parked ∧
      (sesIn parked0).copyReads ((sesIn parked0).ses 5) 0 = true ∧ (sesIn act0).Takes rq0 0x104 0 ∧ (sesIn act0).sesResetBusy 5 = false ∧
      (sesIn act0).Takes rq0 0x105 0 ∧
      settingsOk (bytes 64) = true ∧ (sesIn act0).setBad 5 1 160000000 = false ∧ (sesIn away0).Takes rq0 0x106 0 ∧
      ((sesIn away0).taken rq0 0x106).migrateTo 5 0 3 = [] ∧ ((sesIn away0).taken rq0 0x106).migrateTo 5 0 0 ≠ [] ∧
      ((sesIn away0).taken rq0 0x106).migrateTo 5 0 0xFF ≠ [] := by
  decide +kernel

theorem witness_SessionTransitions :
    ((sesIn { act0 with frame := some {} }).ses 5).busy = true ∧ ((sesIn act0).ses 5).busy = false := by decide

/-- One LPDDR6 device left, one free placement entry: the choices of a job's start have one member each. -/
def jobLive : State :=
  { sesIn away0 with boot := { live.boot with lpddrFaulty := (List.range 16).drop 1 } }
def jobBody : JobBody := { job0 with source := 5 }

theorem witness_JobCommandsAct :
    (jobLive.Takes rq0 0x200 0 ∧ jobBody.jobId ≠ 0 ∧ jobBody.steps ≠ 0 ∧ jobBody.source.toNat < 2 ^ 20 ∧
      jobBody.modelSlot.toNat < 4096 ∧ (jobLive.ses 5).state ≠ .free ∧ (jobLive.ses 5).modelSlot = 0 ∧
      bitAt jobLive.boot.enabled 5 = true ∧ jobLive.job jobBody.jobId.toNat = none ∧ (jobLive.model 0).state = 3 ∧
      hasLearned (jobLive.pkg 0) = true ∧ jobLive.jobs.length < 256 ∧ (jobLive.taken rq0 0x200).freePlacements 0 0 = [0] ∧
      (List.range 16).filter jobLive.lpddrOk = [0]) ∧
      (jobIn job1).job (1 : BitVec 32).toNat = some job1 ∧ (jobIn job1).Takes rq0 0x201 0 ∧ job1.state = .running ∧
      ({ jobIn { job1 with state := .suspended } with sessions := [(5, away0)] } : State).Takes rq0 0x202 0 ∧
      (({ jobIn { job1 with state := .suspended } with sessions := [(5, away0)] } : State).taken rq0 0x202).jobPlaces
        { job1 with state := .suspended } = [0] ∧
      (jobIn job1).Takes rq0 0x203 0 ∧ job1.state.ended = false ∧ (jobIn { job1 with state := .done }).Takes rq0 0x204 0 ∧
      JobState.done.ended = true ∧ (jobIn { job1 with state := .done }).Takes rq0 0x205 0 ∧
      (0 : BitVec 32).toNat + (4 : BitVec 32).toNat ≤ job1.image.length ∧
      ({ job1 with fed := true } : Job).fed = true ∧ (jobIn { job1 with fed := true }).job 1 = some { job1 with fed := true } ∧
      (jobIn job1).boot.warmCause = none ∧ ({ job1 with stepping := true } : Job).stepping = true := by
  decide +kernel

theorem witness_JobStepEnds :
    (let s := jobIn { job1 with fed := true }
     s.job 1 = some { job1 with fed := true } ∧ job1.state = .running ∧ job1.stepping = false ∧ s.boot.warmCause = none) ∧
      (({ job1 with stepping := true } : Job).stepping = true ∧ job1.state = .running) ∧
      (∀ n ∈ learnedTensors (live.pkg 0), ∀ q ∈ job1.tensors, q.1 ≠ n) ∧ (job1.params.length = 1) ∧
    ([7] : List (BitVec 32)).length = job1.params.length ∧ (lambdaMarks (live.pkg job1.modelSlot)).length = job1.params.length ∧
      job1.steps ≤ job1.step + 1 ∧ ({ job1 with steps := 2 } : Job).step + 1 < ({ job1 with steps := 2 } : Job).steps ∧
      (lambdaMarks (live.pkg 0)).getD 0 false = true ∧ lambdaRejected 0x337FFFFF = true ∧ lambdaRejected 0x33800000 = false ∧
      lambdaRejected 0x4B800000 = false ∧ lambdaRejected 0x4B800001 = true ∧ lambdaRejected 0x7FC00000 = true := by
  decide

theorem witness_StagingHandlesLive :
    live.Takes rq0 0x300 (4 : BitVec 8).toNat ∧ 1 ≤ (4 : BitVec 8).toNat ∧ (0x4000 : BitVec 32).toNat ≤ kindLimit 4 ∧
      (4095 : BitVec 16).toNat < 4096 ∧ live.handles.length < 4 ∧
      live.handles.foldl (fun a x => a + x.total) 0 + (0x4000 : BitVec 32).toNat ≤ 2 ^ 30 ∧
      (handleIn handle1).handle 9 = some handle1 ∧ (handleIn handle1).Takes rq0 0x301 handle1.kind ∧
      (3 : BitVec 32).toNat + (bytes 1).length ≤ handle1.total ∧ handle1.installing = false ∧ handle1.installed = false ∧
      (handleIn { handle1 with installed := true }).Takes rq0 0x302 4 ∧ (handleIn handle1).Takes rq0 0x303 4 ∧
      handle1.lastAt + 60000000000 ≤ ({ handleIn handle1 with now := 60000000000 } : State).now := by
  decide

/-- A key of ML-DSA-44. -/
def dsaKey : Bytes := natLe 1312 0xddbd89d6b5430383c5b04b87b3bfd4c1b980d96a9ec32270e0ef873b2ff030794f105cef92f9c2bdf52b6985ed063fd14ca4337059c7893ec5fd6f008115b647b08268415a3d8c3ca2bb9f1a94e90d77777e21a47bc5f77b1eba2da83708908aa52c61e7c1a4dd91639552ea8ca5e9014c385934facfc78201e0a6124ccd6f82e240866f785df3da98ce2ff489a290ff0ef44eac2117023d2caf9aebba2eb03d244eb54957650843bfcb9899cda90557285c71153afe379b4729d87d725e000cb44bf8c1caba15a0b92d5280615c69f165777a71a303e3608f3473702b2dd4042e649b49086d8dcfadbd590e8fdb8f0b66de9e4e6502b88454c58e843ab21943816c15934ff622a34dd2f5daa683c4fdb60736cc9f81dc0618f1ac6133df221c5323656e38c8f928d60cb99cbe8b194c2c14657ecbe445d333acb043541cb502662b4a4e6e8287d13159a2ee917d138d7cf6d1436c8e3ae8ca48fe7421ea94e1f8292822782849054495af7401d4303b40b5682058432b69e669ed9671988fe05b33fc6a7c7595dbb0dc1924a458c4e68c65ff97eb0f41045b132fedd33a3cc31b535036103f1e39b7aea38ee86cd90a26ab4159546b3349ca4821bad55d7ff96253087f422873fafcea508005eec4322170907678ea2049bab88d0867eb5adc2893e5ea7bb50aa9fe63898cb0af749a8b656c79fa8ad53a95392824099bfb6af6619103442d1682822fdcbea70e557c13f870615fe1673f93a88480bd9005887fadc4acff112c15d6b88af6f5a59a5cc783de5438d3f6e8678dcd886ebaf3ba16f032b82b2bfedd900db7059eb30d37dd6215c719a53511a450b4559b4d31b18e7f508bfe6bd139fdc09e2ea22cc26742ceeb81075d724506e3262edc4d4a0929b9ebb6c1960f35eb79176d805127638c812c71946cf3b62b0e164f275579422170796007801dc897cbc00034953d4ad283cfb092ee35d68f91f76cda39430f297c6dbaf763974117e6af7c1f498d3c10319a5c871d50255abe2ea25d98fa43071a59cfe613f7b416fa6102b1997ca648d5bf8957a26377a03bc5e9a9bb87f50c9561af1b9bb539ca07e6e9728f89435b7f6d8f850bda9546fd2a93e638fb70f439db117ba4a75ddae189b15474c12786dc948c2ca282ca429289e548395bca40ef5c0d5af1e7c537b75bab87d78f0db72cddc09530d60cd9bc5bfee2b924a987959655b6b37b546eb55ef8a9e358d651b8a11dae7b6117af4d9dbdd0bb44ba8e27895f21507c8e7804addfb10a699535216d34e21218b86e494cc29ffab9674bcd13f089ed4bcf0927711583203a22aaec36940fc87af1e7b0ae56e24f8059a0f67adbf717446d4dd69f7e3574724987c63fe866397b08600c08e834a40e7a7a163931729f831f95ce8435077201f5e06b528dfdbdd8e34d4ed3fd353cf5b701446b986f6243995007718da282f0a8ef91ec67625834f5d40e8dddf8e4bf8607c3fcfee34ef257e21cfd1ea1e7fe37cd3341b697deb969ce3c613c4250b0fba838f3a43a7ec95a4e93d5a307dbffcda8f38497639d73216c3af9bcd958870631443070b249684de6b2c671d31c0da4a9aea307dcd52e450ca7b0b6b69e87288cee4d8ae044997afe524cd96d10877360a05c7120f815815fac3a092ed8dcda54f2184eb9af7c917d76e52cbc7f2aaacf7a39aea48670a198b757c7b71e19804c53090188722b59bb32f2444c1f9155df2a41b2efc5054fded2a48346fb453de5c45d380baa45e0c00c60f26ea395e4833d7e2e5b55de5346ed5bb26f8441c139801ca66919a53475b49ab3d64181fe6146ebb6f9cfa58ebba114ef6f971ba

/-- Its signatures under the key blocks that name it, by role. -/
def certSig (role : Nat) : Bytes :=
  natLe 2420 (if role = 1 then
    0x3e342013000000000000000000000000000000000000c7bf8776625f5a573e17fef2eed6c7b58c6453484336342f251d1b100d05f6ebe5e2cc9993766e583a301cf8ecebe7d7bfb5a6a4786b555251311c0c050098b99913e08362eef95c83accd87f77065ee43183fd23992f1f21f801c0d277873544be91aaef7d24df435b232ce621f04587f17afb97c106c4f0727ce49f70171d216cb02a9429badbc6f6dce68d610033d22ff7683d68d84d7b9b2e2d2c970ce956dd44b9b776adda840ff29c280a738efbb3fb9acfef014a31b9968637a0b43a935c95e397c770ba52cf21164b83b34aca189556b728f164e7f7ca4b8c9eb46640991def1adc5955c7c6d0988c309150ff2b0f083be9b1b4d7242c6190345295856b7fb86c16c465910f35e27abe2b1784bf6e8c398522b3d2fb08a38f89de5b0d431b6ce354346256492e4ad3083974335d835c5340ac6b64a09c10b80e0d1e0dc1e07928675e78679c2d264da8f4a44061e89e039f06783a329c5a72ad81382d737b990da11878a760cee85b270e23c32528a7f89c5fb52073b231a37270a1f9f4eae615f9f953c0a1d476cecc059fe9dee270e4693d8b3c0669e4d3b66474c546885755a52f9f11908f3d21118addbe3773c423836d0fe044d720d82df5c66a41d9d03bd2b20e916c898082807a260f0f758829662c7f10c9a7d3893197d5e79612e707e858882e3a44c14c6371e7ce3333d0812b5dcbe596dd59b2574fd02e9a9cae8eec65bd6c166aa92952314fed6a7e2b265d784c2a79f8da8d8dbdcbfb41ee3e70a52db7421db4ca3f81d4cb39ca2c2836b8c0b8d5d5faa9369e85604c96527b6a9d0149acd453770e76cadbc6efbbe7fd7501f6f91779cf35eb990db4dcd41e5439b633ceac8fa04721fabaeb1ee9dcf790c412bf467e2d3ca6e5d004ce862e34481efcea88a9764de0be506e1d0ffb066e08f4523009f4f0bdfd8d97dc37c147f8608c423bbc80fe0df7961bdf4c0d85ab0c03e5f6130180f0d3d6a1526ed21689a2d3ba6a85648552954dea85976f8aa79ace1816fec414ffa751bd64acb8a8420623ed4e099970c2aa33752f61741b75138f8d78beae10561d8778c733dd5ce1cfb6c467fa53af3c4668b158ea3f81ee4878c41a0b499882f3a15bccaadb94ed5ec6a82c4ad1e2672e694784940a8fb9ddb78140375599906d4ac411df17fc641364caa61dea36944846a218dc67a6146b98455bcd6725eee8a622a0ccc935faca1ed386e08ca98f75e1cec53ceb30aa5fb0ec42723f3b05d22fd67d03053ce695cd41bd84c12e41974a89a13cda6edc1a71a5c9c4a669a2587c115abd699a4ef57c51bd9e9a7e536c2b17baa23abc8a7f557e6a5357ab5f3da55c7304e9aff0a8b4baa3c6158def59405d5f40ae9306f1392dcc28976d53fcbd8f330ce4da94e9cfb929a8f7e30f653ebd74774f3e13c9ce7c487954414a7ca50075ac6a87e16d36ccd50ec01d47f41253fd619205b50723938e517a550ceacac3dbe613b898f586e24712b724c457b9369ea268c226f3527478debf2bbea0ac8bbd41dd70c169b583ff9eb5f02ed3677089a828989b8b415cc1dfc25ffc7d06af3e9482bc6c362b67fcb1c85cc7fa72d2b7834ca5439f68d06bf100c300e723297bff2c7a2b590e486a7c9fe7ba927e83b8c98728d8c11e957d2ffc99025e897feb87d530a768fb5aa63146c389491cf81466f976bc9fbb444ea5947b5beb837b1358118cf0ed517c6b8ab95dfefde5c86485ade3c470d1de7208791ee4625962f76a88c9b21446865af5311de0b1d682925fa9a39d575d19d2b4a55030e2c21c1b7498b0d6a0587e676f4c79b35c3f729921c9eb845bcbd8e9c00828eb81558285b0ef60f10939403e773e779cd2212f1d1a5781911b5f570ed909bac3ed78aa72d288db6cc7c8db7c89e5e2e15335d0293ddc37c11cb8aa1d89814a3b69b295d139e247f969958f437ca995f641fafb003f0df97eb4c293fae13b98dc24b8cc95bc69501f3230d94c82230a8e45e6a0ff76117f813a315ab119357c274d77b5d6a4340f9dec286dfca1204fb31b5bec57e687f5aa89ba0f19acfb2a82c6d68ae4b4b775514c45023f9c4b6fd3c6101d9ead50e141592bb07836241740ba39c7c8c63315c0b768b7e7d539a9dedefa3a79f6b697679669b724ba6de0cd4cc635d8424ee9053ca06ef21f8ea5e302b70f32abc4285cb8f20427e3e989ad210c9adb6d8d56824b6c4f7094e908de70c572f31def5ddc5e9458e86ac6fa808b4c6c864f0a4cd34311ac1273d5ac42f86ee46f725feb1aeda586587df138d4081dfd94b25b6bac8f7fba31fb02f0670a8cdf27b793bbb9caff9852e251bcd8db00d9cb17ede7f1aae65bad4cce4466b3e9ea7d6726d79c6838b2acc859aa256630204174ad3241fd361e1bfa45ac289d4a7de0c1f8213d2c4565278321eb8a0e9da68726ac482ef98c7ac30cf9a316605ce2915676cafd4126606c59d66bfdd297697b3ef8311e3f124367b4cdffd0efdc2c8081fdf056a00d3d9f27714fe5af8bbff8ac80a15e3e77cf95da24b7bfc8fa60fd206c533f6ded8cfffdef0f4f5a246140776e9a538ecc5ebbf48c95fba3d642320b4a1c08154ed1e5843988e96b993d4c7d77b651efc66aa957507adf1a9fa4b53ae648fad4b63a792500f307a6da76e5ac7b4cce957a6cb3e2b1c44215dea90cff815bd240f8c1f96b2c197cd83aa9a417c8cd7a613de4b3994046bde0e448dd47e153f4b5eb3ae0897139b83acd9ca0babdc13ed83a67101eb79cd16c741c6234b5a90dd8f9aa6d6bed09fbf8cdcd89706562750274427f809a5a6665984529f039db85d4a1bb3efa4f3af4fed83a58ef719358a05305c9c3d0e0edf287261a38a7444899815e0a084a8ba559f9fc73dcc9bfffa8c4fa915f84978df390192c53312f06bfd3c5245dcb546870a0b538644a3c8a2f39f56209882270c05472d67923467ee3018fd5400bed027d1bb8d134e53c4f9463f6461454b572c799b587308178b9b52355d0b8c397c35740c7acd2d519dcefcb1fa1567a6e56b78675940243f4141959fc88f9647531abd80bced6db2bb3886e548f37ed3b27c98d57232683e67ab4852d9e855d51cb40570ad5dcc6618e8966818085dbdc3949518e83125f0d1d89ec8bd30682f2a60ecb610b467f54bcb1b835d3ef746eca75b0215bacc8ac94749ab65e517b27c04c23806da41cc81776d55fc27103d856dc560ea272aa31d6a093a181790532cde73f7f0b1fce4b3fa2ee79ab79142075f3304f6fc41dc0f8cdb8b1b127b55f94d802d5f05dc6100580ffd2628edf158476f3b67e31eaf04b224e4358ef03396d4a6c2edf62a1c20ac005d7a80b64a8ca42b186bc601b79ee725883099a9e9d7f7
  else if role = 2 then
    0x4832200e0000000000000000fdfceee5dcd8c3b09c7a7772706d5f5b4634332c2a14f8e9e4c7c4b1b0aeab8f8b7e7d6f594b2318f9e1c5c2c0afa8a6a5a08a7d5a49453b2808fcf7f3b69e958a6e514138312e1eed4a8c8159fd2046db79c55c02ab7361048ae110219441a9a0e9f120c77521ff4b3c9d01543133d33f71461cab7a767df8c539fdfce60f8c9e424fedd636fb7e49946a1b7f5e4405fec67a1255e8e63b7caeba3f0a79498956e7eb6f26a6522b1e08abc729d40ec197120721039fdc0b0dc68b2eb9411dda4078694bea150a66979fd296184376b81486b173d1240b55c782d082ced39026a4e005ae631412c9fe10c5da807195bb61b6031d68cc424181a27c28b40053ad1c79a6fea40f4fc019aed3d9d3fca00ab80a8934858a35846d000873cc5ee9f9b5a21281f33f29977d590a1232d5a46d46f18789f581e93c2859025c11326a0107301e9374855c4c1ae4f30ac68dcd7857295031b9e9dfd46cef1e28460a52db35118f655abb5af662e99876bc2b03fd948cb52cab8e6524967ca836a4f3bbbd783e3db9aa83295f33decb7410143c6fed63761601da08ce2fda65ea05e7607af3adeffd39466a1840e411c1df4857a9fc65c1ea7504a33005258af0b62874f464a3d89fe7979c2cd6b94aef558e8f4fcab64d5afdf216ba3df46e3040d33727923175ec1247aaa514ff153d72a92345e9dbd36b0d3f33cbf9970c5b861afa939bb968a5b8d826b57965887cd5001b4d800453c32aff4414d41afeec7f2341d31b82ba2c7d50acd532e5528da75ae07747b5a3738fa8ca187e05909e854a2ab8ade98798d143685031cceb551f53668b94c1ce5101f74612535d34f61f21e79602bb2899925e992e86825f80cb0331f6fc93453f7f20e3c2c19d411988fd318c615cfbfd83b34f5e17a27884f9a04200a977d7e8eabaecdd8cd2ad39678b9f559059ece32303754fc5f151d0227780af2121f6e47f0abbe04de8ce88d58f1f15365173363d5944748bf347031d78f7638793d35d834b4cf0ab562e11e42f8fc2ae95302cc72182912c1e6eca1536994b68894dd43796ac384fc0411e186a566c154305da92a5e2c9f315ec31eddb2e8d197a13d306d0fe2d518192d8dc4c4c919671dd05d10d7fa1c064b8e16d6f9bb3781f2d5480f5379901c85a6c7b8b87b43bdb3c07c7ea85c14808e90524da85527af1e194a9ce29ae70be91fe212c6eceef8b1a01b20940f0a74e6a231f2a528653cc2bd5db7cc7978a5bc5667a83b4324bdf2addec899c6205c42d59dc523cac93533bfd925d822eedb23d0733b0a89406fc434c521aa26017ddd9283c9089aea632423239635beac091acbf33f442e94eda4f30642429762d2f466fb1117dff5dbf93fdff501a0570223babfc6eec1d7c7fd7b4ba8c8b4e3cd5f8d44b2a461f9584fef05e64de37383bb5886126d9358f01e3822cd73982887065f143bf3e0e392d9b0b21d3a1a0ad6de81f59b96d58da253681d4411b62ed854102063d14823eff5a60fa0b43a51008b68560109aac2362d83f8cbdbce88f7ebcd7423f176bcfe92dc7f09b2615cd1b986ecc82420cc8ec001c8c6f3ee011019c3a7f15bf4b9d09181fb98a53d2e3877665f0ca38a9acc64e58cb59efb067a915d9283fbcecf8fcbb12c21fe108cacbd4dbce8c1c4927e68a9a4141612ec395bf56a13b7cc632089b00869023752d811cddbfdf5ecd8bed9106899695dad5f5764f8df52bcb50785cfc13b9e50a7818e40c98ad330f93aff9b1aa7dcc0e720e2a0d694d70c3f8e5ee5fcb05d0631dcc6427a0c1bb0841266f9579f10dccb8f9c65aea2dc288767e21e4baec1af870f05a978d9b67ee713ae8803b16671aee2392248af15465806887ef39b53f6814905cbe948bf1adc6cd1b52274e796e663bd7a5115bb93136bddbd8a85fc619e96d69614518d6ddc88f13399e0ee08eb9e548e0925a30578f18323460466e25fa613781cea61c74ec9f1ed1b5e1a2685c40bb02c9c9483568d71af83bdb1936532fffb7d5ef155ce5060a88b4a9dc0f00b31d0bb4bafd7a1cc3471e843ccba2289c22d4c624b8a4035ef0277f6cc036a9e04b8b3c54ddf95047684680271a129a73820744078ec4e62f5661042f5a3572d5e3795da0c8295948ff5622ca05279110e38d992d16cf02859134bc0911fe0cf5aab828c1abb66a1fce4558761b14bc2ee10a89450edf9058067b2cc9d4b5994e5a1d71d4f3934f0526b496bf8594a70353d5b1d1d523adabfca60c3efa9617a240cfcc70db24443e50e5ee96195a59f1be1c800bc48710250b457af0dbc85e8a046d079e4e9106f51cc4f237646fb941efcf70a78c1277b4c0d8bccf18bc933d51951135f03b811124f97753d556738b2672b4f35f849c6922a5c461d70a4fcf5d5603b8b662c9ff47f8c46ee0876d12b87431a713c93a59f4f802fe95a1b302646ccb7f683b6a5272e907e4657c740d525a644d16836aa971ade18c51c8d6bb696d98139448f5293794ea38d5ec753f6b5016be2b6bf668503bf445b01890e4d438eb670535dc9d649e8d319108280c429db6f91116ad31541260997a779b37c66784bbf9ce2ed38b59729cae70cb1d5109facd54858e8430aad2ea4bf921ff79ca9172c41b72fa344a9e54b5b93c53798ad05d1955552366dc3c5cf04933e72392f682d253814eced8ddfe3f0368a43c6f843c4dd7efcf3421a7f74185ef3e1a44c8dca794c4d84a3a126285c5aa8251cb4f505110a18adb0e9c47a8e08e8ac62a79c07702d904e7196c8c4fc184b51a9f221d583bc521026f24fb2538b069ac52882c96f36b0a5a165c813a58a149af686632c1f8e3ef3d29cc74ef7c12e2939b6ad6b9229b16c242ecb96a5f64d67586e2ba1a5b2641a60fabc1fb4d78eda2b93faa90956edaadc9a1e52efe98bf30d3298f36a32560177b24cf0937e29fbfd7a11e0c42d3da6425799e139ede1e75b3f52377709594883c8d4f1ab4b7528c106b0fb10f2c587080861418e60c8aa93fa2d273a9af86b28650eaa7f90818c4de2397196e7d64c0577d1d44ebf51535fb991216905942b579665e0f018a0bead8a87c9e2b795a055354f1ae8b216134628fba65f232e28c3d8ed057cf9c0735b442a9ee61c986940805d362ff3041acbfaa95ae6b7b612bc8141d9a0675944c469175f8ed6feb44ace26c1318d22cdb1934bbc3dc7415fbee4319ba275d09ada3b23ba3b9a3da494ba00dc09ca1b493a84b6717d8be1899c788a90644ce16db126ec938b7bad6a1b797b5b134bda383631891e6a63915685dbb3947076c1697c3d5bfbd3058ec5ec51e49090322800234a2b9d6e2bf062e66e08809c8011118afbc3c7cc75b6a1efbe0684b9e80ae3f10dd4705d39b7ce392d5a7d07d
  else
    0x3b291c13000000000000000000000000000000000000000000f9f7f4cbbfbbb7b09e6a6953483426130d00f9efd9bfae94857e3e28150d04f2d8aa423126231a0ef9e4d1c9c6c4bab9ae95807e7d6f6050291d02c9198962ad94bc3c97c0f31fdf5ac0c02a834cec06644f04d10cff5da9262ba2dd63662fc4e4aee3799e7e29c847f79418591d84bb3694ad66ec180431ccc9f7ce9e708b1f6ba90ed0b904cab2a1990b74bc1b523ab0c4450d41fd040cd74c07e77199ec183a0f15e91c9f7285b69f2a348fe6f393b8324aa56a169d3d9ebf7a634b4c62b80341725f91eda66777284e2b0793672b7df6bbdc32c5bd612f4ef82e6f61918feaa4005b9af5cda2d7d153648fc9e23e9a27e5196793e6b595116ebd13c6b8387d459bb0ffd4ab25d835eb88c4f58268f5be2036a4be8e33a6fe145af7626f21221d13ef3e39036d250ef8f1002178a0f18167d7d8664995f7b45c39bba719a9781fcce5cd2770f8b3ff8dcf68f195e62aed3401250ceec04379d0715dfc1f888d7e73de41d3af963c19e091c3ecdd89ad8ef4ad37abc917691f8b4708d572ebe56e219388119701b44049e7ec80c1a70da6e4e6511be52f1d1dfc8090c2bea661aebe1e2383b176c3093ee52eb629c54084a4b17f90db568225eaefb9cc3bb606be41730c117215a79414267e088267f74a3d75b7db31930550cac2bee0b171880ff6dab779049e0543965bf858c7bf800ecc4e0ab9f754a5c3bde33a171a87edd1c4ab96d45615879ef6c98d3bec3a995c6190f052092b42e51860d342bf08e5801d22ac7b7e9b2b73ece668f237200b3406503e07b7046526b3472bdc9cda23d37f6f12406ee293f445d7ba9afc714098bf1b14055b0e77da0cae1eb725cc15f67214a6293fd44b4664b43c6bebf7058ba53d5b0f008558357170c94220f72516fd886b78397d7064809f6970b83bd5efe6a07af9daed655dda14933d25e1327ea59a355335f699d835adecd38fc8e5aa9e5bef0207acd98f8b9f3a2ef847d2cb4b6bd29ed1009692f740b88af6ee6a6eb283e13fad8a3d22e3472b6335cc9663240adb102c3eee1264a936ca63caee1172ec95e4e9f76ce12102eaaf20b3e5dcab7f0056de10c8436050fdd4d2ab6c738c0cca0cb503c8a394a1967cc702c51277f043442f53f8d75ac5b5174aef5ebb75be997a287ea8dc5208c2752bc0c5e2808198b8a8e609b4328a4d08e1de2e706c84a055bc87f17930b4c3936972dd4f949f28982b8d8aa65e8bf64d28416bd92396b54090189a8f7fcee32877dd4e5b631c4aa1d1b9e6f8928ab9f4e8c7c1438491c5ea0795f6d11b42d9d23d9f89b938a3c14343f0018d49556bcc997847a01d93802bb5b7598c55483eed0a3d73d74ebfe7522bdbc461eb7bc5b57422c05287d32b576dbfdfb12b4ec9ff395a4ef90858ebf406be779da82c2bbbe5e8533f8dfa7f2fe9b8f137b0537fa3412bede1abb6817db96ce8ab84bb5831840a6ecb5aae2d19211d0ab6c1f6e9e3c8bbb12a2a961f3c7b0c95eea75e41b6e082c6428669bac795f52d972975de0e9ab3e818256f90e3e551c022518a6bc89fd4e176ac0a304b844d8da83347c7333b4272e3a059cebd689504458929eacc154cb83c74e90bf4d797cb5e65bd15b31b2fdab9b530a99ee35cf9a77d9730985d9c14b50a5e38f976c8b2a418e63fc22df6f6d6f7ef484090c7e891aac3d56bb28005b60f0f66ea0e981f5ca04c0b5f6a6ad3705bae12b4b026d0c226b88b16bb467d2aa13509294fec75900aa8a7eb8e0a51b13540c6b27780da00668f19175ccc33f62b1bb0cb90675a29e2a9a6c4ae6e5f6d89ab4fdcedbe0a5bf357839a90bb54f965bb53c3786a2c3ab79fc907b42406dee9356da9f71848c0d7cf6cdf0e85ceb4ce70e1b5ffd0d4bb9e5c00208c71c2aaa9ce1be5a1fa088c2f7aaade51b075662ab293aea26e53218e5c2951172b78610fe5f0e1f84e949ba1f7519c6107afcea0d980911bd814a83b5f13732b32ce31427144eeb1c89037160e7dc4f919c0458a778863ccaae86c0bd914046ca077250cb3b74f2ca4169f6a2a7e57142429524631b8ac2a2e5ef40b81625ff50214902f2d8b08e50bf65f3ae3819bf7f5b62b5190917d381042fdd7c11f9bce6182ab8e251865031e656b01a527d58896676c6e7c38fcb897d758de039fe105673c387cce4b744034fdc9f4320a0684440e55b31b061aef039df51db296f8c0cb4dac72d427261f6bbea497381a06f51661aab45e85b27c722e7b2659bb0150f25139c387d0ad68b3cc1fae903ed2af97c88e6bf14430be1a4eb0acd84eff3b7666401bd49ce699a93ef2bb9ffbb6b77abc17969b86a77703f8f598bd35d553a577e302cd6497112fe6924221d330e9e4d983597db51cbe247a8c1801e9fc10b4bb053aa8dbe1cbedead72d1f348a69b069896db2e6102aeb9b2fdb9acd341dd47c0029ae72b6cdab0ca7f28afc3136ba61136733a4b01e0268ef75cba459b80e967414d2fe3cb29946c3f9dc527c39eec8bb995c017296b0ef9edc1aacbe17f6892080bdcfabfda20aeb9f1047243f8465a6408af8a148548de9475643aba561077a4bf226bb493a52dbe44bf9c1ee020cd6ecf717676d22e6bd12bdd989a4095cb938a9ae513d40a37db4061a146bc84e2655a133eb7d48d1f310138d2819dbb1dfeb4fb1354b64f7708aaf8efd0ccc1d84b32338abe5f260215bd27622eb99753fb6b76de63ede5ddc5c5db1bd79550ad675ed7a888175903e2275c6b7ff78cc7ca7486ccf4f2c6b62c0135d3b93b02ae9fd9fc311388274f115b801a70c5f934ef495e1a2ecb78322c1b983513d3394bdd482f7cd73b502f0a4e606bf82cd7eb4ec72af7038b5f550c0e5d0909bc022afc5da3f31d950a135855cb432410275a7b724a762582ec21d10913de4ce499a4ffeb62fc9d36d946a9e875a7ad366221e01fc2b36e99b2e46b5d3528e2639414e14a71f10072e53aa772860909ffae4b87ad9a56ded5395ac1cbf0e6a177528d9869f0a55e607a198146ba134ef8122f81054ac24ced76eab504e24eda7222086c64050da84bff026fd3bf9d7e49a25be43e4af92822a5fa0d8522f54127e6a6c1e59c4f67d8a1b3e193345b2142db94c9f6257c7b08b4249a7d36c08ce62e55db31a928888d18566663e04ff7424e39c7f50d13c6d9213339d83d7e62beb28e5654ca1cdeee756b4b7506621d29590e498e8edbc859f426242e80c02f4ba2c97655b6c3c7f8fc3dbd95b08889afb668b940c1c428a55263dd3552faaf506e75249319ad8d5910d01c0f351c35c814f13dac47a30eb88431157e2d49b27d658b8e036ecc6fffcd7513aec3dc63737c736c4fa5bd7f71db1a517e69f7ba099b2eb30054ccb9fadad4fe7)

/-- Its signatures of the containers below, by KIND. -/
def bodySig (kind : Nat) : Bytes :=
  natLe 2420 (if kind = 1 then
    0x3f2e1b0a0000000000000000000000000000000000eae8d3c7c6c09c948e80736c685e4c3506fdf3e5dcd8cfc0b6b0a39a948c8b7a57452403e8e5dcd4c5bcb9a9a191898262201d0702dddcc8bcb7b290736f352cfd46c5751c1e2c34a0d5451e11f67b8311d715c8e0b5c1e794393e619aa29b7dadafd914d8c2e97900dc5cfe3baea37be07e71352bc5b6fa7a60b0e1672b79bcf3678b8144c258412c3d6509d3213b0bfa8b7e474dfde318225069ef92941dea0911a77de8189dca34c52ef12d255c9732db32dc2b9a6c3e3e0ef09750de515fc2afa9baf2f707038227ed66eebfb29a65c26c0400c30b505daf0f79224cca8189598bce580c42029a04c0b0d55867e242fae47fb1115f94ca64ac7e0858f929cd40a43993ce4a7882d3a10ed15997bb05d5573d6b48f93ad16aa76d6b9bde88e04294cd1c79475d8937d9906ca688fc7d62ef6f4359a585acd612ee7ac0d002460a75459f98832afecbbfd40f2ad8f744d472ff1de5852aa7b90dee90f0dcf1c4f357ec909a00d25e645ebc29b95508bb692322d8fd6e85ad0c39f65e07106ee949e3173ead63920d41e994e925910054c15dbfb0c4310f1e62cec5203cce79c386fcfc32f18c22f6a0b07cb29493cd0f7b9f4c146e8e30fe43ed9f71a18600a70b3630c70f21f7c0161f4d77c5ddac57b7e0f295da780b4e256ee692fc6f47b9c43199618a110ad6c72c974bdb3e6746a3bc481aa5d0db9526b8a2e22cea2e453aae8a5fc8969274605140ec7ccbed8c06a4ea8ed874bad867c2e01aacdd3339b4274ea7be582bec7f418aa9e046960b93c44c62ac0d81fd99f6eb09eae8be4bdc4e9e6c992e9467cbacc5332c24a66e4883bda1496930a748dfc24429ed23df333747734e8297223b4ed9093017e38a9ec33001e59de32f2899127328220c02814d53b5dd857effbbbe68e5f4f53052ea97f2e9ec3ff758fadc43532665b9d4975f83685c876b9564eb0b597b5e10a3bf6e6a38dd83eac9314c7fc2c40b82d9873a84646a6f9aaddb5a8b93b5b6ab9b991114799805044b6fbac7a74d5530f19d4742acd65250fc2a8c80d583c3109bb15c773d655e34454c32120a7b99e6591bca93e68c9e58ba163f8fa2e9a04c03baa88b5b5d7b2890aac5ccdc68839c4c41a29a6c3bc261ebc213f1cb20191563f169b613d58c32f6ded6aa0681ea53092898ef4a2eb6a6632a233973c3d7c818fa5fbcc4c74107530564e61f61e3427cd09addcbb159e3a3b86064ddc053fabf03f3e10bbafbcc0d3a0ac391e484d3d2f0db9217d91858210a7830c867f1ecea921e43fb435d5e6f458fcdc15d1b269d71bbcdf7d1a3eadb70cf732ea9ed69d2e6891d084cbaac58f5b957a844d8ab37343013093b0eee22fcfcfe0cecfb07a788d929c8d55a226d8d210d030ed3087812f040fdc63a9dc48db81d767b65f20c8ff2ee816a6f3d333c4378f81f6d77a0c51e7dc489f2bd99eb8e7b0131f0f947cc57881e302d273efc1e307f0059d37858cec0b5569dad58cae9eefa2f1b8729566b7c3934af49a9d2b54fd72d08db024e7563e2501bfa16f47515597665f82878181f1b6d506299628c8dc5ec0b7e793f1cea63f9c8f6a09878905c251e9354b989e0681ec0e99853bbe614cf6636579ec4634759dba3ee8a60c15d396f017d8dde406e0173f029326e9d3a3da1b721052f6f5255d0206a7297e8d3be509e9cb26f8ac6a62e44b0f6dc987e5b513cbfa967b01a2facb07481f970428bcfad929994eab5a22d27f4c86c1c34a8751626f7455092a6e241e2900d2d01e9eae821a50a98f7a65828ef708d226075b9db7cceaec19507ab1a2d36c187a257e69d4c7676a3ec17495d3049c566001dd50b5e4c87141d9a2e01da856cb3ae1a6e90e17c2925b701e5ee53ecdc6560373de01f521bdf562612eb51d028cedc24dfe95db999c4424b813ed130cd015a6bb86a31157278ed8937437700be5691b2a0040b7100d53c20a87b70c556547773d8384bbc91f2af8dc7b6c7263a14962532c8e7dd107a30ac7205bd9fd14b16adf8274c7bc35002fb38a97206d3bd1d5add5fa77413f9132c7689e1b4c77d5205e914135ec3a0b6a4bc5a60a0e590807d54e822ebf9e57d928722aacd7e8714ae5a7ea66be3d5f28549191f9e8186a6d69c969834abbbbed7c8be9721f940b8e6875e20456874b0899c7196fbb2e1c1116104c5bd5a1dc25bbc7b67b6c78c3d2dd3b0a5e1cc1c14994778579deb4c608dee496438eb510c49453522e1359c67aee97ca6d082e25ee040479780c5d2ae4667e126f0a5d3ae80dc4f5d575a82a1097b4f39b535796f196b87ab4e6721cb24017606a061dffc4fcd4f515e44ae0a19bd01b4c76fd86e3f406889b0d6fac69910b69ace507264f2ec549a99f49ba6f8a614cf87e267cd2e5bb170ac6fb949e3327c276b59eee45681a1780de4ed5c44c97e80ccf5c96828c2791ce62534b85cd1cfdded54bc81e9d2b8d18cd4f503320328203063eb0f95b62353e74739043b6539cd16bedbd115a701b39400ecb15bdb6f19eb3667b0632e8cbf7608f7b9bec663cd95ce1a2e65957bba4c4b43be0ca5cb969ef5a870dfddf0465f9b090f3dc0c62ab69d38f9d296185890fbd374ffa049d72d0fa452bd22dd58469ae02aa21853e0efb0a54a9cebc5bc6e8dd23b43685ef920fc66ae2fb5bf78432664fdc4b9103f344689fccb7481c911162e877d26212d7456e91113b0250007235d5d31ba756ba1cfbc50a6c2b9ef9571b07ec2648e774d5ab2b319d321490a547b048573edad3fceba854ff07d8c22c556150ea8b821cd4df5202d5980678ab1ce6eb0e756ccab4dc7dbc0d7ab98302e7a190577fd4778ffc480d2c12dc98a23502e26c0ea899f0f21859e0c297db15aacac93b15eda851a01e878313397425e19a61e58423b24cd49987abacee17ff1138903e07e39f1b122f847e5515945f7efcd510483d3ca3000ff8289749a85f228a6d2094db8d1ed922e5df86f297834c0a905454933920f76440aa224eddcdabec6e3aa3090cda00fdaa231a1bd3faa0bbab02903658a424624aad733a09726d0399d05de69caf40434d9e4a92293532f34cfbecc8773a00d58756e3639f6e142399f188e33ac30cf8183286447e1780c039dc01bd60ec6a79a59c8b583ebab3ddb778e560e08121511e03ead4ea987a7659435e6a40ead8263349eb740de8154b938c2d66553c05d9b24950b4a7e438e6de7a7fe79e4c86a13cd700bb8b7973f493a2aab752450b538deee1b6ad557249725c066bfa055119515c7a0958bec7b7d074953623ec5a4456eef55e0c02cd7dbd70632289af64072e3fa7b4899161073128144abf4fca9e9d651cd7495727ea1f728de61d216336ea174398c102eda415d6e
  else if kind = 3 then
    0x3220150c000000000000000000000000000000000000000000000000000000000000f3f0ecddcbc8a8a1777370645f4f211a1711f8d5c99b936c543b322c14e0bdbc8e6f3f1d1910f1f0dbd9d4b0877e58543a034339c6a9f7cb2b1b70c5f653cd62e2618fe90a3199b50c69a52f68bfb8b66d16536db11d0c7bc26ed171e60ae0f73720af646450fc7eaf6734a22228ec80f85b90382c1f6a192f2ea0e5ef55e6bc316226ebc63c978774e0a60efeee63e5cccc1d308313c47165acc09ce5af0c292eb21b9721dfd5759e419a68e85b99e010fcb3fcc459121357a7f6764512fc55a15bb9de2ca1b2dcddd842bd5f4971e9f08264ed4f6a2c0574fad1215d4416fad170ee759302fb33cefd6630092b57c0e79851530c1bd0f33fde915552605022db9bbf561ca55ce06299e0d32c39ba4a964fa86483a1f33e19b12a7ee1b83d38d813b0ae3a77e3fc7737077345c4a72de7c4a032680066f77695c45c463662912bbdc0949b944ecd6f60128ac72467e6c4f27f1895f593a2ee0fc102e6dace23628df3ef81ef8fa36e8cb0fb9bf63050ffd719f123aa832f9c98309ce7929e15739bf726e818efbf8294eb998a69493841234ba93960ebc22786decf5f6febb31238532c3865f07fdae4a8b83cd4deaa51758bb9fb5c95fa50c3700b7b922e048d933824013417b5344c5a06ddfdbefecd6f34f2782d5932371b781d52e9d418a95c8c040a3df5153960f6a44cad76e9b0b85c772eacd10d48cc506d099bddd997329d335c22a97a4733e61355167a17d2477b3ce4308e1f4b71c014b88c17cc13cf24bbafc755b5d4d1187871731b1b0f6eee91e827f2ddcb96a76eb72ff94b04b9a735914d3f065cfd1c654ecc9f143f55bcc5c23f02fb3b8b2a7ed245642fa0395b8192ae43a14288e993a02e22a796234f31d06b0d8aff87fb2c8da3aecc45625722f757522f6388429eb57f754ad046751da77a5a66579c5cd73fac27f661bc0f6dce9e79c6de34081f70d84686cdc3288355f9c9d4f17d39548baa66ffde4a073992ced2578d3d8f6fbec9b4de9c3a0d12d7a84bb0c61c25bf1ab4af3c0575e296ef935f2dffa9e9c9bde276edc01389b37b7196ba5a754f8bc6eddf92d48242e2571a6bc9ca18ce5043dd8c6a82c2944c95336f863f1acc8d627e02c3f05ea11a0326e1280efe93ef90feb669223b4f4592bd9f5c643c3a62df73dc3d8df473bd51e0d7f4c91eb67f7ef78eb50181a50893d786846e1e247257097a9d24936d01c9a1f24c4f5f38ab9898404cf31a80dc7c69e149728c980aee5233cf41505f6b44757e3f44f0f8b96f1751d6ed3b1a28069ae55f4c895d7afc577ea92391e7131fc714beaba8571e9db0be56de8451ddb2d555c6006f2e827289eadb51e8d138c68d70d016508ec4005f26e743172933553522fa818d54ec49a19b7f5d677c352368a3f0b2436e03d33f96b8bc4807e94f25667992028f1e4257a225004919731b28d97a1855a0fb098dc1534896a11f0fb03e97a1ed636e8e4beba0db7a7c29ad7965bbf70f350ee8bd8e27ecb233448582568aef9f3468b1c806d7c7e8820419fdf7ed7c8b4d01d26c48de010c7a74940d6a8bb98393a8c51c21602ef866ce3f284e1f661ee907a3ef3a0390e09cb146583d3eeffd63b56ab45063eaa28562ce6914953eab107d82e274482a130218d8ad824a16854192767c7842443e1d7fd357ed9f1d880825f26058965dcbe4920a5a9ab49bcf33cd93bd34644d54e0962973f78ed45226036d0672ca04b6253711fc68593c449600611ba4329f88d4325f59bf83cd2083799cd15f33fa87fc53919c37b095c4a55e79af51c933cf64bd2b9ed0f489a65d0c5be695a9141345dc04c5cea37760173609222a9ca4f4966b5452b24f03e38c14895b0e227eb1827839bbd4e168e9fa2ce0ea3e0ae814b123b42fde5d8056a7bf87e7d275de6d9785577126d7064b594fd2b17be0e89cb875324ae9b80abf27ea4856859c1a5e776527d59f457eee0bd4aeea146c6ae10e398f2eef09fc5280158f964abdd5bfc51c117cc2a4e70f2ee60a608314df0d050617e98cfbcf86015d4ca3a357341f365e9ac1d764764299c5fb94f6e037827448ced3b86dda662ebf01e2257448bacb20aedfeda189535d97ffb373ba64860ffd43823374ba980042c3ba608302f7d207a6a5628f371794d6bd895b401a1123bddfc24effe28a008ddf193747e7f17fd9044b4338a19a460bd20796c88072aed4fb166747a84076f33fe72fa7b5d7125f1d2cbd9f8b3f9a091d6e7053b63f42ef2b52280359c30b75c587797758ae625a95bb01c0d24623b6a16c077713fac2172fbf4174b6d7666662e7524dfb008585ca590f6c1097e049605a00fb671c5cfa366847fb6d4710b0000bf3dc2bb82a57713e0addfc06f4a9d80086b8073424463f1fb82a58f380e42a9509407bb2efd1c5ff793f3d64f843dea754f4e4c67c9d7ee246873ddca5b35db8ac8cbce0f25c24d185437176877e0e0a440f62c152b30888cefad521051eb5775518469208113a39eb0029a3fdcd8675cf71c60f0d912ecac91ecb121e60a9372a58a72161e3ea62800eb9d093ba33949361b05d7172c2a99081909e533ad3df01ec8233c8ec1aaaf041cfc50ccbaab930660d4668f026680c2abb1b32c7e2b1548cc9e75dd3c3b2ffd5223106d44d279ceba896b79850910e8973e93e055435e0a32dc34f396eb99a098651293e74c7f74f5962828ce019db58285e236c5b02fb004362899d920cef1083d4a8ab67eb7a16ef2e4523a3dec2c8550d3df6b7c3c98aae39b6a07cd9d6b9cbc82b3bf32922a23b8f6d0983bd57a6311fd453bccf7866707349fd11a62c1a3aec5fa25eee6f7430cb28e8186f761906d580dd8b068807e8687008065dd12d81eb5864766b01493d4960c1cff6cffc0d96d8ea9a54506c0de21ba58e187f17b8c18b0bbf7106f2c3e29970bbebb2844d28a02619f38378f181c6d553bbe8e20934940c28873c293815ca5babe67bdec9101abfcead89735033e4e1a43b5ff281d667b889ec898336d21d8e4616a3c632172f5317b72dfb9a2e51828b891351475cb963235693fc30d520397009e10e39941b1d10144fa91489efad1d2644ba7c8f1f4567b86ea698325031aec48bbb2e18f588a32975966b4d01d62fee89982250c2c3c0bf02ae1ccf9508ad1c475e128e1a10b70390d6ed0dab7486a9d50006f627efb53349549e025472d6e4b37d88e5937254823593864c5e4d7f1b0a153fe68383f24b719d33eb7f965d3054f5127ed6531987c3e84a0539ddf792372840e17173f23f526cf658afbfa3b4ee9d3d6006dd83953e7c5bc40ff3418ae0c82df9010c474a484fd523a571dd8e90df3aaa9cbbd7ef22c07c5e
  else
    0x3c30220c0000000000000000000000000000000000000000f6e7ccc8b3ae83726e38200df5ece9e7ddccc5bc5b4224140e0cfdf7dcd2cfcbc3b1ad99918c7866574f4b3b321b0e0cf1e7ddbfa29e976e624a441aa306e2e16c242a58a3870e7ecff33b6a72bb05b9383549645107ab8e328312e813ebae0fdbb62cb09264974c6d15415bcd2834277f1d89009fd0160d01b2633c4f8e1f1388acb4e73eb6adbbc0b713137b44cbf28c2e4310c4743e1b5d184f9fdb01c45b9f5c536cd4d752f7c425713d8ccd1304619ac13ae86cdedb9380f901001f93c872a0a56c92b644ec5f43fe961643144c63bea8e055c9ca9ba2ef18182eeadaa3b43ca08e279d3a7a509b6ba662c03760c50165efc15e712b54f986ef55e4910ede1ed751958efca7bf98f51f568986eaf248dd7390c0e0108642bb0712c7c81f62dfe85a86980a423d0d2624e6316a6d3c7f86f143f0db587e44a75f209e1179f689817bbe7816edd3299ac2bc8b9286acbdf23c9d4b1bd05a796a0cf0c337f532e8d78f37d9a905cf59fe9645d8c9efb218b7ead2349fb788f459e9a01db46b308bf277f40889021ad2b76b82dfafc4d32a2b7cd5533f90d59ab8074bbbe264ce38ad867ab197b4020e961820efb909f0467c25cc838ad4d60a2f6ab480fedd4d11323fc0971ad3614b4f3340496683fe1e04f1f435dd9072fdd29e09887020e72c721af668500b87d5f1bd20075b0353b5a84c19dc9e9515a4077de7af09c5392b5548fb31ddc2d50a35dded34386796df8acbf76cf65b8f34534591f3505301e1dceb2defce054ae7b6a45e3e5a61b052b960233bb1686df830ad535634993822e62aebca653a7758e3e44d655b072a31e4dc123d19441dc83f93303a453dba152501153687922f2ab21b53471feee0cd463dc090031d492f925f8ac18ad02425b1bc7ce11b91e0e6c37399ddc8139ccf4cec62df111e9347099500db1b94c3dd568dc94d8c424c306f36d78237f9cdb5018eff6ba690049b94360c57a87518e0402aa638b112971ada45cc700cf141af140026e3a7f39cfa9a14d14df22aee69ede6a6e4c04d9b1b8a0ce1d4861954dddf5f3efc43824dbf8ad104404a33c0b202bb4d2a8134056c7aa66e2632d1700dd5b405b8160f298ab33fe1b503da5e783741ef11b6b394c4bb29ce32edd9f6af1c93eb4b0664acbc427e15a301351c8e1f1d7bbc4637ddc7155ed6f763c5b359bcb2059ceb417fca8f0c4f1de4ec4076e8f756cc61e036f430d837ce09532f4c9cd07872d1925f66de95d4b1099f89d1a3990d4700e9744e354027c7b80eeb96161fc58856089565986bae5fd584dd4466c2994727b570c1f6f7209916ad48bf887ad6fd11e426522ba5502af36fab8b146ee17af1f2ba6e0a0d95b4569e86ff0f4a1ce99f9b26af4a9389e1a1de14b50191583a06f6d772ce84b3c64d6eea1999f769c19caffa965a6d7f8a0f2254427ac2c2069ed966fc06921db780d98045d76099dca180858488fe57f6d10bb3398e307434b60e0144e1f404ec020f7a31c25ad998a62ad46ad9ef40589913986f85772100ffd1a74e5293d78ba8cb47494a4abd6dc913d5ce77728f9213fd15490229a6bfafb873f5002f04c0d944c82bad2cabdd93a285dc8f55bf54eca53f6dbd4452402b1b96e907b899994f4f7f72cbffecf1882125940bd03b01823889ad9d4072571b3f5d4a676fd47361501e967c54af43c6c2c85c765e07b4b5201ee627f6b5913c7616fa2199afee109a21d49f7871bf9544ae1ff589ab0cf8de22c9377c8f0474152759c27a8f2a0794cfc175b0fa42c74bc448e2876d47d00457e6157365bb84f37ef749303f50ff41548472e427afb6e78316ce76faf70082a373ff0247130c200adfc1280df2cb1bfb1b3b0743bb3c527d08e7bcc6bbe76b77071f3266ba91f41427b22be0797dd0091e989db308b3c24870df6e027def121a8c6a29d5030b4dc287fd8f921c68cf86f40b7111e1073d9eaec2eae1351ddc3b2a47b7df75d4f160ab42212693e34d504265a5a274fb144e5fb9a009d085270d9b7687bfb2be8b8fde4cf6026bd29109d02f21af3fd20354fe3032ed1db563c7033ae1d02f65821161174764f9a1442738cbb6308fb9014d9f15acc93f867946278b690648f8a4cdbb2ebc52e9d9b2b84af3e8ddeece36fd7a0a295e4b0890664e2842dab5c8088ec0ab02991c887e01e246d19d9342d1c1886c50387b2704aad591a63b756f86f300ce54da6f7ce0c36d6eb1381e7ed9ceaf27815a161c03f275de3be516fa5c9867a4403da06e8e363ff59dddfd4d0b50e9c1d66fa9692a758bb578a4007de4a4e868bcbaeffb5c9f11cdbd27f16649f0ab238c3b4dc42f5f3d3b20d42f1cbb86fab4974877c296e36991c4eddf97f5288cbd5a59c08dc04959b9229c492eb0cd7fdac122402fe72668b1c078e5f939af6936ed0c26a1cda60534bc3658de5fea659474fcc0496a14258028be96d652fa877bb2724610d3d06feb3756497707ee80b2b2e832f75a387e1abdf292f2dadf8de4100ae7bfb76b5e4a2ee28c344a0aebfa847eb26637a891a069e95c1de3d7aaf373ff5824fd10c4bfc9c853eb66ce1fba0d99e7b57ebd2ff47f8283eb1a58fb1b2319d2b01b3136c0a001fa9693710cef50ad0dad4c9acda874afbaeef14f82bb676c5a9b24a39a3481ec71c4d4f1415e48bf0fb3cdf410b2364d5dcfea5a0e2cf913e61f161653cd88123b67dc0e8d35ee47967e89da4532c82b14b42da3155bd7017b84d50851678cb5149a39518f31b17c532d75afbb4deff026a3b3c426f8954b998a02ac4a7641988ea8dccc9a278f7dda14f969347fca0481036d2ef5df6fe655d939401b8fbfaff5ed4e3b35a6c8971c455258963a1aa8140788201b1826ccca4fd425194d3507ca5ecf311e2ea672b48198a6e129265d69916802dd9bf0174471bef73a0a7758877111f3c917ca9f9e0e4fe12d0f7f1cc95f3455a15842d0592291813f1965026698702629c746a167258c4379e4d6388c28cf6ac6f291fe670fcba9a28b2c76c6c8e8e5497559e6c33c30f4c07b4987187063111d831df8cdb8523c90dfa61475c82afa4d95bfca0c1df2ed79970f306ecf649755a45a8dd24b358b6d11c237b95dd0540177a1fda8b780be2b62171f60cc912794e31cfcd41dc75e141abc6415d4e14646dc55903677432275a80f8a6d239236e55b2d7b9f85913e4ba4887d9215b181028620d7ea409697736ae700819e561fea95e7790e7efb7e2659dbd2d261233445e6f442dcc59e76f4216cae55dfabbd32ee2677771b0ce925faabdc708b79af2b3b8a2a0295cca94661a3c36346ea363fc04a49e65407b346ff1e6d72d1e54d6115eb54c914aa8929d2780da1dcccc65da7e3)

/-- What a key block of the root key signs: the key and its role (R353). -/
def certBody (role : Nat) : Bytes := dsaKey ++ natLe 1 role ++ List.replicate 7 0xFF

/-- The signature block of a container (R353). -/
def sigBlock (kind role : Nat) : Bytes := certBody role ++ certSig role ++ bodySig kind ++ List.replicate 48 0xFF

/-- The two signatures of a container of a digest verify. Lean's evaluator finds it so of the three containers below; its kernel takes too
long over the transforms. -/
def Signed (kind role : Nat) (digest : Bytes) : Prop :=
  mldsaVerify dsaKey (certBody role) (certSig role) = true ∧ mldsaVerify dsaKey digest (bodySig kind) = true

/-- A container of one section of 64 zero bytes, its check values and signatures in place (R351 to R353). -/
def cont (kind type role : Nat) : Bytes :=
  let header := contMagic ++ natLe 1 kind ++ natLe 1 1 ++ natLe 2 1 ++ natLe 4 6400 ++ natLe 4 192 ++ natLe 4 1 ++ natLe 2 1 ++
    natLe 2 0 ++ natLe 4 0x8600 ++ zeros 36
  let table := natLe 2 type ++ natLe 2 0 ++ natLe 4 128 ++ natLe 4 64 ++ natLe 4 (crc32c (zeros 64))
  header ++ table ++ zeros 48 ++ zeros 64 ++ sigBlock kind role
def handleOf (kind : Nat) (b : Bytes) : StageHandle :=
  { handle := 9, kind := kind, total := b.length, data := (List.range b.length).zip b }
/-- A module whose fuses hold the digest of the root key (R353). -/
def keyed (h : StageHandle) : State :=
  { handleIn h with rot := { live.rot with fuses := { rootDigest := sha3 Config.rootKey } } }

theorem handleOf_bytes (kind : Nat) (b : Bytes) : (handleOf kind b).bytes = b := by
  simp only [StageHandle.bytes, handleOf]
  exact List.map_snd_zip (by simp)

/-- A container that is whole, of its KIND and its sections sound passes R354 where its signatures verify and the root key, which the model
leaves open (log entry 7), is the one it was signed with. -/
theorem checkForm_zero (s : State) (b : Bytes) (kind role : Nat) (hr : s.rot.fuses.rootDigest = sha3 Config.rootKey)
    (hk : Config.rootKey = dsaKey) (hv : Signed kind role (contDigest b))
    (hb : sub (b.drop (contSig b)) 0 1312 = dsaKey ∧ sub (b.drop (contSig b)) 0 1320 = certBody role ∧
      sub (b.drop (contSig b)) 1320 2420 = certSig role ∧ sub (b.drop (contSig b)) 3740 2420 = bodySig kind)
    (h1 : (b.take 4 != contMagic || leAt b 5 1 != 1 || leAt b 24 4 != 0x8600 || contKind b != kind ||
      contTotal b != contSig b + 6208 || contSig b % 64 != 0 || decide (kindLimit kind < contTotal b) ||
      decide (b.length < contTotal b)) = false)
    (h2 : (leAt (b.drop (contSig b)) 1312 1 != roleOf kind || decide (leAt (b.drop (contSig b)) 1313 1 < s.rot.fuses.minKeyGen)) = false)
    (h5 : ((kind = 1 && decide (contSvn b < s.rot.svnPlan)) || (kind = 3 && decide (contSvn b < s.rot.svnHf))) = false)
    (h6 : tableOk b kind = true) (h7 : (contTable b).any (fun e => crc32c (sub b e.off e.len) != e.crc) = false) :
    s.checkForm b kind = 0 := by
  simp only [State.checkForm]
  rw [if_neg (by rw [h1]; simp), if_neg (by rw [h2]; simp), if_neg (by rw [hb.2.1, hb.2.2.1, hk, hv.1]; simp [hr, hk]),
    if_neg (by rw [hb.1, hb.2.2.2, hv.2]; simp), if_neg (by rw [h5]; simp), if_neg (by simp [h6]), if_neg (by rw [h7]; simp)]

theorem cont_checked (kind type role : Nat) (s : State) (h : kind = 3 ∧ type = 0x301 ∧ role = 3 ∨ kind = 4 ∧ type = 0x201 ∧ role = 2)
    (hr : s.rot.fuses = { rootDigest := sha3 Config.rootKey }) (h0 : s.rot.svnHf = 0) (hK : Config.rootKey = dsaKey)
    (hv : Signed kind role (contDigest (cont kind type role))) : s.checkContainer kind (cont kind type role) = 0 := by
  have hk : s.rot.fuses.rootDigest = sha3 Config.rootKey := by rw [hr]
  have hm : s.rot.fuses.minKeyGen = 0 := by rw [hr]
  rcases h with ⟨rfl, rfl, rfl⟩ | ⟨rfl, rfl, rfl⟩
  · rw [State.checkContainer, if_neg (by simp), if_neg (by simp), if_pos rfl, State.checkHeadframe]
    exact checkForm_zero s (cont 3 0x301 3) 3 3 hk hK hv (by decide +kernel) (by decide +kernel) (by rw [hm]; decide +kernel) (by simp [h0])
      (by decide +kernel) (by decide +kernel)
  · have e := checkForm_zero s (cont 4 0x201 2) 4 2 hk hK hv (by decide +kernel) (by decide +kernel) (by rw [hm]; decide +kernel) (by simp)
      (by decide +kernel) (by decide +kernel)
    rw [State.checkContainer, if_neg (by simp), if_neg (by simp), if_neg (by simp), State.checkClaim]
    simp only [e]
    rw [if_neg (by simp), if_neg (by decide +kernel)]

/-- The containers pass where the root key, which the model leaves open (log entry 7), is the tests'. -/
theorem witness_StagingInstalls (hK : Config.rootKey = dsaKey) (h3 : Signed 3 3 (contDigest (cont 3 0x301 3)))
    (h4 : Signed 4 2 (contDigest (cont 4 0x201 2))) :
    (let h := handleOf 3 (cont 3 0x301 3)
     (keyed h).handle 9 = some h ∧ (keyed h).Takes rq0 0x302 h.kind ∧ h.installing = false ∧ h.installed = false ∧
       h.total ≤ h.data.length ∧ ((keyed h).taken rq0 0x302).checkContainer h.kind h.bytes = 0) ∧
      (let h := handleOf 4 (cont 4 0x201 2)
       (keyed h).handle 9 = some h ∧ (keyed h).Takes rq0 0x302 h.kind ∧ h.total ≤ h.data.length ∧
         ((keyed h).taken rq0 0x302).checkContainer h.kind h.bytes = 0 ∧
         (let u := (keyed h).taken rq0 0x302
          u.boot.claimsTimed = false ∧ u.freeClaimSlot = some 0) ∧
         (let u : State := { (keyed h).taken rq0 0x302 with boot := { live.boot with claimsTimed := true } }
          u.boot.claimsTimed = true ∧ u.eraseExpired.freeClaimSlot = some 0)) ∧
      (∀ b, ((keyed (handleOf 2 b)).taken rq0 0x302).checkContainer 2 b = 0 →
        ((keyed (handleOf 2 b)).taken rq0 0x302).checkContainer (handleOf 2 b).kind (handleOf 2 b).bytes = 0) ∧
      (let h := { handle1 with installing := true }
       (handleIn h).boot.hfRunning = true ∧ h.installing = true ∧ (h.kind = 2 → False)) ∧
      (live.model 1).state = 0 ∧ live.shadowState = 0 ∧
      ((contPackage (cont 4 0x201 2)).arith = 0 ∧ bitAt live.boot.enabled 7 = true) := by
  refine ⟨?_, ?_, fun b h => by rw [handleOf_bytes]; exact h, by decide, by decide +kernel, by decide +kernel, by decide +kernel⟩
  · refine ⟨by rfl, by decide +kernel, rfl, rfl, ?_, ?_⟩
    · simp [handleOf]
    · rw [handleOf_bytes]; exact cont_checked 3 0x301 3 _ (by simp) rfl rfl hK h3
  · refine ⟨by rfl, by decide +kernel, ?_, ?_, by decide +kernel⟩
    · simp [handleOf]
    · rw [handleOf_bytes]; exact cont_checked 4 0x201 2 _ (by simp) rfl rfl hK h4

def swapping : State :=
  { live with
    regs := [(cmdReg 0x900, 9), (lvlReg 0 0x300, 4), (lvlReg 1 0x300, 4), (lvlReg 2 0x300, 4), (lvlReg 3 0x300, 4)] }
def swapRound : Round :=
  { id := 0, flip := .swap, armed := true, armedAt := 0, timed := some 2000000000, deadline := 0, members := [], doneAt := none,
    decided := false, single := false, hold := false }

theorem witness_ModelShadowAndFlashCommands :
    live.Takes rq0 0x304 0 ∧ (live.model 0).state ≠ 0 ∧ (live.model 0).planCarried = false ∧ live.modelUsed 0 = false ∧
      (live.taken rq0 0x304).shadowState = 0 ∧ swapping.Takes rq0 0x305 0 ∧ (swapping.taken rq0 0x305).shadowState = 2 ∧
      swapping.pwr.standby = 0 ∧ swapping.now + 100000 ≤ (BitVec.ofNat 64 1000100000).toNat ∧
      ({ swapping with rounds := [swapRound] } : State).Takes rq0 0x306 0 ∧
      [swapRound].find? (fun r => decide (r.flip = .swap) && !r.decided) = some swapRound ∧ live.Takes rq0 0x400 0 ∧
      (7 : BitVec 8).toNat < 8 ∧ live.Takes rq0 0x401 0 ∧ isUnit { kind := 1, index := 2032 } = true ∧
      isUnit { kind := 1, index := 2033 } = false ∧
      (let s : State := { live.setShadow 1 with shadow := some { slot := 1, remove := false, handle := none } }
       s.boot.hfRunning = true ∧ s.shadow.isSome = true ∧ s.shadowState = 1) := by
  decide +kernel

/-- The module in standby. -/
def resting : State := { live with pwr := { live.pwr with standby := 2 } }

theorem witness_PowerCommandsAct :
    (live.Takes rq0 0x500 0 ∧ live.resetBusy 1 0 = false ∧ live.Takes rq0 0x501 0 ∧ (live.taken rq0 0x501).levelResetStatus 3 = 0 ∧
      live.Takes rq0 0x503 0 ∧ (live.taken rq0 0x503).parkStatus 3 = 0 ∧
      ((live.setLevel 3 { live.level 3 with parked := 2 }).Takes rq0 0x503 0 ∧
        ((live.setLevel 3 { live.level 3 with parked := 2 }).level 3).parked = 2 ∧
        (live.setLevel 3 { live.level 3 with parked := 2 }).pwr.standby = 0)) ∧
      (live.Takes rq0 0x502 0 ∧ faceWf 0 = true ∧ (live.taken rq0 0x502).faceResetStatus 0 = 0 ∧ live.Takes rq0 0x504 0 ∧
      (live.taken rq0 0x504).standbyStatus = 0 ∧ resting.Takes rq0 0x504 0 ∧
      resting.pwr.standby = 2) ∧ (live.Takes rq0 0x505 0 ∧ live.pwr.removeOk = false ∧ live.resets = []) ∧
      ({ live with pwr := { live.pwr with removal := some {} } } : State).Takes rq0 0x505 0 ∧
      ({ live with pwr := { live.pwr with removal := some {} } } : State).removing = true ∧ (3600 : BitVec 16).toNat ≤ 3600 := by
  refine ⟨?_, ?_, ?_, ?_, ?_, ?_⟩ <;> decide +kernel

theorem witness_KeyCommandsAct :
    (7 : BitVec 8).toNat < 8 ∧ (0x7F : BitVec 8).getLsbD 7 = false ∧ (bytes 16).length = 16 ∧ (bytes 32).length = 32 ∧
      live.Takes rq0 0x600 0 ∧ live.Takes rq0 0x601 0 ∧
      live.lastKeys 7 (some { key := live.unwrap rq0 7 (bytes 16) (bytes 32), roles := 0x7F }) = false ∧
      live.lastKeys 7 none = false ∧ live.lastKeys 0 none = true ∧
      live.lastKeys 0 (some { key := live.unwrap rq0 0 (bytes 16) (bytes 32), roles := 0x3F }) = true := by
  decide +kernel
/-! SMBus, Lamp, register accesses. -/

/-- The endpoint's address where no strap is read (R439): 0x58 + the strap's code, 3 in State.reset. -/
def sa : BitVec 7 := 0x5B
def armedLive : State := { live with rot := { live.rot with armUntil := some 1000000001 } }

theorem witness_SmbusReadsAnswer :
    live.pwr.vaux = true ∧ sa.toNat = 0x58 + live.rot.strap.toNat ∧ live.rot.alerts = [] ∧
      ({ live with rot := { live.rot with alerts := [{}] } } : State).rot.alerts = {} :: [] := by
  decide

theorem witness_SmbusCommandsAct :
    (live.armed = false ∧ live.boot.hfRunning = true) ∧
      (({ live.rot with armUntil := some 1000000000 } : RootOfTrust).armUntil = some 1000000000 ∧ 1000000000 ≤ live.now) ∧
      (armedLive.armed = true ∧ armedLive.pwr.pwrgd = true ∧ armedLive.ctrl.queue = [] ∧
        (let e : HfEntry := { path := 0, opcode := 1, slot := 0, reqId := 0 }
         let s : State := { armedLive with ctrl := { live.ctrl with queue := [e] } }
         s.armed = true ∧ s.ctrl.queue ≠ [] ∧ s.ctrl.queue.length < 1024 ∧ s.ctrl.queue.head? ≠ some (smbEntry 0x13 [2, 1, 0]))) ∧
      armedLive.resetBusy 0 0 = false ∧
      armedLive.resetBusy 1 0 = false ∧ (3 : Byte).toNat < 4 ∧ armedLive.levelResetStatus 3 = 0 ∧ armedLive.parkStatus 3 = 0 ∧
      (armedLive.setLevel 3 { armedLive.level 3 with parked := 2 }).unparkStatus 3 = 0 ∧ armedLive.standbyStatus = 0 ∧
      ({ armedLive with pwr := resting.pwr } : State).pwr.standby = 2 ∧ armedLive.pwr.removeOk = false ∧
      ({ armedLive with pwr := { armedLive.pwr with removal := some {} } } : State).removing = true ∧ armedLive.resets = [] ∧
      1 ≤ (1 : Byte).toNat + 256 * (0 : Byte).toNat ∧ (0x10 : Byte).toNat + 256 * (0x0E : Byte).toNat = 3600 ∧
      (({ armedLive.boot with hfRunning := false } : BootState).hfRunning = false ∧ armedLive.pwr.enable = true ∧
        ({ armedLive with boot := { armedLive.boot with hfRunning := false } } : State).resetBusy 0 0 = false) := by
  decide

theorem witness_LampReadsPrint :
    (let e : HfEntry := { path := 0, opcode := 1, slot := 0, reqId := 0 }
     let s : State := { live with ctrl := { live.ctrl with queue := [e] } }
     s.lampReady = true ∧ s.boot.hfRunning = true ∧ s.ctrl.queue ≠ [] ∧ s.ctrl.queue.length < 1024 ∧ ∀ e ∈ s.ctrl.queue, e.path ≠ 2) ∧
      live.ctrl.queue = [] ∧ live.lampReady = true ∧ live.phase ≠ 12 ∧ live.takeLine.regError (cmdReg 0xB08) false = none ∧ cmdReg 0xB08 < 2 ^ 48 ∧
      live.rot.locked = false ∧ live.takeLine.memFails 0 256 = none ∧ live.takeLine.regError (fceReg 0 0x200) true = none ∧
      baudCode 3000000 = some 3 ∧
      (({ live.lamp with newBaud := some (3, 1000000000) } : LampState).newBaud = some (3, 1000000000) ∧ 1000000000 ≤ live.now) ∧
      lineBad (ascii "reset cold") = false ∧ live.lamp.lines.length < 4 ∧
      (live.setPhase 12).lampReady = true := by
  decide

theorem witness_LampCommandsAct :
    live.lampReady = true ∧ live.ctrl.queue = [] ∧ live.phase ≠ 12 ∧ live.rot.locked = false ∧ live.takeLine.resetBusy 0 0 = false ∧
      live.takeLine.resetBusy 1 0 = false ∧ live.takeLine.levelResetStatus 3 = 0 ∧ live.takeLine.parkStatus 3 = 0 ∧
      (live.setLevel 3 { live.level 3 with parked := 2 }).takeLine.unparkStatus 3 = 0 ∧
      (live.setLevel 3 { live.level 3 with parked := 2 }).lampReady = true ∧ faceWf 0 = true ∧
      live.takeLine.faceResetStatus 0 = 0 ∧ live.takeLine.standbyStatus = 0 ∧ resting.takeLine.pwr.standby = 2 ∧
      (bytes 32).length = 32 ∧
      ({ live with rot := { live.rot with locked := true } } : State).lampReady = true := by
  decide +kernel

def xfer3 : ImageXfer := { kind := 3, slot := 1, data := cont 3 0x301 3, lastAt := 0 }

theorem witness_LampTransfersImages (hK : Config.rootKey = dsaKey) (h3 : Signed 3 3 (contDigest (cont 3 0x301 3))) :
    (live.lampReady = true ∧ live.ctrl.queue = []) ∧ live.phase ≠ 12 ∧ live.rot.locked = false ∧ (1024 : BitVec 16) ≠ 0 ∧
      xfer3.data.length ≤ kindLimit xfer3.kind ∧
      (let s : State := { keyed handle1 with lamp := { live.lamp with transfer := some xfer3 } }
       s.lamp.transfer = some xfer3 ∧
       ({ s with lamp := { s.lamp with transfer := none } } : State).checkContainer xfer3.kind xfer3.data = 0) ∧
      live.checkContainer 3 [] ≠ 0 ∧ (live.setPhase 12).phase = 12 ∧ xfer3.kind = 3 ∧
      xfer3.lastAt + 2000000000 ≤ ({ live with now := 2000000000 } : State).now := by
  refine ⟨?_, ?_, ?_, ?_, ?_, ⟨rfl, ?_⟩, ?_, ?_, rfl, ?_⟩
  case refine_6 => exact cont_checked 3 0x301 3 _ (by simp) rfl rfl hK h3
  all_goals decide +kernel

theorem witness_WritesClearFlagsAndRecords :
    faceWf 0 = true ∧ faceWf 2032 = true ∧ live.answers (fceReg 2032 0x200) = true ∧ live.answers (fceReg 0 0x210) = true ∧
      live.answers (fceReg 0 0x290) = true ∧ live.answers (fceReg 0 0x2B0) = true ∧ live.answers (fceReg 0 0x500) = true ∧
      live.answers (lvlReg 3 0x600) = true ∧ live.answers (lvlReg 3 0x51C) = true ∧ levelOptWf (some 3) = true ∧
      levelOptWf none = true ∧ live.answers (lvlOrCmd none 0x104) = true ∧ live.answers (lvlOrCmd (some 3) 0x810) = true ∧
      live.answers (lvlOrCmd none 0x830) = true ∧ live.answers (cmdReg 0xA24) = true ∧
      (0x80000000 : Word).getLsbD 31 = true ∧ (0x40000000 : Word).getLsbD 31 = false := by
  decide

theorem witness_ReadsClearAndReadOnlyWritesAreIgnored :
    regRc (cmdReg 0xD00) = true ∧ live.answers (cmdReg 0xD00) = true ∧ live.answers (cmdReg 0xFFFFC) = true ∧
      live.answers (drfReg 3 15 0xFFC) = true ∧ live.answers (lvlReg 3 0xFFFC) = true ∧ live.answers (fceReg 2032 0xFFC) = true := by
  decide
/-! Data engines, command streams, rings. -/

/-- A descriptor (R274): OP, CTR, rings, addresses, X, PARAM, and for a TRAM its budget. Y and Z are 1. -/
def descBytes (op zc ctr srcRing dstRing param src dst x budget : Nat) : Bytes :=
  natLe 4 (packBits [(op, 4), (0, 4), (0, 2), (zc, 2), (0, 12), (ctr, 4), (0, 4)]) ++
    natLe 4 (packBits [(srcRing, 5), (0, 3), (dstRing, 5), (0, 3), (0, 8), (param, 8)]) ++ natLe 8 src ++ natLe 8 dst ++ natLe 4 x ++
    natLe 2 1 ++ natLe 2 1 ++ natLe 4 budget ++ zeros 28
def storeOf (off : Nat) (b : Bytes) : Memory := spPuts memUnlisted [] (storeBase 0 + off) b
/-- Ring 0 of face 0: three reserved skips of 64 bytes and up to one borrowed. -/
def planR : Plan :=
  { plan0 with rings := [{ rings := [{ base := 0x8000, skipBytes := 64, count := 4, reserve := 3, tSkip := 1, borrow := true }],
                           poolBase := 0x10000, poolBytes := 64, poolCount := 2 }] }
/-- Its work is session 0's, whose frame is in progress. -/
def rung : State := { live with boot := { live.boot with plan := some planR }, sessions := [(0, { act0 with frame := some {} })] }
def withFace (f : Face) : State := { rung with faces := [(0, f)] }
def face1 : Face := { Face.zero with epoch := 1 }
def copyD : Bytes := descBytes 1 0 15 0x1F 0x1F 0 0 (storeBase 0 + 0x1000) 8 0
def fillD : Bytes := descBytes 2 0 0 0x1F 0x1F 0 0x12345678 (storeBase 0 + 0x1000) 8 0
def tramD : Bytes := descBytes 3 0 0 0x1F 0 7 (storeBase 1) 0 64 1000
def injectD : Bytes := descBytes 3 0 0 0x1F 0 7 (storeBase 0) 0 64 1000
def emptyD : Bytes := descBytes 1 0 15 0x1F 0x1F 0 0 (storeBase 0) 0 0
def queued (b : Bytes) (layer : Nat) : QueuedDesc := { offset := 0, bytes := b, work := work0, layer := layer, stored := false }
def engines (e : Nat) (g : Engine) : Face := { face1 with engines := face1.engines.set e g }

theorem witness_EnginesTakeDescriptors :
    ({ rung with mem := storeOf 0 copyD } : State).canQueue 0 3 0 1 work0 = true ∧
      ({ rung with mem := storeOf 0x40 fillD } : State).canQueue 0 5 0x40 2 work0 = true ∧
      ({ rung with mem := storeOf 0 tramD } : State).canQueue 0 4 0 3 work0 = true ∧ tramInjects 0 (parseDesc tramD) = false ∧
      (let s : State := { rung with mem := storeOf 0 injectD }
       let d := parseDesc injectD
       let g := (s.engine 0 5).accrue s.now (if d.rateEn then d.share else 0)
       let n := min (d.count - g.pos) (granLeft (d.src + g.pos))
       s.canQueue 0 5 0 3 work0 = true ∧ tramInjects 0 d = true ∧ (s.engine 0 5).queue = [] ∧
         (s.engine 0 5).stopped = false ∧ d.count ≠ 0 ∧ s.itsTurn 0 work0.ctx (s.face 0).workSeq = true ∧ d.rateEn = false ∧
         s.accessError (d.src + g.pos) n false = none ∧ s.poisonAt [(d.src + g.pos, n)] = none ∧ d.count ≤ g.pos + n) ∧
      (let d := parseDesc (descBytes 3 0 0 0x1F 0 7 (storeBase 0) 0 65 1000)
       tramInjects 0 d = true ∧ granLeft d.src < d.count) ∧
      ({ rung with mem := storeOf 0 (descBytes 1 2 0 0x1F 0x1F 0 0 (storeBase 0) 8 0) } : State).canQueue 0 0 0 1 work0 = true ∧
      5 < (rung.face 0).engines.length := by
  decide +kernel

/-- A mover reaches its own store and its ring neighbours' alone (R277). -/
theorem test_mover_reach :
    ({ rung with mem := storeOf 0 copyD } : State).canQueue 0 5 0 1 work0 = false ∧
      ({ rung with mem := storeOf 0 (descBytes 1 0 0 0x1F 0x1F 0 (storeBase 16) (storeBase 1) 8 0) } : State).canQueue 0 5 0 1 work0 = true := by
  decide +kernel

def piece1 : Piece := { src := [(0, 8)], dst := storeBase 0 + 0x1000, len := 8, aux := false }

theorem witness_TransactionMovesItsPiece :
    let s := withFace (engines 2 { queue := [queued copyD 0] })
    let d := parseDesc copyD
    let g := { (s.engine 0 2).accrue s.now (if d.rateEn then d.share else 0) with key := s.transferKey 0 (queued copyD 0) }
    faceWf 0 = true ∧ 2 < 6 ∧ s.faceUp 0 = true ∧ (s.engine 0 2).queue = queued copyD 0 :: [] ∧ (s.engine 0 2).stopped = false ∧
      (s.engine 0 2).err = none ∧ (s.face 0).mayIssue s.now = true ∧ s.itsTurn 0 (queued copyD 0).work.ctx (queued copyD 0).seq = true ∧
      d.op ≠ 3 ∧
      (s.engine 0 2).finished d = false ∧ d.staged = false ∧
      s.nextPiece 0 g d = .ok piece1 ∧ s.pieceBehind 0 2 piece1 = false ∧ s.poisonAt piece1.src = none ∧
      (∀ r ∈ piece1.src, r.1 < regBase) ∧ s.tallyFails 0 g d (if d.op = 2 then 0 else ifRing d.srcRing 8) = none ∧
      s.discarded (d.dstLog && (!piece1.aux || d.dstRing.isSome)) (storeBase 0 + 0x1000) = false ∧ s.accessError (storeBase 0 + 0x1000) 8 true = none ∧
      storeBase 0 + 0x1000 < regBase ∧ s.runError false [(0, 8)] = none ∧ d.rateEn = false := by
  decide +kernel

theorem witness_DescriptorCompletes :
    let s := withFace (engines 2 { queue := [queued copyD 0], pos := 8 })
    s.faceRuns 0 = true ∧ (s.engine 0 2).queue = queued copyD 0 :: [] ∧ (s.engine 0 2).stopped = false ∧
      s.headDone 0 2 = true ∧ (s.face 0).fused = none ∧
      (parseDesc copyD).ctr < (s.face 0).counters.length := by
  decide +kernel

theorem witness_ZeroLengthTransferCompletes :
    let s := withFace (engines 5 { queue := [queued emptyD 0] })
    s.faceRuns 0 = true ∧ (s.engine 0 5).queue = queued emptyD 0 :: [] ∧ (s.engine 0 5).stopped = false ∧
      (s.engine 0 5).fill = 0 ∧ (s.engine 0 5).drain = 0 ∧ (s.face 0).fused = none ∧
      (parseDesc emptyD).count = 0 ∧ (parseDesc emptyD).ctr < (s.face 0).counters.length := by
  decide +kernel

theorem witness_BusErrorStopsTheFace :
    let s := withFace (engines 5 { err := some (7, 0x10000) })
    s.faceUp 0 = true ∧ (s.engine 0 5).err.isSome = true ∧ (s.engine 0 5).err = some (7, 0x10000) ∧
      (∀ j, j < 6 → (s.engine 0 j).err.isSome = true → j = 5) ∧ s.field (fceReg 0 0x500) 31 1 = 0 ∧
      (s.setRegNat (fceReg 0 0x500) (2 ^ 31)).field (fceReg 0 0x500) 31 1 = 1 ∧
      (s.setRegNat (fceReg 0 0x500) (2 ^ 31)).faceUp 0 = true := by
  decide +kernel

/-- A fused stage command of one step, the compute stage (engine 6). -/
def fusedB (skips : Nat) : Bytes :=
  natLe 4 (packBits [(1, 3), (0, 5), (15, 4), (0, 4), (skips, 16)]) ++ zeros 4 ++ natLe 8 (packBits [(6, 4), (0, 5), (0x1F, 5), (0, 1), (0x100, 21)]) ++ zeros 24
/-- The same on engine 0 with its descriptor at offset 0x40. -/
def fusedE : Bytes :=
  natLe 4 (packBits [(1, 3), (0, 5), (0, 4), (0, 4), (1, 16)]) ++ zeros 4 ++
    natLe 8 (packBits [(0, 4), (0x1F, 5), (0, 5), (0, 1), (0x40, 21)]) ++ zeros 24
/-- A COPY of one skip of ring 0. -/
def ringD : Bytes := descBytes 1 0 15 0x1F 0 0 0 0 64 0

theorem witness_FusedStageStarts :
    (let s : State := { rung with mem := storeOf 0 (fusedB 1) }
     s.faceRuns 0 = true ∧ s.faceHeld 0 = false ∧ s.workOpen work0 = true ∧ 0 + 40 ≤ storeBytes ∧ (s.face 0).fused = none ∧
       fusedOk (s.readMem (storeBase 0) 40) = true ∧ fusedSkips (s.readMem (storeBase 0) 40) ≠ 0 ∧
       s.stepsOk 0 (s.readMem (storeBase 0) 40) work0 = true) ∧
      (let s : State := { rung with mem := storeOf 0 (fusedE ++ zeros 24 ++ ringD) }
       fusedOk (s.readMem (storeBase 0) 40) = true ∧ s.stepsOk 0 (s.readMem (storeBase 0) 40) work0 = true ∧
         (fusedList (s.readMem (storeBase 0) 40)).map (fun st => st.engine) = [0]) ∧
      (let s : State := { rung with mem := storeOf 0 (fusedB 0) }
       fusedOk (s.readMem (storeBase 0) 40) = true ∧ fusedSkips (fusedB 0) = 0 ∧ s.stepsOk 0 (s.readMem (storeBase 0) 40) work0 = true) := by
  decide +kernel

def ringW (tag tally : Nat) : Ring := { tail := 1, skips := [(0, { bytes := 8, tag := tag, tagged := true, tally := tally, place := 0 })] }
def ring1 (tag : Nat) : Ring := ringW tag (crc32c (zeros 8))
def ringed (g : Ring) : Face := { face1 with rings := face1.rings.set 0 g }
def computing (g : Ring) : State :=
  { withFace (ringed g) with sessions := [(5, { act0 with frame := some { chosen := true } })], mem := storeOf 0x8000 (zeros 8) }
def opTag : ComputeOp := { op0 with inRing := some 0, lo := 4095, count := 1 }

/-- The state of that step, its ring's block counted. -/
def computingAt (g : Ring) (op : ComputeOp) : State :=
  (computing g).atStep 0 { ctx := .session 5, dec := false, model := 0, hdr := act0.hdr, inter := false, rate := 0 } op (pkg0.layers.getD 0 {})

/-- The same step of layer 1, a soft maximum, with a row length of 0. -/
def opRow : ComputeOp := { op0 with record := 1 :: bytes 15 }
/-- A step that forms λ's gradient of layer 0, channel 0, from tensor 0 into tensor 2. -/
def opGrad : ComputeOp := { op0 with count := 1, grad := some (0, 2) }
def stepped : State := { jobIn { job1 with stepping := true } with boot := rung.boot }

theorem witness_ComputeStepFormsItsRange :
    (computing (ring1 0)).envOf (.session 5) =
        some { ctx := .session 5, dec := false, model := 0, hdr := (act0).hdr, inter := false, rate := 0 } ∧
      (computing (ring1 0)).faceRuns 0 = true ∧ ((computing (ring1 0)).face 0).stageStop = false ∧
      (computing (ring1 0)).faceHeld 0 = false ∧ ((computing (ring1 0)).face 0).fused = none ∧
      (computing (ring1 0)).stepTurn 0 (.session 5) opTag = true ∧ computeOk opTag.record = true ∧ opFunc opTag ≠ 0 ∧
      opLayer opTag = 0 ∧ opLayer opRow = 1 ∧ opRowLen opRow = 0 ∧ computeOk opRow.record = true ∧
      1 < ((computing (ring1 0)).pkg 0).layers.length ∧
      (pkg0.layers.getD 0 {}).runs false = true ∧ (pkg0.layers.getD 1 {}).runs false = true ∧
      rangeOk (pkg0.tensors.getD 0 {}) (policyOf pkg0 0) (tensorCols (pkg0.tensors.getD 0 {}) act0.hdr)
        (tensorElems (pkg0.tensors.getD 0 {}) act0.hdr) 4095 1 = true ∧
      ((computing (ring1 0)).ring 0 0).occ ≠ 0 ∧ ((computing {}).ring 0 0).occ = 0 ∧
      ((pkg0.tensors.getD 0 {}).role ≠ 4 ∧ (pkg0.layers.getD 0 {}).out = 0) ∧
      (computingAt (ring1 0) op0).stepTags 0 op0 = none ∧ (computingAt (ring1 0) op0).stepTally 0 op0 = none ∧
      (∃ q, (computingAt (ring1 0) opTag).stepTags 0 opTag = some q ∧ tagsAgree q = true) ∧
      (computingAt (ring1 0) opTag).stepTally 0 opTag = none ∧ (computingAt (ringW 0 1) opTag).stepTally 0 opTag = some 0 ∧
      (∃ q, (computingAt (ring1 1) opTag).stepTags 0 opTag = some q ∧ tagsAgree q = false) ∧
      (stepped.envOf (.job 1)).isSome = true ∧ stepped.faceRuns 0 = true ∧ stepped.stepTurn 0 (.job 1) opGrad = true ∧
      bitAt (pkg0.layers.getD 0 {}).flags 1 = true ∧ (0 < pkg0.tensors.length ∧ (pkg0.tensors.getD 2 {}).fmt = 1) ∧
      0 + 1 ≤ tensorElems (pkg0.tensors.getD 2 {}) act0.hdr := by
  refine ⟨?_, ?_, ?_, ?_, ?_, ?_, ?_, ?_, ?_, ?_, ?_, ?_, ?_, ?_, ?_, ?_, ?_, ?_, ?_, ?_, ?_, ⟨(0, 0, 0, []), ?_⟩, ?_, ?_, ⟨(0, 0, 1, []), ?_⟩, ?_⟩ <;>
    decide +kernel

/-- The step's output is a wide tensor that is not empty, none of whose elements is held. -/
theorem witness_ComputeStepForms :
    let s := computing (ring1 0)
    let e : Env := { ctx := .session 5, dec := false, model := 0, hdr := act0.hdr, inter := false, rate := 0 }
    let l := pkg0.layers.getD 0 {}
    let a := (s.lateMap e l).layerIn e none l (opFunc op0) (opAxis op0) (opRowLen op0)
    (s.lateMap e l).isGrey e = false ∧ a.empty = false ∧ (pkg0.tensors.getD 0 {}).fmt = 0 ∧ mapTensor pkg0 ≠ some 1 ∧
      ∀ i, (s.lateMap e l).skips e l 0 a i = false := by
  refine ⟨by decide +kernel, by decide +kernel, by decide +kernel, by decide +kernel, fun i => ?_⟩
  simp only [State.skips]
  split
  · rfl
  · rw [show ∀ f w, gates f w (pkg0.layers.getD 0 {}) 0 = false from fun f w => by simp [gates, pkg0]]
    simp

/-- A muster command of scope 0 for 1 participant. -/
def musterB : Bytes := natLe 4 (packBits [(5, 6), (0, 2), (0, 2), (0, 6), (1, 11)]) ++ zeros 12
def muster1 (arrived : List Nat) : MusterState := { scope := 0, unit := 0, id := 5, parts := 1, arrived := arrived }
def mustering (ms : List MusterState) : State := { rung with mem := storeOf 0x100 musterB, musters := ms }

theorem witness_MustersArriveAndRelease :
    let s := mustering []
    let b := s.readMem (storeBase 0 + 0x100) 16
    let c := parseMuster b
    let u := s.scopeUnit 0 c.scope work0.ctx
    s.faceRuns 0 = true ∧ s.quiet 0 = true ∧ s.hasJobs 0 = false ∧ s.logicalOf 0 = some 0 ∧ s.workOpen work0 = true ∧ 0x100 + 16 ≤ storeBytes ∧ musterOk b = true ∧ c.id = 5 ∧
      c.parts = 1 ∧ s.musters.any (sameMuster c.scope u c.id) = false ∧ s.inMuster 0 (sameMuster c.scope u c.id) = false ∧
      (mustering [muster1 [0]]).logicalOf 0 = some 0 ∧ sameMuster c.scope u c.id (muster1 []) = true ∧ (muster1 []).arrived.contains 0 = false ∧
      (muster1 []).arrived.length < (muster1 []).parts ∧ (mustering [muster1 []]).inMuster 0 (sameMuster c.scope u c.id) = false ∧
      (muster1 [0]).arrived.contains 0 = true ∧ (mustering [muster1 [0]]).inMuster 0 (sameMuster c.scope u c.id) = false ∧
      (muster1 [0]).parts ≤ (muster1 [0]).arrived.length ∧ s.releaseTick (muster1 [0]) ≤ s.now ∧
      (muster1 [0]).deadline < s.releaseTick (muster1 [0]) ∧ (muster1 [0]).waiting = [] ∧
      ({ muster1 [0] with waiting := [{ face := 0, parts := 1, notBefore := 0, deadline := 0, placement := 0 }] } : MusterState).waiting ≠ [] ∧
      s.releaseTick { muster1 [0] with deadline := 1000000000 } ≤ 1000000000 := by
  decide +kernel

def full : Ring :=
  { tail := 2, head := 65535,
    skips := [(65535, { place := 0 }), (0, { place := 1 }), (1, { place := 128 })], pool := [(0, 2000000000)] }

/-- The same plan with ring 0 tagged. -/
def planT : Plan :=
  { planR with rings := [{ rings := [{ base := 0x8000, skipBytes := 64, count := 4, reserve := 3, tSkip := 1, borrow := true, tagged := true }],
                           poolBase := 0x10000, poolBytes := 64, poolCount := 2 }] }

theorem witness_RingSkipsMove :
    (65535 < 65536 ∧ 0 < 65536) ∧
      (let s := withFace (ringed { full with tail := 1, pool := [], skips := full.skips.take 2 })
       s.faceRuns 0 = true ∧ s.mayPublish 0 0 64 none = true ∧ s.mayRelease 0 0 = true ∧ 0 < (s.face 0).rings.length ∧ s.ringRoom 0 0 = true ∧
         s.fillPlace 0 0 = some 2 ∧ (s.face 0).fused = none ∧ (s.ring 0 0).occ ≠ 0) ∧
      (let s : State := { withFace { ringed { made := some (0, 0, 0) } with making := some (0, 0, 16) } with boot := { rung.boot with plan := some planT } }
       s.mayPublish 0 0 8 (some 1#4) = true ∧ s.mayPublish 0 0 8 (some 0#4) = false ∧ s.mayPublish 0 0 8 (some 2#4) = false ∧
         s.mayPublish 0 0 8 none = false ∧ s.ringRoom 0 0 = true ∧ s.fillerOf 0 0 = none) ∧
      (let s := withFace (ringed { full with tail := 3 })
       s.ringRoom 0 0 = false ∧ s.mayPublish 0 0 8 none = true) ∧
      (let s := withFace (ringed { full with head := 1, skips := full.skips.drop 2 })
       (s.ring 0 0).occ ≠ 0 ∧ ((s.ring 0 0).headSkip.map (fun w => w.place)) = some (0 + 128)) ∧
      (withFace face1).faceRuns 0 = true ∧ (withFace face1).mayRelease 0 0 = true ∧ ((withFace face1).ring 0 0).occ = 0 := by
  decide +kernel

/-- The lots no session reserves, where the Plan's command streams, which the model leaves open (log entry 16), reserve none. -/
theorem freeLots_open (hr : ∀ d l k, Config.lotReserved d l k = false) (s : State) (l : Nat) :
    s.freeLots l = (List.range 64).filter (fun k => !(s.level l).lotHeld k &&
      !s.boot.disabled.contains { kind := 6, index := 64 * l + k }) := by
  simp [State.freeLots, hr]

theorem witness_BuffersBorrowAndReturn (hr : ∀ d l k, Config.lotReserved d l k = false) :
    (let s := live.setLevel 3 { live.level 3 with coders := [[{ job := some {} }]] }
     s.mayBorrowLot 3 0 0 2 = true ∧ s.levelUp 3 = true ∧ 3 < s.levels.length) ∧
      (let s := withFace (ringed { full with tail := 2, pool := [] })
       s.faceRuns 0 = true ∧ s.mayBorrow 0 0 = true) ∧
      (let s : State := { withFace (ringed full) with now := 2000000000 }
       (∃ k ∈ (s.ring 0 0).pool, k.2 ≤ s.now) ∧ 0 < (s.face 0).rings.length) ∧
      (let o : RingRef × Nat × Nat := (.lot 3 0 0 2, 9, 1000000000)
       let s := live.setLevel 3 { live.level 3 with sharedLots := [o], coders := [[{ job := some {} }]] }
       s.now < 2 ^ 64 ∧ 3 < s.levels.length ∧
         ∃ o ∈ (s.level 3).sharedLots, (o.1 == RingRef.lot 3 0 0 2 && decide (o.2.2 ≤ s.now)) = true) := by
  refine ⟨⟨?_, by decide +kernel, by decide +kernel⟩, by decide +kernel, by decide +kernel, by decide +kernel⟩
  rw [State.mayBorrowLot, freeLots_open hr]
  decide +kernel

/-- Engine 0 waits for space in ring 0, which stage 6 drains; stage 6 waits for space in ring 1, which engine 0 drains. -/
def stuck2 : Face :=
  { engines 0 { queue := [queued (descBytes 1 0 0 1 0 0 0 0 8 0) 0] } with
    rings := (face1.rings.set 0 { waitSpace := true }).set 1 { waitSpace := true } }

theorem witness_RingMonitorSamples :
    live.levelUp 0 = true ∧ 0 < live.levels.length ∧ (withFace face1).waits (fun p => levelOf p == 0) = [] ∧
      (withFace face1).cycles (fun _ => true) = [] ∧
      (let s := withFace stuck2
       let sel := fun p => levelOf p == 0
       (∃ c ∈ s.cycles sel, c ≠ []) ∧ (∀ c ∈ s.cycles sel, seenCycle (s.level 0).waitSeen c = false) ∧
         (∀ c ∈ s.cycles (fun _ => true), seenCycle s.joinSeen c = false)) ∧
      (let s := (withFace stuck2).setLevel 0 { live.level 0 with
         waitSeen := ((withFace stuck2).cycles (fun p => levelOf p == 0)).flatMap cycleMark }
       ∃ c ∈ s.cycles (fun p => levelOf p == 0), seenCycle (s.level 0).waitSeen c = true) := by
  refine ⟨?_, ?_, ?_, ?_, ?_, ?_⟩ <;> decide +kernel

def chunk1 (dueBy : Nat) : TramChunk := { home := 1, layer := 2, chunk := 7, dueBy := dueBy, data := bytes 64 }
def tramming (dueBy : Nat) : State := { withFace (engines 4 { queue := [queued tramD 2] }) with trams := [chunk1 dueBy] }

theorem witness_TramsDeliver :
    (let s := tramming 1000000000
     faceWf 1 = true ∧ levelOf 0 = levelOf 1 ∧ driftOf 0 = driftOf 1 ∧ s.nextChunk 1 0 = some (chunk1 1000000000) ∧
       s.tramReaches 0 0 (posOf 1) (posOf 0) = true ∧ s.faceRuns 0 = true ∧ s.tramMover 0 2 7 = some 4 ∧
       s.tramDesc 0 4 2 7 = some (parseDesc tramD) ∧ (parseDesc tramD).dstRing = some 0 ∧ 0 < (s.face 0).rings.length ∧
       s.nextPlace 0 0 = some 0 ∧ s.bufferAt 0 0 0 < regBase ∧ (s.ringRoom 0 0 = true ∧ (s.ring 0 0).filling = none) ∧ s.now ≤ 1000000000 ∧
       (bytes 64).length ≤ (s.ringRec 0 0).skipBytes) ∧
      ((tramming 999999999).nextChunk 1 0 = some (chunk1 999999999) ∧ 999999999 < (tramming 999999999).now) ∧
      (let s : State := { withFace face1 with trams := [chunk1 0] }
       s.nextChunk 1 0 = some (chunk1 0) ∧ s.tramMover 0 2 7 = none) ∧
      (let m : TramMissed := { engine := 4, layer := 2, chunk := 7, dueBy := 0, bytes := 64 }
       let s := withFace { engines 4 { queue := [queued tramD 2] } with missed := [m] }
       s.faceRuns 0 = true ∧ s.tramDesc 0 4 2 7 = some (parseDesc tramD) ∧ (s.face 0).missed = [m] ∧ m.done = 0 ∧ s.ringRoom 0 0 = true ∧
         (s.ring 0 0).filling = none ∧ s.nextPlace 0 0 = some 0 ∧ (s.engine 0 4).stopped = false ∧ (parseDesc tramD).rateEn = false ∧
         s.spanError (parseDesc tramD).auxSrc m.bytes false = none ∧ s.poisonAt [((parseDesc tramD).auxSrc, m.bytes)] = none ∧
         s.bufferAt 0 0 0 < regBase) := by
  decide +kernel

/-- Two chunks of one source arrive in the order sent (R24): the second is not the next. -/
theorem test_tram_order :
    let s : State := { tramming 5 with trams := [chunk1 5, { chunk1 5 with chunk := 8 }] }
    s.nextChunk 1 0 = some (chunk1 5) ∧ ((s.chunkSeen (chunk1 5) 0).nextChunk 1 0).map (fun c => c.chunk) = some 8 ∧
      ((s.chunkSeen (chunk1 5) 0).nextChunk 1 2).map (fun c => c.chunk) = some 7 := by
  decide +kernel

theorem witness_IdleFacesGate :
    faceWf 2032 = true ∧ rung.quiet 0 = true ∧ (rung.face 0).lastWork + 1000 ≤ rung.now ∧
      (withFace (engines 2 { queue := [queued copyD 0] })).quiet 0 = false := by
  decide +kernel
/-! Motion, regions, the entropy coders, the block compressor. -/

def plane64 : Plane := { w := 64, h := 64, samples := [] }
def cold1 : ColdPlane := { num := 1, gen0 := some [plane64] }
def encF (st : Nat) : EncFrame := { chosen := true, inter := true, slices := [{ st := st }], source := [plane64] }
def encS (f : EncFrame) : Session := { act0 with frame := some f, cold := [cold1] }
def motioned (m : MotionEngine) : State := { withFace { face1 with motion := m } with sessions := [(5, encS (encF 1))] }
def loaded : MotionEngine := { busy := true, session := 5, columns := [-2, -1, 0, 1, 2].map (fun j => ((j % 6).toNat, j, [])) }
def sixteen : List BlockMotion := List.replicate 16 {}

theorem witness_MotionCommandsAct :
    (let s := motioned {}
     s.faceRuns 0 = true ∧ (s.face 0).motion.busy = false ∧ (s.ses 5).decode = false ∧ (s.ses 5).media = 1 ∧
       (s.ses 5).frame = some (encF 1) ∧ 0 < sliceCount (s.ses 5).header ∧ ((encF 1).slices.getD 0 {}).st = 1) ∧
      ((motioned loaded).motionFrame 0 = some (encS (encF 1), encF 1, hdr0) ∧ (encS (encF 1)).planes (1 + 0) = some [plane64] ∧
        (encF 1).searches = true ∧ ({ loaded with columns := [] } : MotionEngine).mayLoad (tileCount hdr0) (-2) = true ∧
        loaded.mayLoad (tileCount hdr0) 2 = true) ∧
      (loaded.tilesDone < tileCount hdr0 ∧ loaded.ready loaded.tilesDone = true) ∧
      ({ loaded with vectors := sixteen } : MotionEngine).tilesDone = tileCount hdr0 := by
  decide +kernel

def pkgR : ModelPkg :=
  { pkg0 with region := some { scoreT := 0, iouT := 0, maxKeep := 1, classes := 1, weights := [9], anchors := [(8, 8, 0, 0)] } }

theorem witness_RegionMapPaints :
    let s : State := { live with sessions := [(5, encS (encF 1))], models := [(0, { state := 3, pkg := pkgR })] }
    (s.ses 5).frame = some (encF 1) ∧ (s.pkg (s.ses 5).modelSlot).region = pkgR.region ∧ pkgR.region.isSome = true ∧
      (s.ses 5).decode = false ∧ (s.ses 5).media = 1 ∧ (encF 1).rateMap = none ∧ (∀ v ∈ [9], v < 16) ∧
      (s.ses 5).settings.weight < 16 := by
  decide +kernel

/-- Five blocks in a row under a box of weight 9 over the second and a focus box of weight 3 over the second and third: two blocks a byte,
the even one in bits [3:0] (R200). -/
theorem test_region_map :
    packMap (paintMap 80 16 [(16, 48, 0, 16, 3), (17, 18, 0, 1, 9)]) = [0x90, 0x03, 0x00] ∧
      mapValue [0x90, 0x03, 0x00] 1 = 9 ∧ mapValue [0x90, 0x03, 0x00] 2 = 3 := by decide +kernel

/-- A band of the skip map of a frame 64 pixels wide takes 4 bytes, block 4m in bits [1:0] (R213). -/
theorem test_skip_map :
    putBand [] 64 1 (List.replicate 15 0 ++ [1]) = [0xAA, 0xAA, 0xAA, 0xAA, 0, 0, 0, 0x40] ∧
      skipClass [0xAA, 0xAA, 0xAA, 0xAA, 0, 0, 0, 0x40] 31 = 1 ∧ skipClass [] 3 = 2 ∧
      (List.replicate 16 2).length = 64 / 4 := by decide +kernel

/-- A coder descriptor of session 5, slice 0: DATA in lots 0 and 1, ELEM in 2 and 3, and for a decode YHAT in 4 and 5. -/
def coderD (decode : Bool) (n : Nat) : Bytes :=
  natLe 4 (packBits [(5, 20), (b2n decode, 1)]) ++ zeros 4 ++ natLe 4 (packBits [(0, 12), (1, 1), (0, 3), (1, 6)]) ++
    natLe 2 (2 * 256) ++ natLe 2 (2 * 256 + 2) ++ natLe 2 (if decode then 2 * 256 + 4 else 0) ++ zeros 2 ++ natLe 4 n ++ natLe 8 77
def jobE : CoderJob := { face := 0, desc := coderD false 0, seq := 0 }
/-- A decode job with the stream of an empty slice: what the range coder's end writes when nothing was coded (R70). -/
def jobD : CoderJob := { face := 0, desc := coderD true 4, seq := 1, data := [0, 0, 0, 0], tally := crc32c [0, 0, 0, 0] }
def coding (v : CoderCtx) : State :=
  let l := Level.zero
  { rung with levels := (List.replicate 4 { l with inService := true }).set 0
                { l with inService := true, coders := l.coders.set 15 [v, {}, {}, v] },
              sessions := [(5, encS { encF 1 with deadline := 77 })] }

/-- A decode session with an inter frame open. -/
def codingD : State :=
  { coding {} with sessions := [(5, { act0 with decode := true, dec := { frames := [{ hdr := hdr0, inter := true, deadline := 77, slices := [{ data := zeros 4 }] }] } })] }

/-- A model whose slices code one tensor by channel tables. -/
def coded (v : CoderCtx) : State :=
  { coding v with models := [(0, { state := 3, pkg := { pkg0 with inter := [{ tensor := 0, prior := 1 }] } })] }

theorem witness_CoderCommandsAct :
    (let s := coding {}
     s.faceRuns 0 = true ∧ s.coderOk 0 (coderD false 0) = true ∧ codingD.coderOk 0 (coderD true 4) = true ∧ s.coderOk 0 (zeros 31) = false ∧
       0 < s.levels.length ∧ s.levelUp 0 = true ∧ coderHead ((List.replicate 300 jobE).take 256) = some jobE ∧ s.coderReady jobE = true ∧
       s.freeCtx 0 = some (0, 0)) ∧
      ((coding { job := some jobE, filling := true }).ctxAt 0 15 3).job = some jobE ∧ (parseCoder jobE.desc).decode = false ∧
      (parseCoder jobD.desc).decode = true ∧ 4 ≤ (parseCoder jobD.desc).bytes ∧ 4 ≤ jobD.data.length ∧
      (decStart (jobD.data.take (parseCoder jobD.desc).bytes)).isSome = true ∧
      ((coding { job := some jobE }).ctxAt 0 15 0).done = jobElems ((coding {}).jobTensors (parseCoder jobE.desc)) ∧
      ((coding { job := some jobD, range := { read := 4 } }).ctxAt 0 15 3).range.read = (parseCoder jobD.desc).bytes ∧
      (crc32c jobD.data = jobD.tally ∧ crc32c [1, 0, 0, 0] ≠ jobD.tally) ∧
      (let v : CoderCtx := { job := some jobE, range := encStart }
       v.lotFill 0 + v.close.grown v ≤ (coding v).lotCap 0 15 0 0) ∧
      (let v : CoderCtx := { job := some { jobE with desc := zeros 32 }, range := encStart }
       (coding v).lotCap 0 15 0 0 < v.lotFill 0 + v.close.grown v) ∧
      ({ job := some jobD, malformed := true } : CoderCtx).malformed = true ∧
      ((coding {}).arriveRecords 0 15 [(3, 0, 0)]).switchTo 0 15 = none ∧
      ((coded { job := some jobD, next := 1 }).arriveRecords 0 15 []).switchTo 0 15 ≠ none := by
  decide +kernel

/-- A compressor descriptor of session 5 (R310): OP, MODE 1, blocks of one segment. -/
def blkD (op : Nat) : Bytes :=
  natLe 4 (packBits [(op, 2), (0, 2), (1, 3), (0, 13), (1, 7)]) ++ natLe 4 5 ++ natLe 8 0 ++ natLe 8 0x10000 ++ natLe 8 1024 ++ natLe 8 4096 ++
    zeros 16 ++ natLe 4 0 ++ natLe 4 1
def workS : Work := { ctx := .session 5, deadline := 9 }
def blkJ (op : Nat) : BlkJob := { face := 0, ctx := .session 5, desc := blkD op, key := 9 }
def blkS (q : List BlkJob) (us : List (Option BlkJob)) : State :=
  { rung with levels := (List.replicate 4 { Level.zero with inService := true }).set 0
                { Level.zero with inService := true, blkQ := q, blkUnits := us } }

theorem witness_CompressorCommandsAct :
    (∀ op ∈ [1, 2, 3], ({ rung with mem := storeOf 0 (blkD op), sessions := [(5, { act0 with frame := some { deadline := 9 } })] } : State).canBlk 0 0 op workS = true ∧ blkOk (blkD op) = true) ∧
      blkOk (blkD 0) = false ∧
      (let s := blkS [blkJ 1] (List.replicate 4 none)
       s.levelUp 0 = true ∧ blkHead ((s.level 0).blkQ.take 64) = some (blkJ 1) ∧ s.freeBlkUnit 0 = some 0) ∧
      (∀ op ∈ [1, 2, 3], ((blkS [] [none, none, none, some (blkJ op)]).level 0).blkUnits.getD 3 none = some (blkJ op) ∧
        (parseBlk (blkJ op).desc).op = op) := by
  decide +kernel

theorem witness_ZeroCompressionRoundTrip :
    (3 ≤ 4096 ∧ ([1, 0, 2] : Bytes).length = 3 * zcElem true ∧ zcExpand true 3 (zcPage (zcElem true) [1, 0, 2]) = some [1, 0, 2]) ∧
      ([1, 0, 0, 0, 0, 9] : Bytes).length = 3 * zcElem false ∧
      zcExpand false 3 (zcPage (zcElem false) [1, 0, 0, 0, 0, 9]) = some [1, 0, 0, 0, 0, 9] := by
  decide +kernel
/-! Sessions as frames run, received streams, the stream ports. -/

/-- Audio of one channel and one sample a frame, model 7 version 1: one plane of 4 bytes. -/
def hdrA : Bytes :=
  [2, 1, 0, 0, 0, 0, 0, 0, 0, 0, 0, 7, 0, 1, 0, 0, 0, 0, 0, 0, 0, 0, 0, 0, 0, 0, 62, 128, 1, 0, 0, 1, 0, 0, 0, 0, 0, 0, 0, 0]
def audio0 : Session := { act0 with media := 2, header := hdrA }
def pic4 : Picture := { num := 3, pts := 11, bytes := [(0, 0, 1), (0, 1, 2), (0, 2, 3), (0, 3, 4)], doneAt := some 0 }
def frameE : EncFrame := { slices := [{}], deadline := 1000000100 }
def sub0 : Session := { act0 with subframe := true, frame := some frameE, ingest := [{ num := 3, bands := [(0, 1000000000)] }] }
def doneF : EncFrame := { slices := [{ st := 2 }], doneOrder := [0], headerSent := true, chosen := true, deadline := 1000000000 }

theorem witness_EncodeSessionsRun :
    let s := sesIn act0
    s.sesLive 5 = true ∧ s.sesLive 0xFFFFF = true ∧ (s.ses 5).decode = false ∧
      ({ act0 with state := .opening } : Session).start0 ≤ s.now ∧
      (({ act0 with state := .resuming } : Session).start0 ≤ s.now ∧ (sesIn { act0 with decode := true, state := .opening }).sesLive 5 = true) ∧
      (act0.frame = none ∧ act0.startOf act0.frameIndex ≤ s.now) ∧
      ((s.beforeFrame 5).ses 5).closesNow = false ∧
      (((sesIn { act0 with closeAsked := some { launch := 0 } }).beforeFrame 5).ses 5).closesNow = true ∧
      (let y := fun (x : Session) => (((sesIn x).beforeFrame 5).ses 5).applySets 0 |>.countSkips 0
       (y { act0 with subframe := true }).subframe = true ∧ (y act0).subframe = false ∧ (y act0).frame = none ∧ (y act0).ready 0 = [] ∧
         ((y { audio0 with ingest := [pic4] }).ready 0).getLast? = some pic4 ∧ (y audio0).startOf (y audio0).frameIndex = 0 ∧ pic4.doneBy 0 = true) ∧
      ((frameE.slices.getD 0 {}).st = 0 ∧ frameE.start ≤ s.now ∧ sub0.framePicture frameE = some { num := 3, bands := [(0, 1000000000)] } ∧
        ({ num := 3, bands := [(0, 1000000000)] } : Picture).bandTime 0 = some 1000000000 ∧
        s.now + s.bandBudget sub0 ≤ frameE.deadline ∧ ({ frameE with deadline := 1000000099 } : EncFrame).deadline < s.now + s.bandBudget sub0) ∧
      (doneF.ckpt = false ∧ doneF.deadline ≤ s.now ∧ doneF.chosen = true) ∧
      (doneF.nextSlice false = some 0 ∧ doneF.nextSlice true = some 0 ∧ s.now ≤ doneF.deadline ∧
        act0.egress.dests.any (fun d => !d.skipping) = true) := by
  decide +kernel

def unit1 : HeldUnit := { bytes := usfUnit 5 0 [], since := 0, holds := [0] }
def sending : Session := { act0 with egress := { dests := [{}], units := [unit1] } }

theorem witness_SessionsSendAndEnd :
    let s := sesIn sending
    (({ act0 with state := .parking } : Session).closeAsked = none ∧
        ({ act0 with state := .parking, closeAsked := some { launch := 0 } } : Session).closeAsked = some { launch := 0 }) ∧
      closing0.egress.units = [] ∧ closing0.state = .closing ∧ s.sesLive 5 = true ∧ sending.decode = false ∧ sending.state ≠ .free ∧
      0 < sending.egress.dests.length ∧ ((s.groupOf sending).dests.getD 0 {}).portSel < 2 ∧
      s.links.streamUp.getD ((s.groupOf sending).dests.getD 0 {}).portSel false = true ∧
      (usfPayloads (unitSpace ((s.port 0).getD {}).mtu 1) (sending.egress.units.filter (fun u => u.holds.contains 0))).1 ≠ [] ∧
      (∀ u ∈ (usfPayloads (unitSpace ((s.port 0).getD {}).mtu 1) (sending.egress.units.filter (fun u => u.holds.contains 0))).1,
        u.tallyFails = false) ∧
      (({ sending with closingAt := 0 } : Session).closingAt + 1000000 ≤ s.now ∧ sending.egress.units ≠ []) ∧
      (sending.egress.dests.getD 0 {}).skipping = false ∧
      unit1.since + 1000 * ((s.groupOf sending).dests.getD 0 {}).holdAge < s.now ∧
      (let x : Session := { act0 with decode := true, closeAsked := some { launch := 1000000000 } }
       x.decode = true ∧ x.state = .active ∧ x.closeAsked = some { launch := 1000000000 } ∧ launchGrain 1000000000 ≤ s.now ∧ x.dec.closing = false ∧
         x.dec.frames = []) := by
  decide +kernel

def dec0 : Session := { act0 with decode := true }
def badCheck (u : Bytes) : Bytes := u.set (u.length - 1) (u.getD (u.length - 1) 0 + 1)
def version2 : Bytes :=
  let b := natBe 1 0x25 ++ zeros 7
  b ++ natBe 4 (crc32c b)
def lateF : DecFrame := { deadline := 1000000000 }
def finalF : DecFrame := { closed := true, bound := true, slices := [{ st := 2 }] }

theorem witness_ReceivedUnitsAct :
    let s := sesIn dec0
    s.sesLive 5 = true ∧ (s.ses 5).state = .active ∧ (s.ses 5).decode = true ∧
      (usfType (usfUnit 1 0 (zeros 40)) = 1 ∧ usfType (usfUnit 2 0 (zeros 24)) = 2 ∧ usfType (usfUnit 3 0 (zeros 8)) = 3 ∧
        usfType (usfUnit 5 0 []) = 5 ∧ usfDefined (usfUnit 6 0 []) = false) ∧
      usfSized (zeros 11) = false ∧
      (usfSized (badCheck (usfUnit 1 0 (zeros 40))) = true ∧ usfCheckOk (badCheck (usfUnit 1 0 (zeros 40))) = false) ∧
      (usfSized version2 = true ∧ usfCheckOk version2 = true ∧ usfVersion version2 ≠ 1 ∧ usfType version2 = 5) ∧
      (usfVersion (usfUnit 6 0 []) = 1 ∧ usfCheckOk (usfUnit 6 0 []) = true ∧ usfSized (usfUnit 6 0 []) = true) ∧
      (usfDefined (usfUnit 2 0 []) = true ∧ usfLengthOk (usfUnit 2 0 []) = false ∧ usfSized (usfUnit 2 0 []) = true) ∧
      (usfLengthOk (usfUnit 2 0 (zeros 24)) = true ∧ usfCheckOk (usfUnit 2 0 (zeros 24)) = true) ∧
      (let u := usfUnit 4 0 (zeros 20)
       usfType u = 4 ∧ usfSized u = true ∧ usfCheckOk u = true ∧ usfVersion u = 1 ∧ usfLengthOk u = true ∧
         act0.acceptsReport true (usfPayload u) = true ∧ act0.acceptsReport false (usfPayload u) = false) ∧
      ({ dec0 with dec := { frames := [lateF] } } : Session).openDec = some lateF ∧ lateF.deadline ≤ s.now ∧ finalF.final = true := by
  decide +kernel

/-- A frame of port 0 with its FCS. -/
def ether (b : Bytes) : Bytes := b ++ natLe 4 (crcFcs b)
def pauseB : Bytes := ether (natBe 6 0x0180C2000001 ++ zeros 6 ++ natBe 2 0x8808 ++ natBe 2 1 ++ zeros 44)
def otherB : Bytes := ether (natBe 6 0x020000000009 ++ zeros 54)
def strayB : Bytes := ether (natBe 6 0 ++ zeros 6 ++ natBe 2 0x1234 ++ zeros 46)
/-- A port whose addresses a test can write. -/
def ported : State :=
  { live with boot := { live.boot with plan := some { plan0 with ports := [{ ipv4 := 0x0A000001, prefix4 := 24, mtu := 1500, ctrlUdp := 7000, mediaUdp := 7001 }, {}] } } }
/-- An ARP request for the port's address. -/
def arpB : Bytes :=
  ether (natBe 6 0xFFFFFFFFFFFF ++ natBe 6 0x020000000009 ++ natBe 2 0x0806 ++ natBe 2 1 ++ natBe 2 0x0800 ++ natBe 1 6 ++ natBe 1 4 ++
    natBe 2 1 ++ natBe 6 0x020000000009 ++ natBe 4 0x0A000009 ++ zeros 6 ++ natBe 4 0x0A000001 ++ zeros 18)
/-- An ARP reply from a neighbour of address 10.0.0.9. -/
def arpR : Bytes :=
  ether (zeros 6 ++ natBe 6 0x020000000009 ++ natBe 2 0x0806 ++ natBe 2 1 ++ natBe 2 0x0800 ++ natBe 1 6 ++ natBe 1 4 ++
    natBe 2 2 ++ natBe 6 0x020000000009 ++ natBe 4 0x0A000009 ++ zeros 6 ++ natBe 4 0x0A000001 ++ zeros 18)
/-- That port waiting for the neighbour's address. -/
def asking : State :=
  { live with boot := { live.boot with plan := some { plan0 with ports := [{ ipv4 := 0x0A000001, prefix4 := 24, gateway4 := 0x0A000009, mtu := 1500, ctrlUdp := 7000, mediaUdp := 7001 }, {}] } } }
def soundB (b : Bytes) : Bool := decide (4 ≤ b.length) && leAt b (b.length - 4) 4 == crcFcs (b.take (b.length - 4))

/-- What becomes of these frames does not hang on the values a reply leaves open. -/
theorem fate_ignore (t i : Nat) : live.frameFate 0 otherB t i = .ignore := by
  have h : (!bitAt (beAt otherB 0 1) 0 && beAt otherB 0 6 != live.macOf 0) = true := by decide +kernel
  simp only [State.frameFate, h, if_pos]
theorem fate_drop (t i : Nat) : live.frameFate 0 strayB t i = .drop := by
  have h : (!bitAt (beAt strayB 0 1) 0 && beAt strayB 0 6 != live.macOf 0) = false := by decide +kernel
  have h2 : beAt strayB 12 2 = 0x1234 := by decide +kernel
  simp [State.frameFate, h, h2, State.takeType]
theorem fate_answer (t i : Nat) : ∃ b, ported.frameFate 0 arpB t i = .answer 0x0806 b := by
  have h : (!bitAt (beAt arpB 0 1) 0 && beAt arpB 0 6 != ported.macOf 0) = false := by decide +kernel
  have h2 : beAt arpB 12 2 = 0x806 := by decide +kernel
  simp [State.frameFate, h, h2, State.takeType]
  exact ⟨_, by rfl⟩

theorem fate_learn (t i : Nat) : asking.frameFate 0 arpR t i = .learn (v4In6 0x0A000009) 0x020000000009 := by
  have h : (!bitAt (beAt arpR 0 1) 0 && beAt arpR 0 6 != asking.macOf 0) = false := by decide +kernel
  have h2 : beAt arpR 12 2 = 0x806 := by decide +kernel
  simp only [State.frameFate, h, h2, State.takeType]
  rfl

theorem witness_StreamPortsReceive :
    live.links.streamUp.getD 1 false = true ∧ soundB (zeros 64) = false ∧
      (soundB (ether (zeros 59)) = true ∧ (ether (zeros 59)).length < 64) ∧
      (soundB pauseB = true ∧ 64 ≤ pauseB.length ∧ pauseB.length ≤ 9222 ∧ isPause pauseB = true) ∧
      (soundB otherB = true ∧ isPause otherB = false ∧ 64 ≤ otherB.length) ∧
      (soundB strayB = true ∧ isPause strayB = false ∧ 64 ≤ strayB.length) ∧
      (soundB arpB = true ∧ isPause arpB = false ∧ 64 ≤ arpB.length) ∧
      (soundB arpR = true ∧ isPause arpR = false ∧ 64 ≤ arpR.length) ∧
      live.boot.warmCause = none ∧ (sesIn dec0).usfTarget 0 7000 0 net0 = none ∧ (sesIn dec0).usfTarget 0 7001 0 net0 = some 5 ∧
      (4 ≤ (zeros 4).length ∧ bits (beAt (zeros 4) 0 4) 30 2 = 0) ∧ bits (beAt (natBe 4 0x40000000) 0 4) 30 2 ≠ 0 ∧
      (sesIn act0).boundTo 0 7001 0 = some 5 ∧ (zeros 31).length < 32 ∧ 32 ≤ (zeros 32).length ∧
      ({ act0 with ingest := [{}] } : Session).picture (beAt (zeros 32) 0 4) = some {} := by
  decide +kernel
/-! Rounds, faults, bring-up, resets, hot plug, time, crosscut. -/

def round0 : Round := { swapRound with armed := false }
def ckptRound : Round :=
  { id := 3, flip := .checkpoint 5, armed := true, armedAt := 0, timed := none, deadline := 1000000000, doneAt := none, decided := false,
    members := [{ die := 0 }, { die := 0, st := 1 }], single := false, hold := false }
def rounding (rs : List Round) : State := { sesIn act0 with rounds := rs }

theorem witness_RoundsRun :
    ((rounding [round0]).round 0 = some round0 ∧ round0.armed = false ∧ round0.hold = false ∧
        ((rounding [round0]).preemptFor .swap).roundRoom Flip.swap.controller = true ∧
        ((rounding [round0]).preemptFor .swap).keysHeld (((rounding [round0]).preemptFor .swap).flipKeys .swap) = false ∧
        ((rounding [round0, { swapRound with id := 1 }]).preemptFor .swap).keysHeld
          (((rounding [round0, { swapRound with id := 1 }]).preemptFor .swap).flipKeys .swap) = true) ∧
      ((rounding [ckptRound]).round 3 = some ckptRound ∧ ckptRound.members[0]? = some { die := 0 } ∧
        (rounding [ckptRound]).boot.warmCause = none ∧ (rounding [ckptRound]).memberFails ckptRound 0 = false) ∧
      ({ rounding [ckptRound] with boot := { live.boot with lpddrFaulty := [0] } } : State).memberFails ckptRound 0 = true ∧
      (({ swapRound with timed := some 1000002000 } : Round).timed = some 1000002000 ∧ 1000002000 ≤ live.now + 2000 ∧
        (∀ m ∈ swapRound.members, m.st = 1) ∧
        ¬ ∀ m ∈ ({ swapRound with members := [{}] } : Round).members, m.st = 1) ∧
      (({ swapRound with timed := some 1000000000, decided := true } : Round).decided = true ∧ 1000000000 ≤ live.now) ∧
      (Flip.swap.byTime = true ∧ (Flip.checkpoint 5).byTime = false) ∧
      launchGrain (999999897 + 100) ≤ live.now ∧ launchGrain (999998000 + 2000) ≤ live.now ∧
      (ckptRound.doneAt = none ∧ ckptRound.deadline ≤ live.now) := by
  decide +kernel

theorem witness_RoundsFlipTheirMembers :
    (sesIn act0).ses 5 = act0 ∧ act0.state ≠ .free ∧ swapRound ∈ (rounding [swapRound]).rounds ∧ swapRound.armed = true ∧
      (({ live with models := [(0, { state := 2 })] } : State).model 0).state = 2 := by
  decide +kernel

def failedFace : Face := { face1 with failed := true, failedAt := 900000000 }

theorem witness_FaultsAct :
    live.canFail 0 = true ∧
      (let s := withFace failedFace
       (s.face 0).failed = true ∧ (s.face 0).autoDone = false ∧ (s.face 0).inReset = false ∧
         (s.face 0).failedAt + 100000000 ≤ s.now ∧ (s.level 0).parked = 0 ∧ s.resetBusy 2 0 = false ∧ s.boot.hfRunning = true) ∧
      ((withFace { face1 with inReset := true }).face 0).inReset = true ∧
      (live.levelUp 3 = true ∧ (live.level 3).inService = true ∧ live.field (drfReg 3 15 0x10) 16 1 = 0) ∧
      live.lpddrOk 15 = true ∧ eccWf (.faceStore 2032) = true ∧ live.pwr.pwrgd = true ∧
      (0x010000000000 ≤ 0x013FFFFFFFFF ∧ 0x013FFFFFFFFF < 0x014000000000 ∧ live.levelUp (dramLevel 0x013FFFFFFFFF) = true) ∧
      live.levelUp (deviceOf 0xFFFFFFFFFF / 4) = true ∧ live.phasesLeft 139 1 = 1 ∧
      ((live.setRegNat (cmdReg 0xA24) (2 ^ 31)).field (cmdReg 0xA24) 31 1 = 1 ∧ live.field (cmdReg 0xA24) 31 1 = 0) ∧
      4 < live.pwr.hot.length + 1 ∧ (1099 : Int) < 1100 ∧
      (let s : State := { live with pwr := { live.pwr with hot := [true, false, false, false] } }
       s.pwr.hot.getD 0 false = true ∧ (s.level 0).dvfs < 9 ∧ s.pwr.lastStep.getD 0 0 + 10000000 ≤ s.now ∧
         (s.level 0).dvfsNext = none ∧ 0 < s.levels.length) ∧
      (let s := live.setLevel 1 { live.level 1 with thermal := true, dvfs := 1 }
       s.pwr.hot.getD 1 false = false ∧ (s.level 1).thermal = true ∧ s.pwr.lastStep.getD 1 0 + 100000000 ≤ s.now ∧
         ((s.level 1).phaseLim = false ∧ (live.setField (cmdReg 0xA10) 0 2 3).phasesLeft 0 6 = 4) ∧ 0 < (s.level 1).dvfs ∧ (s.level 1).inService = true ∧ (s.level 1).dvfsNext = none) ∧
      (live.level 2).thermal = false ∧
      ((live.setLevel 1 { live.level 1 with dvfsNext := some 9 }).level 1).dvfsNext = some 9 ∧
      (live.rot.lastKick + 100000000 ≤ live.now ∧ live.resetBusy 1 0 = false) := by
  decide +kernel

/-- A Plan container with its required sections (R356): START, two ports, a survey policy, and nothing else in it. -/
@[irreducible] def contPlan0 : Bytes :=
  let start := natLe 2 1 ++ zeros 2 ++ natLe 4 1000 ++ zeros 16 ++ natLe 4 65536 ++ zeros 36
  let port := zeros 44 ++ natLe 2 1280 ++ natLe 2 7000 ++ natLe 2 7001 ++ zeros 14
  let net := port ++ port ++ zeros 4
  let survey := zeros 6 ++ natLe 1 2 ++ natLe 1 2 ++ natLe 1 1 ++ natLe 1 1 ++ zeros 1 ++ natLe 1 1 ++ zeros 52
  let entry := fun (type off len : Nat) (b : Bytes) => natLe 2 type ++ natLe 2 0 ++ natLe 4 off ++ natLe 4 len ++ natLe 4 (crc32c b)
  let header := contMagic ++ natLe 1 1 ++ natLe 1 1 ++ natLe 2 7 ++ natLe 4 6720 ++ natLe 4 512 ++ natLe 4 1 ++ natLe 2 1 ++
    natLe 2 0 ++ natLe 4 0x8600 ++ zeros 36
  header ++ entry 1 192 64 start ++ entry 3 192 0 [] ++ entry 4 192 0 [] ++ entry 5 192 0 [] ++ entry 6 192 0 [] ++
    entry 7 256 132 net ++ entry 8 448 64 survey ++ zeros 16 ++ start ++ net ++ zeros 60 ++ survey ++ sigBlock 1 1
/-- Flash with an image at an offset. -/
@[irreducible] def flashOf (base : Nat) (b : Bytes) : Memory := spPuts flashUnlisted [] base b
/-- Flash as a start reads it with a valid directory whose bits are v (R350). -/
def dirOf (v : Nat) : Bytes :=
  let b := [0x55, 0x4C, 0x44, 0x52] ++ zeros 4 ++ natLe 1 v ++ zeros 51
  b ++ natLe 4 (crc32c b)
def booting (flash : Memory) : State :=
  { keyed handle1 with
    regs := [(cmdReg 0x900, 5)], boot := { live.boot with plan := none }, flash := flash }

theorem plan_checked (s : State) (hr : s.rot.fuses = { rootDigest := sha3 Config.rootKey }) (h0 : s.rot.svnPlan = 0)
    (hK : Config.rootKey = dsaKey) (hv : Signed 1 1 (contDigest contPlan0)) (hp : Config.programsOk [] = true)
    (hc : Config.programCommands [] = []) : s.checkPlan contPlan0 = 0 := by
  have e := checkForm_zero s contPlan0 1 1 (by rw [hr]) hK hv (by decide +kernel) (by decide +kernel) (by rw [hr]; decide +kernel)
    (by simp [h0]) (by decide +kernel) (by decide +kernel)
  have e4 : (contSection contPlan0 4).getD [] = [] := by decide +kernel
  have e5 : (contSection contPlan0 5).getD [] = [] := by decide +kernel
  have em : planModels contPlan0 = [] := by decide +kernel
  have eg : (contPlan contPlan0 0).groups = [] := by decide +kernel
  have eo : (let p := contPlan contPlan0 0
    decide (1 ≤ p.ceLimit) && decide (1000 ≤ p.jobSlack) && decide (p.jobSlack ≤ 1000000000) && p.workOff % 65536 == 0 &&
    p.workBytes % 65536 == 0 && decide (65536 ≤ p.workBytes) && decide (p.workOff + p.workBytes ≤ 0xBD000000) &&
    p.rings.all (fun f => f.rings.all ringOk) && p.ports.all portOk && p.groups.all groupOk && surveyOk p.survey) = true := by
    decide +kernel
  simp only [State.checkPlan, e, e4, e5, em, planOk, planCmds, eo, hp, hc]
  have er : recordsOf 272 [] = [] := by decide
  simp [State.poolFits, State.relaysFit, eg, er]
theorem gets_ext {α : Type} (d : α) (m : List (Nat × α)) (b : List α) :
    ∀ a, (∀ i, i < b.length → spGet d m (a + i) = b.getD i d) → spGets d m a b.length = b := by
  induction b with
  | nil => intro a _; rfl
  | cons v r ih =>
    intro a h
    have h0 := h 0 (by simp)
    have hr := ih (a + 1) (fun i hi => by
      have := h (i + 1) (by simpa using hi)
      rw [show a + 1 + i = a + (i + 1) by omega]; simpa using this)
    simp only [List.length_cons, spGets, hr]
    simpa using h0

theorem flash_prefix (s : State) (base n : Nat) (b : Bytes) (hf : s.flash = flashOf base b) (hn : n ≤ b.length) :
    s.readFlash base n = b.take n := by
  have h := gets_ext flashUnlisted s.flash (b.take n) base (fun i hi => by
    have hi' : i < b.length := by simp at hi; omega
    rw [hf, flashOf, spGet_spPuts_inside _ _ _ _ _ hi']
    simp at hi
    simp [List.getD_eq_getElem?_getD, hi.1])
  rwa [List.length_take, Nat.min_eq_left hn] at h

theorem flash_erased (s : State) (base a n : Nat) (b : Bytes) (hf : s.flash = flashOf base b) (h : a + n ≤ base) :
    s.readFlash a n = List.replicate n 0xFF := by
  have h' := gets_ext flashUnlisted s.flash (List.replicate n (0xFF : Byte)) a (fun i hi => by
    simp at hi
    rw [hf, flashOf, spGet_spPuts_outside _ _ _ _ _ (by omega), spGet_nil]
    simp [List.getD_eq_getElem?_getD, hi, flashUnlisted])
  rwa [List.length_replicate] at h'

/-- A container in flash is read back whole. -/
theorem flash_container (s : State) (base limit : Nat) (b : Bytes) (hf : s.flash = flashOf base b) (h4 : (b.take 64).take 4 = contMagic)
    (hl : leAt (b.take 64) 8 4 = b.length) (hm : 64 ≤ b.length ∧ b.length ≤ limit) : s.flashContainer base limit = b := by
  unfold State.flashContainer
  rw [flash_prefix s base 64 b hf hm.1]
  simp only [h4, if_pos, hl, Nat.min_eq_left hm.2]
  rw [flash_prefix s base _ b hf (Nat.le_refl _), List.take_length]

/-- With no valid directory copy a start uses slot 0 and may fall back (R350). -/
theorem directory_none (s : State) (base : Nat) (b : Bytes) (hf : s.flash = flashOf base b) (h : 0x10040 ≤ base) : s.directory = 4 := by
  have h0 : s.dirValid 0 = false := by
    unfold State.dirValid
    rw [flash_erased s base _ 64 b hf (by omega)]
    decide
  have h1 : s.dirValid 1 = false := by
    unfold State.dirValid
    rw [flash_erased s base _ 64 b hf (by omega)]
    decide
  simp [State.directory, State.dirCopy, h0, h1]

theorem plan_in_flash (n : Nat) :
    (booting (flashOf (planBase n) contPlan0)).flashContainer (planBase n) 0x7000000 = contPlan0 :=
  flash_container (booting (flashOf (planBase n) contPlan0)) (planBase n) 0x7000000 contPlan0 (Eq.refl (flashOf (planBase n) contPlan0))
    (by decide +kernel) (by decide +kernel) (by decide +kernel)

def xctLive : State := { live with regs := [(cmdReg 0x900, 9), (cmdReg 0xC00, 0xFE)] }
def fused0 : State := { booting [] with rot := { live.rot with fuses := { fusedBad := [{ kind := 1, index := 5 }] } } }
def coldReset : ActiveReset := { width := 0, unit := 0, since := 0, auto := false, begun := true, cause := 1 }
def starting (phase : Nat) (done : List Nat) : State :=
  { live with
    regs := [(cmdReg 0x900, BitVec.ofNat 32 phase)], resets := [coldReset],
    boot := { live.boot with memDone := done }, levels := List.replicate 4 Level.zero }

/-- A Plan container passes where the root key is the tests' (log entry 7) and the check of its command streams (16) accepts. -/
theorem witness_BringUpRowsAct (hK : Config.rootKey = dsaKey) (hv : Signed 1 1 (contDigest contPlan0)) (hp : Config.programsOk [] = true)
    (hc : Config.programCommands [] = []) :
    (({ State.reset with pwr := { State.reset.pwr with pwrgd := true } } : State).pwr.pwrgd = true ∧ State.reset.phase ≤ 1 ∧
        State.reset.boot.warmCause = none ∧ State.reset.boot.hfRunning = false) ∧
      (let s := booting (flashOf (planBase 0) contPlan0)
       s.boot.hfRunning = true ∧ s.boot.plan = none ∧ 2 ≤ s.phase ∧ s.phase ≤ 5 ∧ bits s.directory 1 1 = 0 ∧
         s.checkPlan (s.flashContainer (planBase 0) 0x7000000) = 0) ∧
      (let s := booting (flashOf 0 (dirOf 0))
       bits s.directory 1 1 = 0 ∧ bitAt s.directory 2 = false ∧ s.checkPlan (s.flashContainer (planBase 0) 0x7000000) ≠ 0) ∧
      (let s := booting (flashOf (planBase 1) contPlan0)
       bits s.directory 1 1 = 0 ∧ bitAt s.directory 2 = true ∧ s.checkPlan (s.flashContainer (planBase 0) 0x7000000) ≠ 0 ∧
         (s.setPlanErr (s.checkPlan (s.flashContainer (planBase 0) 0x7000000))).checkPlan
           (s.flashContainer (planBase 1) 0x7000000) = 0) ∧
      ((starting 4 [0, 1, 2]).levelWaits 3 = true ∧ (starting 4 []).phase = 4 ∧
        (let s : State := { starting 9 [] with resets := [{ coldReset with width := 1 }] }
         s.levelWaits 3 = true ∧ 9 ≤ s.phase)) ∧
      ((starting 3 []).ucieTrains 7 = true ∧ (starting 6 []).ucieTrains 23 = true ∧ (starting 3 []).links.ucie.getD 7 0 = 0 ∧
        (starting 6 []).xctTrains 3 = true) ∧
      ((starting 7 [0, 1, 2, 3]).boot.memDone ≠ [] ∧ (List.range 4).any (starting 7 [0, 1, 2, 3]).levelWaits = false ∧
        (starting 7 [0, 1, 2, 3]).phase = 7 ∧ (starting 7 [0, 1, 2, 3]).boot.sounded = false) ∧
      (let s : State := { starting 7 [3] with levels := live.levels, boot := { live.boot with memDone := [3], sounded := true } }
       s.boot.memDone ≠ [] ∧ s.boot.memDone.all (fun l => (s.level l).inService || !s.levelFit l) = true ∧ s.phase = 7 ∧ s.boot.sounded = true) ∧
      ({ xctLive with links := { live.links with xct := [{ nbrSeen := true, dataset := [0, 0, 0, 0, 0, 1] }] } } : State).timeRule = (false, false) ∧
      (starting 8 []).phase = 8 ∧
      (let s : State := { live with boot := { live.boot with surveyDue := true } }
       s.boot.surveyDue = true ∧ 9 ≤ s.phase ∧ s.phase ≤ 11) ∧
      (let s : State := { live with links := { live.links with streamUp := [false, true], linksStart := 500000000 } }
       s.links.linksStart + 500000000 ≤ s.now ∧ s.links.streamUp.getD 0 false = false) := by
  have hq : ∀ f n, ((booting f).setPlanErr n).rot.fuses = { rootDigest := sha3 Config.rootKey } ∧ ((booting f).setPlanErr n).rot.svnPlan = 0 :=
    fun _ _ => ⟨rfl, rfl⟩
  have hr : ∀ f, (booting f).rot.fuses = { rootDigest := sha3 Config.rootKey } := fun _ => rfl
  refine ⟨?_, ⟨?_, ?_, ?_, ?_, ?_, ?_⟩, ⟨?_, ?_, ?_⟩, ⟨?_, ?_, ?_, ?_⟩, ?_⟩
  case refine_6 => rw [directory_none _ _ contPlan0 rfl (by decide)]; decide
  case refine_7 => rw [plan_in_flash 0]; exact plan_checked _ (hr _) rfl hK hv hp hc
  case refine_11 => rw [directory_none _ _ contPlan0 rfl (by decide)]; decide
  case refine_12 => rw [directory_none _ _ contPlan0 rfl (by decide)]; decide
  case refine_13 =>
    rw [State.flashContainer, flash_erased _ (planBase 1) _ 64 contPlan0 rfl (by decide), if_neg (by decide)]
    rw [State.checkPlan, State.checkForm, if_pos (by decide)]
    decide
  case refine_14 => rw [plan_in_flash 1]; exact plan_checked _ (hq _ _).1 (hq _ _).2 hK hv hp hc
  all_goals decide +kernel
@[irreducible] def contHf : Bytes := cont 3 0x301 3

theorem headframe_found (s : State) (hf : s.flash = flashOf (hfBase 0) contHf) (hr : s.rot.fuses = { rootDigest := sha3 Config.rootKey })
    (h0 : s.rot.svnHf = 0) (hK : Config.rootKey = dsaKey) (hv : Signed 3 3 (contDigest (cont 3 0x301 3))) : s.headframeSlot = some (0, false) := by
  have e : s.flashContainer (hfBase 0) 0x400000 = contHf :=
    flash_container s (hfBase 0) 0x400000 contHf hf (by decide +kernel) (by decide +kernel) (by decide +kernel)
  have c : s.checkHeadframe contHf = 0 := by
    have := cont_checked 3 0x301 3 s (by simp) hr h0 hK hv
    rw [State.checkContainer, if_neg (by simp), if_neg (by simp), if_pos rfl] at this
    rw [contHf]; exact this
  simp [State.headframeSlot, directory_none s (hfBase 0) contHf hf (by decide), bits, e, c]

def warming (flash : Memory) : State :=
  { keyed handle1 with
    links := { live.links with ucie := List.replicate 24 64 }, flash := flash, boot := { live.boot with warmCause := some 4, hfRunning := false, warmFast := [0, 1, 2, 3] } }
def plugged : PowerState := { live.pwr with pwrgd := false, fetClosed := false, rails := false }
def pluggedIn (p : PowerState) : State := { State.reset with pwr := p }

theorem warm_started (s : State) (h : s.headframeSlot = some (0, false)) : s.startHeadframe.boot.hfRunning = true := by
  unfold State.startHeadframe State.setPhase
  rw [h]
  dsimp only
  rw [State.setField_boot, State.setField_boot, State.setField_boot]

theorem witness_ResetsAndHotPlugAct (hK : Config.rootKey = dsaKey) (hv : Signed 3 3 (contDigest (cont 3 0x301 3))) :
    ((warming []).boot.warmCause.isSome = true ∧ (warming []).startHeadframe.boot.hfRunning = false ∧
        (List.range 24).all (warming []).ucieSettled = true) ∧
      (let s := warming (flashOf (hfBase 0) contHf)
       s.boot.warmCause.isSome = true ∧ s.startHeadframe.boot.hfRunning = true ∧ s.boot.warmFast ≠ [] ∧
         (List.range 24).all s.ucieSettled = true ∧ (∀ l, l < 4 → l ∈ s.boot.warmFast ∨ (s.level l).parked ≠ 0)) ∧
      (let s := live.setLevel 3 { live.level 3 with inReset := true }
       (s.level 3).inReset = true ∧ s.remapPending 3 = false ∧ s.boot.hfRunning = true) ∧
      ((live.setLevel 3 { live.level 3 with parked := 1 }).level 3).parked = 1 ∧
      (((live.setLevel 3 { live.level 3 with parked := 3 }).level 3).parked = 3 ∧
        (live.setLevel 3 { live.level 3 with parked := 3 }).pwr.standby ≠ 3) ∧
      (let s : State := { live with pwr := { live.pwr with standby := 1 }, levels := (List.replicate 3 { Level.zero with inService := true, parked := 2 }) ++ [Level.zero] }
       s.pwr.standby = 1 ∧ ∀ l, l < 4 → (s.level l).inService = true → (s.level l).parked = 2) ∧
      (let s : State := { live with pwr := { live.pwr with standby := 3 } }
       s.pwr.standby = 3 ∧ ∀ l, l < 4 → (s.level l).parked = 0 ∨ (s.level l).parked = 3) ∧
      ({ live.boot with logPending := [({ kind := 1, index := 0 }, 1, 1, 0)] } : BootState).logPending ≠ [] ∧
      (State.reset.pwr.precharged = false ∧ ({ plugged with present := false } : PowerState).present = false) ∧
      (let p : PowerState := { precharged := true, fetClosed := true }
       p.precharged = true ∧ p.vaux = false ∧ p.fetClosed = true) ∧
      (let p := { plugged with vaux := false }
       p.fetClosed = false ∧ p.precharged = true ∧ p.vaux = false ∧ p.present = true ∧ p.enable = true ∧ p.inputOk = true ∧
         p.bulkOk = true ∧ p.overTemp = false) ∧
      (let p := { plugged with present := false }
       p.precharged = true ∧ p.present = false ∧ p.vaux = true ∧ p.enable = true ∧ p.inputOk = true ∧ p.bulkOk = true ∧ p.overTemp = false) ∧
      ({ plugged with present := false, enable := false } : PowerState).enable = false ∧
      (4600 ≤ 5800 ∧ plugged.vaux = true ∧ plugged.present = true ∧ plugged.enable = true ∧ plugged.overTemp = false) ∧
      ({ plugged with enable := false } : PowerState).enable = false ∧
      (live.pwr.enable = true ∧ live.pwr.removeOk = false ∧ ({ live.pwr with removeOk := true } : PowerState).removeOk = true) ∧
      (let s : State := { live with pwr := { live.pwr with removal := some { drain := true } } }
       s.boot.hfRunning = true ∧ s.pwr.removal = some { drain := true } ∧ s.pwr.removeOk = false ∧ (∀ e ∈ s.sessions, e.2.state = .free) ∧
         s.flashBusy = false ∧ 0 ≤ s.now) ∧
      (live.pwr.present = true ∧ live.pwr.fetClosed = true ∧ live.pwr.inputOk = true) := by
  refine ⟨?_, ⟨?_, warm_started _ (headframe_found _ rfl rfl rfl hK hv), ?_, ?_, ?_⟩, ?_⟩ <;> decide +kernel

def xctF (type flags seq : Nat) (payload : Bytes) : Bytes := xctBytes type flags seq 0 payload

/-- A message of IEEE 1588 of clock 9, SEQ 0. -/
def ptpM (type : Nat) (body : Bytes) : Bytes :=
  natBe 1 type ++ natBe 1 2 ++ natBe 2 (34 + body.length) ++ zeros 16 ++ natBe 8 9 ++ natBe 2 1 ++ zeros 4 ++ body
def slave0 : State :=
  { live with servo := { live.servo with masterPort := some 0, ptp := [{ sync := some (0, 5, 0), down := some 3, req := some (0, 7), delay := some 4 }, {}] } }

theorem witness_PtpMessages :
    ([ptpM 11 (zeros 19 ++ natBe 8 9 ++ zeros 3), ptpM 1 (zeros 10), ptpM 0 (zeros 10), ptpM 8 (zeros 10),
        ptpM 9 (zeros 10 ++ slave0.ptpIdent 0)].all slave0.ptpTakes = true) ∧
      beAt (ptpM 11 (zeros 19 ++ natBe 8 9 ++ zeros 3)) 53 8 ≠ live.rot.fuses.moduleId ∧
      (slave0.servo.masterPort = some 0 ∧ slave0.servo.masterPort ≠ some 1 ∧ slave0.links.streamUp.getD 1 false = true) ∧
      bitAt (beAt (ptpM 0 (zeros 10)) 6 2) 9 = false ∧ (slave0.ptp 0).sync = some (beAt (ptpM 8 (zeros 10)) 30 2, 5, 0) ∧
      (sub (ptpM 9 (zeros 10 ++ slave0.ptpIdent 0)) 44 10 = slave0.ptpIdent 0 ∧
        (slave0.ptp 0).req = some (beAt (ptpM 9 (zeros 10 ++ slave0.ptpIdent 0)) 30 2, 7) ∧ (slave0.ptp 0).down = some 3 ∧
        0 < slave0.servo.ptp.length) ∧
      (slave0.ptp 0).delay = some 4 ∧ (live.ptp 1).annAt = none ∧
      (slave0.now < ({ annAt := some 0 } : PtpPort).annAt.getD 0 + 2000000000) := by
  decide +kernel

theorem witness_TimeRowsAct :
    live.links.streamUp.getD 1 false = true ∧ live.servo.masterPort = none ∧ State.reset.servo.masterPort ≠ some 1 ∧
      ((100 : Int).natAbs ≤ 1000000) ∧
      (let s : State := { live with regs := [(cmdReg 0x900, 9), (cmdReg 0xB00, 0x6)], now := 3000000000 }
       s.servoState = 0 ∧ s.servoSource ≠ 7 ∧ s.servo.lastAt + 3000000000 ≤ s.now) ∧ live.servo.syncAt.getD 1 0 + 62500000 ≤ live.now ∧
      (let s : State := { live with regs := [(cmdReg 0x900, 9), (cmdReg 0xB00, 0x16)], now := 3000000000 }
       s.servoState = 1 ∧ s.servo.lastAt + 3000000000 ≤ s.now) ∧
      (let s : State := { live with regs := [(cmdReg 0x900, 9), (cmdReg 0xB00, 0x26)], now := 10000000000 }
       s.servoState = 2 ∧ s.servo.holdAt + 10000000000 ≤ s.now) := by
  decide +kernel

theorem witness_CrosscutRowsAct :
    xctLive.xctUp 0 = true ∧ xctSound (zeros 19) = false ∧ bitAt (beAt (xctF 3 1 1 []) 1 1) 0 = true ∧
      (xctAckOnly (xctF 3 0 2 []) = false ∧ xctLive.xctInOrder 0 (xctF 3 0 2 []) = false) ∧ xctSound (xctF 3 2 0 []) = true ∧ xctUnknown (xctF 3 2 0 []) = false ∧
      (xctUnknown (xctF 9 0 1 []) = true ∧ xctSound (xctF 9 0 1 []) = true ∧ xctLive.xctInOrder 0 (xctF 9 0 1 []) = true) ∧
      (let s : State := { xctLive with links := { live.links with xct := [{ replay := [{ type := 3, seq := 1 }], ackAt := 999990000 }] } }
       (s.xct 0).replay ≠ [] ∧ (s.xct 0).ackAt + 10000 ≤ s.now) ∧
      (xctLive.xctIs 0 4 (xctF 4 0 1 (natBe 4 0 ++ [9])) = true ∧
        beAt (xctPayload (xctF 4 0 1 (natBe 4 0 ++ [9]))) 0 1 = 0 ∧ xctLive.links.streamUp.getD 0 false = true) ∧
      (beAt (xctPayload (xctF 4 0 1 (natBe 4 0x01000000))) 0 1 = 1 ∧ State.reset.links.streamUp.getD 1 false = false) ∧
      (beAt (xctPayload (xctF 4 0 1 (natBe 4 0x02000000))) 0 1 = 2 ∧ xctLive.links.streamUp.getD 2 false = false) ∧
      xctLive.xctIs 0 2 (xctF 2 0 1 (timePayload 1 0 0 0)) = true ∧ (xctLive.xct 0).timeAt + 15625000 ≤ xctLive.now ∧
      (xctLive.xct 0).helloAt + 10000000 ≤ xctLive.now ∧
      (xctLive.xctIs 0 1 (xctF 1 0 1 (zeros 40)) = true ∧ 40 ≤ (xctPayload (xctF 1 0 1 (zeros 40))).length) ∧
      (xctLive.xctIs 0 3 (xctF 3 0 1 []) = true ∧ (xctLive.xct 0).laneBusy = false ∧ ({ laneBusy := true } : XctPort).laneBusy = true) ∧
      (xctLive.field (cmdReg 0xC00) 4 1 = 1 ∧ xctLive.field (cmdReg 0xC00) 7 1 = 1 ∧ laneWidth 3 = 2 ∧ laneWidth 0 = 0 ∧
        0 < xctLive.links.xct.length ∧
        ({ xctLive with regs := [(cmdReg 0x900, 9), (cmdReg 0xC00, 0x12)] } : State).field (cmdReg 0xC00) 4 1 = 1) ∧
      (let k : KnownLink := { seen := 950000000 }
       k.seen + 50000000 ≤ xctLive.now ∧ ¬ xctLive.now < k.seen + 50000000 ∧ xctLive.now < ({ seen := 950000001 } : KnownLink).seen + 50000000) := by
  decide +kernel

/-- The election is settled against the dataset the module itself has, whose variance the model leaves open (log entry 2). -/
theorem witness_ElectionSettles :
    let s : State := { xctLive with links := { live.links with best := xctLive.bestNow } }
    live.links.best = [] ∧ s.boot.hfRunning = true ∧ s.links.settledElection = false ∧ s.links.best = s.bestNow ∧ s.links.topologyAt + 30000000 ≤ s.now ∧
      s.links.bestAt + 30000000 ≤ s.now :=
  ⟨rfl, rfl, rfl, rfl, by decide, by decide⟩

theorem witness_LaunchTimesTakeTheGrain :
    swapping.Takes rq0 0x305 0 ∧ (swapping.taken rq0 0x305).shadowState = 2 ∧ swapping.pwr.standby = 0 ∧
      swapping.now + 100000 ≤ (BitVec.ofNat 64 1000100002).toNat := by
  decide +kernel

/-- A module that knows no better dataset is grandmaster; one that knows a better one is not (R433). -/
theorem witness_Grandmasters :
    live.isGrand = true ∧
      ({ xctLive with links := { live.links with xct := [{ nbrSeen := true, dataset := [0, 0, 0, 0, 0, 1] }] } } : State).isGrand = false := by
  refine ⟨?_, by decide +kernel⟩
  have h : live.bestNow = live.ownDataset := rfl
  rw [State.isGrand, h]
  exact beq_self_eq_true _

end Sys2Proof.Tests
end

section
/-! PROOFS. The launch grain of R11, and the arming of a swap at it (R235, R463). -/

namespace Sys2Proof.Machine

open Sys2Proof

/-! The launch grain: the least multiple of 4 ns that is not before the time. -/

/-- The launch grain counts whole steps of 4 ns, a step begun counting as one (R11). -/
theorem launchGrain_eq_div_mul (t : Nat) : launchGrain t = (t + 3) / 4 * 4 := rfl

theorem launchGrain_mod_four (t : Nat) : launchGrain t % 4 = 0 := by
  rw [launchGrain_eq_div_mul]
  exact Nat.mul_mod_left ..

theorem le_launchGrain (t : Nat) : t ≤ launchGrain t := by
  have h := launchGrain_eq_div_mul t
  omega

theorem launchGrain_lt_add_four (t : Nat) : launchGrain t < t + 4 :=
  calc launchGrain t = (t + 3) / 4 * 4 := launchGrain_eq_div_mul t
    _ ≤ t + 3 := Nat.div_mul_le_self ..
    _ < t + 4 := Nat.lt_succ_self _

/-! A swap's arming. -/

theorem exec_swapArm (rq : Req) (t : BitVec 64) (s : State) : exec (.swapArm rq t) s = execSwapArm rq t s := rfl

/-- The checks of SWAP_ARM (R235, R463) passed: the shadow ready, the module out of standby, the time at least 100 µs ahead. It answers OK and
asks for the swap's round at the launch grain of the time. -/
theorem execSwapArm_of_ready {s : State} {rq : Req} {t : BitVec 64} (hTakes : s.Takes rq 0x305 0)
    (hReady : (s.taken rq 0x305).shadowState = 2) (hAwake : s.pwr.standby = 0) (hAhead : s.now + 100000 ≤ t.toNat) :
    execSwapArm rq t s = .next ((((s.taken rq 0x305).okReply rq 0x305 (natBe 8 t.toNat) []).setShadow 3).requestRound
      .swap (some (launchGrain t.toNat)) 0) := by
  have hState : ¬ ((s.taken rq 0x305).shadowState ≠ 2 ∨ (s.taken rq 0x305).pwr.standby ≠ 0) :=
    not_or.2 ⟨not_not_intro hReady, not_not_intro hAwake⟩
  have hTime : ¬ t.toNat < (s.taken rq 0x305).now + 100000 := Nat.not_lt.2 hAhead
  rw [execSwapArm, State.request_of_takes hTakes, if_neg hState, if_neg hTime]
  exact congrArg Host.Outcome.next (State.answer_ok ..)

/-- Settles O60: the grain's arithmetic (R11), the manual's example, and SWAP_ARM with its checks passed. -/
theorem launchTimesTakeTheGrain : Obligations.LaunchTimesTakeTheGrain := by
  unfold Obligations.LaunchTimesTakeTheGrain
  refine ⟨fun t => ⟨launchGrain_mod_four t, le_launchGrain t, launchGrain_lt_add_four t⟩, by decide, ?_⟩
  intro s rq t hTakes hReady hAwake hAhead
  rw [exec_swapArm]
  exact execSwapArm_of_ready hTakes hReady hAwake hAhead

end Sys2Proof.Machine
end

section
/-! PROOFS. A transfer of length zero (R13, R276), and what the completion of a descriptor leaves of its face (R29). -/

namespace Sys2Proof.Machine

open Sys2Proof

/-! Face p after an update of one of its engines or counters, or of its item. -/

@[simp] theorem State.face_setEngine_same (s : State) (p e : Nat) (g : Engine) :
    (s.setEngine p e g).face p = { s.face p with engines := (s.face p).engines.set e g } := by
  simp [State.setEngine]

@[simp] theorem State.face_bumpCtr_same (s : State) (p c : Nat) :
    (s.bumpCtr p c).face p =
      { s.face p with counters := (s.face p).counters.set c (((s.face p).counters.getD c 0 + 1) % 2 ^ 32) } := by
  simp [State.bumpCtr]

@[simp] theorem State.bumpCtr_mem (s : State) (p c : Nat) : (s.bumpCtr p c).mem = s.mem := rfl
@[simp] theorem State.bumpCtr_regs (s : State) (p c : Nat) : (s.bumpCtr p c).regs = s.regs := rfl

@[simp] theorem State.endItem_engines_same (s : State) (p off : Nat) : ((s.endItem p off).face p).engines = (s.face p).engines := by
  simp [State.endItem]
@[simp] theorem State.endItem_counters_same (s : State) (p off : Nat) : ((s.endItem p off).face p).counters = (s.face p).counters := by
  simp [State.endItem]
@[simp] theorem State.endItem_rings_same (s : State) (p off : Nat) : ((s.endItem p off).face p).rings = (s.face p).rings := by
  simp [State.endItem]
@[simp] theorem State.endItem_mem (s : State) (p off : Nat) : (s.endItem p off).mem = s.mem := rfl
@[simp] theorem State.endItem_regs (s : State) (p off : Nat) : (s.endItem p off).regs = s.regs := rfl

/-- An engine with a descriptor queued is one of the face's engines. -/
theorem State.lt_engines_of_queue {s : State} {p e : Nat} {qd : QueuedDesc} {rest : List QueuedDesc}
    (hQueue : (s.engine p e).queue = qd :: rest) : e < (s.face p).engines.length := by
  by_contra hOut
  have hIdle : s.engine p e = {} := List.getD_eq_default _ _ (Nat.le_of_not_lt hOut)
  rw [hIdle] at hQueue
  cases hQueue

/-! The completion of a head descriptor. -/

theorem exec_descriptorComplete (p e : Nat) (s : State) :
    exec (.descriptorComplete p e) s = execDescriptorComplete p e s := rfl

theorem State.fusedByEngine_of_fused_none {s : State} {p : Nat} (h : (s.face p).fused = none) (e off : Nat) :
    s.fusedByEngine p e off = s := by
  rw [State.fusedByEngine, h]

/-- Engine e's head descriptor qd leaves its queue with status 0 and its counter advances (R29). -/
def State.headLeft (s : State) (p e : Nat) (qd : QueuedDesc) : State :=
  let s1 := (s.setEngine p e ((s.engine p e).next 0)).bumpCtr p (parseDesc qd.bytes).ctr
  s1.setFace p { s1.face p with lastWork := s.now }

theorem State.headLeft_fused (s : State) (p e : Nat) (qd : QueuedDesc) :
    ((s.headLeft p e qd).face p).fused = (s.face p).fused := by
  simp [State.headLeft]

/-- The state after DESCRIPTOR_COMPLETE (R29) of engine e's head descriptor qd, on a face that runs no fused command. -/
def State.headCompleted (s : State) (p e : Nat) (qd : QueuedDesc) : State := (s.headLeft p e qd).endItem p qd.offset

/-- Where the head descriptor is done, DESCRIPTOR_COMPLETE completes it. -/
theorem execDescriptorComplete_of_headDone {s : State} {p e : Nat} {qd : QueuedDesc} {rest : List QueuedDesc}
    (hFace : faceWf p = true) (hEngine : e < 6) (hRuns : s.faceRuns p = true) (hQueue : (s.engine p e).queue = qd :: rest)
    (hStopped : (s.engine p e).stopped = false) (hDone : s.headDone p e = true) (hFused : (s.face p).fused = none) :
    execDescriptorComplete p e s = .next (s.headCompleted p e qd) := by
  have hAct : (faceWf p && decide (e < 6) && s.faceRuns p && !(s.engine p e).stopped && s.headDone p e) = true := by
    simp [hFace, hEngine, hRuns, hStopped, hDone]
  have hNoFused : (s.headLeft p e qd).fusedByEngine p e qd.offset = s.headLeft p e qd :=
    State.fusedByEngine_of_fused_none ((s.headLeft_fused p e qd).trans hFused) e qd.offset
  rw [execDescriptorComplete, when_true hAct, hQueue]
  exact congrArg (fun t => Host.Outcome.next (t.endItem p qd.offset)) hNoFused

section

variable {s : State} {p e : Nat} {qd : QueuedDesc}

theorem State.headCompleted_engine (h : e < (s.face p).engines.length) :
    (s.headCompleted p e qd).engine p e = (s.engine p e).next 0 := by
  simp [State.headCompleted, State.headLeft, State.engine, h]

theorem State.headCompleted_rings : ((s.headCompleted p e qd).face p).rings = (s.face p).rings := by
  simp [State.headCompleted, State.headLeft]

theorem State.headCompleted_counters :
    ((s.headCompleted p e qd).face p).counters = (s.face p).counters.set (parseDesc qd.bytes).ctr
      (((s.face p).counters.getD (parseDesc qd.bytes).ctr 0 + 1) % 2 ^ 32) := by
  simp [State.headCompleted, State.headLeft]

theorem State.headCompleted_mem : (s.headCompleted p e qd).mem = s.mem := rfl

theorem State.headCompleted_regs : (s.headCompleted p e qd).regs = s.regs := rfl

end

/-! A head descriptor that moves no byte. -/

theorem exec_transactionIssue (p e : Nat) (s : State) : exec (.transactionIssue p e) s = execTransactionIssue p e s := rfl

theorem Engine.finished_of_count_zero (g : Engine) {d : Desc} (h : d.count = 0) : g.finished d = true := by
  simp [Engine.finished, h]

/-- A command that has read no poisoned granule declares no device faulted. -/
theorem State.declareReads_self (s : State) : s.declareReads s.badReads = s := by
  simp [State.declareReads]

section

variable {s : State} {p e : Nat} {qd : QueuedDesc} {rest : List QueuedDesc}

/-- No transaction issues for a transfer of length zero: not of a chunk's injection, and a COPY or FILL has finished. -/
theorem State.issue_of_count_zero (hQueue : (s.engine p e).queue = qd :: rest) (hEmpty : (parseDesc qd.bytes).count = 0) :
    s.issue p e = s := by
  unfold State.issue
  simp only [hQueue]
  split
  · rfl
  · split
    · simp [hEmpty]
    · simp [Engine.finished_of_count_zero _ hEmpty]

theorem execTransactionIssue_of_count_zero (hQueue : (s.engine p e).queue = qd :: rest)
    (hEmpty : (parseDesc qd.bytes).count = 0) : execTransactionIssue p e s = .next s := by
  rw [execTransactionIssue, State.issue_of_count_zero hQueue hEmpty, State.declareReads_self, when, ite_self]

/-- A transfer of length zero is done as soon as it is at the head, where no skip is part filled or part drained. -/
theorem State.headDone_of_count_zero (hQueue : (s.engine p e).queue = qd :: rest) (hEmpty : (parseDesc qd.bytes).count = 0)
    (hFill : (s.engine p e).fill = 0) (hDrain : (s.engine p e).drain = 0) : s.headDone p e = true := by
  unfold State.headDone
  simp only [hQueue]
  split
  · simp [hEmpty]
  · simp [Engine.finished_of_count_zero _ hEmpty, hFill, hDrain]

end

/-- Settles O34: no transaction issues for the empty transfer, and it is done at once, so that DESCRIPTOR_COMPLETE completes it. -/
theorem zeroLengthTransferCompletes : Obligations.ZeroLengthTransferCompletes := by
  unfold Obligations.ZeroLengthTransferCompletes
  intro s p e qd rest hFace hEngine hRuns hQueue hStopped hFill hDrain hFused hEmpty hCtr
  have hDone : s.headDone p e = true := State.headDone_of_count_zero hQueue hEmpty hFill hDrain
  have hNext : (s.headCompleted p e qd).engine p e = (s.engine p e).next 0 :=
    State.headCompleted_engine (State.lt_engines_of_queue hQueue)
  refine ⟨execTransactionIssue_of_count_zero hQueue hEmpty, s.headCompleted p e qd,
    execDescriptorComplete_of_headDone hFace hEngine hRuns hQueue hStopped hDone hFused, ?_, ?_, ?_,
    State.headCompleted_rings, ?_, State.headCompleted_mem, State.headCompleted_regs⟩
  · rw [hNext, Engine.next]
  · rw [hNext, Engine.next, hQueue, List.drop_one, List.tail_cons]
  · rw [hNext, Engine.next, Engine.rewind]
  · rw [State.headCompleted_counters]
    simp [List.getD_eq_getElem?_getD, hCtr]

end Sys2Proof.Machine
end

section
/-! PROOFS. The freshness of requests and the numbering of the device's own control frames (R446). -/

namespace Sys2Proof.Machine

open Sys2Proof

/-! The replay window of a key slot. -/

theorem ReplayWindow.accepts_iff (w : ReplayWindow) (q : Nat) : w.accepts q = true ↔ 1 ≤ q ∧ w.high < q + 64 ∧ q ∉ w.seen := by
  simp [ReplayWindow.accepts, and_assoc]

@[simp] theorem ReplayWindow.note_high (w : ReplayWindow) (q : Nat) : (w.note q).high = max w.high q := rfl

theorem ReplayWindow.mem_note_seen (w : ReplayWindow) (q r : Nat) :
    r ∈ (w.note q).seen ↔ (r = q ∨ r ∈ w.seen) ∧ max w.high q < r + 64 := by
  simp only [ReplayWindow.note, List.mem_filter, List.mem_cons, decide_eq_true_eq]

/-- Once q is noted, no SEQ but q is judged otherwise than before, save against the new H: what the noting forgets lies at or below H − 64. -/
theorem ReplayWindow.accepts_note_iff (w : ReplayWindow) (q r : Nat) :
    (w.note q).accepts r = true ↔ 1 ≤ r ∧ max w.high q < r + 64 ∧ r ≠ q ∧ r ∉ w.seen := by
  rw [ReplayWindow.accepts_iff, ReplayWindow.note_high, ReplayWindow.mem_note_seen]
  refine and_congr_right fun _ => and_congr_right fun hAbove => ?_
  rw [and_iff_left hAbove, not_or]

/-! A request on its way into the queue. -/

theorem exec_ctrlFrameReceive (port : Nat) (src : NetAddr) (f : Bytes) (s : State) :
    exec (.ctrlFrameReceive port src f) s = execCtrlFrameReceive port src f s := rfl

/-- With room in the queue, a request frame whose TAG verifies is judged by its epoch and SEQ (R445, R446). -/
theorem execCtrlFrameReceive_of_authentic {s : State} {port : Nat} {f : Bytes} (src : NetAddr) (hRuns : s.boot.hfRunning = true)
    (hUp : s.links.streamUp.getD port false = true) (hRoom : s.ctrl.queue.length < 1024) (hLength : 32 ≤ f.length)
    (hVersion : beAt f 0 1 = 1) (hKind : beAt f 1 1 = 0) (hSlot : beAt f 2 1 ≠ 0xFF) (hTag : s.authentic f = true) :
    execCtrlFrameReceive port src f s =
      .next (s.fresh { port := port, src := src, slot := beAt f 2 1, reqId := beAt f 24 4 } f) := by
  have hTakes : (s.boot.hfRunning && s.links.streamUp.getD port false) = true := by rw [hRuns, hUp]; rfl
  have hForm : ¬ (f.length < 32 ∨ beAt f 0 1 ≠ 1 ∨ beAt f 1 1 ≠ 0) := by omega
  have hVerifies : ¬ (!s.authentic f) = true := by simp [hTag]
  rw [execCtrlFrameReceive, when_true hTakes, if_neg (Nat.not_le.2 hRoom), if_neg hForm, if_neg hSlot, if_neg hVerifies]

/-- A request of the present epoch whose SEQ is out of the window or seen is only counted, in CMD_CTRL_REPLAY. -/
theorem State.fresh_of_not_accepts {s : State} {rq : Req} {f : Bytes} (hEpoch : beAt f 8 8 = s.rot.epoch.toNat)
    (hSeen : (s.ctrl.windows.getD rq.slot {}).accepts (beAt f 16 8) = false) : s.fresh rq f = s.bumpReg (cmdReg 0xE10) 1 := by
  have hRefused : (!(s.ctrl.windows.getD rq.slot {}).accepts (beAt f 16 8)) = true := by rw [hSeen]; rfl
  rw [State.fresh, if_neg (not_not_intro hEpoch), if_pos hRefused]

/-! The numbers of the frames the device sends. -/

@[simp] theorem State.sendNet_ctrl (s : State) (p dst : Nat) (m : OutMsg) : (s.sendNet p dst m).ctrl = s.ctrl := rfl
@[simp] theorem State.sendNet_outbox (s : State) (p dst : Nat) (m : OutMsg) :
    (s.sendNet p dst m).outbox = s.outbox ++ s.asks p dst ++ [m] := rfl

/-- One more frame numbered under a key slot whose window was w. -/
def State.numbered (s : State) (slot : Nat) (w : ReplayWindow) : State :=
  { s with ctrl := { s.ctrl with windows := s.ctrl.windows.set slot { w with tx := w.tx + 1 } } }

section

variable {s : State} {slot : Nat} {w : ReplayWindow}

theorem State.nextSeq_of_window (hWindow : s.ctrl.windows[slot]? = some w) : s.nextSeq slot = (w.tx + 1, s.numbered slot w) := by
  rw [State.nextSeq, hWindow]
  rfl

theorem State.numbered_window_same (hWindow : s.ctrl.windows[slot]? = some w) :
    (s.numbered slot w).ctrl.windows[slot]? = some { w with tx := w.tx + 1 } :=
  List.getElem?_set_self (List.getElem?_eq_some_iff.1 hWindow).1

theorem State.numbered_window_other {k : Nat} (h : k ≠ slot) : (s.numbered slot w).ctrl.windows[k]? = s.ctrl.windows[k]? :=
  List.getElem?_set_ne h.symm

@[simp] theorem State.numbered_outbox : (s.numbered slot w).outbox = s.outbox := rfl
@[simp] theorem State.numbered_asks (p dst : Nat) : (s.numbered slot w).asks p dst = s.asks p dst := rfl

/-- A part sent under a key slot with a window carries the window's next number and the slot's TAG. -/
theorem State.sendPart_of_window (hWindow : s.ctrl.windows[slot]? = some w) (port : Nat) (dst : NetAddr)
    (kind op reqId st detail count : Nat) (part : Nat × Bytes) :
    let h := ctrlHeader kind slot op part.1 count s.rot.epoch.toNat (w.tx + 1) reqId st detail part.2.length
    let tag := s.ctrlTag kind slot (h ++ part.2)
    s.sendPart port dst kind slot op reqId st detail count part =
      (s.numbered slot w).sendNet port dst.ip (.ctrl port dst h part.2 tag
        (s.datagram port dst ((s.port port).getD {}).ctrlUdp (h ++ part.2 ++ tag) true)) := by
  rw [State.sendPart, State.nextSeq_of_window hWindow]

end

/-! A new epoch. -/

@[simp] theorem State.setPhase_ctrl (s : State) (v : Nat) : (s.setPhase v).ctrl = s.ctrl := State.setField_ctrl ..
@[simp] theorem State.setPwrState_ctrl (s : State) (v : Nat) : (s.setPwrState v).ctrl = s.ctrl := State.setField_ctrl ..

/-- At a cold start every key slot's window is new (R446): no number used, no SEQ seen. -/
theorem State.beginCold_windows (s : State) (cause : Nat) : (s.beginCold cause).ctrl.windows = List.replicate 8 {} := by
  simp only [State.beginCold, apply_ite State.ctrl, State.setPhase_ctrl, State.setPwrState_ctrl, ite_self]
  rfl

/-- Settles O11: the window's own laws, the drop of a stale request, the number of a frame sent, and the windows of a new epoch. -/
theorem requestsAreFreshAndFramesNumbered : Obligations.RequestsAreFreshAndFramesNumbered := by
  unfold Obligations.RequestsAreFreshAndFramesNumbered
  refine ⟨fun w q r => ⟨w.accepts_iff q, w.note_high q, w.accepts_note_iff q r⟩, ?_, ?_, ?_⟩
  · intro s port src f hRuns hUp hRoom hLength hVersion hKind hSlot hTag hEpoch hSeen
    rw [exec_ctrlFrameReceive, execCtrlFrameReceive_of_authentic src hRuns hUp hRoom hLength hVersion hKind hSlot hTag,
      State.fresh_of_not_accepts hEpoch hSeen]
  · intro s port dst kind slot op reqId st detail count part w hWindow
    simp only [State.sendPart_of_window hWindow, State.sendNet_outbox, State.sendNet_ctrl, State.numbered_outbox, State.numbered_asks]
    exact ⟨trivial, State.numbered_window_same hWindow, fun k hk => State.numbered_window_other hk⟩
  · intro s cause w hw
    rw [State.beginCold_windows] at hw
    rw [List.eq_of_mem_replicate hw]
    exact ⟨rfl, rfl, rfl⟩

end Sys2Proof.Machine
end

section
/-! PROOFS. What no operation of the model undoes: memories and registers stay canonical, fuses stay, the production lock stays set, and the
security counters do not fall (R361, R368, R472). One lemma for each operation, by the operations it is made of; at the end every command
answers a next state, and it keeps them. -/

namespace Sys2Proof.Machine

open Sys2Proof

/-- State s, reached from s₀, is canonical where s₀ is, and has the fuses of s₀, its lock where s₀ is locked, and no lower counter. -/
def Keeps (s₀ s : State) : Prop :=
  (s₀.Canonical → s.Canonical) ∧ s.rot.fuses = s₀.rot.fuses ∧ (s₀.rot.locked = true → s.rot.locked = true) ∧
    s₀.rot.svnPlan ≤ s.rot.svnPlan ∧ s₀.rot.svnHf ≤ s.rot.svnHf

/-- The outcome is a next state, and one that keeps what s₀ holds for good. -/
def Settles (s₀ : State) (o : Host.Outcome State Fault Refusal) : Prop := ∃ t, o = .next t ∧ Keeps s₀ t

/-- What follows the reply keeps what s₀ holds for good. -/
def Reply.Safe (s₀ : State) (r : Reply) : Prop := ∀ u, Keeps s₀ u → Keeps s₀ (r.after u)

/-- What follows the reply on Lamp keeps what s₀ holds for good. -/
def LampReply.Safe (s₀ : State) (r : LampReply) : Prop := ∀ u, Keeps s₀ u → Keeps s₀ (r.after u)

theorem Keeps.refl (s : State) : Keeps s s := ⟨id, rfl, id, le_rfl, le_rfl⟩

variable {s₀ s : State}

/-! Outcomes, choices and folds. -/

theorem Keeps.next (h : Keeps s₀ s) : Settles s₀ (.next s) := ⟨s, rfl, h⟩

theorem Settles.next (h : Keeps s₀ s) : Settles s₀ (.next s) := h.next

theorem Keeps.ite {c : Prop} [Decidable c] {a b : State} (ha : Keeps s₀ a) (hb : Keeps s₀ b) : Keeps s₀ (if c then a else b) := by
  split
  · exact ha
  · exact hb

theorem Settles.ite {c : Prop} [Decidable c] {a b : Host.Outcome State Fault Refusal} (ha : Settles s₀ a) (hb : Settles s₀ b) :
    Settles s₀ (if c then a else b) := by
  split
  · exact ha
  · exact hb

theorem Reply.Safe.ite {c : Prop} [Decidable c] {a b : Reply} (ha : a.Safe s₀) (hb : b.Safe s₀) : (if c then a else b).Safe s₀ := by
  split
  · exact ha
  · exact hb

theorem LampReply.Safe.ite {c : Prop} [Decidable c] {a b : LampReply} (ha : a.Safe s₀) (hb : b.Safe s₀) :
    (if c then a else b).Safe s₀ := by
  split
  · exact ha
  · exact hb

/-- An operation on a memory or on the registers keeps what s₀ holds for good where it keeps the canonical form. -/
theorem Keeps.of_canonical {t : State} (h : Keeps s₀ s) (hRot : t.rot = s.rot) (hForm : s.Canonical → t.Canonical) : Keeps s₀ t := by
  obtain ⟨hc, hr⟩ := h
  refine ⟨hForm ∘ hc, ?_⟩
  rw [hRot]
  exact hr

/-- A change of what is neither memory, register nor root of trust. -/
theorem Keeps.update (h : Keeps s₀ s)
    {now pending draws outbox pwr boot events ctrl lamp handles models jobs sessions faces levels rounds nextRound musters links servo frags resets
     shadow joinSeen blkFirst trams poisoned badReads} :
    Keeps s₀ { s with
      now := now, pending := pending, draws := draws, outbox := outbox, pwr := pwr, boot := boot, events := events, ctrl := ctrl, lamp := lamp,
      handles := handles, models := models, jobs := jobs, sessions := sessions, faces := faces, levels := levels, rounds := rounds,
      nextRound := nextRound, musters := musters, links := links, servo := servo, frags := frags, resets := resets, shadow := shadow,
      joinSeen := joinSeen, blkFirst := blkFirst, trams := trams, poisoned := poisoned, badReads := badReads } :=
  h

/-- A change of what the root of trust keeps beside its fuses, its lock and its counters. -/
theorem Keeps.updateRot (h : Keeps s₀ s)
    {now pending draws outbox pwr boot events ctrl lamp handles models jobs sessions faces levels rounds nextRound musters links servo frags resets
     shadow joinSeen blkFirst trams poisoned badReads keys epoch alerts alertsLost armUntil smbStatus smbCommand strap hfRelease planId bootSeen
     pwrSeen tripHeld lastKick} :
    Keeps s₀ { s with
      now := now, pending := pending, draws := draws, outbox := outbox, pwr := pwr, boot := boot, events := events, ctrl := ctrl, lamp := lamp,
      handles := handles, models := models, jobs := jobs, sessions := sessions, faces := faces, levels := levels, rounds := rounds,
      nextRound := nextRound, musters := musters, links := links, servo := servo, frags := frags, resets := resets, shadow := shadow,
      joinSeen := joinSeen, blkFirst := blkFirst, trams := trams, poisoned := poisoned, badReads := badReads
      rot := { s.rot with
        keys := keys, epoch := epoch, alerts := alerts, alertsLost := alertsLost, armUntil := armUntil, smbStatus := smbStatus,
        smbCommand := smbCommand, strap := strap, hfRelease := hfRelease, planId := planId, bootSeen := bootSeen, pwrSeen := pwrSeen,
        tripHeld := tripHeld, lastKick := lastKick } } :=
  h

/-- The lock's own change. -/
theorem Keeps.lock (h : Keeps s₀ s) : Keeps s₀ { s with rot := { s.rot with locked := true } } := by
  obtain ⟨hForm, hFuses, -, hCounters⟩ := h
  exact ⟨hForm, hFuses, fun _ => rfl, hCounters⟩

/-- A state with memory and registers empty, the flash of s and the root of trust of r. -/
theorem Keeps.of_emptied {r t : State} (h : Keeps s₀ s) (hr : Keeps s₀ r) (hMem : t.mem = []) (hRegs : t.regs = []) (hFlash : t.flash = s.flash)
    (hFuses : t.rot.fuses = r.rot.fuses) (hLock : t.rot.locked = r.rot.locked) (hPlan : t.rot.svnPlan = r.rot.svnPlan)
    (hHf : t.rot.svnHf = r.rot.svnHf) : Keeps s₀ t := by
  obtain ⟨hForm, -⟩ := h
  obtain ⟨-, hr⟩ := hr
  refine ⟨fun hc => ?_, ?_⟩
  · rw [State.Canonical, hMem, hRegs, hFlash]
    exact ⟨rfl, (hForm hc).2.1, rfl⟩
  · rw [hFuses, hLock, hPlan, hHf]
    exact hr

/-! The operations, in the order of the model. -/

theorem Keeps.writeMem (h : Keeps s₀ s) {a : Nat} {b : Bytes} : Keeps s₀ (s.writeMem a b) :=
  h.of_canonical rfl (s.canonical_writeMem a b)

theorem Keeps.clearMem (h : Keeps s₀ s) {a n : Nat} : Keeps s₀ (s.clearMem a n) :=
  h.of_canonical rfl (s.canonical_clearMem a n)

theorem Keeps.writeFlash (h : Keeps s₀ s) {a : Nat} {b : Bytes} : Keeps s₀ (s.writeFlash a b) :=
  h.of_canonical rfl (s.canonical_writeFlash a b)

theorem Keeps.eraseFlash (h : Keeps s₀ s) {a n : Nat} : Keeps s₀ (s.eraseFlash a n) :=
  h.of_canonical rfl (s.canonical_eraseFlash a n)

theorem Keeps.setReg (h : Keeps s₀ s) {a : Nat} {v : Word} : Keeps s₀ (s.setReg a v) :=
  h.of_canonical rfl (s.canonical_setReg a v)

theorem Keeps.setRegNat (h : Keeps s₀ s) {a v : Nat} : Keeps s₀ (s.setRegNat a v) :=
  h.setReg

theorem Keeps.setField (h : Keeps s₀ s) {a lo n v : Nat} : Keeps s₀ (s.setField a lo n v) :=
  h.setRegNat

theorem Keeps.bumpReg (h : Keeps s₀ s) {a n : Nat} : Keeps s₀ (s.bumpReg a n) :=
  h.setRegNat

theorem Keeps.bumpField (h : Keeps s₀ s) {a lo w n : Nat} : Keeps s₀ (s.bumpField a lo w n) :=
  h.setField

theorem Keeps.zeroRegs (h : Keeps s₀ s) {l : List Nat} : Keeps s₀ (s.zeroRegs l) := by
  induction l generalizing s with
  | nil => exact h
  | cons a r ih => exact ih h.setReg

theorem Keeps.keepRegs (h : Keeps s₀ s) {keep : Nat → Bool} : Keeps s₀ (s.keepRegs keep) :=
  h.of_canonical rfl (s.canonical_keepRegs keep)

theorem Keeps.clearRecord (h : Keeps s₀ s) {validAt : Nat} {words : List Nat} {mask : Nat} {value : Word} :
    Keeps s₀ (s.clearRecord validAt words mask value) :=
  .ite h.zeroRegs h.setReg

theorem Keeps.setFace (h : Keeps s₀ s) {p : Nat} {f : Face} : Keeps s₀ (s.setFace p f) :=
  h.update

theorem Keeps.setLevel (h : Keeps s₀ s) {l : Nat} {v : Level} : Keeps s₀ (s.setLevel l v) :=
  h.update

theorem Keeps.setEngine (h : Keeps s₀ s) {p e : Nat} {v : Engine} : Keeps s₀ (s.setEngine p e v) :=
  h.setFace

theorem Keeps.setRing (h : Keeps s₀ s) {p r : Nat} {v : Ring} : Keeps s₀ (s.setRing p r v) :=
  h.setFace

theorem Keeps.setSes (h : Keeps s₀ s) {id : Nat} {v : Session} : Keeps s₀ (s.setSes id v) :=
  h.update

theorem Keeps.freeSes (h : Keeps s₀ s) {id : Nat} : Keeps s₀ (s.freeSes id) :=
  h.update

theorem Keeps.setModel (h : Keeps s₀ s) {m : Nat} {v : ModelSlot} : Keeps s₀ (s.setModel m v) :=
  h.update

theorem Keeps.setJob (h : Keeps s₀ s) {j : Job} : Keeps s₀ (s.setJob j) :=
  h.update

theorem Keeps.draw (h : Keeps s₀ s) : Keeps s₀ (s.draw).2 :=
  h.update

theorem Keeps.send (h : Keeps s₀ s) {m : OutMsg} : Keeps s₀ (s.send m) :=
  h.update

theorem Keeps.bumpSes (h : Keeps s₀ s) {id i n : Nat} : Keeps s₀ (s.bumpSes id i n) :=
  h.setSes

theorem Keeps.each {α : Type} {l : List α} {f : State → α → State} (h :
    Keeps s₀ s) (hf : ∀ u, Keeps s₀ u → ∀ b, Keeps s₀ (f u b)) :
    Keeps s₀ (s.each l f) := by
  unfold State.each
  induction l generalizing s with
  | nil => exact h
  | cons b r ih => exact ih (hf s h b)

theorem Keeps.ok (h : Keeps s₀ s) : Settles s₀ (ok s) :=
  .next h

theorem Keeps.when (h : Keeps s₀ s) {c : Bool} {s' : State} (hs' : Keeps s₀ s') : Settles s₀ (when c s s') :=
  .next (.ite hs' h)

theorem Keeps.learnMac (h : Keeps s₀ s) {p ip mac : Nat} : Keeps s₀ (s.learnMac p ip mac) :=
  h.update

theorem Keeps.sendNet (h : Keeps s₀ s) {p dst : Nat} {m : OutMsg} : Keeps s₀ (s.sendNet p dst m) :=
  h.update

theorem Keeps.nextSeq (h : Keeps s₀ s) {slot : Nat} : Keeps s₀ (s.nextSeq slot).2 := by
  unfold State.nextSeq
  split
  exacts [h.update, h]

theorem Keeps.sendPart (h : Keeps s₀ s) {port : Nat} {dst : NetAddr} {kind slot opcode reqId status detail count : Nat} {part : Nat ×
    Bytes} : Keeps s₀ (s.sendPart port dst kind slot opcode reqId status detail count part) :=
  h.nextSeq.sendNet

theorem Keeps.sendCtrl (h : Keeps s₀ s) {port : Nat} {dst : NetAddr} {kind slot opcode reqId status detail : Nat} {body : Bytes} :
    Keeps s₀ (s.sendCtrl port dst kind slot opcode reqId status detail body) :=
  Keeps.each h (fun _ h1 _ => h1.sendPart)

theorem Keeps.hold (h : Keeps s₀ s) {x : Held} : Keeps s₀ (s.hold x) :=
  .ite h h.update

theorem Keeps.resend (h : Keeps s₀ s) {rq : Req} {x : Held} : Keeps s₀ (s.resend rq x) :=
  h.sendCtrl

theorem Keeps.writeLog (h : Keeps s₀ s) {e : EventRec} : Keeps s₀ (s.writeLog e) :=
  h.update.setRegNat

theorem Keeps.alert (h : Keeps s₀ s) {e : EventRec} : Keeps s₀ (s.alert e) :=
  .ite h.updateRot h.updateRot

theorem Keeps.eventFrames (h : Keeps s₀ s) {e : EventRec} : Keeps s₀ (s.eventFrames e) :=
  .ite (Keeps.each h (fun _ h1 _ => h1.sendCtrl)) h

theorem Keeps.countEvent (h : Keeps s₀ s) {code : Nat} : Keeps s₀ (s.countEvent code) :=
  h.update

theorem Keeps.logEvent (h : Keeps s₀ s) {e : EventRec} : Keeps s₀ (s.logEvent e) :=
  Keeps.eventFrames (.ite (Keeps.alert (.ite h.countEvent.bumpReg h.countEvent.writeLog)) (.ite h.countEvent.bumpReg
    h.countEvent.writeLog))

theorem Keeps.faultJob (h : Keeps s₀ s) {id code : Nat} : Keeps s₀ (s.faultJob id code) := by
  unfold State.faultJob
  split
  exacts [(.ite h.setJob h), h]

theorem Keeps.containClass (h : Keeps s₀ s) {code : Nat} {x : Option Ctx} : Keeps s₀ (s.containClass code x) := by
  unfold State.containClass
  split
  exacts [(.ite h h.setSes), h.faultJob, h]

theorem Keeps.raise (h : Keeps s₀ s) {code cls origin level face : Nat} {owner : Option Ctx} {d0 d1 : Nat} :
    Keeps s₀ (s.raise code cls origin level face owner d0 d1) :=
  .ite h.logEvent.containClass h.logEvent

theorem Keeps.lotsMin (h : Keeps s₀ s) {l : Nat} : Keeps s₀ (s.lotsMin l) :=
  .ite h.setField h

theorem Keeps.readEffect (h : Keeps s₀ s) {a : Nat} : Keeps s₀ (s.readEffect a) :=
  .ite h.setReg (.ite h.setRegNat h)

theorem Keeps.clearFlags (h : Keeps s₀ s) {p : Nat} {v : Word} : Keeps s₀ (s.clearFlags p v) :=
  h.setReg

theorem Keeps.clearTrap (h : Keeps s₀ s) {p : Nat} {v : Word} : Keeps s₀ (s.clearTrap p v) :=
  h.clearRecord

theorem Keeps.clearSpill (h : Keeps s₀ s) {p : Nat} {v : Word} : Keeps s₀ (s.clearSpill p v) :=
  h.clearRecord

theorem Keeps.clearTag (h : Keeps s₀ s) {p : Nat} {v : Word} : Keeps s₀ (s.clearTag p v) :=
  h.clearRecord

theorem Keeps.clearHstErr (h : Keeps s₀ s) {p : Nat} {v : Word} : Keeps s₀ (s.clearHstErr p v) :=
  h.clearRecord

theorem Keeps.clearAddrErr (h : Keeps s₀ s) {l : Option Nat} {v : Word} : Keeps s₀ (s.clearAddrErr l v) :=
  h.clearRecord

theorem Keeps.clearWait (h : Keeps s₀ s) {l : Nat} {v : Word} : Keeps s₀ (s.clearWait l v) :=
  h.clearRecord

theorem Keeps.clearAbort (h : Keeps s₀ s) {l : Option Nat} {v : Word} : Keeps s₀ (s.clearAbort l v) :=
  h.clearRecord

theorem Keeps.clearEcc (h : Keeps s₀ s) {l : Option Nat} {v : Word} : Keeps s₀ (s.clearEcc l v) :=
  h.clearRecord

theorem Keeps.clearTakeover (h : Keeps s₀ s) {l : Nat} {v : Word} : Keeps s₀ (s.clearTakeover l v) :=
  h.clearRecord

theorem Keeps.clearPhaseLast (h : Keeps s₀ s) {v : Word} : Keeps s₀ (s.clearPhaseLast v) :=
  h.setReg

theorem Keeps.writeEffect (h : Keeps s₀ s) {a : Nat} {v : Word} : Keeps s₀ (s.writeEffect a v) := by
  unfold State.writeEffect
  split
  exacts [(.ite h.clearFlags (.ite h.clearTrap (.ite h.clearSpill (.ite h.clearTag (.ite h.clearHstErr h))))), h, (.ite h.clearAddrErr
    (.ite h.clearTakeover (.ite h.clearWait (.ite h.clearAbort (.ite h.clearEcc h))))), (.ite h.clearAddrErr (.ite h.clearAbort (.ite
    h.clearEcc (.ite h.clearPhaseLast h)))), h]

theorem Keeps.addrError (h : Keeps s₀ s) {l : Option Nat} {a src kind : Nat} {owner : Option Ctx} :
    Keeps s₀ (s.addrError l a src kind owner) :=
  Keeps.raise (.ite h.setField h.setRegNat.setRegNat)

theorem Keeps.noteUe (h : Keeps s₀ s) {l : Option Nat} {memory recAddr addr face cls : Nat} {owner : Option Ctx} :
    Keeps s₀ (s.noteUe l memory recAddr addr face cls owner) :=
  Keeps.raise (.ite h.bumpReg h.bumpReg.setRegNat.setRegNat.setRegNat)

theorem Keeps.readRegs (h : Keeps s₀ s) {a n : Nat} : Keeps s₀ (s.readRegs a n).2.2 := by
  induction n generalizing s a with
  | zero => exact h
  | succ n ih =>
    unfold State.readRegs
    split; exacts [h.addrError, ih h.readEffect]

theorem Keeps.writeReg (h : Keeps s₀ s) {a : Nat} {v : Word} : Keeps s₀ (s.writeReg a v).2 := by
  unfold State.writeReg
  split
  exacts [h.addrError, h.writeEffect]

theorem Keeps.setFlags (h : Keeps s₀ s) {p flags : Nat} {owner : Option Ctx} : Keeps s₀ (s.setFlags p flags owner) :=
  .ite h.setRegNat h.setRegNat.raise

theorem Keeps.atItem (h : Keeps s₀ s) {p : Nat} {w : Work} : Keeps s₀ (s.atItem p w) :=
  h.setFace

theorem Keeps.endItem (h : Keeps s₀ s) {p offset : Nat} : Keeps s₀ (s.endItem p offset) :=
  h.setFace

theorem Keeps.untile (h : Keeps s₀ s) {a n : Nat} : Keeps s₀ (s.untile a n) :=
  .ite h.setFace h

theorem Keeps.tile (h : Keeps s₀ s) {a n : Nat} : Keeps s₀ (s.tile a n) :=
  h.untile.setFace

theorem Keeps.busTake (h : Keeps s₀ s) {l : List (Nat × Nat)} : Keeps s₀ (s.busTake l).2 := by
  induction l generalizing s with
  | nil => exact h
  | cons r l ih => exact ih (.ite h.readEffect h)

theorem Keeps.busWrite (h : Keeps s₀ s) {a : Nat} {b : Bytes} : Keeps s₀ (s.busWrite a b) :=
  .ite h.writeEffect h.writeMem.untile

theorem Keeps.tallyMove (h : Keeps s₀ s) {p e a : Nat} : Keeps s₀ (s.tallyMove p e a) :=
  h.bumpReg.setEngine.raise

theorem Keeps.settle {s1 : State} {p e : Nat} {g : Engine} {d : Desc} {cost len drained filled : Nat} (h :
    Keeps s₀ s1) :
    Keeps s₀ (s.settle s1 p e g d cost len drained filled) := by
  unfold State.settle
  dsimp only
  split; exacts [Keeps.tallyMove (Keeps.setEngine (Keeps.bumpReg (by split; exacts [.ite h h.setRing, h]))),
    Keeps.setEngine (Keeps.bumpReg (by split; exacts [.ite h h.setRing, h]))]

theorem Keeps.movePiece {s0 : State} {p e : Nat} {g : Engine} {d : Desc} {data : Bytes} {q : Piece} (h :
    Keeps s₀ s0) :
    Keeps s₀ (s.movePiece s0 p e g d data q) :=
  h.busWrite.settle

theorem Keeps.waitRing (h : Keeps s₀ s) {p e : Nat} {g : Engine} {d : Desc} : Keeps s₀ (s.waitRing p e g d) := by
  unfold State.waitRing
  dsimp only
  split
  exacts [(.ite (Keeps.setRing (by split; exacts [(.ite h.setEngine.setRing h.setEngine), h.setEngine])) (by split; exacts [(.ite
    h.setEngine.setRing h.setEngine), h.setEngine])), (by split; exacts [(.ite h.setEngine.setRing h.setEngine), h.setEngine])]

theorem Keeps.engineError (h : Keeps s₀ s) {p e : Nat} {g : Engine} {kind addr : Nat} {addrKind : Option Nat} :
    Keeps s₀ (s.engineError p e g kind addr addrKind) := by
  unfold State.engineError
  dsimp only
  split
  exacts [h.setEngine, h.setEngine.addrError]

theorem Keeps.noteRead (h : Keeps s₀ s) {a p : Nat} {owner : Option Ctx} : Keeps s₀ (s.noteRead a p owner) :=
  .ite h.noteUe.update h.noteUe

theorem Keeps.engineUe (h : Keeps s₀ s) {p e : Nat} {g : Engine} {addr : Nat} : Keeps s₀ (s.engineUe p e g addr) :=
  h.engineError

theorem Keeps.whenReads (h : Keeps s₀ s) {p e : Nat} {g : Engine} {l : List (Nat × Nat)} {go : State} (hgo : Keeps s₀ go) :
    Keeps s₀ (s.whenReads p e g l go) := by
  unfold State.whenReads
  split
  exacts [h.engineError, (by split; exacts [h.noteRead.engineUe, hgo])]

theorem Keeps.issuePiece (h : Keeps s₀ s) {p e : Nat} {g : Engine} {d : Desc} {q : Piece} : Keeps s₀ (s.issuePiece p e g d q) :=
  .ite h.setEngine (h.whenReads (.ite h.engineError (by split; exacts [h.engineError, h.busTake.movePiece])))

theorem Keeps.issueDense (h : Keeps s₀ s) {p e : Nat} {g : Engine} {d : Desc} : Keeps s₀ (s.issueDense p e g d) := by
  unfold State.issueDense
  split
  exacts [h.waitRing, h.engineError, (.ite h h.issuePiece)]

theorem Keeps.zcFault (h : Keeps s₀ s) {p e page : Nat} : Keeps s₀ (s.zcFault p e page) :=
  Keeps.raise (Keeps.setFace (by split; exacts [(Keeps.each h.setEngine (fun _ h1 _ => h1.setEngine)), h.setEngine]))

theorem Keeps.takeStaged (h : Keeps s₀ s) {p e : Nat} {g : Engine} {d : Desc} : Keeps s₀ (s.takeStaged p e g d) := by
  unfold State.takeStaged
  split
  exacts [h.waitRing, h.engineError, (.ite h.setEngine (h.whenReads h.busTake.settle))]

theorem Keeps.putStaged (h : Keeps s₀ s) {p e : Nat} {g : Engine} {d : Desc} {out : Bytes} : Keeps s₀ (s.putStaged p e g d out) := by
  unfold State.putStaged
  split
  exacts [h.waitRing, h.engineError, (.ite h.tile.settle (.ite h.setEngine (.ite h.engineError (by split; exacts [h.engineError,
    h.busWrite.settle]))))]

theorem Keeps.issueStaged (h : Keeps s₀ s) {p e : Nat} {g : Engine} {d : Desc} : Keeps s₀ (s.issueStaged p e g d) := by
  unfold State.issueStaged
  split
  exacts [(by split; exacts [h.waitRing, h.engineError, h.issuePiece]), (.ite h.takeStaged (by split; exacts [h.zcFault, h.putStaged]))]

theorem Keeps.sendChunk (h : Keeps s₀ s) {p e : Nat} {g : Engine} {q : QueuedDesc} {rest : List QueuedDesc} :
    Keeps s₀ (s.sendChunk p e g q rest) :=
  h.update.setEngine.bumpReg

theorem Keeps.inject (h : Keeps s₀ s) {p e : Nat} {g : Engine} {q : QueuedDesc} {rest : List QueuedDesc} :
    Keeps s₀ (s.inject p e g q rest) :=
  .ite h.setEngine (h.whenReads (.ite h.bumpReg.sendChunk h.bumpReg.setEngine))

theorem Keeps.issue (h : Keeps s₀ s) {p e : Nat} : Keeps s₀ (s.issue p e) := by
  unfold State.issue
  dsimp only
  split
  exacts [h, (.ite h (.ite (.ite h h.atItem.inject) (.ite h (.ite h.atItem.issueStaged h.atItem.issueDense))))]

theorem Keeps.queueDesc (h : Keeps s₀ s) {p e offset layer : Nat} {work : Work} : Keeps s₀ (s.queueDesc p e offset layer work) :=
  h.setEngine.setFace

theorem execHoistCopy_settles (h : Keeps s₀ s) {p engine offset : Nat} {work : Work} : Settles s₀ (execHoistCopy p engine offset work s) :=
  h.when h.queueDesc

theorem execHoistFill_settles (h : Keeps s₀ s) {p engine offset : Nat} {work : Work} : Settles s₀ (execHoistFill p engine offset work s) :=
  h.when h.queueDesc

theorem Keeps.bumpCtr (h : Keeps s₀ s) {p c : Nat} : Keeps s₀ (s.bumpCtr p c) :=
  h.setFace

theorem Keeps.endFused (h : Keeps s₀ s) {p : Nat} {c : Fused} : Keeps s₀ (s.endFused p c) :=
  h.setFace.bumpCtr.endItem

theorem Keeps.fusedByEngine (h : Keeps s₀ s) {p e offset : Nat} : Keeps s₀ (s.fusedByEngine p e offset) := by
  unfold State.fusedByEngine
  split
  exacts [h, (by split; exacts [(.ite h.endFused h), h])]

theorem execDescriptorComplete_settles (h : Keeps s₀ s) {p engine : Nat} : Settles s₀ (execDescriptorComplete p engine s) :=
  h.when h.setEngine.bumpCtr.setFace.fusedByEngine.endItem

theorem Keeps.stopFace (h : Keeps s₀ s) {p : Nat} {owner : Option Ctx} : Keeps s₀ (s.stopFace p owner) :=
  h.setFace

theorem Keeps.noteBus (h : Keeps s₀ s) {p e : Nat} : Keeps s₀ (s.noteBus p e) :=
  Keeps.raise (.ite h.bumpReg h.setRegNat.setRegNat.setRegNat.setRegNat)

theorem Keeps.busError (h : Keeps s₀ s) {p : Nat} : Keeps s₀ (s.busError p) := by
  unfold State.busError
  split
  exacts [h, (Keeps.each h.stopFace (fun _ h1 _ => h1.noteBus))]

theorem execBusError_settles (h : Keeps s₀ s) {p engine : Nat} : Settles s₀ (execBusError p engine s) :=
  h.when h.busError

theorem Keeps.countBlk (h : Keeps s₀ s) {p c : Nat} : Keeps s₀ (s.countBlk p c) :=
  .ite h h.bumpCtr

theorem Keeps.endBlk (h : Keeps s₀ s) {j : BlkJob} {status reason badBlock : Nat} : Keeps s₀ (s.endBlk j status reason badBlock) :=
  Keeps.countBlk (by split; exacts [h.busWrite, h.addrError.raise])

theorem Keeps.refuseBlk (h : Keeps s₀ s) {j : BlkJob} : Keeps s₀ (s.refuseBlk j) :=
  Keeps.countBlk (.ite h.busWrite h)

theorem Keeps.blkBus (h : Keeps s₀ s) {l : Nat} {j : BlkJob} {kind addr : Nat} : Keeps s₀ (s.blkBus l j kind addr) :=
  h.endBlk.raise

theorem Keeps.blkMiss (h : Keeps s₀ s) {l : Nat} {j : BlkJob} {bad : Nat × Nat} : Keeps s₀ (s.blkMiss l j bad) :=
  h.addrError.blkBus

theorem Keeps.blkPoison (h : Keeps s₀ s) {l : Nat} {j : BlkJob} {a : Nat} : Keeps s₀ (s.blkPoison l j a) :=
  h.noteRead.blkBus

theorem Keeps.blkReads (h : Keeps s₀ s) {l : Nat} {j : BlkJob} {runs : List (Nat × Nat)} {go : State} (hgo : Keeps s₀ go) :
    Keeps s₀ (s.blkReads l j runs go) := by
  unfold State.blkReads
  split
  exacts [h.blkMiss, (by split; exacts [h.blkPoison, hgo])]

theorem Keeps.blkSkip (h : Keeps s₀ s) {j : BlkJob} : Keeps s₀ (s.blkSkip j).1 :=
  h.busWrite

theorem Keeps.setUnit (h : Keeps s₀ s) {l u : Nat} {j : Option BlkJob} : Keeps s₀ (s.setUnit l u j) :=
  h.setLevel

theorem Keeps.blkCorrupt (h : Keeps s₀ s) {l : Nat} {j : BlkJob} {reason badBlock : Nat} : Keeps s₀ (s.blkCorrupt l j reason badBlock) :=
  h.endBlk.bumpReg.raise

theorem Keeps.noteFirst (h : Keeps s₀ s) {j : BlkJob} : Keeps s₀ (s.noteFirst j) :=
  .ite h h.update

theorem Keeps.startBlk (h : Keeps s₀ s) {l u : Nat} {j : BlkJob} : Keeps s₀ (s.startBlk l u j) :=
  .ite h.blkCorrupt (.ite h.endBlk (.ite h.endBlk.bumpReg h.setUnit))

theorem Keeps.skipBlk (h : Keeps s₀ s) {l u : Nat} {j : BlkJob} : Keeps s₀ (s.skipBlk l u j) := by
  unfold State.skipBlk
  dsimp only
  split
  exacts [h.blkMiss, (h.blkReads h.blkSkip.startBlk)]

theorem Keeps.beginBlk (h : Keeps s₀ s) {l u : Nat} {j0 : BlkJob} : Keeps s₀ (s.beginBlk l u j0) :=
  .ite h.refuseBlk (h.blkReads (.ite h.countBlk (.ite h.refuseBlk (.ite h.skipBlk h.noteFirst.startBlk))))

theorem Keeps.queueBlk (h : Keeps s₀ s) {p offset : Nat} {work : Work} : Keeps s₀ (s.queueBlk p offset work) :=
  h.setLevel.setFace

theorem execCompress_settles (h : Keeps s₀ s) {p offset : Nat} {work : Work} : Settles s₀ (execCompress p offset work s) :=
  h.when h.queueBlk

theorem execDecompress_settles (h : Keeps s₀ s) {p offset : Nat} {work : Work} : Settles s₀ (execDecompress p offset work s) :=
  h.when h.queueBlk

theorem execVerify_settles (h : Keeps s₀ s) {p offset : Nat} {work : Work} : Settles s₀ (execVerify p offset work s) :=
  h.when h.queueBlk

theorem Keeps.dispatchBlk (h : Keeps s₀ s) {level : Nat} : Keeps s₀ (s.dispatchBlk level) := by
  unfold State.dispatchBlk
  dsimp only
  split
  exacts [h.setLevel.beginBlk, h, h]

theorem Keeps.freeUnit (h : Keeps s₀ s) {l u : Nat} : Keeps s₀ (s.freeUnit l u) :=
  h.setUnit

theorem Keeps.segDone (h : Keeps s₀ s) {l u : Nat} {j : BlkJob} : Keeps s₀ (s.segDone l u j) :=
  .ite h.setUnit h.freeUnit.endBlk

theorem Keeps.outFull (h : Keeps s₀ s) {l u : Nat} {j : BlkJob} : Keeps s₀ (s.outFull l u j) :=
  h.freeUnit.endBlk.bumpReg

theorem Keeps.compressSeg (h : Keeps s₀ s) {l u : Nat} {j : BlkJob} : Keeps s₀ (s.compressSeg l u j) :=
  h.freeUnit.blkReads (.ite h.bumpReg.bumpReg.outFull (by split; exacts [h.bumpReg.bumpReg.freeUnit.blkMiss,
    (by dsimp only; split; exacts [h.bumpReg.bumpReg.busWrite.freeUnit.blkMiss, (Keeps.segDone (.ite h.bumpReg.bumpReg.busWrite.busWrite
    h.bumpReg.bumpReg.busWrite))])]))

theorem Keeps.putSegment (h : Keeps s₀ s) {l u : Nat} {j : BlkJob} {a n left : Nat} : Keeps s₀ (s.putSegment l u j a n left) := by
  unfold State.putSegment
  dsimp only
  split
  exacts [h.freeUnit.bumpReg.blkCorrupt, (.ite h.bumpReg.outFull (by split; exacts [h.bumpReg.freeUnit.blkMiss, (Keeps.segDone (.ite
    h.bumpReg.busWrite h.bumpReg))]))]

theorem Keeps.decompressSeg (h : Keeps s₀ s) {l u : Nat} {j : BlkJob} : Keeps s₀ (s.decompressSeg l u j) :=
  h.freeUnit.blkReads (h.freeUnit.blkReads (h.freeUnit.blkReads h.putSegment))

theorem Keeps.segment (h : Keeps s₀ s) {level unit : Nat} : Keeps s₀ (s.segment level unit) := by
  unfold State.segment
  split
  exacts [h, (.ite h.compressSeg h.decompressSeg)]

theorem Keeps.cancelBlk (h : Keeps s₀ s) {l : Nat} {c : Ctx} : Keeps s₀ (s.cancelBlk l c) :=
  Keeps.each (Keeps.setLevel (Keeps.each h (fun _ h1 _ => h1.noteFirst))) (fun _ h1 _ => h1.endBlk)

theorem execMotionBandStart_settles (h : Keeps s₀ s) {p session band : Nat} : Settles s₀ (execMotionBandStart p session band s) := by
  unfold execMotionBandStart
  dsimp only
  split
  exacts [h.ok, (h.when h.setFace)]

theorem execColumnBlockLoad_settles (h : Keeps s₀ s) {p : Nat} {block : Int} : Settles s₀ (execColumnBlockLoad p block s) := by
  unfold execColumnBlockLoad
  split
  exacts [h.ok, (by split; exacts [h.ok, (h.when h.setFace)])]

theorem execMotionTileStart_settles (h : Keeps s₀ s) {p : Nat} : Settles s₀ (execMotionTileStart p s) := by
  unfold execMotionTileStart
  split
  exacts [h.ok, (h.when h.setFace.bumpReg.bumpReg.bumpReg)]

theorem execMotionBandPublish_settles (h : Keeps s₀ s) {p : Nat} : Settles s₀ (execMotionBandPublish p s) := by
  unfold execMotionBandPublish
  split
  exacts [h.ok, (h.when h.setFace.setSes)]

theorem Keeps.cancelMotion (h : Keeps s₀ s) {session : Nat} : Keeps s₀ (s.cancelMotion session) :=
  h.update

theorem execRegionMapPaint_settles (h : Keeps s₀ s) {session : Nat} {detections : List Detection} {late : Bool} :
    Settles s₀ (execRegionMapPaint session detections late s) := by
  unfold execRegionMapPaint
  dsimp only
  split
  exacts [(h.when h.setSes), h.ok, h.ok]

theorem Keeps.publish (h : Keeps s₀ s) {p r place bytes : Nat} {tag : Option (BitVec 4)} : Keeps s₀ (s.publish p r place bytes tag) :=
  h.setRing

theorem Keeps.refill (h : Keeps s₀ s) {p r : Nat} : Keeps s₀ (s.refill p r) :=
  Keeps.each h (fun _ h1 _ => h1.setEngine)

theorem Keeps.noteBlock (h : Keeps s₀ s) {p r : Nat} {tag : Option (BitVec 4)} : Keeps s₀ (s.noteBlock p r tag) := by
  unfold State.noteBlock
  split
  exacts [h.setRing, h, h]

theorem Keeps.fusedCount (h : Keeps s₀ s) {p : Nat} {hit : FusedStep → Bool} : Keeps s₀ (s.fusedCount p hit) := by
  unfold State.fusedCount
  split
  exacts [h, (.ite (.ite h.endFused h.setFace) h)]

theorem execSkipPublish_settles (h : Keeps s₀ s) {p ring bytes : Nat} {tag : Option (BitVec 4)} :
    Settles s₀ (execSkipPublish p ring bytes tag s) :=
  h.when (.ite (by split; exacts [(Keeps.fusedCount (Keeps.refill (Keeps.publish (.ite h.noteBlock h)))), h.setRing]) h.setRing)

theorem Keeps.fusedDrain (h : Keeps s₀ s) {p r : Nat} : Keeps s₀ (s.fusedDrain p r) :=
  h.fusedCount

theorem Keeps.release (h : Keeps s₀ s) {p r : Nat} : Keeps s₀ (s.release p r) :=
  h.setRing

theorem Keeps.redrain (h : Keeps s₀ s) {p r : Nat} : Keeps s₀ (s.redrain p r) :=
  Keeps.each h (fun _ h1 _ => (by dsimp only; split; exacts [(.ite h1.setEngine h1), h1]))

theorem execSkipRelease_settles (h : Keeps s₀ s) {p ring : Nat} : Settles s₀ (execSkipRelease p ring s) :=
  h.when (.ite h.setRing h.release.redrain.fusedDrain)

theorem Keeps.queueSteps (h : Keeps s₀ s) {p : Nat} {work : Work} {layer : Nat} {l : List FusedStep} :
    Keeps s₀ (s.queueSteps p work layer l) :=
  Keeps.each h (fun _ h1 _ => (.ite h1.queueDesc h1))

theorem execFusedStageCommand_settles (h : Keeps s₀ s) {p offset : Nat} {work : Work} : Settles s₀ (execFusedStageCommand p offset work s) :=
  h.when (.ite h.bumpCtr h.setFace.queueSteps)

theorem Keeps.arriveAt (h : Keeps s₀ s) {scope unit id : Nat} {w : MusterWait} : Keeps s₀ (s.arriveAt scope unit id w) :=
  .ite h.update h.update

theorem execMuster_settles (h : Keeps s₀ s) {p offset : Nat} {work : Work} : Settles s₀ (execMuster p offset work s) :=
  h.when h.arriveAt.endItem

theorem execMusterRelease_settles (h : Keeps s₀ s) {scope unit id : Nat} : Settles s₀ (execMusterRelease scope unit id s) := by
  unfold execMusterRelease
  split
  exacts [h.ok, (h.when (Keeps.each (.ite h.update.bumpReg h.update) (fun _ h1 _ => h1.arriveAt)))]

theorem execTram_settles (h : Keeps s₀ s) {p engine offset layer : Nat} {work : Work} : Settles s₀ (execTram p engine offset layer work s) :=
  h.when (.ite h.queueDesc.issue h.queueDesc)

theorem Keeps.tramDone (h : Keeps s₀ s) {p e r layer chunk place : Nat} {tag : Option (BitVec 4)} {n : Nat} :
    Keeps s₀ (s.tramDone p e r layer chunk place tag n) :=
  h.setEngine.publish

theorem Keeps.tramStore (h : Keeps s₀ s) {p e r layer chunk place : Nat} {tag : Option (BitVec 4)} {data : Bytes} :
    Keeps s₀ (s.tramStore p e r layer chunk place tag data) :=
  h.busWrite.tramDone.bumpReg

theorem Keeps.tramLeave (h : Keeps s₀ s) {p e layer chunk dueBy bytes : Nat} : Keeps s₀ (s.tramLeave p e layer chunk dueBy bytes) :=
  h.setFace.bumpReg

theorem Keeps.chunkSeen (h : Keeps s₀ s) {c : TramChunk} {p : Nat} : Keeps s₀ (s.chunkSeen c p) :=
  h.update

theorem Keeps.takeChunk (h : Keeps s₀ s) {p : Nat} {c : TramChunk} : Keeps s₀ (s.takeChunk p c) := by
  unfold State.takeChunk
  split
  exacts [h, (by split; exacts [h, (by dsimp only; split; exacts [(.ite h.tramStore h.tramLeave), h.tramLeave])])]

theorem execTramChunkArrive_settles (h : Keeps s₀ s) {home p layer chunk dueBy : Nat} {data : Bytes} :
    Settles s₀ (execTramChunkArrive home p layer chunk dueBy data s) := by
  unfold execTramChunkArrive
  split
  exacts [h.ok, (h.when h.takeChunk.chunkSeen)]

theorem Keeps.refetchPoison (h : Keeps s₀ s) {p e a : Nat} : Keeps s₀ (s.refetchPoison p e a) := by
  unfold State.refetchPoison
  split
  exacts [h.noteRead.engineUe, h]

theorem Keeps.refetch (h : Keeps s₀ s) {p e r k : Nat} {m : TramMissed} {d : Desc} : Keeps s₀ (s.refetch p e r k m d) :=
  .ite h.setFace.setEngine.busWrite.bumpReg.tramDone.bumpReg (by dsimp only; split; exacts [(.ite
    h.setFace.setEngine.busWrite.bumpReg.setRing.engineError h.setFace.setEngine.busWrite.bumpReg.setRing.refetchPoison),
    h.setFace.setEngine.busWrite.bumpReg.setRing.refetchPoison])

theorem Keeps.tramRefetch (h : Keeps s₀ s) {p engine : Nat} : Keeps s₀ (s.tramRefetch p engine) := by
  unfold State.tramRefetch
  split
  exacts [h, (by split; exacts [h, (by split; exacts [h, (by split; exacts [h, (.ite h.refetch h)])])])]

theorem Keeps.bring (h : Keeps s₀ s) {l c x : Nat} : Keeps s₀ (s.bring l c x) :=
  h.setLevel

theorem Keeps.returnLots (h : Keeps s₀ s) {l : Nat} : Keeps s₀ (s.returnLots l) :=
  h.setLevel

theorem Keeps.mayBorrowAgain (h : Keeps s₀ s) {id : Nat} : Keeps s₀ (s.mayBorrowAgain id) :=
  h.update

theorem execPoolBorrow_settles (h : Keeps s₀ s) {ring : RingRef} {ctx : Ctx} : Settles s₀ (execPoolBorrow ring ctx s) := by
  unfold execPoolBorrow
  dsimp only
  split
  exacts [(h.when h.setRing), (h.when h.setLevel.bring.lotsMin)]

theorem Keeps.dueLots (h : Keeps s₀ s) {l c x w : Nat} : Keeps s₀ (s.dueLots l c x w) :=
  h.setLevel

theorem execBorrowReturnBy_settles (h : Keeps s₀ s) {ring : RingRef} : Settles s₀ (execBorrowReturnBy ring s) := by
  unfold execBorrowReturnBy
  split
  exacts [(h.when h.setRing.bumpReg), (h.when h.dueLots.returnLots.bumpReg)]

theorem Keeps.cyclicWait (h : Keeps s₀ s) {c : List Wait} : Keeps s₀ (s.cyclicWait c) := by
  unfold State.cyclicWait
  split
  exacts [h, (Keeps.raise (.ite (Keeps.bumpReg (Keeps.each h (fun _ h1 _ => h1.stopFace))) (Keeps.setRegNat (Keeps.setRegNat (Keeps.each
    h (fun _ h1 _ => h1.stopFace))))))]

theorem Keeps.sampleWaits (h : Keeps s₀ s) {sel : Nat → Bool} {seen : List (Nat × Nat × Nat × Nat)} : Keeps s₀ (s.sampleWaits sel seen).1 :=
  Keeps.each h (fun _ h1 _ => h1.cyclicWait)

theorem execRingMonitorSample_settles (h : Keeps s₀ s) {level : Nat} : Settles s₀ (execRingMonitorSample level s) :=
  h.when h.sampleWaits.setLevel

theorem execWaitJoinSample_settles (h : Keeps s₀ s) : Settles s₀ (execWaitJoinSample s) :=
  h.sampleWaits.update.ok

theorem execFaceIdleGate_settles (h : Keeps s₀ s) {p : Nat} : Settles s₀ (execFaceIdleGate p s) :=
  h.when h.setFace

theorem execFaceUngate_settles (h : Keeps s₀ s) {p : Nat} : Settles s₀ (execFaceUngate p s) :=
  h.when h.setFace

theorem Keeps.setShadow (h : Keeps s₀ s) {v : Nat} : Keeps s₀ (s.setShadow v) :=
  Keeps.each h (fun _ h1 _ => h1.setField)

theorem Keeps.setOldFrames (h : Keeps s₀ s) {v : Nat} : Keeps s₀ (s.setOldFrames v) :=
  Keeps.each h (fun _ h1 _ => h1.setField)

theorem Keeps.countOld (h : Keeps s₀ s) : Keeps s₀ (s.countOld) :=
  .ite (.ite h.setOldFrames.setShadow h.setOldFrames) h

theorem Keeps.removeRound (h : Keeps s₀ s) {id : Nat} : Keeps s₀ (s.removeRound id) :=
  h.update

theorem Keeps.setRound (h : Keeps s₀ s) {r : Round} : Keeps s₀ (s.setRound r) :=
  h.update

theorem Keeps.abortRecord (h : Keeps s₀ s) {c : Option Nat} {kind reason subject : Nat} : Keeps s₀ (s.abortRecord c kind reason subject) :=
  .ite h h.setRegNat.setRegNat

theorem Keeps.dropRound (h : Keeps s₀ s) {r : Round} {reason : Nat} : Keeps s₀ (s.dropRound r reason) :=
  .ite h.removeRound (Keeps.raise (by split; exacts [(.ite h.removeRound.bumpReg.abortRecord.setShadow
    h.removeRound.bumpReg.abortRecord), h.removeRound.bumpReg.abortRecord.bumpReg, h.removeRound.bumpReg.abortRecord,
    h.removeRound.bumpReg.abortRecord, h.removeRound.bumpReg.abortRecord, h.removeRound.bumpReg.abortRecord,
    h.removeRound.bumpReg.abortRecord]))

theorem Keeps.dropRounds (h : Keeps s₀ s) {sel : Round → Bool} {reason : Nat} : Keeps s₀ (s.dropRounds sel reason) :=
  Keeps.each h (fun _ h1 _ => h1.dropRound)

theorem Keeps.dieReset (h : Keeps s₀ s) {die : Nat} : Keeps s₀ (s.dieReset die) :=
  h.dropRounds

theorem Keeps.addRound (h : Keeps s₀ s) {f : Flip} {timed : Option Nat} {deadline : Nat} {members : List Member} {single hold : Bool} :
    Keeps s₀ (s.addRound f timed deadline members single hold) :=
  h.update

theorem Keeps.preempt (h : Keeps s₀ s) {r : Round} : Keeps s₀ (s.preempt r) :=
  h.dropRound.addRound

theorem Keeps.preemptFor (h : Keeps s₀ s) {x : Flip} : Keeps s₀ (s.preemptFor x) := by
  unfold State.preemptFor
  split
  exacts [(Keeps.each h (fun _ h1 _ => h1.preempt)), h, h, h, h, h, h]

theorem Keeps.tryArm (h : Keeps s₀ s) {id : Nat} : Keeps s₀ (s.tryArm id) := by
  unfold State.tryArm
  split
  exacts [h, (.ite h (.ite h.preemptFor.setRound h.preemptFor))]

theorem Keeps.requestRound (h : Keeps s₀ s) {f : Flip} {timed : Option Nat} {deadline : Nat} : Keeps s₀ (s.requestRound f timed deadline) :=
  h.addRound.tryArm

theorem Keeps.unhold (h : Keeps s₀ s) {r : Round} : Keeps s₀ (s.unhold r) :=
  h.setRound.tryArm

theorem Keeps.roundFired (h : Keeps s₀ s) {r : Round} : Keeps s₀ (s.roundFired r) :=
  h.removeRound.bumpReg

theorem Keeps.armCheckpoint (h : Keeps s₀ s) {id : Nat} {leave : List Nat} : Keeps s₀ (s.armCheckpoint id leave) :=
  h.addRound.update.tryArm

theorem Keeps.frameDone (h : Keeps s₀ s) {id : Nat} {f : FrameLeft} : Keeps s₀ (s.frameDone id f) :=
  h.setSes.armCheckpoint

theorem Keeps.missLevel (h : Keeps s₀ s) {id : Nat} {missed : Bool} : Keeps s₀ (s.missLevel id missed) :=
  .ite h.bumpReg h

theorem Keeps.encodeSettled (h : Keeps s₀ s) {id : Nat} : Keeps s₀ (s.encodeSettled id) := by
  unfold State.encodeSettled
  dsimp only
  split
  exacts [h, (.ite h.setSes.countOld.frameDone h)]

theorem Keeps.dropSlices (h : Keeps s₀ s) {id : Nat} {l : List Nat} : Keeps s₀ (s.dropSlices id l) :=
  h.missLevel.setSes.encodeSettled

theorem Keeps.dropRest (h : Keeps s₀ s) {id : Nat} : Keeps s₀ (s.dropRest id) := by
  unfold State.dropRest
  split
  exacts [h, h.dropSlices]

theorem Keeps.setCtx (h : Keeps s₀ s) {l c x : Nat} {v : CoderCtx} : Keeps s₀ (s.setCtx l c x v) :=
  h.setLevel

theorem Keeps.streamYhat (h : Keeps s₀ s) {v : CoderCtx} : Keeps s₀ (s.streamYhat v) := by
  unfold State.streamYhat
  split
  exacts [h, (.ite h.setSes h)]

theorem Keeps.runAt (h : Keeps s₀ s) {l c x : Nat} : Keeps s₀ (s.runAt l c x) :=
  h.setCtx.bumpReg.bumpReg.bring.returnLots

theorem Keeps.portDone (h : Keeps s₀ s) {p session slice status bytes : Nat} : Keeps s₀ (s.portDone p session slice status bytes) :=
  .ite h h.setFace

theorem Keeps.decodeSliceDone (h : Keeps s₀ s) {d : CoderDesc} {yhat : List Nat} {bad : Bool} : Keeps s₀ (s.decodeSliceDone d yhat bad) :=
  .ite h.setSes h

theorem Keeps.encodeSliceDone (h : Keeps s₀ s) {d : CoderDesc} {data : Bytes} {bad : Bool} : Keeps s₀ (s.encodeSliceDone d data bad) := by
  unfold State.encodeSliceDone
  dsimp only
  split
  exacts [h, (.ite h (.ite h.dropSlices h.setSes))]

theorem Keeps.endCoder (h : Keeps s₀ s) {l c x status : Nat} : Keeps s₀ (s.endCoder l c x status) := by
  unfold State.endCoder
  dsimp only
  split
  exacts [h, (.ite h.setCtx.setLevel.portDone (.ite h.setCtx.setLevel.portDone.decodeSliceDone
    h.setCtx.setLevel.portDone.encodeSliceDone))]

theorem Keeps.poolError (h : Keeps s₀ s) {l c x bank : Nat} {owner : Option Ctx} : Keeps s₀ (s.poolError l c x bank owner) :=
  h.bumpReg.raise.endCoder

theorem Keeps.poolUe (h : Keeps s₀ s) {l bank : Nat} {owner : Option Ctx} : Keeps s₀ (s.poolUe l bank owner) :=
  h.update.noteUe

theorem Keeps.cancelCoder (h : Keeps s₀ s) {l session : Nat} : Keeps s₀ (s.cancelCoder l session) :=
  Keeps.each (Keeps.setLevel (Keeps.each h (fun _ h1 _ => h1.endCoder))) (fun _ h1 _ => h1.portDone)

theorem Keeps.setWritten (h : Keeps s₀ s) {e : Env} {ts : List (Nat × Tensor)} : Keeps s₀ (s.setWritten e ts) := by
  unfold State.setWritten
  split
  exacts [(.ite (by split; exacts [h.setSes, h]) h.setSes), (by split; exacts [h.setJob, h])]

theorem Keeps.noteWrote (h : Keeps s₀ s) {e : Env} {layer out : Nat} : Keeps s₀ (s.noteWrote e layer out) := by
  unfold State.noteWrote
  split
  exacts [(.ite (by split; exacts [h.setSes, h]) h.setSes), h]

theorem Keeps.putWritten (h : Keeps s₀ s) {e : Env} {layer out : Nat} {t : Tensor} : Keeps s₀ (s.putWritten e layer out t) :=
  .ite h (.ite h.setWritten.noteWrote h.setWritten)

theorem Keeps.trapNan (h : Keeps s₀ s) {p layer : Nat} {c : Ctx} {at' : Nat × Nat × Nat × Nat} {t : Nat × Nat} :
    Keeps s₀ (s.trapNan p layer c at' t) :=
  .ite h.bumpReg (.ite h h.setRegNat.setRegNat.setRegNat.setRegNat.setRegNat.setRegNat.setRegNat.setRegNat.raise)

theorem Keeps.spilled (h : Keeps s₀ s) {p layer tensor : Nat} {c : Ctx} {sc : ScaleRec} {q : Nat × Nat × Nat × Bool × Nat × Nat} :
    Keeps s₀ (s.spilled p layer tensor c sc q) :=
  .ite h.bumpReg.bumpReg (Keeps.raise (.ite h.bumpReg.bumpReg.bumpReg
    h.bumpReg.bumpReg.setRegNat.setRegNat.setRegNat.setRegNat.setRegNat))

theorem Keeps.stopStage (h : Keeps s₀ s) {p ring : Nat} : Keeps s₀ (s.stopStage p ring) :=
  Keeps.each h.setFace (fun _ h1 _ => h1.setEngine)

theorem Keeps.tagFault (h : Keeps s₀ s) {p ring layer : Nat} {c : Ctx} {block data : Nat} {tags : List Nat} :
    Keeps s₀ (s.tagFault p ring layer c block data tags) :=
  Keeps.raise (.ite h.stopStage.bumpReg h.stopStage.setRegNat.setRegNat.setRegNat.setRegNat)

theorem Keeps.readRing (h : Keeps s₀ s) {p : Nat} {op : ComputeOp} {blocks : Nat} : Keeps s₀ (s.readRing p op blocks) := by
  unfold State.readRing
  split
  exacts [h.setRing, h]

theorem Keeps.atStep (h : Keeps s₀ s) {p : Nat} {e : Env} {op : ComputeOp} {l : LayerRec} : Keeps s₀ (s.atStep p e op l) :=
  h.readRing.setFace

theorem Keeps.stepRecords (h : Keeps s₀ s) {p : Nat} {e : Env} {layer lo : Nat} {l : LayerRec} {a : LayerIn} {rs : List Res} {o :
    StepOut} {extra : Nat} : Keeps s₀ (s.stepRecords p e layer lo l a rs o extra) :=
  Keeps.each (Keeps.each h.setFlags (fun _ h1 _ => h1.trapNan)) (fun _ h1 _ => h1.spilled)

theorem Keeps.greyRecords (h : Keeps s₀ s) {p : Nat} {e : Env} {g : List (Nat × List Res)} {layer lo count : Nat} :
    Keeps s₀ (s.greyRecords p e g layer lo count) :=
  Keeps.each h (fun _ h1 _ => (.ite h1.stepRecords (.ite h1.stepRecords h1)))

theorem Keeps.gateCounts (h : Keeps s₀ s) {e : Env} {op : ComputeOp} {l : LayerRec} {skipped : List Nat} :
    Keeps s₀ (s.gateCounts e op l skipped) := by
  unfold State.gateCounts
  split
  exacts [h, (by dsimp only; split; exacts [h, (.ite h h.setSes)])]

theorem Keeps.keepRoots (h : Keeps s₀ s) {e : Env} {op : ComputeOp} {l : LayerRec} {a : LayerIn} {ix : List Nat} :
    Keeps s₀ (s.keepRoots e op l a ix) := by
  unfold State.keepRoots
  split
  exacts [h, (by split; exacts [(.ite h.setJob h), h])]

theorem Keeps.runGradient (h : Keeps s₀ s) {p : Nat} {e : Env} {op : ComputeOp} {l : LayerRec} {g out : Nat} :
    Keeps s₀ (s.runGradient p e op l g out) :=
  h.setWritten.stepRecords.setFace

theorem Keeps.lateMap (h : Keeps s₀ s) {e : Env} {l : LayerRec} : Keeps s₀ (s.lateMap e l) := by
  unfold State.lateMap
  split
  exacts [h, (by dsimp only; split; exacts [(.ite h.setSes h), h, h])]

theorem Keeps.runStep (h : Keeps s₀ s) {p : Nat} {e : Env} {op : ComputeOp} {l : LayerRec} : Keeps s₀ (s.runStep p e op l) :=
  Keeps.setFace (.ite h.lateMap (Keeps.stepRecords (Keeps.greyRecords (Keeps.gateCounts (Keeps.keepRoots
    (by split; exacts [(by split; exacts [h.lateMap.putWritten.setJob, h.lateMap.putWritten]), h.lateMap.putWritten]))))))

theorem Keeps.stepDone (h : Keeps s₀ s) {p : Nat} {op : ComputeOp} : Keeps s₀ (s.stepDone p op) := by
  unfold State.stepDone
  split
  exacts [h, (by split; exacts [h, (Keeps.fusedCount (by split; exacts [h.setFace.setRing, h.setFace]))])]

theorem Keeps.stageTally (h : Keeps s₀ s) {p ring : Nat} {c : Ctx} : Keeps s₀ (s.stageTally p ring c) :=
  h.stopStage.bumpReg.raise

theorem Keeps.stepWait_getD (h : Keeps s₀ s) {p : Nat} {op : ComputeOp} {run : State} (hrun : Keeps s₀ run) :
    Keeps s₀ ((s.stepWait p op).getD run) := by
  unfold State.stepWait
  cases op.inRing.filter _ with
  | none => exact hrun
  | some r => exact h.setRing

theorem execComputeStep_settles (h : Keeps s₀ s) {p : Nat} {ctx : Ctx} {op : ComputeOp} : Settles s₀ (execComputeStep p ctx op s) := by
  unfold execComputeStep
  split
  · exact h.ok
  · refine h.when (h.stepWait_getD ?_)
    split
    · exact h.atStep.tagFault
    · exact h.atStep.stageTally
    · refine Keeps.stepDone ?_
      split
      · exact h.atStep.runGradient
      · exact .ite h.atStep h.atStep.runStep

theorem Keeps.cancelMoves (h : Keeps s₀ s) {c : Ctx} : Keeps s₀ (s.cancelMoves c) :=
  h.update

theorem Keeps.cancelWork (h : Keeps s₀ s) {id : Nat} : Keeps s₀ (s.cancelWork id) :=
  Keeps.cancelMoves (Keeps.cancelMotion (Keeps.each h (fun _ h1 _ => h1.cancelCoder.cancelBlk)))

theorem Keeps.withdrawSession (h : Keeps s₀ s) {id : Nat} {all : Bool} : Keeps s₀ (s.withdrawSession id all) :=
  h.dropRounds

theorem Keeps.toClosing (h : Keeps s₀ s) {id : Nat} {graceful : Bool} : Keeps s₀ (s.toClosing id graceful) :=
  Keeps.countOld (Keeps.setSes (Keeps.withdrawSession (.ite h h.cancelWork)))

theorem Keeps.toParking (h : Keeps s₀ s) {id : Nat} : Keeps s₀ (s.toParking id) :=
  .ite h.withdrawSession.setSes.countOld h

theorem Keeps.afterCommit (h : Keeps s₀ s) {id : Nat} : Keeps s₀ (s.afterCommit id) :=
  .ite h (.ite h.toClosing (.ite h.toParking h))

theorem Keeps.askPark (h : Keeps s₀ s) {id : Nat} : Keeps s₀ (s.askPark id) :=
  .ite h.setSes h.toParking

theorem Keeps.loseSession (h : Keeps s₀ s) {id detail : Nat} : Keeps s₀ (s.loseSession id detail) :=
  h.toClosing.raise

theorem Keeps.resetSession (h : Keeps s₀ s) {id : Nat} : Keeps s₀ (s.resetSession id) :=
  h.cancelWork.withdrawSession.setSes.countOld.afterCommit

theorem Keeps.pick (h : Keeps s₀ s) {l : List Nat} : Keeps s₀ (s.pick l).2 := by
  unfold State.pick
  split
  exacts [h, h.update]

theorem Keeps.moveSession (h : Keeps s₀ s) {id : Nat} : Keeps s₀ (s.moveSession id) := by
  unfold State.moveSession
  dsimp only
  split
  exacts [h.pick.requestRound, h.askPark.raise]

theorem execSessionActivate_settles (h : Keeps s₀ s) {session : Nat} : Settles s₀ (execSessionActivate session s) :=
  h.when h.setSes

theorem execSessionParkComplete_settles (h : Keeps s₀ s) {session : Nat} : Settles s₀ (execSessionParkComplete session s) :=
  h.when (.ite h.setSes.toClosing h.setSes)

theorem execSessionFree_settles (h : Keeps s₀ s) {session : Nat} : Settles s₀ (execSessionFree session s) :=
  h.when h.freeSes

theorem execSliceEmit_settles (h : Keeps s₀ s) {session : Nat} : Settles s₀ (execSliceEmit session s) := by
  unfold execSliceEmit
  dsimp only
  split
  exacts [h.ok, (by split; exacts [h.ok, (h.when h.setSes.encodeSettled)])]

theorem execSpectatorSkip_settles (h : Keeps s₀ s) {session dest : Nat} : Settles s₀ (execSpectatorSkip session dest s) :=
  h.when h.setSes

theorem Keeps.allocWork (h : Keeps s₀ s) {l stateBytes : Nat} : Keeps s₀ (s.allocWork l stateBytes).2 := by
  unfold State.allocWork
  split
  exacts [h, h.pick]

theorem Keeps.allocCopies (h : Keeps s₀ s) {n : Nat} : Keeps s₀ (s.allocCopies n).2 := by
  unfold State.allocCopies
  dsimp only
  split
  exacts [h, h.pick.pick]

theorem Keeps.replaceCopy (h : Keeps s₀ s) {id i : Nat} : Keeps s₀ (s.replaceCopy id i) :=
  h.pick.setSes

theorem Keeps.armMigration (h : Keeps s₀ s) {id : Nat} : Keeps s₀ (s.armMigration id) :=
  Keeps.each h (fun _ h1 _ => h1.unhold)

theorem Keeps.beforeFrame (h : Keeps s₀ s) {id : Nat} : Keeps s₀ (s.beforeFrame id) :=
  Keeps.mayBorrowAgain (Keeps.armMigration (.ite h.resetSession h))

theorem Keeps.startFrame (h : Keeps s₀ s) {id : Nat} : Keeps s₀ (s.startFrame id) :=
  h.setSes.countOld

theorem execFrameStart_settles (h : Keeps s₀ s) {session : Nat} : Settles s₀ (execFrameStart session s) :=
  h.when (.ite h.beforeFrame.toClosing h.beforeFrame.startFrame)

theorem execBandLaunch_settles (h : Keeps s₀ s) {session band : Nat} : Settles s₀ (execBandLaunch session band s) := by
  unfold execBandLaunch
  dsimp only
  split
  exacts [h.ok, (by split; exacts [h.ok, (h.when (.ite h.setSes.dropSlices h.setSes))])]

theorem execEncodeDeadline_settles (h : Keeps s₀ s) {session : Nat} : Settles s₀ (execEncodeDeadline session s) := by
  unfold execEncodeDeadline
  dsimp only
  split
  exacts [h.ok, (h.when h.setSes.dropRest)]

theorem Keeps.closeOpen (h : Keeps s₀ s) {id : Nat} : Keeps s₀ (s.closeOpen id) := by
  unfold State.closeOpen
  dsimp only
  split
  exacts [h, (.ite h.setSes.afterCommit h.setSes.countOld)]

theorem Keeps.reportLoss (h : Keeps s₀ s) {id streamId : Nat} {slots : List RefSlot} : Keeps s₀ (s.reportLoss id streamId slots) :=
  .ite h.setSes.sendNet h

theorem Keeps.streamHeader (h : Keeps s₀ s) {id : Nat} {x : Bytes} : Keeps s₀ (s.streamHeader id x) := by
  unfold State.streamHeader
  dsimp only
  split
  exacts [h.setSes, (.ite h (.ite h.closeOpen.setSes h.closeOpen))]

theorem Keeps.endOfStream (h : Keeps s₀ s) {id : Nat} : Keeps s₀ (s.endOfStream id) :=
  .ite h (.ite h.closeOpen.setSes h.closeOpen)

theorem Keeps.openDecFrame (h : Keeps s₀ s) {id : Nat} {x : Bytes} {f : FrameHdr} : Keeps s₀ (s.openDecFrame id x f) :=
  h.setSes

theorem Keeps.laterHeader (h : Keeps s₀ s) {id : Nat} {x : Bytes} {f : FrameHdr} : Keeps s₀ (s.laterHeader id x f) :=
  .ite (.ite h.setSes.closeOpen h.setSes.closeOpen.reportLoss) (.ite (Keeps.bumpSes (Keeps.resetSession (.ite h.setSes.closeOpen
    h.setSes.closeOpen.reportLoss))) (Keeps.openDecFrame (Keeps.mayBorrowAgain (Keeps.armMigration (.ite h.setSes.closeOpen
    h.setSes.closeOpen.reportLoss)))))

theorem Keeps.frameHeader (h : Keeps s₀ s) {id : Nat} {b : Bytes} : Keeps s₀ (s.frameHeader id b) := by
  unfold State.frameHeader
  dsimp only
  split
  exacts [h.bumpSes, (.ite h.bumpSes (by split; exacts [h.laterHeader, (.ite h.laterHeader h.bumpSes)]))]

theorem Keeps.sliceUnit (h : Keeps s₀ s) {id : Nat} {b : Bytes} : Keeps s₀ (s.sliceUnit id b) :=
  .ite h.bumpSes (by split; exacts [h.bumpSes, (.ite h.bumpSes (.ite h.setSes.closeOpen h.setSes))])

theorem Keeps.typedUnit (h : Keeps s₀ s) {id : Nat} {u : Bytes} : Keeps s₀ (s.typedUnit id u) :=
  .ite (.ite h.streamHeader h.bumpSes) (.ite h.frameHeader (.ite h.sliceUnit h.endOfStream))

theorem Keeps.decodeUnit (h : Keeps s₀ s) {id : Nat} {u : Bytes} : Keeps s₀ (s.decodeUnit id u) :=
  .ite h.bumpSes (.ite h.bumpSes (.ite h (.ite h.setSes.bumpSes (.ite h.setSes.bumpSes (.ite h.setSes.bumpSes h.setSes.typedUnit)))))

theorem Keeps.encodeUnit (h : Keeps s₀ s) {id : Nat} {u : Bytes} {primary : Bool} : Keeps s₀ (s.encodeUnit id u primary) :=
  .ite h.setSes h

theorem Keeps.takeUnit (h : Keeps s₀ s) {id : Nat} {u : Bytes} : Keeps s₀ (s.takeUnit id u) :=
  .ite h.setSes h

theorem Keeps.deliver (h : Keeps s₀ s) {id : Nat} {u : Bytes} {primary mine : Bool} : Keeps s₀ (s.deliver id u primary mine) :=
  .ite (.ite h.takeUnit.decodeUnit h.takeUnit.encodeUnit) h

theorem execUsfStreamHeader_settles (h : Keeps s₀ s) {session : Nat} {unit : Bytes} : Settles s₀ (execUsfStreamHeader session unit s) :=
  h.deliver.ok

theorem execUsfSlice_settles (h : Keeps s₀ s) {session : Nat} {unit : Bytes} : Settles s₀ (execUsfSlice session unit s) :=
  h.deliver.ok

theorem execUsfEndOfStream_settles (h : Keeps s₀ s) {session : Nat} {unit : Bytes} : Settles s₀ (execUsfEndOfStream session unit s) :=
  h.deliver.ok

theorem execUsfLossReport_settles (h : Keeps s₀ s) {session : Nat} {unit : Bytes} {primary : Bool} :
    Settles s₀ (execUsfLossReport session unit primary s) :=
  h.deliver.ok

theorem execUsfReservedType_settles (h : Keeps s₀ s) {session : Nat} {unit : Bytes} : Settles s₀ (execUsfReservedType session unit s) :=
  h.deliver.ok

theorem execDecodeFrameDeadline_settles (h : Keeps s₀ s) {session : Nat} : Settles s₀ (execDecodeFrameDeadline session s) := by
  unfold execDecodeFrameDeadline
  dsimp only
  split
  exacts [h.ok, (h.when h.closeOpen)]

theorem execDecodeCloseLaunch_settles (h : Keeps s₀ s) {session : Nat} : Settles s₀ (execDecodeCloseLaunch session s) :=
  h.when h.setSes.afterCommit

theorem Keeps.logUnit (h : Keeps s₀ s) {u : UnitId} {state cause detail : Nat} : Keeps s₀ (s.logUnit u state cause detail) :=
  h.update

theorem Keeps.wantSurvey (h : Keeps s₀ s) : Keeps s₀ (s.wantSurvey) :=
  h.update

theorem Keeps.bumpEpoch (h : Keeps s₀ s) {p : Nat} : Keeps s₀ (s.bumpEpoch p) :=
  h.setField

theorem Keeps.bindDrift (h : Keeps s₀ s) {l d : Nat} : Keeps s₀ (s.bindDrift l d) :=
  (Keeps.setField (Keeps.setRegNat (Keeps.each h (fun _ h1 _ => h1.setRegNat)))).update

theorem Keeps.bindLevels (h : Keeps s₀ s) {ls : List Nat} : Keeps s₀ (s.bindLevels ls) :=
  Keeps.each h (fun _ h1 _ => (Keeps.each h1 (fun _ h2 _ => h2.bindDrift)))

theorem Keeps.faultJobsOn (h : Keeps s₀ s) {d code : Nat} : Keeps s₀ (s.faultJobsOn d code) :=
  Keeps.each h (fun _ h1 _ => h1.faultJob)

theorem Keeps.declareDevice (h : Keeps s₀ s) {d cause : Nat} : Keeps s₀ (s.declareDevice d cause) :=
  .ite h h.update.logUnit.raise.faultJobsOn.wantSurvey

theorem Keeps.abortCkpt (h : Keeps s₀ s) {r : Round} {id reason : Nat} {lost : List Nat} : Keeps s₀ (s.abortCkpt r id reason lost) :=
  .ite h.dropRound.resetSession.raise h.dropRound.bumpSes.armCheckpoint

theorem Keeps.lpddrFault (h : Keeps s₀ s) {d cause : Nat} {reason : Round → Nat} : Keeps s₀ (s.lpddrFault d cause reason) :=
  Keeps.each (Keeps.each h.declareDevice (fun _ h1 _ => h1.replaceCopy)) (fun _ h1 _ => h1.abortCkpt)

theorem Keeps.ckptFail (h : Keeps s₀ s) {r : Round} {id reason : Nat} {lost : List Nat} : Keeps s₀ (s.ckptFail r id reason lost) := by
  unfold State.ckptFail
  split
  exacts [(.ite h.abortCkpt h.lpddrFault), h.abortCkpt, h.abortCkpt]

theorem Keeps.placeHomes (h : Keeps s₀ s) {k : ModelPkg} {ls : List Nat} : Keeps s₀ (s.placeHomes k ls) :=
  h.of_canonical rfl (s.canonical_placeHomes k ls)

theorem Keeps.loadChunks (h : Keeps s₀ s) {p : Nat} : Keeps s₀ (s.loadChunks p) :=
  h.of_canonical rfl (s.canonical_loadChunks p)

theorem Keeps.dropFed (h : Keeps s₀ s) {id lf : Nat} : Keeps s₀ (s.dropFed id lf) :=
  .ite h.setSes (by split; exacts [h, h.dropSlices])

theorem Keeps.slotAbsent (h : Keeps s₀ s) {l d slot p : Nat} : Keeps s₀ (s.slotAbsent l d slot p) :=
  Keeps.wantSurvey (Keeps.each (Keeps.each h.setRegNat.setField.update.setFace (fun _ h1 _ => h1.setSes.dropFed)) (fun _ h1 _ =>
    h1.moveSession))

theorem Keeps.replaceSlot (h : Keeps s₀ s) {p slot : Nat} : Keeps s₀ (s.replaceSlot p slot) := by
  unfold State.replaceSlot
  dsimp only
  split
  exacts [h.requestRound, h.slotAbsent]

theorem Keeps.loseFace (h : Keeps s₀ s) {p : Nat} : Keeps s₀ (s.loseFace p) :=
  .ite h.setField.setField h.setField

theorem Keeps.requestRejoin (h : Keeps s₀ s) {p : Nat} {reserve : Bool} : Keeps s₀ (s.requestRejoin p reserve) :=
  h.addRound.tryArm

theorem Keeps.fillReserve (h : Keeps s₀ s) {l d : Nat} : Keeps s₀ (s.fillReserve l d) := by
  unfold State.fillReserve
  dsimp only
  split
  exacts [(.ite h.requestRejoin h), h]

theorem Keeps.failTakeover (h : Keeps s₀ s) {p : Nat} : Keeps s₀ (s.failTakeover p) :=
  Keeps.each h (fun _ h1 _ => (by split; exacts [h1.dropRound.slotAbsent, h1, h1, h1, h1, h1, h1]))

theorem Keeps.faceFail (h : Keeps s₀ s) {p cause : Nat} : Keeps s₀ (s.faceFail p cause) :=
  Keeps.wantSurvey (Keeps.fillReserve (by split; exacts [h.setFace.bumpEpoch.raise.logUnit.failTakeover.loseFace.replaceSlot,
    h.setFace.bumpEpoch.raise.logUnit.failTakeover.loseFace]))

theorem Keeps.writeTable (h : Keeps s₀ s) {l bank : Nat} {m : ModelSlot} {n : Nat} : Keeps s₀ (s.writeTable l bank m n) :=
  h.writeMem.writeMem

theorem Keeps.putTables (h : Keeps s₀ s) {l bank : Nat} {m : ModelSlot} : Keeps s₀ (s.putTables l bank m) :=
  Keeps.each h (fun _ h1 _ => h1.writeTable)

theorem Keeps.clearTables (h : Keeps s₀ s) {l bank : Nat} {m : ModelSlot} : Keeps s₀ (s.clearTables l bank m) :=
  Keeps.each h (fun _ h1 _ => h1.clearMem)

theorem Keeps.copyRange (h : Keeps s₀ s) {a b n : Nat} : Keeps s₀ (s.copyRange a b n) :=
  Keeps.each h.clearMem (fun _ h1 _ => h1.writeMem)

theorem Keeps.copyBank (h : Keeps s₀ s) {k from' l to' : Nat} : Keeps s₀ (s.copyBank k from' l to') :=
  h.copyRange

theorem Keeps.writeDirectory (h : Keeps s₀ s) {v : Nat} : Keeps s₀ (s.writeDirectory v) :=
  h.eraseFlash.writeFlash

theorem Keeps.stagePackage (h : Keeps s₀ s) {slot state : Nat} {k : ModelPkg} {carried : Bool} :
    Keeps s₀ (s.stagePackage slot state k carried) := by
  unfold State.stagePackage
  split
  exacts [h, h.setModel.update]

theorem Keeps.copyModel (h : Keeps s₀ s) {slot d : Nat} : Keeps s₀ (s.copyModel slot d) := by
  unfold State.copyModel
  dsimp only
  split
  · exact h.pick
  · refine Keeps.setModel (Keeps.of_canonical (h.pick (l := ?_)) ?_ ?_)
    case refine_2 => rfl
    case refine_3 => exact And.imp_left (Memory.wf_spPuts _ _)

theorem Keeps.placeModel (h : Keeps s₀ s) {slot : Nat} : Keeps s₀ (s.placeModel slot) :=
  Keeps.placeHomes (Keeps.each h.setModel.update (fun _ h1 _ => h1.copyModel))

theorem Keeps.feedJobs (h : Keeps s₀ s) {id : Nat} : Keeps s₀ (s.feedJobs id) :=
  h.update

theorem Keeps.fireCheckpoint (h : Keeps s₀ s) {r : Round} {id : Nat} : Keeps s₀ (s.fireCheckpoint r id) := by
  unfold State.fireCheckpoint
  dsimp only
  split
  exacts [h, h.setSes.feedJobs.afterCommit]

theorem Keeps.countRerun (h : Keeps s₀ s) {x : Ctx} : Keeps s₀ (s.countRerun x) := by
  unfold State.countRerun
  split
  exacts [h.bumpSes, h]

theorem Keeps.restartOn (h : Keeps s₀ s) {p : Nat} : Keeps s₀ (s.restartOn p) :=
  h.update

theorem Keeps.noteTakeover (h : Keeps s₀ s) {l failed reserve : Nat} : Keeps s₀ (s.noteTakeover l failed reserve) :=
  h.bumpField.setRegNat.setRegNat.setRegNat

theorem Keeps.releaseHeld (h : Keeps s₀ s) {l d : Nat} : Keeps s₀ (s.releaseHeld l d) :=
  Keeps.each h (fun _ h1 _ => h1.unhold)

theorem Keeps.fireTakeover (h : Keeps s₀ s) {l d slot failed reserve : Nat} : Keeps s₀ (s.fireTakeover l d slot failed reserve) :=
  Keeps.wantSurvey (Keeps.setFace (Keeps.noteTakeover (Keeps.each h.setRegNat.setField.setFace.restartOn (fun _ h1 _ => h1.countRerun))))

theorem Keeps.afterTakeover (h : Keeps s₀ s) {l d : Nat} : Keeps s₀ (s.afterTakeover l d) :=
  h.releaseHeld.fillReserve

theorem Keeps.admitFace (h : Keeps s₀ s) {p : Nat} {asReserve : Bool} : Keeps s₀ (s.admitFace p asReserve) :=
  .ite h.clearMem.setFace h.clearMem.setFace.loadChunks

theorem Keeps.fireRejoin (h : Keeps s₀ s) {p : Nat} {reserve : Bool} : Keeps s₀ (s.fireRejoin p reserve) :=
  Keeps.wantSurvey (.ite (Keeps.setField (.ite h.admitFace h.setFace)) (.ite h.admitFace h.setFace))

theorem Keeps.setFireTime (h : Keeps s₀ s) {t : Nat} : Keeps s₀ (s.setFireTime t) :=
  Keeps.each h (fun _ h1 _ => h1.setRegNat.setRegNat)

theorem Keeps.fireSwap (h : Keeps s₀ s) {t : Nat} : Keeps s₀ (s.fireSwap t) :=
  (Keeps.setFireTime (Keeps.setShadow (Keeps.setOldFrames (Keeps.each (Keeps.each h (fun _ h1 _ => h1.setField)) (fun _ h1 _ =>
    h1.bumpField))))).update

theorem Keeps.fireMigration (h : Keeps s₀ s) {id placement : Nat} : Keeps s₀ (s.fireMigration id placement) :=
  .ite h h.setSes.bumpField

theorem Keeps.applyClaims (h : Keeps s₀ s) {t : Nat} : Keeps s₀ (s.applyClaims t) :=
  h.update.setRegNat

theorem Keeps.flipRound (h : Keeps s₀ s) {r : Round} {t : Nat} : Keeps s₀ (s.flipRound r t) := by
  unfold State.flipRound
  split
  exacts [h.bindLevels, h.fireTakeover, h.fireRejoin, h.fireSwap, h.fireCheckpoint, h.fireMigration, h.applyClaims.wantSurvey]

theorem Keeps.fireRound (h : Keeps s₀ s) {r : Round} {t : Nat} : Keeps s₀ (s.fireRound r t) := by
  unfold State.fireRound
  dsimp only
  split
  exacts [h.roundFired.flipRound.afterTakeover, h.roundFired.flipRound, h.roundFired.flipRound, h.roundFired.flipRound,
    h.roundFired.flipRound, h.roundFired.flipRound, h.roundFired.flipRound]

theorem Keeps.compactLog (h : Keeps s₀ s) {keep : UnitId → Bool} : Keeps s₀ (s.compactLog keep) :=
  h.eraseFlash.writeFlash.writeFlash

theorem Keeps.logStat (h : Keeps s₀ s) : Keeps s₀ (s.logStat) := by
  unfold State.logStat
  split <;> exact h.setRegNat

theorem Keeps.appendLog (h : Keeps s₀ s) {q : UnitId × Nat × Nat × Nat} : Keeps s₀ (s.appendLog q) := by
  unfold State.appendLog
  exact Keeps.logStat (Keeps.writeFlash (.ite h h.compactLog))

theorem execRepairLogWrite_settles (h : Keeps s₀ s) : Settles s₀ (execRepairLogWrite s) := by
  unfold execRepairLogWrite
  split
  exacts [h.ok, h.appendLog.update.ok]

theorem Keeps.setPhase (h : Keeps s₀ s) {v : Nat} : Keeps s₀ (s.setPhase v) :=
  h.setField

theorem Keeps.soundUnits (h : Keeps s₀ s) {sel : UnitId → Bool} {failed : List UnitId} {test : Nat} :
    Keeps s₀ (s.soundUnits sel failed test) :=
  Keeps.each (Keeps.each h.update (fun _ h1 _ => h1.logUnit)) (fun _ h1 _ => h1.logUnit)

theorem Keeps.setMatches (h : Keeps s₀ s) : Keeps s₀ (s.setMatches) :=
  Keeps.each h (fun _ h1 _ => h1.setField)

theorem Keeps.surveyRegs (h : Keeps s₀ s) : Keeps s₀ (s.surveyRegs) :=
  h.setRegNat.setRegNat.setRegNat.setRegNat

theorem Keeps.disableMismatch (h : Keeps s₀ s) : Keeps s₀ (s.disableMismatch) := by
  unfold State.disableMismatch
  split
  exacts [(.ite h (Keeps.each h (fun _ h1 _ => h1.setField))), h]

theorem Keeps.runSurvey (h : Keeps s₀ s) : Keeps s₀ (s.runSurvey) :=
  h.setMatches.disableMismatch.surveyRegs.setPhase.setField.update

theorem Keeps.askLicences (h : Keeps s₀ s) {t : Nat} : Keeps s₀ (s.askLicences t) :=
  Keeps.each h (fun _ h1 _ => h1.requestRound)

theorem Keeps.takeBanks (h : Keeps s₀ s) {l : Nat} : Keeps s₀ (s.takeBanks l) := by
  unfold State.takeBanks
  split
  exacts [h, h.copyBank.copyBank.setField.setField.setReg.setReg]

theorem Keeps.rejoinAll (h : Keeps s₀ s) {ps : List Nat} : Keeps s₀ (s.rejoinAll ps) :=
  Keeps.bumpReg (Keeps.each h (fun _ h1 _ => h1.admitFace))

theorem Keeps.setPwrState (h : Keeps s₀ s) {v : Nat} : Keeps s₀ (s.setPwrState v) :=
  h.setField

theorem Keeps.setStandby (h : Keeps s₀ s) {v : Nat} : Keeps s₀ (s.setStandby v) :=
  .ite h.update h.update.setPwrState

theorem Keeps.zeroLevel (h : Keeps s₀ s) {l : Nat} : Keeps s₀ (s.zeroLevel l) :=
  (Keeps.each h.setLevel.keepRegs.clearMem (fun _ h1 _ => h1.setField)).update

theorem Keeps.bumpLevel (h : Keeps s₀ s) {l : Nat} : Keeps s₀ (s.bumpLevel l) :=
  Keeps.each h (fun _ h1 _ => h1.bumpEpoch)

theorem Keeps.askAgain (h : Keeps s₀ s) {r : Round} : Keeps s₀ (s.askAgain r) := by
  unfold State.askAgain
  split
  exacts [h.requestRound, h.requestRound, h.requestRound, h, h, h, h]

theorem Keeps.beginLevelReset (h : Keeps s₀ s) {l : Nat} : Keeps s₀ (s.beginLevelReset l) :=
  Keeps.wantSurvey (Keeps.each h.dieReset.update.setLevel.zeroLevel.bumpLevel.bumpField (fun _ h1 _ => h1.askAgain))

theorem Keeps.levelLost (h : Keeps s₀ s) {l : Nat} : Keeps s₀ (s.levelLost l) :=
  Keeps.wantSurvey (Keeps.each (Keeps.each h.setLevel (fun _ h1 _ => h1.loseSession)) (fun _ h1 _ => h1.slotAbsent))

theorem Keeps.closeGracefully (h : Keeps s₀ s) {id launch : Nat} : Keeps s₀ (s.closeGracefully id launch) := by
  unfold State.closeGracefully
  dsimp only
  split
  exacts [h, h, h.toClosing, h.toClosing, h.toClosing, h.setSes, h.setSes]

theorem Keeps.cancelJob (h : Keeps s₀ s) {j : Job} : Keeps s₀ (s.cancelJob j) :=
  Keeps.setJob (Keeps.cancelMoves (Keeps.each h (fun _ h1 _ => h1.cancelBlk)))

theorem Keeps.startRemoval (h : Keeps s₀ s) {m : Removal} : Keeps s₀ (s.startRemoval m) :=
  Keeps.setPwrState (Keeps.update (.ite (Keeps.each h (fun _ h1 _ => h1.cancelJob)) (Keeps.each (Keeps.each h (fun _ h1 _ =>
    h1.cancelJob)) (fun _ h1 _ => h1.closeGracefully))))

theorem Keeps.endReset (h : Keeps s₀ s) {w u : Nat} : Keeps s₀ (s.endReset w u) := by
  unfold State.endReset
  dsimp only
  split
  exacts [(.ite h.update.startRemoval h.update), h.update]

theorem Keeps.endLevelReset (h : Keeps s₀ s) {l : Nat} {failed : List UnitId} : Keeps s₀ (s.endLevelReset l failed) :=
  h.soundUnits.takeBanks.requestRound

theorem Keeps.levelBack (h : Keeps s₀ s) {l : Nat} : Keeps s₀ (s.levelBack l) :=
  h.setLevel.rejoinAll.wantSurvey.endReset

theorem Keeps.dropRejoin (h : Keeps s₀ s) {p : Nat} : Keeps s₀ (s.dropRejoin p) :=
  h.dropRounds

theorem Keeps.beginFaceReset (h : Keeps s₀ s) {p : Nat} : Keeps s₀ (s.beginFaceReset p) :=
  Keeps.wantSurvey (Keeps.fillReserve (Keeps.setFace (Keeps.clearMem (Keeps.keepRegs (Keeps.bumpField (by split; exacts [(.ite (.ite
    h.dropRejoin.failTakeover.bumpEpoch h.dropRejoin.failTakeover.bumpEpoch.loseFace) (Keeps.replaceSlot (.ite
    h.dropRejoin.failTakeover.bumpEpoch h.dropRejoin.failTakeover.bumpEpoch.loseFace))), (.ite h.dropRejoin.failTakeover.bumpEpoch
    h.dropRejoin.failTakeover.bumpEpoch.loseFace)]))))))

theorem Keeps.endFaceReset (h : Keeps s₀ s) {p : Nat} {passed : Bool} {test : Nat} : Keeps s₀ (s.endFaceReset p passed test) :=
  .ite (Keeps.fillReserve (Keeps.setFace (Keeps.setField (.ite h.endReset.setField.logUnit h.endReset.setField))))
    h.endReset.setField.logUnit.update.setFace

theorem Keeps.beginPark (h : Keeps s₀ s) {l : Nat} {byStandby : Bool} : Keeps s₀ (s.beginPark l byStandby) :=
  h.update.setLevel.bumpLevel.bumpField

theorem Keeps.endPark (h : Keeps s₀ s) {l : Nat} : Keeps s₀ (s.endPark l) :=
  h.update.setLevel.zeroLevel

theorem Keeps.beginUnpark (h : Keeps s₀ s) {l : Nat} : Keeps s₀ (s.beginUnpark l) :=
  h.setLevel

theorem Keeps.endUnpark (h : Keeps s₀ s) {l : Nat} : Keeps s₀ (s.endUnpark l) :=
  h.setLevel.rejoinAll.wantSurvey

theorem Keeps.beginStandby (h : Keeps s₀ s) : Keeps s₀ (s.beginStandby) :=
  Keeps.setStandby (Keeps.each h.update (fun _ h1 _ => h1.beginPark))

theorem Keeps.restoreBanks (h : Keeps s₀ s) {shadow : Nat} : Keeps s₀ (s.restoreBanks shadow) :=
  Keeps.setFireTime (Keeps.each h (fun _ h1 _ => h1.setField.setField))

theorem Keeps.endStandby (h : Keeps s₀ s) : Keeps s₀ (s.endStandby) :=
  Keeps.setStandby (Keeps.each h (fun _ h1 _ => h1.beginUnpark))

theorem Keeps.recordStat (h : Keeps s₀ s) : Keeps s₀ (s.recordStat) :=
  .ite h.updateRot h

theorem Keeps.beginCold (h : Keeps s₀ s) {cause : Nat} : Keeps s₀ (s.beginCold cause) := by
  have hCold := fun t => Keeps.of_emptied (t := t) h h.recordStat
  refine .ite (Keeps.setPwrState (.ite (Keeps.setPhase ?_) ?_)) (.ite (Keeps.setPhase ?_) ?_) <;> exact hCold _ rfl rfl rfl rfl rfl rfl rfl

theorem Keeps.abortRounds (h : Keeps s₀ s) : Keeps s₀ (s.abortRounds) :=
  Keeps.each (Keeps.each h (fun _ h1 _ => (by split; exacts [h1.dropRound.slotAbsent, h1, h1, h1, h1, h1, h1]))) (fun _ h1 _ =>
    (by split; exacts [h1.dropRound.addRound, h1.dropRound, h1.dropRound, h1.dropRound, h1.dropRound, h1.dropRound, h1.dropRound]))

theorem Keeps.dropStaging (h : Keeps s₀ s) : Keeps s₀ (s.dropStaging) :=
  h.update

theorem Keeps.trainXct (h : Keeps s₀ s) : Keeps s₀ (s.trainXct) :=
  .ite (Keeps.each h (fun _ h1 _ => h1.setField)) h

theorem Keeps.beginWarm (h : Keeps s₀ s) {cause : Nat} {fast : List Nat} : Keeps s₀ (s.beginWarm cause fast) :=
  Keeps.setPwrState (Keeps.setField (Keeps.setPhase (Keeps.trainXct (Keeps.each h.recordStat.abortRounds.dropStaging (fun _ h1 _ =>
    h1.setLevel.zeroLevel)).update)))

theorem Keeps.beginReset (h : Keeps s₀ s) {r : ActiveReset} : Keeps s₀ (s.beginReset r) :=
  .ite h.update.beginCold (.ite h.update.beginWarm (.ite h.update.beginLevelReset h.update.beginFaceReset))

theorem Keeps.beginDue (h : Keeps s₀ s) : Keeps s₀ (s.beginDue) :=
  Keeps.each h (fun _ h1 _ => (.ite h1.beginReset h1))

theorem Keeps.acceptReset (h : Keeps s₀ s) {w u cause : Nat} {auto : Bool} : Keeps s₀ (s.acceptReset w u cause auto) :=
  h.update.beginDue

theorem Keeps.moduleFault (h : Keeps s₀ s) {cause : Nat} : Keeps s₀ (s.moduleFault cause) :=
  .ite h h.acceptReset

theorem Keeps.startHeadframe (h : Keeps s₀ s) : Keeps s₀ (s.startHeadframe) := by
  unfold State.startHeadframe
  split
  exacts [h.setPhase.updateRot, h.updateRot.setField.setField.setPhase]

theorem Keeps.noteReset (h : Keeps s₀ s) {last cause : Nat} : Keeps s₀ (s.noteReset last cause) :=
  h.setField.setField

theorem Keeps.copyHeld (h : Keeps s₀ s) : Keeps s₀ (s.copyHeld) :=
  (Keeps.each h (fun _ h1 _ => h1.countEvent.writeLog)).updateRot

theorem execColdStart_settles (h : Keeps s₀ s) : Settles s₀ (execColdStart s) :=
  h.when (.ite h.draw.updateRot.setField.setRegNat.setRegNat.logStat.noteReset.startHeadframe.copyHeld
    h.draw.updateRot.setField.setRegNat.setRegNat.logStat.noteReset.startHeadframe)

theorem Keeps.eraseBroken (h : Keeps s₀ s) : Keeps s₀ (s.eraseBroken) :=
  Keeps.each h (fun _ h1 _ => h1.eraseFlash)

theorem Keeps.eraseExpired (h : Keeps s₀ s) : Keeps s₀ (s.eraseExpired) :=
  (Keeps.each h (fun _ h1 _ => h1.eraseFlash)).update

theorem Keeps.claimsOnTime (h : Keeps s₀ s) : Keeps s₀ (s.claimsOnTime) :=
  h.update.eraseExpired.applyClaims.askLicences

theorem Keeps.loadClaims (h : Keeps s₀ s) : Keeps s₀ (s.loadClaims) :=
  .ite h.eraseBroken.update.claimsOnTime h.eraseBroken.update.applyClaims

theorem Keeps.planRegs (h : Keeps s₀ s) {id lo hi slot fallback : Nat} : Keeps s₀ (s.planRegs id lo hi slot fallback) :=
  h.setRegNat.setRegNat.setRegNat.setField.setField

theorem Keeps.loadPlan (h : Keeps s₀ s) {b : Bytes} {slot fallback : Nat} : Keeps s₀ (s.loadPlan b slot fallback) :=
  Keeps.each h.updateRot.planRegs (fun _ h1 _ => h1.stagePackage)

theorem Keeps.setPlanErr (h : Keeps s₀ s) {e : Nat} : Keeps s₀ (s.setPlanErr e) :=
  h.setField

theorem execPlanLoad_settles (h : Keeps s₀ s) : Settles s₀ (execPlanLoad s) :=
  h.when (.ite (Keeps.setPhase (Keeps.loadClaims (.ite h.loadPlan (.ite (.ite h.setPlanErr.loadPlan h.setPlanErr.setPlanErr)
    h.setPlanErr)))) (Keeps.loadClaims (.ite h.loadPlan (.ite (.ite h.setPlanErr.loadPlan h.setPlanErr.setPlanErr) h.setPlanErr))))

theorem Keeps.disableUnit (h : Keeps s₀ s) {u : UnitId} : Keeps s₀ (s.disableUnit u) :=
  h.update

theorem Keeps.trainFailed (h : Keeps s₀ s) {us : List UnitId} : Keeps s₀ (s.trainFailed us) :=
  Keeps.each h (fun _ h1 _ => (.ite h1.disableUnit h1.disableUnit.logUnit))

theorem Keeps.trainPassed (h : Keeps s₀ s) {us : List UnitId} : Keeps s₀ (s.trainPassed us) :=
  Keeps.each h (fun _ h1 _ => (.ite h1.disableUnit (.ite h1.update.logUnit h1.update)))

theorem Keeps.keptFailed (h : Keeps s₀ s) {u : UnitId} : Keeps s₀ (s.keptFailed u) :=
  Keeps.each h.disableUnit.declareDevice (fun _ h1 _ => h1.replaceCopy)

theorem Keeps.enterPhase (h : Keeps s₀ s) {v : Nat} : Keeps s₀ (s.enterPhase v) :=
  .ite h.update.setPhase.trainXct h.setPhase

theorem Keeps.advance (h : Keeps s₀ s) : Keeps s₀ (s.advance) :=
  Keeps.each h (fun _ h1 _ => h1.enterPhase)

theorem Keeps.memoryReady (h : Keeps s₀ s) {l : Nat} {r : MemoryInit} : Keeps s₀ (s.memoryReady l r) :=
  (Keeps.each h.soundUnits.soundUnits.trainFailed (fun _ h1 _ => h1.keptFailed)).update

theorem execMemoryInitDone_settles (h : Keeps s₀ s) {level : Nat} {result : MemoryInit} : Settles s₀ (execMemoryInitDone level result s) :=
  h.when (.ite h.memoryReady h.memoryReady.setPhase.advance)

theorem Keeps.xctTrained (h : Keeps s₀ s) {p : Nat} {lanes : BitVec 4} : Keeps s₀ (s.xctTrained p lanes) :=
  h.trainFailed.trainPassed.setRegNat.update.wantSurvey

theorem Keeps.ucieTrained (h : Keeps s₀ s) {m width : Nat} : Keeps s₀ (s.ucieTrained m width) :=
  Keeps.setRegNat (Keeps.update (.ite h.trainFailed h.trainPassed))

theorem execLinkTrainingDone_settles (h : Keeps s₀ s) {result : LinkResult} : Settles s₀ (execLinkTrainingDone result s) := by
  unfold execLinkTrainingDone
  split
  exacts [(h.when (Keeps.advance (Keeps.ucieTrained (.ite h.setPhase h)))), (h.when h.xctTrained.advance)]

theorem Keeps.freshFace (h : Keeps s₀ s) {p : Nat} : Keeps s₀ (s.freshFace p) :=
  h.setField.setFace

theorem Keeps.enterService (h : Keeps s₀ s) {ls : List Nat} : Keeps s₀ (s.enterService ls) :=
  Keeps.each h (fun _ h1 _ => h1.setLevel)

theorem Keeps.afterRemap (h : Keeps s₀ s) {ls : List Nat} : Keeps s₀ (s.afterRemap ls) :=
  Keeps.each (Keeps.wantSurvey (Keeps.each h (fun _ h1 _ => h1.freshFace))) (fun _ h1 _ => h1.levelBack)

theorem Keeps.soundLevels (h : Keeps s₀ s) {failed : List UnitId} : Keeps s₀ (s.soundLevels failed) :=
  h.soundUnits.update

theorem execSoundingDone_settles (h : Keeps s₀ s) {failed : List UnitId} : Settles s₀ (execSoundingDone failed s) :=
  h.when (.ite h.soundLevels h.soundLevels.requestRound)

theorem Keeps.buildBanks (h : Keeps s₀ s) {l : Nat} : Keeps s₀ (s.buildBanks l) :=
  Keeps.each h (fun _ h1 _ => (Keeps.each h1 (fun _ h2 _ => h2.putTables)))

theorem Keeps.mirrorBanks (h : Keeps s₀ s) {l k : Nat} : Keeps s₀ (s.mirrorBanks l k) :=
  h.copyBank.copyBank.setField.setReg.setReg

theorem Keeps.placeWeights (h : Keeps s₀ s) {ls : List Nat} : Keeps s₀ (s.placeWeights ls) :=
  Keeps.each (Keeps.each h (fun _ h1 _ => h1.placeHomes)) (fun _ h1 _ => h1.loadChunks)

theorem execModelStagingDone_settles (h : Keeps s₀ s) : Settles s₀ (execModelStagingDone s) :=
  h.when (.ite (Keeps.advance (Keeps.placeWeights (by split; exacts [(Keeps.each h (fun _ h1 _ => h1.mirrorBanks)), (Keeps.each
    (Keeps.each h (fun _ h1 _ => h1.setModel.placeModel)) (fun _ h1 _ => h1.buildBanks))])).update) (Keeps.endReset (Keeps.wantSurvey
    (Keeps.placeWeights (by split; exacts [(Keeps.each h (fun _ h1 _ => h1.mirrorBanks)), (Keeps.each (Keeps.each h (fun _ h1 _ =>
    h1.setModel.placeModel)) (fun _ h1 _ => h1.buildBanks))])).update)))

theorem Keeps.commitSvn (h : Keeps s₀ s) : Keeps s₀ (s.commitSvn) := by
  obtain ⟨hForm, hFuses, hLock, hPlan, hHf⟩ := h
  refine ⟨hForm, hFuses, hLock, hPlan.trans ?_, hHf.trans ?_⟩
  · dsimp only [State.commitSvn]
    split
    · split; exacts [le_max_left .., le_rfl]
    · exact le_rfl
  · dsimp only [State.commitSvn]
    split; exacts [le_max_left .., le_rfl]

theorem Keeps.finishStart (h : Keeps s₀ s) : Keeps s₀ (s.finishStart) :=
  h.runSurvey.setRegNat.commitSvn

theorem execSurvey_settles (h : Keeps s₀ s) : Settles s₀ (execSurvey s) :=
  h.when h.finishStart.endReset.endReset

theorem execSurveyRerun_settles (h : Keeps s₀ s) : Settles s₀ (execSurveyRerun s) :=
  h.when h.runSurvey

theorem Keeps.timeVerdict (h : Keeps s₀ s) {settled traceable : Bool} : Keeps s₀ (s.timeVerdict settled traceable) :=
  .ite h.update.wantSurvey.claimsOnTime h.update.wantSurvey

theorem execStreamPortLinkChange_settles (h : Keeps s₀ s) {port : Nat} {up : Bool} : Settles s₀ (execStreamPortLinkChange port up s) :=
  h.when h.update.wantSurvey.advance

theorem execStreamPortLinkTimeout_settles (h : Keeps s₀ s) {port : Nat} : Settles s₀ (execStreamPortLinkTimeout port s) :=
  h.when h.update.advance

theorem Keeps.noteYhat (h : Keeps s₀ s) {d : CoderDesc} {l : List (Nat × Nat × Nat)} : Keeps s₀ (s.noteYhat d l) :=
  .ite h h.setSes

theorem Keeps.drainOut (h : Keeps s₀ s) {l c x n : Nat} : Keeps s₀ (s.drainOut l c x n) :=
  h.setCtx.streamYhat

theorem Keeps.arriveRecords (h : Keeps s₀ s) {l c : Nat} {arrived : List (Nat × Nat × Nat)} : Keeps s₀ (s.arriveRecords l c arrived) :=
  Keeps.returnLots (Keeps.each h (fun _ h1 _ => (by dsimp only; split; exacts [h1, (.ite h1 h1.setCtx.noteYhat.setFlags.drainOut)])))

theorem execCoderJobSubmit_settles (h : Keeps s₀ s) {p : Nat} {descriptor : Bytes} {records : Nat} :
    Settles s₀ (execCoderJobSubmit p descriptor records s) :=
  h.when (.ite h.portDone h.setLevel.lotsMin.noteYhat.setFlags)

theorem execCoderJobDispatch_settles (h : Keeps s₀ s) {level : Nat} : Settles s₀ (execCoderJobDispatch level s) := by
  unfold execCoderJobDispatch
  dsimp only
  split
  exacts [(h.when h.setLevel.setCtx), h.ok, h.ok]

theorem Keeps.runNext (h : Keeps s₀ s) {l c : Nat} : Keeps s₀ (s.runNext l c) := by
  unfold State.runNext
  split
  exacts [h, h.runAt]

theorem execCoderCacheFill_settles (h : Keeps s₀ s) {level coder ctx : Nat} {uncorrectable : Bool} :
    Settles s₀ (execCoderCacheFill level coder ctx uncorrectable s) := by
  unfold execCoderCacheFill
  dsimp only
  split
  exacts [h.ok, (h.when (.ite h.poolUe.poolError h.setCtx.bumpReg.runNext))]

theorem execCoderContextSwitch_settles (h : Keeps s₀ s) {level coder : Nat} {arrived : List (Nat × Nat × Nat)} :
    Settles s₀ (execCoderContextSwitch level coder arrived s) :=
  h.when h.arriveRecords.runNext

theorem Keeps.closeCoder (h : Keeps s₀ s) {l c x : Nat} : Keeps s₀ (s.closeCoder l c x) :=
  .ite h.setCtx h.setCtx.bumpReg.endCoder

theorem execCoderJobComplete_settles (h : Keeps s₀ s) {level coder ctx : Nat} {tallyOk : Bool} :
    Settles s₀ (execCoderJobComplete level coder ctx tallyOk s) := by
  unfold execCoderJobComplete
  dsimp only
  split
  exacts [h.ok, (h.when (.ite (.ite (Keeps.endCoder (Keeps.bumpReg (.ite h.bumpReg.raise h))) h.endCoder) h.closeCoder))]

theorem execFaceAutoReset_settles (h : Keeps s₀ s) {p : Nat} : Settles s₀ (execFaceAutoReset p s) :=
  h.when h.acceptReset

theorem execFaceSoundingDone_settles (h : Keeps s₀ s) {p : Nat} {passed : Bool} {test : Nat} :
    Settles s₀ (execFaceSoundingDone p passed test s) :=
  h.when h.endFaceReset

theorem execLevelResetComplete_settles (h : Keeps s₀ s) {level : Nat} {failed : List UnitId} :
    Settles s₀ (execLevelResetComplete level failed s) :=
  h.when h.endLevelReset

theorem execLevelParkComplete_settles (h : Keeps s₀ s) {level : Nat} : Settles s₀ (execLevelParkComplete level s) :=
  h.when h.endPark

theorem execLevelUnparkComplete_settles (h : Keeps s₀ s) {level : Nat} : Settles s₀ (execLevelUnparkComplete level s) :=
  h.when h.takeBanks.endUnpark

theorem execStandbyEntryComplete_settles (h : Keeps s₀ s) : Settles s₀ (execStandbyEntryComplete s) :=
  h.when h.setStandby

theorem execStandbyExitComplete_settles (h : Keeps s₀ s) : Settles s₀ (execStandbyExitComplete s) :=
  h.when (Keeps.wantSurvey (Keeps.setStandby (Keeps.each (Keeps.restoreBanks (Keeps.each h (fun _ h1 _ => h1.endUnpark))) (fun _ h1 _ =>
    h1.takeBanks.endUnpark))))

theorem execMgmtWatchdogExpire_settles (h : Keeps s₀ s) : Settles s₀ (execMgmtWatchdogExpire s) :=
  h.when h.acceptReset

theorem Keeps.zeroDevices (h : Keeps s₀ s) {l : Nat} {kept : List (Nat × Nat)} : Keeps s₀ (s.zeroDevices l kept) :=
  h.of_canonical rfl (And.imp_left (Memory.wf_filter _))

theorem Keeps.fullPath (h : Keeps s₀ s) {kept : List (Nat × Nat)} {l : Nat} : Keeps s₀ (s.fullPath kept l) :=
  Keeps.each h.setLevel.update.clearMem.zeroDevices (fun _ h1 _ => (Keeps.each h1.setRegNat (fun _ h2 _ => h2.setRegNat)))

theorem Keeps.warmDecode (h : Keeps s₀ s) {id : Nat} : Keeps s₀ (s.warmDecode id) := by
  unfold State.warmDecode
  dsimp only
  split
  exacts [(.ite h.closeOpen.setSes.armCheckpoint h.closeOpen.setSes), h.closeOpen.setSes]

theorem Keeps.warmEncode (h : Keeps s₀ s) {id : Nat} : Keeps s₀ (s.warmEncode id) := by
  unfold State.warmEncode
  split
  exacts [h, (.ite h.armCheckpoint h.dropRest)]

theorem Keeps.warmSkip (h : Keeps s₀ s) {id : Nat} : Keeps s₀ (s.warmSkip id) :=
  .ite h h.setSes.bumpReg

theorem Keeps.warmSession (h : Keeps s₀ s) {id : Nat} : Keeps s₀ (s.warmSession id) :=
  .ite h (.ite h.warmDecode (.ite h.warmEncode h.warmEncode.warmSkip))

theorem Keeps.noteWarm (h : Keeps s₀ s) : Keeps s₀ (s.noteWarm) :=
  h.noteReset.bumpField

theorem Keeps.warmAllFull (h : Keeps s₀ s) : Keeps s₀ (s.warmAllFull) :=
  Keeps.advance (Keeps.planRegs (Keeps.setFireTime (Keeps.each (Keeps.each (Keeps.each h (fun _ h1 _ => h1.fullPath)) (fun _ h1 _ =>
    h1.clearMem.zeroDevices)).update (fun _ h1 _ => h1.setField)).update))

theorem Keeps.warmFastPath (h : Keeps s₀ s) {fast : List Nat} : Keeps s₀ (s.warmFastPath fast) :=
  Keeps.finishStart (Keeps.loadClaims (Keeps.each (Keeps.each (.ite (Keeps.setField (Keeps.each (Keeps.restoreBanks (Keeps.setOldFrames
    (Keeps.each (Keeps.each (Keeps.each h (fun _ h1 _ => h1.fullPath)) (fun _ h1 _ => h1.faultJob)).update (fun _ h1 _ =>
    h1.warmSession)))) (fun _ h1 _ => h1.fillReserve))) (Keeps.rejoinAll (Keeps.setField (Keeps.each (Keeps.restoreBanks
    (Keeps.setOldFrames (Keeps.each (Keeps.each (Keeps.each h (fun _ h1 _ => h1.fullPath)) (fun _ h1 _ => h1.faultJob)).update (fun _ h1
    _ => h1.warmSession)))) (fun _ h1 _ => h1.fillReserve))))) (fun _ h1 _ => h1.loadChunks)) (fun _ h1 _ => h1.levelLost)))

theorem execWarmResetResume_settles (h : Keeps s₀ s) {rehashOk : Bool} : Settles s₀ (execWarmResetResume rehashOk s) :=
  h.when (.ite h.startHeadframe (.ite h.startHeadframe.noteWarm.warmAllFull.setField (.ite h.startHeadframe.noteWarm.warmFastPath
    h.startHeadframe.noteWarm.warmFastPath.endReset)))

theorem execFaceWatchdogExpire_settles (h : Keeps s₀ s) {p : Nat} : Settles s₀ (execFaceWatchdogExpire p s) :=
  h.when h.faceFail

theorem execFacePowerFault_settles (h : Keeps s₀ s) {p : Nat} : Settles s₀ (execFacePowerFault p s) :=
  h.when h.faceFail

theorem execRingSegment_settles (h : Keeps s₀ s) {level drift segment : Nat} : Settles s₀ (execRingSegment level drift segment s) :=
  h.when h.setField.bumpField.bumpReg.raise.logUnit

theorem execLpddrDevice_settles (h : Keeps s₀ s) {device : Nat} {cause : LpddrCause} : Settles s₀ (execLpddrDevice device cause s) :=
  h.when h.lpddrFault

theorem Keeps.deviceCorrected (h : Keeps s₀ s) {d n : Nat} : Keeps s₀ (s.deviceCorrected d n) := by
  unfold State.deviceCorrected
  dsimp only
  split
  exacts [(.ite h.update.lpddrFault h.update), h.update]

theorem Keeps.corrected (h : Keeps s₀ s) {a n : Nat} : Keeps s₀ (s.corrected a n) :=
  .ite h.deviceCorrected h

theorem execPatrolScrub_settles (h : Keeps s₀ s) {address : Nat} {uncorrectable : Bool} {corrected : Nat} :
    Settles s₀ (execPatrolScrub address uncorrectable corrected s) :=
  h.when (.ite (Keeps.update (.ite h.bumpReg.corrected h.bumpReg)) (.ite h.bumpReg.corrected h.bumpReg))

theorem Keeps.limitClock (h : Keeps s₀ s) {l : Nat} : Keeps s₀ (s.limitClock l) :=
  h.setLevel

theorem Keeps.railBelow (h : Keeps s₀ s) {phase : Nat} : Keeps s₀ (s.railBelow phase) :=
  .ite (.ite (Keeps.each h (fun _ h1 _ => h1.limitClock)) h) (.ite (.ite h.limitClock h) (.ite (.ite h.levelLost h) (.ite (.ite
    (Keeps.each h.levelLost (fun _ h1 _ => h1.lpddrFault)) h) (by split; exacts [(.ite h.moduleFault h), h]))))

theorem execPhaseShed_settles (h : Keeps s₀ s) {phase cause : Nat} : Settles s₀ (execPhaseShed phase cause s) :=
  h.when (Keeps.railBelow (Keeps.raise (.ite h.setField h.setField.setRegNat)))

theorem Keeps.railsOff (h : Keeps s₀ s) : Keeps s₀ (s.railsOff) :=
  h.beginCold.of_canonical rfl (fun ⟨hMem, hFlash, _⟩ => ⟨hMem, hFlash, rfl⟩)

theorem Keeps.thermalTrip (h : Keeps s₀ s) {die : Nat} {tenths : Int} : Keeps s₀ (s.thermalTrip die tenths) :=
  h.alert.updateRot.railsOff.update

theorem execJunctionReport_settles (h : Keeps s₀ s) {die : Nat} {tenths : Int} : Settles s₀ (execJunctionReport die tenths s) :=
  h.when (.ite h.update.thermalTrip h.update)

theorem execDvfsThermalStep_settles (h : Keeps s₀ s) {level : Nat} : Settles s₀ (execDvfsThermalStep level s) :=
  h.when (.ite h.update.setLevel (.ite (.ite h.update.setLevel h.setLevel) h))

theorem execDvfsStepDone_settles (h : Keeps s₀ s) {level : Nat} : Settles s₀ (execDvfsStepDone level s) := by
  unfold execDvfsStepDone
  dsimp only
  split
  exacts [(h.when h.setLevel), h.ok]

theorem Keeps.tryPower (h : Keeps s₀ s) {cause : Nat} : Keeps s₀ (s.tryPower cause) :=
  .ite h.update.beginCold h

theorem execPrechargeContact_settles (h : Keeps s₀ s) : Settles s₀ (execPrechargeContact s) :=
  h.when h.update

theorem execVauxUp_settles (h : Keeps s₀ s) {strap : BitVec 2} : Settles s₀ (execVauxUp strap s) :=
  h.when h.updateRot.tryPower

theorem execModPresentAssert_settles (h : Keeps s₀ s) : Settles s₀ (execModPresentAssert s) :=
  h.when h.update.tryPower

theorem execInputValid_settles (h : Keeps s₀ s) {tenMillivolts : Nat} : Settles s₀ (execInputValid tenMillivolts s) :=
  h.when h.draw.update.tryPower

theorem execModEnRise_settles (h : Keeps s₀ s) : Settles s₀ (execModEnRise s) :=
  h.when h.update.tryPower

theorem Keeps.surpriseOff (h : Keeps s₀ s) : Keeps s₀ (s.surpriseOff) :=
  .ite h.railsOff.update h

theorem execModEnFall_settles (h : Keeps s₀ s) : Settles s₀ (execModEnFall s) :=
  h.when (.ite h.update.railsOff h.update.surpriseOff)

theorem execModRemoveOkAssert_settles (h : Keeps s₀ s) : Settles s₀ (execModRemoveOkAssert s) :=
  h.when h.update.setPwrState

theorem execDrainLimitExpire_settles (h : Keeps s₀ s) : Settles s₀ (execDrainLimitExpire s) := by
  unfold execDrainLimitExpire
  split
  exacts [h.ok, (h.when (Keeps.each h (fun _ h1 _ => h1.closeGracefully)).update)]

theorem execSurpriseRemoval_settles (h : Keeps s₀ s) {cause : RemovalCause} : Settles s₀ (execSurpriseRemoval cause s) := by
  unfold execSurpriseRemoval
  dsimp only
  split <;> exact (h.when h.update.surpriseOff)

theorem execInputUndervoltage_settles (h : Keeps s₀ s) : Settles s₀ (execInputUndervoltage s) :=
  h.when h.update.surpriseOff

theorem Keeps.ptpSend (h : Keeps s₀ s) {p : Nat} {event : Bool} {b : Bytes} : Keeps s₀ (s.ptpSend p event b) := by
  unfold State.ptpSend
  dsimp only
  split
  exacts [h.sendNet, h.update]

theorem Keeps.setPtp (h : Keeps s₀ s) {p : Nat} {q : PtpPort} : Keeps s₀ (s.setPtp p q) :=
  h.update

theorem Keeps.ptpSyncOut (h : Keeps s₀ s) {p : Nat} : Keeps s₀ (s.ptpSyncOut p) :=
  h.ptpSend.ptpSend.setPtp

theorem Keeps.ptpRequestOut (h : Keeps s₀ s) {p : Nat} : Keeps s₀ (s.ptpRequestOut p) :=
  h.ptpSend.setPtp

theorem Keeps.ptpAnnounceOut (h : Keeps s₀ s) {p : Nat} {d : List Nat} {steps : Nat} : Keeps s₀ (s.ptpAnnounceOut p d steps) :=
  h.ptpSend.setPtp

theorem Keeps.ptpAnswer (h : Keeps s₀ s) {p : Nat} {b : Bytes} : Keeps s₀ (s.ptpAnswer p b) :=
  h.ptpSend

theorem Keeps.setXct (h : Keeps s₀ s) {p : Nat} {q : XctPort} : Keeps s₀ (s.setXct p q) :=
  h.update

theorem Keeps.xctPut (h : Keeps s₀ s) {p : Nat} {f : XctFrame} : Keeps s₀ (s.xctPut p f) :=
  h.send

theorem Keeps.xctLaunch (h : Keeps s₀ s) {p type : Nat} {payload : Bytes} : Keeps s₀ (s.xctLaunch p type payload) :=
  h.setXct.xctPut

theorem Keeps.xctSend (h : Keeps s₀ s) {p type : Nat} {payload : Bytes} : Keeps s₀ (s.xctSend p type payload) :=
  .ite h.xctLaunch h.setXct

theorem Keeps.xctAnswer (h : Keeps s₀ s) {p : Nat} {nak : Bool} : Keeps s₀ (s.xctAnswer p nak) :=
  h.send

theorem Keeps.xctDrain (h : Keeps s₀ s) {p n : Nat} : Keeps s₀ (s.xctDrain p n) := by
  induction n generalizing s with
  | zero => exact h
  | succ n ih =>
    unfold State.xctDrain
    dsimp only
    split; exacts [h, .ite (ih h.setXct.xctLaunch) h]

theorem Keeps.xctAck (h : Keeps s₀ s) {p ack : Nat} : Keeps s₀ (s.xctAck p ack) :=
  h.setXct.xctDrain

theorem Keeps.xctResend (h : Keeps s₀ s) {p : Nat} : Keeps s₀ (s.xctResend p) :=
  Keeps.each h.setXct.bumpReg (fun _ h1 _ => h1.xctPut)

theorem Keeps.xctHeader (h : Keeps s₀ s) {p : Nat} {b : Bytes} : Keeps s₀ (s.xctHeader p b) :=
  .ite h.xctAck.xctResend h.xctAck

theorem Keeps.xctTake (h : Keeps s₀ s) {p : Nat} {b : Bytes} : Keeps s₀ (s.xctTake p b) :=
  .ite h.xctAnswer (.ite h.xctHeader (.ite h.xctHeader.setXct.xctAnswer h.xctHeader.xctAnswer))

theorem execXctNak_settles (h : Keeps s₀ s) {port : Nat} {frame : Bytes} : Settles s₀ (execXctNak port frame s) :=
  h.when h.xctTake

theorem execXctAckReceive_settles (h : Keeps s₀ s) {port : Nat} {frame : Bytes} : Settles s₀ (execXctAckReceive port frame s) :=
  h.when (.ite h.xctTake.setXct h.xctHeader)

theorem execXctReplayTimeout_settles (h : Keeps s₀ s) {port : Nat} : Settles s₀ (execXctReplayTimeout port s) :=
  h.when h.xctResend

theorem execXctRelay_settles (h : Keeps s₀ s) {port : Nat} {frame : Bytes} : Settles s₀ (execXctRelay port frame s) :=
  h.when (.ite h.xctTake.send (.ite h.xctTake.bumpReg h.xctTake))

theorem Keeps.elect (h : Keeps s₀ s) : Keeps s₀ (s.elect) :=
  .ite h h.update

theorem Keeps.topologyChanged (h : Keeps s₀ s) : Keeps s₀ (s.topologyChanged) :=
  h.update

theorem Keeps.judgeTime (h : Keeps s₀ s) {old : State} : Keeps s₀ (s.judgeTime old) :=
  .ite h h.timeVerdict

theorem execTimeSettled_settles (h : Keeps s₀ s) {settled traceable : Bool} : Settles s₀ (execTimeSettled settled traceable s) :=
  h.when h.timeVerdict

theorem Keeps.setTim (h : Keeps s₀ s) {source state steps : Nat} : Keeps s₀ (s.setTim source state steps) :=
  h.setRegNat

theorem Keeps.cycle (h : Keeps s₀ s) : Keeps s₀ (s.cycle) :=
  h.update

theorem Keeps.measure (h : Keeps s₀ s) {source steps : Nat} {off : Int} : Keeps s₀ (s.measure source steps off) :=
  h.update.setTim.setRegNat

theorem Keeps.ptpDown (h : Keeps s₀ s) {p : Nat} {down : Int} {steps : Nat} : Keeps s₀ (s.ptpDown p down steps) := by
  unfold State.ptpDown
  dsimp only
  split
  exacts [h.setPtp, (.ite h.setPtp.update.elect.measure h.setPtp.update.elect)]

theorem Keeps.ptpFromMaster (h : Keeps s₀ s) {p : Nat} {b : Bytes} : Keeps s₀ (s.ptpFromMaster p b) :=
  .ite (.ite h.setPtp h.ptpDown) (.ite (by split; exacts [(.ite h.ptpDown h), h]) (.ite (by split; exacts [(.ite h.setPtp h), h, h]) h))

theorem Keeps.ptpAnnounced (h : Keeps s₀ s) {p : Nat} {b : Bytes} : Keeps s₀ (s.ptpAnnounced p b) :=
  h.update.elect

theorem execPtpMessageReceive_settles (h : Keeps s₀ s) {port : Nat} {message : Bytes} : Settles s₀ (execPtpMessageReceive port message s) :=
  h.when (.ite (.ite h h.ptpAnnounced.judgeTime) (.ite (.ite h.ptpAnswer h) (.ite h h.ptpFromMaster.judgeTime)))

theorem execPtpSyncSend_settles (h : Keeps s₀ s) {port : Nat} : Settles s₀ (execPtpSyncSend port s) :=
  h.when (.ite (.ite h.update.ptpSyncOut.ptpAnnounceOut h.update.ptpSyncOut) h.update.ptpRequestOut)

theorem Keeps.freeRun (h : Keeps s₀ s) : Keeps s₀ (s.freeRun) :=
  h.update.setTim.elect

theorem execServoHoldover_settles (h : Keeps s₀ s) : Settles s₀ (execServoHoldover s) :=
  h.when (.ite h.update.setField h.update.freeRun.judgeTime)

theorem execHoldoverExpire_settles (h : Keeps s₀ s) : Settles s₀ (execHoldoverExpire s) :=
  h.when h.freeRun.judgeTime

theorem execXctTimeSend_settles (h : Keeps s₀ s) {port : Nat} : Settles s₀ (execXctTimeSend port s) :=
  h.when h.setXct.xctSend.xctSend

theorem Keeps.timeFrame (h : Keeps s₀ s) {p : Nat} {b : Bytes} : Keeps s₀ (s.timeFrame p b) :=
  .ite (.ite h.measure.judgeTime h) (.ite h.xctSend (.ite h.update h))

theorem execXctTimeFrame_settles (h : Keeps s₀ s) {port : Nat} {frame : Bytes} : Settles s₀ (execXctTimeFrame port frame s) :=
  h.when h.xctTake.timeFrame

theorem execHelloSend_settles (h : Keeps s₀ s) {port : Nat} : Settles s₀ (execHelloSend port s) :=
  h.when h.setXct.xctSend

theorem Keeps.learnLink (h : Keeps s₀ s) {k : KnownLink} : Keeps s₀ (s.learnLink k) :=
  .ite h.update h.update.topologyChanged

theorem Keeps.xctDisable (h : Keeps s₀ s) {p : Nat} : Keeps s₀ (s.xctDisable p) :=
  h.setField.setXct.update.elect.wantSurvey

theorem Keeps.hello (h : Keeps s₀ s) {p : Nat} {b : Bytes} : Keeps s₀ (s.hello p b) :=
  .ite h.setField.setRegNat.setRegNat.setXct.xctDisable (.ite (Keeps.wantSurvey (Keeps.elect (Keeps.each
    h.setField.setRegNat.setRegNat.setXct (fun _ h1 _ => h1.learnLink)))) (Keeps.elect (Keeps.each h.setField.setRegNat.setRegNat.setXct
    (fun _ h1 _ => h1.learnLink))))

theorem execHelloReceive_settles (h : Keeps s₀ s) {port : Nat} {frame : Bytes} : Settles s₀ (execHelloReceive port frame s) :=
  h.when h.xctTake.hello.judgeTime

theorem execNeighbourTimeout_settles (h : Keeps s₀ s) : Settles s₀ (execNeighbourTimeout s) :=
  h.when (Keeps.judgeTime (Keeps.wantSurvey (Keeps.elect (Keeps.each h.update.topologyChanged (fun _ h1 _ => h1.setXct)))))

theorem execElectionSettle_settles (h : Keeps s₀ s) : Settles s₀ (execElectionSettle s) :=
  h.when h.update.judgeTime

theorem Keeps.laneSend (h : Keeps s₀ s) {p : Nat} : Keeps s₀ (s.laneSend p) :=
  h.draw.xctSend

theorem execXctLane_settles (h : Keeps s₀ s) {port lane : Nat} : Settles s₀ (execXctLane port lane s) :=
  h.when (.ite h.setField.raise.logUnit.xctDisable.judgeTime h.setField.raise.logUnit.setField.xctResend.setXct.laneSend.wantSurvey)

theorem execXctLaneFrame_settles (h : Keeps s₀ s) {port : Nat} {frame : Bytes} : Settles s₀ (execXctLaneFrame port frame s) :=
  h.when (.ite h.xctTake.setXct h.xctTake.xctResend.laneSend)

theorem execEthFrameReceive_settles (h : Keeps s₀ s) {port : Nat} {frame : Bytes} {tallyOk : Bool} :
    Settles s₀ (execEthFrameReceive port frame tallyOk s) :=
  h.when (.ite h.bumpReg (.ite h.bumpReg (.ite h.bumpReg (.ite h.bumpReg.raise (by split; exacts [h, h.bumpReg, h, h.draw.draw.send,
    h.learnMac])))))

theorem Keeps.rxDrop (h : Keeps s₀ s) {p : Nat} : Keeps s₀ (s.rxDrop p) :=
  h.bumpReg

theorem Keeps.deliverUnits (h : Keeps s₀ s) {id : Nat} {src : NetAddr} {us : List Bytes} : Keeps s₀ (s.deliverUnits id src us) :=
  h.setSes

theorem Keeps.fragRoom (h : Keeps s₀ s) {p n k : Nat} : Keeps s₀ (s.fragRoom p n k) := by
  induction k generalizing s with
  | zero => exact h
  | succ k ih =>
    unfold State.fragRoom
    split
    · exact h
    · split; exacts [ih h, h]

theorem Keeps.takeFragment (h : Keeps s₀ s) {id port ssrc rtpSeq kind ix : Nat} {src : NetAddr} {b : Bytes} :
    Keeps s₀ (s.takeFragment id port ssrc rtpSeq kind ix src b) :=
  .ite (.ite h.update.fragRoom.update h.update) (by split; exacts [h, (.ite h.update (.ite h.update.deliverUnits h.fragRoom.update))])

theorem execUsfPacketReceive_settles (h : Keeps s₀ s) {port : Nat} {src : NetAddr} {dstUdp ssrc rtpSeq : Nat} {payload : Bytes} :
    Settles s₀ (execUsfPacketReceive port src dstUdp ssrc rtpSeq payload s) :=
  h.when (by split; exacts [h.rxDrop, (.ite h.rxDrop (.ite h.deliverUnits h.takeFragment))])

theorem execFragmentTimeout_settles (h : Keeps s₀ s) {port ssrc : Nat} : Settles s₀ (execFragmentTimeout port ssrc s) :=
  h.update.ok

theorem execRawMediaPacket_settles (h : Keeps s₀ s) {port dstUdp ssrc : Nat} {payload : Bytes} :
    Settles s₀ (execRawMediaPacket port dstUdp ssrc payload s) :=
  h.when (by split; exacts [h.rxDrop, (.ite h.rxDrop h.setSes)])

theorem Keeps.sendRtp (h : Keeps s₀ s) {d : DestRec} {own : Nat} {rtp : Bytes} {good : Bool} : Keeps s₀ (s.sendRtp d own rtp good) :=
  .ite h.sendNet h.xctSend

theorem Keeps.sendTo (h : Keeps s₀ s) {session dest : Nat} {bad : Option HeldUnit} : Keeps s₀ (s.sendTo session dest bad) :=
  .ite (Keeps.bumpReg (Keeps.setSes (Keeps.each (.ite h h.update) (fun _ h1 _ => h1.sendRtp)))) (Keeps.setSes (Keeps.each (.ite h
    h.update) (fun _ h1 _ => h1.sendRtp)))

theorem execDestinationSend_settles (h : Keeps s₀ s) {session dest : Nat} {tallyOk : Bool} :
    Settles s₀ (execDestinationSend session dest tallyOk s) :=
  h.when (by split; exacts [h.sendTo, h.sendTo.raise])

theorem Keeps.outputTo (h : Keeps s₀ s) {session : Nat} {f : DecFrame} {planes : List Plane} {dest : Nat} :
    Keeps s₀ (s.outputTo session f planes dest) :=
  Keeps.setSes (Keeps.each (.ite h h.update) (fun _ h1 _ => h1.sendRtp))

theorem Keeps.outputFrame (h : Keeps s₀ s) {session : Nat} {f : DecFrame} {planes : List Plane} :
    Keeps s₀ (s.outputFrame session f planes) :=
  Keeps.each h (fun _ h1 _ => h1.outputTo)

theorem execDecodeFrameOutput_settles (h : Keeps s₀ s) {session : Nat} : Settles s₀ (execDecodeFrameOutput session s) := by
  unfold execDecodeFrameOutput
  dsimp only
  split
  exacts [h.ok, (h.when h.missLevel.setSes.outputFrame.reportLoss.frameDone)]

theorem Keeps.takeEntry (h : Keeps s₀ s) {e : HfEntry} : Keeps s₀ (s.takeEntry e) :=
  h.update

theorem Keeps.enqueue (h : Keeps s₀ s) {e : HfEntry} : Keeps s₀ (s.enqueue e) :=
  h.update

theorem Keeps.judge (h :
    Keeps s₀ s) {slot op kind : Nat} {bad : Bool} {run : State → Reply} (hrun : ∀ u, Keeps s₀ u → (run u).Safe s₀) : (s.judge slot op kind bad run).Safe s₀ :=
  .ite (fun _ h1 => h1) (.ite (fun _ h1 => h1) (.ite (fun _ h1 => h1) (hrun _ h)))

theorem Keeps.answer (h : Keeps s₀ s) {rq : Req} {op : Nat} {req : Bytes} {r : Reply} (hr : r.Safe s₀) : Keeps s₀ (s.answer rq op req r) :=
  hr _ h.sendCtrl.hold

theorem Keeps.again (h : Keeps s₀ s) {rq : Req} {op : Nat} {req : Bytes} {x : Held} : Keeps s₀ (s.again rq op req x) :=
  .ite h.resend h.sendCtrl

theorem Keeps.accept (h : Keeps s₀ s) {rq : Req} {op kind : Nat} {req : Bytes} {bad : Bool} {run : State → Reply} (hrun : ∀ u, Keeps s₀ u
    → (run u).Safe s₀) : Keeps s₀ (s.accept rq op kind req bad run) := by
  unfold State.accept
  dsimp only
  split
  exacts [h.takeEntry.again, (h.takeEntry.answer (h.takeEntry.judge hrun))]

theorem Keeps.request (h : Keeps s₀ s) {rq : Req} {op : Nat} {req : Bytes} {bad : Bool} {run : State → Reply} (hrun : ∀ u, Keeps s₀ u →
    (run u).Safe s₀) : Settles s₀ (s.request rq op req bad run) :=
  h.when (h.accept hrun)

theorem Keeps.stageRequest (h : Keeps s₀ s) {rq : Req} {op kind : Nat} {req : Bytes} {bad : Bool} {run : State → Reply} (hrun : ∀ u,
    Keeps s₀ u → (run u).Safe s₀) : Settles s₀ (s.stageRequest rq op kind req bad run) :=
  h.when (h.accept hrun)

theorem Keeps.status {n : Nat} : (status n).Safe s₀ :=
  fun _ h1 => h1

theorem Keeps.done {f : State → State} (hf : ∀ u, Keeps s₀ u → Keeps s₀ (f u)) : (done f).Safe s₀ :=
  hf

theorem execProbe_settles (h : Keeps s₀ s) {rq : Req} : Settles s₀ (execProbe rq s) :=
  .ite (h.when h.takeEntry.sendCtrl) (h.request (fun _ _ => fun _ h2 => h2))

theorem execStatus_settles (h : Keeps s₀ s) {rq : Req} : Settles s₀ (execStatus rq s) :=
  h.request (fun _ _ => fun _ h2 => h2)

theorem execSessionStatus_settles (h : Keeps s₀ s) {rq : Req} {session : BitVec 32} : Settles s₀ (execSessionStatus rq session s) :=
  h.request (fun _ _ => fun _ h2 => h2)

theorem Keeps.clearCounters (h : Keeps s₀ s) {id : Nat} : Keeps s₀ (s.clearCounters id) :=
  .ite h.setSes h

theorem execSessionCounters_settles (h : Keeps s₀ s) {rq : Req} {session : BitVec 32} {clear : Bool} :
    Settles s₀ (execSessionCounters rq session clear s) :=
  h.request (fun _ _ => fun _ h2 => (.ite h2.clearCounters h2))

theorem execJobStatus_settles (h : Keeps s₀ s) {rq : Req} {job : BitVec 32} : Settles s₀ (execJobStatus rq job s) :=
  h.request (fun _ _ => (by split; exacts [(fun _ h2 => h2), Keeps.status]))

theorem execEventRead_settles (h : Keeps s₀ s) {rq : Req} {first count : BitVec 16} : Settles s₀ (execEventRead rq first count s) :=
  h.request (fun _ _ => fun _ h2 => h2)

theorem Keeps.subscribe (h : Keeps s₀ s) {rq : Req} {on : Bool} : Keeps s₀ (s.subscribe rq on) :=
  h.update

theorem execEventSubscribe_settles (h : Keeps s₀ s) {rq : Req} {on : Bool} : Settles s₀ (execEventSubscribe rq on s) :=
  h.request (fun _ _ => (.ite Keeps.status (Keeps.done (fun _ h2 => h2.subscribe))))

theorem execRepairRead_settles (h : Keeps s₀ s) {rq : Req} {first : BitVec 32} {count : BitVec 16} :
    Settles s₀ (execRepairRead rq first count s) :=
  h.request (fun _ _ => fun _ h2 => h2)

theorem execRegRead_settles (h : Keeps s₀ s) {rq : Req} {addr : BitVec 64} {count : BitVec 8} : Settles s₀ (execRegRead rq addr count s) :=
  h.request (fun _ _ => fun _ h2 => h2.readRegs)

theorem execRegWrite_settles (h : Keeps s₀ s) {rq : Req} {addr : BitVec 64} {value : Word} : Settles s₀ (execRegWrite rq addr value s) :=
  h.request (fun _ _ => fun _ h2 => h2.writeReg)

theorem execAttest_settles (h : Keeps s₀ s) {rq : Req} {nonce : Bytes} : Settles s₀ (execAttest rq nonce s) :=
  h.request (fun _ _ => fun _ h2 => h2.draw)

theorem execModelList_settles (h : Keeps s₀ s) {rq : Req} {first count : BitVec 16} : Settles s₀ (execModelList rq first count s) :=
  h.request (fun _ _ => fun _ h2 => h2)

theorem Keeps.openSession (h : Keeps s₀ s) {b : OpenBody} {place work a c : Nat} : Keeps s₀ (s.openSession b place work a c) :=
  h.setSes.update

theorem Keeps.openChecked {b : OpenBody} : (s.openChecked b).Safe s₀ := by
  unfold State.openChecked
  dsimp only
  split
  exacts [Keeps.status, Keeps.status, Keeps.status, (.ite Keeps.status (Keeps.done (fun _ h1 => h1.update.openSession)))]

theorem execSesOpen_settles (h : Keeps s₀ s) {rq : Req} {body : OpenBody} : Settles s₀ (execSesOpen rq body s) :=
  h.request (fun _ _ => (.ite Keeps.status (.ite Keeps.status (.ite Keeps.status (.ite Keeps.status Keeps.openChecked)))))

theorem execSesClose_settles (h : Keeps s₀ s) {rq : Req} {session : BitVec 32} {mode : BitVec 8} {launch : BitVec 64} :
    Settles s₀ (execSesClose rq session mode launch s) :=
  h.request (fun _ _ => (.ite Keeps.status (.ite (.ite Keeps.status (Keeps.done (fun _ h2 => h2.closeGracefully))) (.ite Keeps.status
    (Keeps.done (fun _ h2 => h2.toClosing))))))

theorem execSesPark_settles (h : Keeps s₀ s) {rq : Req} {session : BitVec 32} : Settles s₀ (execSesPark rq session s) :=
  h.request (fun _ _ => (by split; exacts [(Keeps.done (fun _ h2 => h2.askPark)), Keeps.status, Keeps.status, Keeps.status, Keeps.status,
    Keeps.status, Keeps.status]))

theorem Keeps.resumeSession (h : Keeps s₀ s) {id place work tr : Nat} : Keeps s₀ (s.resumeSession id place work tr) :=
  .ite h.setSes (.ite h.setSes h.loseSession)

theorem Keeps.resumeChecked {id tr : Nat} : (s.resumeChecked id tr).Safe s₀ :=
  .ite Keeps.status (by split; exacts [Keeps.status, Keeps.status, (Keeps.done (fun _ h1 => h1.update.resumeSession))])

theorem execSesResume_settles (h : Keeps s₀ s) {rq : Req} {session : BitVec 32} {tr : BitVec 64} :
    Settles s₀ (execSesResume rq session tr s) :=
  h.request (fun _ _ => (by split; exacts [Keeps.resumeChecked, Keeps.status, Keeps.status, Keeps.status, Keeps.status, Keeps.status,
    Keeps.status]))

theorem execSesReset_settles (h : Keeps s₀ s) {rq : Req} {session : BitVec 32} : Settles s₀ (execSesReset rq session s) :=
  h.request (fun _ _ => (.ite Keeps.status (.ite Keeps.status (Keeps.done (fun _ h2 => h2.resetSession)))))

theorem execSesSet_settles (h : Keeps s₀ s) {rq : Req} {session : BitVec 32} {ratePoint : BitVec 8} {launch : BitVec 64} {deadlineOff :
    BitVec 32} {settings : Bytes} : Settles s₀ (execSesSet rq session ratePoint launch deadlineOff settings s) :=
  h.request (fun _ _ => (.ite Keeps.status (.ite Keeps.status (Keeps.done (fun _ h2 => h2.setSes)))))

theorem execMigrate_settles (h : Keeps s₀ s) {rq : Req} {session : BitVec 32} {cls level : BitVec 8} :
    Settles s₀ (execMigrate rq session cls level s) :=
  h.request (fun _ _ => (.ite Keeps.status (by dsimp only; split; exacts [Keeps.status, (Keeps.done (fun _ h2 =>
    h2.update.requestRound))])))

theorem Keeps.startJob (h : Keeps s₀ s) {b : JobBody} {place device : Nat} : Keeps s₀ (s.startJob b place device) :=
  h.update

theorem execJobStart_settles (h : Keeps s₀ s) {rq : Req} {body : JobBody} : Settles s₀ (execJobStart rq body s) :=
  h.request (fun _ _ => (.ite Keeps.status (.ite Keeps.status (.ite Keeps.status (.ite Keeps.status (by split; exacts [Keeps.status,
    Keeps.status, (.ite Keeps.status (Keeps.done (fun _ h2 => h2.update.startJob)))]))))))

theorem execJobSuspend_settles (h : Keeps s₀ s) {rq : Req} {job : BitVec 32} : Settles s₀ (execJobSuspend rq job s) :=
  h.request (fun _ _ => (by split; exacts [Keeps.status, (.ite Keeps.status (.ite (Keeps.done (fun _ h2 => h2.setJob)) Keeps.status))]))

theorem execJobResume_settles (h : Keeps s₀ s) {rq : Req} {job : BitVec 32} : Settles s₀ (execJobResume rq job s) :=
  h.request (fun _ _ => (by split; exacts [Keeps.status, (.ite Keeps.status (.ite Keeps.status
    (by dsimp only; split; exacts [Keeps.status, (Keeps.done (fun _ h2 => h2.update.setJob))])))]))

theorem execJobCancel_settles (h : Keeps s₀ s) {rq : Req} {job : BitVec 32} : Settles s₀ (execJobCancel rq job s) :=
  h.request (fun _ _ => (by split; exacts [Keeps.status, (.ite Keeps.status (Keeps.done (fun _ h2 => h2.cancelJob)))]))

theorem execJobRelease_settles (h : Keeps s₀ s) {rq : Req} {job : BitVec 32} : Settles s₀ (execJobRelease rq job s) :=
  h.request (fun _ _ => (by split; exacts [Keeps.status, (.ite (Keeps.done (fun _ h2 => h2.update)) Keeps.status)]))

theorem execJobExport_settles (h : Keeps s₀ s) {rq : Req} {job offset bytes : BitVec 32} :
    Settles s₀ (execJobExport rq job offset bytes s) :=
  h.request (fun _ _ => (by split; exacts [Keeps.status, (.ite (fun _ h2 => h2) Keeps.status)]))

theorem execJobStep_settles (h : Keeps s₀ s) {job : Nat} : Settles s₀ (execJobStep job s) := by
  unfold execJobStep
  split
  exacts [h.ok, (h.when h.setJob)]

theorem execJobStepDone_settles (h : Keeps s₀ s) {job : Nat} {newLambdas : List (BitVec 32)} :
    Settles s₀ (execJobStepDone job newLambdas s) := by
  unfold execJobStepDone
  split
  exacts [h.ok, (h.when h.setJob)]

theorem Keeps.setHandle (h : Keeps s₀ s) {x : StageHandle} : Keeps s₀ (s.setHandle x) :=
  h.update

theorem Keeps.dropHandle (h : Keeps s₀ s) {x : StageHandle} : Keeps s₀ (s.dropHandle x) :=
  h.update

theorem Keeps.touch (h : Keeps s₀ s) {x : StageHandle} : Keeps s₀ (s.touch x) :=
  h.setHandle

theorem Keeps.stageStatus {x : StageHandle} {n detail : Nat} : (State.stageStatus x n detail).Safe s₀ :=
  fun _ h1 => h1.touch

theorem execStageBegin_settles (h : Keeps s₀ s) {rq : Req} {kind : BitVec 8} {modelSlot : BitVec 16} {totalBytes : BitVec 32} {fire :
    BitVec 64} : Settles s₀ (execStageBegin rq kind modelSlot totalBytes fire s) :=
  h.stageRequest (fun _ _ => (.ite (fun _ h2 => h2) (.ite Keeps.status (fun _ h2 => h2.update))))

theorem execStageData_settles (h : Keeps s₀ s) {rq : Req} {handle offset : BitVec 32} {data : Bytes} :
    Settles s₀ (execStageData rq handle offset data s) :=
  h.stageRequest (fun _ _ => (by split; exacts [Keeps.status, (.ite Keeps.stageStatus (.ite Keeps.stageStatus (Keeps.done (fun _ h2 =>
    h2.setHandle))))]))

theorem Keeps.beginInstall (h : Keeps s₀ s) {x : StageHandle} {slot : Nat} : Keeps s₀ (s.beginInstall x slot) :=
  h.setHandle

theorem Keeps.beginModel (h : Keeps s₀ s) {x : StageHandle} {k : ModelPkg} : Keeps s₀ (s.beginModel x k) :=
  h.beginInstall.stagePackage.placeModel.update.setShadow

theorem Keeps.commitKind {x : StageHandle} {b : Bytes} : (s.commitKind x b).Safe s₀ :=
  .ite (.ite Keeps.stageStatus (.ite Keeps.stageStatus (.ite Keeps.stageStatus (Keeps.done (fun _ h1 => h1.beginModel))))) (.ite
    (by dsimp only; split; exacts [(fun _ h1 => (Keeps.touch (.ite h1.eraseExpired h1))), (Keeps.done (fun _ h1 => (Keeps.beginInstall
    (.ite h1.eraseExpired h1))))]) (Keeps.done (fun _ h1 => h1.beginInstall)))

theorem Keeps.refuseContainer {x : StageHandle} {e : Nat} : (State.refuseContainer x e).Safe s₀ :=
  fun _ h1 => (Keeps.touch (.ite h1.setPlanErr h1))

theorem execStageCommit_settles (h : Keeps s₀ s) {rq : Req} {handle : BitVec 32} : Settles s₀ (execStageCommit rq handle s) :=
  h.stageRequest (fun _ _ => (by split; exacts [Keeps.status, (.ite Keeps.stageStatus (.ite (Keeps.done (fun _ h2 => h2.dropHandle))
    (.ite Keeps.refuseContainer Keeps.commitKind)))]))

theorem execStageAbort_settles (h : Keeps s₀ s) {rq : Req} {handle : BitVec 32} : Settles s₀ (execStageAbort rq handle s) :=
  h.stageRequest (fun _ _ => (by split; exacts [Keeps.status, (.ite Keeps.stageStatus (Keeps.done (fun _ h2 => h2.dropHandle)))]))

theorem Keeps.writeSlot (h : Keeps s₀ s) {base limit : Nat} {b : Bytes} : Keeps s₀ (s.writeSlot base limit b) :=
  h.eraseFlash.writeFlash

theorem Keeps.askLicence (h : Keeps s₀ s) {t : Nat} : Keeps s₀ (s.askLicence t) :=
  .ite h h.requestRound

theorem Keeps.storeClaim (h : Keeps s₀ s) {x : StageHandle} : Keeps s₀ (s.storeClaim x) :=
  Keeps.askLicences (Keeps.askLicence (.ite h.writeSlot.update h.writeSlot))

theorem Keeps.installed (h : Keeps s₀ s) {x : StageHandle} : Keeps s₀ (s.installed x) :=
  .ite h.writeSlot (.ite h.writeSlot (.ite h.storeClaim h))

theorem execStageInstallComplete_settles (h : Keeps s₀ s) {handle : Nat} : Settles s₀ (execStageInstallComplete handle s) := by
  unfold execStageInstallComplete
  split
  exacts [h.ok, (h.when h.installed.setHandle)]

theorem execStageHandleTimeout_settles (h : Keeps s₀ s) {handle : Nat} : Settles s₀ (execStageHandleTimeout handle s) := by
  unfold execStageHandleTimeout
  split
  exacts [h.ok, (h.when h.dropHandle)]

theorem Keeps.buildShadow (h : Keeps s₀ s) {b : ShadowBuild} {l : Nat} : Keeps s₀ (s.buildShadow b l) :=
  .ite h.copyBank.clearTables h.copyBank.putTables

theorem execShadowBuildComplete_settles (h : Keeps s₀ s) : Settles s₀ (execShadowBuildComplete s) := by
  unfold execShadowBuildComplete
  split
  exacts [h.ok, (h.when (.ite (Keeps.setShadow (Keeps.each h (fun _ h1 _ => h1.buildShadow))) (Keeps.setModel (Keeps.setShadow
    (Keeps.each h (fun _ h1 _ => h1.buildShadow))))))]

theorem execModelUnstage_settles (h : Keeps s₀ s) {rq : Req} {modelSlot : BitVec 16} : Settles s₀ (execModelUnstage rq modelSlot s) :=
  h.request (fun _ _ => (.ite Keeps.status (.ite Keeps.status (.ite Keeps.status (.ite Keeps.status (Keeps.done (fun _ h2 =>
    h2.setModel.update.setShadow)))))))

theorem execSwapArm_settles (h : Keeps s₀ s) {rq : Req} {t : BitVec 64} : Settles s₀ (execSwapArm rq t s) :=
  h.request (fun _ _ => (.ite Keeps.status (.ite Keeps.status (Keeps.done (fun _ h2 => h2.setShadow.requestRound)))))

theorem execSwapDisarm_settles (h : Keeps s₀ s) {rq : Req} : Settles s₀ (execSwapDisarm rq s) :=
  h.request (fun _ _ => (by split; exacts [Keeps.status, (Keeps.done (fun _ h2 => h2.dropRound.setShadow))]))

theorem execDirectorySet_settles (h : Keeps s₀ s) {rq : Req} {bits : BitVec 8} : Settles s₀ (execDirectorySet rq bits s) :=
  h.request (fun _ _ => (Keeps.done (fun _ h2 => h2.writeDirectory)))

theorem execLogClear_settles (h : Keeps s₀ s) {rq : Req} {kind : BitVec 8} {index : BitVec 16} : Settles s₀ (execLogClear rq kind index s) :=
  h.request (fun _ _ => (Keeps.done (fun _ h2 => h2.compactLog.logStat)))

theorem Keeps.moduleReset {width cause : Nat} : (s.moduleReset width cause).Safe s₀ :=
  .ite Keeps.status (Keeps.done (fun _ h1 => h1.acceptReset))

theorem Keeps.askLevelReset {l cause : Nat} : (s.askLevelReset l cause).Safe s₀ :=
  .ite Keeps.status (Keeps.done (fun _ h1 => h1.acceptReset))

theorem Keeps.askFaceReset {p cause : Nat} : (s.askFaceReset p cause).Safe s₀ :=
  .ite Keeps.status (Keeps.done (fun _ h1 => h1.acceptReset))

theorem Keeps.askLevelPark {l : Nat} {park : Bool} : (s.askLevelPark l park).Safe s₀ :=
  .ite Keeps.status (Keeps.done (fun _ h1 => (.ite h1.beginPark h1.beginUnpark)))

theorem Keeps.askStandby {enter : Bool} : (s.askStandby enter).Safe s₀ :=
  .ite (.ite Keeps.status (Keeps.done (fun _ h1 => h1.beginStandby))) (.ite (Keeps.done (fun _ h1 => h1.endStandby)) Keeps.status)

theorem Keeps.withdrawRemoval (h : Keeps s₀ s) : Keeps s₀ (s.withdrawRemoval) :=
  h.update.setPwrState

theorem Keeps.askRemove {mode limit : Nat} : (s.askRemove mode limit).Safe s₀ :=
  .ite Keeps.status (.ite (.ite (Keeps.done (fun _ h1 => h1.withdrawRemoval)) Keeps.status) (Keeps.done (fun _ h1 => (.ite
    h1.startRemoval h1.update))))

theorem execWarmReset_settles (h : Keeps s₀ s) {rq : Req} : Settles s₀ (execWarmReset rq s) :=
  h.request (fun _ _ => Keeps.moduleReset)

theorem execLevelReset_settles (h : Keeps s₀ s) {rq : Req} {level : BitVec 8} : Settles s₀ (execLevelReset rq level s) :=
  h.request (fun _ _ => Keeps.askLevelReset)

theorem execFaceReset_settles (h : Keeps s₀ s) {rq : Req} {face : BitVec 16} : Settles s₀ (execFaceReset rq face s) :=
  h.request (fun _ _ => Keeps.askFaceReset)

theorem execLevelPark_settles (h : Keeps s₀ s) {rq : Req} {level park : BitVec 8} : Settles s₀ (execLevelPark rq level park s) :=
  h.request (fun _ _ => Keeps.askLevelPark)

theorem execStandby_settles (h : Keeps s₀ s) {rq : Req} {enter : BitVec 8} : Settles s₀ (execStandby rq enter s) :=
  h.request (fun _ _ => Keeps.askStandby)

theorem execRemove_settles (h : Keeps s₀ s) {rq : Req} {mode : BitVec 8} {drainLimit : BitVec 16} :
    Settles s₀ (execRemove rq mode drainLimit s) :=
  h.request (fun _ _ => Keeps.askRemove)

theorem Keeps.changeKey (h : Keeps s₀ s) {slot : Nat} {k : Option KeySlot} : Keeps s₀ (s.changeKey slot k) :=
  h.updateRot

theorem execKeySet_settles (h : Keeps s₀ s) {rq : Req} {slot roles : BitVec 8} {nonce wrapped : Bytes} :
    Settles s₀ (execKeySet rq slot roles nonce wrapped s) :=
  h.request (fun _ _ => (.ite Keeps.status (Keeps.done (fun _ h2 => h2.changeKey))))

theorem execKeyClear_settles (h : Keeps s₀ s) {rq : Req} {slot : BitVec 8} : Settles s₀ (execKeyClear rq slot s) :=
  h.request (fun _ _ => (.ite Keeps.status (Keeps.done (fun _ h2 => h2.changeKey))))

theorem Keeps.admitFrame (h : Keeps s₀ s) {rq : Req} {f : Bytes} : Keeps s₀ (s.admitFrame rq f) :=
  .ite h.enqueue (by split; exacts [h.again, (h.answer Keeps.status)])

theorem Keeps.fresh (h : Keeps s₀ s) {rq : Req} {f : Bytes} : Keeps s₀ (s.fresh rq f) :=
  .ite h.sendCtrl (.ite h.bumpReg h.update.admitFrame)

theorem execCtrlFrameReceive_settles (h : Keeps s₀ s) {port : Nat} {src : NetAddr} {frame : Bytes} :
    Settles s₀ (execCtrlFrameReceive port src frame s) :=
  h.when (.ite h.bumpReg (.ite h (.ite (.ite h.enqueue h) (.ite h.bumpReg h.fresh))))

theorem Keeps.smb (h : Keeps s₀ s) {addr : BitVec 7} {run : State → State} (hrun : ∀ u, Keeps s₀ u → Keeps s₀ (run u)) :
    Settles s₀ (s.smb addr run) :=
  h.when (hrun _ h)

theorem Keeps.smbReply (h : Keeps s₀ s) {code : Nat} {data : Bytes} : Keeps s₀ (s.smbReply code data) :=
  h.send

theorem Keeps.smbResult (h : Keeps s₀ s) {status code : Nat} : Keeps s₀ (s.smbResult status code) :=
  h.updateRot

theorem execSmbIdentity_settles (h : Keeps s₀ s) {addr : BitVec 7} : Settles s₀ (execSmbIdentity addr s) :=
  h.smb (fun _ h1 => h1.smbReply)

theorem execSmbStatus_settles (h : Keeps s₀ s) {addr : BitVec 7} : Settles s₀ (execSmbStatus addr s) :=
  h.smb (fun _ h1 => h1.smbReply)

theorem execSmbEventNext_settles (h : Keeps s₀ s) {addr : BitVec 7} : Settles s₀ (execSmbEventNext addr s) :=
  h.smb (fun _ h1 => (by split; exacts [h1.smbReply, h1.updateRot.smbReply]))

theorem execSmbThermal_settles (h : Keeps s₀ s) {addr : BitVec 7} : Settles s₀ (execSmbThermal addr s) :=
  h.smb (fun _ h1 => h1.update.smbReply)

theorem execSmbArm_settles (h : Keeps s₀ s) {addr : BitVec 7} {value pec : Byte} : Settles s₀ (execSmbArm addr value pec s) :=
  h.smb (fun _ h1 => (.ite h1.updateRot h1))

theorem execSmbArmWindowExpire_settles (h : Keeps s₀ s) : Settles s₀ (execSmbArmWindowExpire s) := by
  unfold execSmbArmWindowExpire
  split
  exacts [(h.when h.updateRot), (.next h)]

theorem Keeps.smbRun (h : Keeps s₀ s) {code : Nat} {r : Reply} (hr : r.Safe s₀) : Keeps s₀ (s.smbRun code r) :=
  hr _ h.smbResult

theorem Keeps.smbAct (h : Keeps s₀ s) {code : Nat} {bad : Bool} {run : State → Reply} (hrun : ∀ u, Keeps s₀ u → (run u).Safe s₀) :
    Keeps s₀ (s.smbAct code bad run) :=
  .ite h.smbResult (h.smbRun (hrun _ h))

theorem Keeps.smbCommand (h : Keeps s₀ s) {code : Nat} {data : Bytes} {p : Byte} {bad cold : Bool} {run : State → Reply} (hrun : ∀ u,
    Keeps s₀ u → (run u).Safe s₀) : Keeps s₀ (s.smbCommand code data p bad cold run) :=
  .ite h (.ite (h.takeEntry.smbAct hrun) (.ite h.smbResult (.ite (.ite (h.updateRot.smbRun Keeps.moduleReset) h.updateRot.smbResult)
    (.ite h.updateRot.smbResult (.ite (h.updateRot.smbAct hrun) h.updateRot.enqueue)))))

theorem execSmbReset_settles (h : Keeps s₀ s) {addr : BitVec 7} {kind level pec : Byte} : Settles s₀ (execSmbReset addr kind level pec s) :=
  h.smb (fun _ h1 => (h1.smbCommand (fun _ _ => (.ite Keeps.moduleReset (.ite Keeps.moduleReset Keeps.askLevelReset)))))

theorem execSmbPark_settles (h : Keeps s₀ s) {addr : BitVec 7} {park level pec : Byte} : Settles s₀ (execSmbPark addr park level pec s) :=
  h.smb (fun _ h1 => (h1.smbCommand (fun _ _ => Keeps.askLevelPark)))

theorem execSmbStandby_settles (h : Keeps s₀ s) {addr : BitVec 7} {enter pec : Byte} : Settles s₀ (execSmbStandby addr enter pec s) :=
  h.smb (fun _ h1 => (h1.smbCommand (fun _ _ => Keeps.askStandby)))

theorem execSmbRemove_settles (h : Keeps s₀ s) {addr : BitVec 7} {mode limitLo limitHi pec : Byte} :
    Settles s₀ (execSmbRemove addr mode limitLo limitHi pec s) :=
  h.smb (fun _ h1 => (h1.smbCommand (fun _ _ => Keeps.askRemove)))

theorem execSmbResult_settles (h : Keeps s₀ s) {addr : BitVec 7} : Settles s₀ (execSmbResult addr s) :=
  h.smb (fun _ h1 => h1.smbReply)

theorem Keeps.takeLine (h : Keeps s₀ s) : Keeps s₀ (s.takeLine) :=
  h.update

theorem Keeps.lampAnswer (h : Keeps s₀ s) {r : LampReply} (hr : r.Safe s₀) : Keeps s₀ (s.lampAnswer r) :=
  hr _ h.send

theorem Keeps.lampTaken (h : Keeps s₀ s) {e : HfEntry} : Keeps s₀ (s.lampTaken e) :=
  .ite h.takeEntry h.takeLine

theorem Keeps.lampWait (h : Keeps s₀ s) {e : HfEntry} : Keeps s₀ (s.lampWait e) :=
  .ite h h.takeLine.enqueue

theorem Keeps.lampDo (h : Keeps s₀ s) {e : HfEntry} {run : State → State} (hrun : ∀ u, Keeps s₀ u → Keeps s₀ (run u)) :
    Settles s₀ (s.lampDo e run) :=
  h.when (.ite (hrun _ h.lampTaken) h.lampWait)

theorem Keeps.lampRun (h : Keeps s₀ s) {n : Nat} {args : List Nat} {run : State → LampReply} (hrun : ∀ u, Keeps s₀ u → (run u).Safe s₀) :
    Settles s₀ (s.lampRun n args run) :=
  h.lampDo (fun _ h1 => (.ite (h1.lampAnswer (hrun _ h1)) (h1.lampAnswer (fun _ h2 => h2))))

theorem Keeps.lampOf {r : Reply} (hr : r.Safe s₀) : (lampOf r).Safe s₀ :=
  fun _ h1 => (hr _ h1)

theorem Keeps.lampPrint {l : List Nat} : (lampPrint l).Safe s₀ :=
  fun _ h1 => h1

theorem Keeps.lampBad : (lampBad).Safe s₀ :=
  fun _ h1 => h1

theorem execLampLineReceive_settles (h : Keeps s₀ s) {line : Bytes} : Settles s₀ (execLampLineReceive line s) :=
  .ite h.ok (.ite (h.takeLine.lampAnswer Keeps.lampBad).ok (h.when h.update))

theorem execLampHelp_settles (h : Keeps s₀ s) : Settles s₀ (execLampHelp s) :=
  h.lampRun (fun _ _ => Keeps.lampPrint)

theorem execLampId_settles (h : Keeps s₀ s) : Settles s₀ (execLampId s) :=
  h.lampRun (fun _ _ => Keeps.lampPrint)

theorem execLampStatus_settles (h : Keeps s₀ s) : Settles s₀ (execLampStatus s) :=
  h.lampRun (fun _ _ => Keeps.lampPrint)

theorem execLampLog_settles (h : Keeps s₀ s) {n : Nat} : Settles s₀ (execLampLog n s) :=
  h.lampRun (fun _ _ => (.ite Keeps.lampBad Keeps.lampPrint))

theorem execLampRepair_settles (h : Keeps s₀ s) : Settles s₀ (execLampRepair s) :=
  h.lampRun (fun _ _ => Keeps.lampPrint)

theorem execLampRegRead_settles (h : Keeps s₀ s) {addr count : Nat} : Settles s₀ (execLampRegRead addr count s) :=
  h.lampRun (fun _ _ => (.ite Keeps.lampBad (fun _ h2 => h2.readRegs)))

theorem execLampRegWrite_settles (h : Keeps s₀ s) {addr : Nat} {value : Word} : Settles s₀ (execLampRegWrite addr value s) :=
  h.lampRun (fun _ _ => (.ite Keeps.lampBad (fun _ h2 => h2.writeReg)))

theorem execLampMemRead_settles (h : Keeps s₀ s) {addr count : Nat} : Settles s₀ (execLampMemRead addr count s) :=
  h.lampRun (fun _ _ => (.ite Keeps.lampBad (by split; exacts [(fun _ h2 => h2.addrError), Keeps.lampPrint])))

theorem execLampBaud_settles (h : Keeps s₀ s) {rate : Nat} : Settles s₀ (execLampBaud rate s) :=
  h.lampRun (fun _ _ => (by split; exacts [Keeps.lampBad, (fun _ h2 => h2.update)]))

theorem execLampBaudApply_settles (h : Keeps s₀ s) : Settles s₀ (execLampBaudApply s) := by
  unfold execLampBaudApply
  split
  exacts [h.ok, (h.when h.update.setField)]

theorem execLampResetCold_settles (h : Keeps s₀ s) : Settles s₀ (execLampResetCold s) :=
  h.lampRun (fun _ _ => (Keeps.lampOf Keeps.moduleReset))

theorem execLampResetWarm_settles (h : Keeps s₀ s) : Settles s₀ (execLampResetWarm s) :=
  h.lampRun (fun _ _ => (Keeps.lampOf Keeps.moduleReset))

theorem execLampResetLevel_settles (h : Keeps s₀ s) {level : Nat} : Settles s₀ (execLampResetLevel level s) :=
  h.lampRun (fun _ _ => (.ite Keeps.lampBad (Keeps.lampOf Keeps.askLevelReset)))

theorem execLampResetFace_settles (h : Keeps s₀ s) {face : Nat} : Settles s₀ (execLampResetFace face s) :=
  h.lampRun (fun _ _ => (.ite Keeps.lampBad (Keeps.lampOf Keeps.askFaceReset)))

theorem execLampPark_settles (h : Keeps s₀ s) {level : Nat} : Settles s₀ (execLampPark level s) :=
  h.lampRun (fun _ _ => (.ite Keeps.lampBad (Keeps.lampOf Keeps.askLevelPark)))

theorem execLampUnpark_settles (h : Keeps s₀ s) {level : Nat} : Settles s₀ (execLampUnpark level s) :=
  h.lampRun (fun _ _ => (.ite Keeps.lampBad (Keeps.lampOf Keeps.askLevelPark)))

theorem execLampStandbyOn_settles (h : Keeps s₀ s) : Settles s₀ (execLampStandbyOn s) :=
  h.lampRun (fun _ _ => (Keeps.lampOf Keeps.askStandby))

theorem execLampStandbyOff_settles (h : Keeps s₀ s) : Settles s₀ (execLampStandbyOff s) :=
  h.lampRun (fun _ _ => (Keeps.lampOf Keeps.askStandby))

theorem execLampKeyload_settles (h : Keeps s₀ s) {slot roles : Nat} {key : Bytes} : Settles s₀ (execLampKeyload slot roles key s) :=
  h.lampRun (fun _ _ => (.ite Keeps.lampBad (fun _ h2 => h2.changeKey)))

theorem execLampLock_settles (h : Keeps s₀ s) {moduleId : Nat} : Settles s₀ (execLampLock moduleId s) :=
  h.lampRun (fun _ _ => .ite Keeps.lampBad (fun _ h2 => h2.lock.setField))

theorem Keeps.beginTransfer (h : Keeps s₀ s) {kind slot : Nat} : Keeps s₀ (s.beginTransfer kind slot) :=
  h.update.send

theorem Keeps.lampLoad (h : Keeps s₀ s) {n kind slot : Nat} : Settles s₀ (s.lampLoad n kind slot) :=
  h.lampDo (fun _ h1 => (.ite (h1.lampAnswer (fun _ h2 => h2)) (.ite (h1.lampAnswer Keeps.lampBad) h1.beginTransfer)))

theorem execLampHfload_settles (h : Keeps s₀ s) {slot : Nat} : Settles s₀ (execLampHfload slot s) :=
  h.lampLoad

theorem execLampPlanload_settles (h : Keeps s₀ s) {slot : Nat} : Settles s₀ (execLampPlanload slot s) :=
  h.lampLoad

theorem Keeps.storeImage (h : Keeps s₀ s) {x : ImageXfer} : Keeps s₀ (s.storeImage x) :=
  .ite h.writeSlot.writeDirectory h.writeSlot

theorem Keeps.endTransfer (h : Keeps s₀ s) {x : ImageXfer} : Keeps s₀ (s.endTransfer x) :=
  .ite (Keeps.lampAnswer (.ite h.update.setPlanErr h.update) (fun _ h1 => h1)) (.ite (h.update.storeImage.lampAnswer (fun _ h1 =>
    h1)).acceptReset (h.update.storeImage.lampAnswer (fun _ h1 => h1)))

theorem execLampImageFrame_settles (h : Keeps s₀ s) {length : BitVec 16} {data : Bytes} {crc : Word} :
    Settles s₀ (execLampImageFrame length data crc s) := by
  unfold execLampImageFrame
  split
  exacts [h.ok, (.ite h.endTransfer.ok h.update.send.ok)]

theorem execLampTransferTimeout_settles (h : Keeps s₀ s) : Settles s₀ (execLampTransferTimeout s) := by
  unfold execLampTransferTimeout
  split
  exacts [h.ok, (h.when (h.update.lampAnswer (fun _ h1 => h1)))]

theorem Keeps.stopFrame (h : Keeps s₀ s) {id : Nat} : Keeps s₀ (s.stopFrame id) :=
  .ite h.setSes h.setSes.dropRest

theorem Keeps.workingAreaUe (h : Keeps s₀ s) {id : Nat} : Keeps s₀ (s.workingAreaUe id) :=
  .ite h.setSes.stopFrame (.ite h.setSes.stopFrame h.loseSession)

theorem Keeps.searchUe (h : Keeps s₀ s) {p offset : Nat} : Keeps s₀ (s.searchUe p offset) :=
  h.bumpReg.raise

theorem Keeps.lotUe (h : Keeps s₀ s) {l c x : Nat} {d : CoderDesc} : Keeps s₀ (s.lotUe l c x d) :=
  .ite h.bumpReg.endCoder h.dropSlices

theorem Keeps.eccUse (h : Keeps s₀ s) {a : Nat} {x : EccUse} : Keeps s₀ (s.eccUse a x) := by
  unfold State.eccUse
  split
  exacts [(.ite h.noteUe.faceFail h), (.ite h.noteUe.searchUe h), (by split; exacts [(.ite h.noteUe.poolError h), h]), (.ite
    h.noteUe.workingAreaUe h), (.ite h.noteUe.loseSession h), (by split; exacts [h.noteUe.freeUnit.blkBus, h]),
    (by split; exacts [h.noteUe.freeUnit.blkBus.lpddrFault, h]), (.ite h.noteUe.engineUe h), (.ite h.noteUe.lpddrFault h), (.ite
    h.noteUe.lpddrFault h), (.ite h.noteUe.engineUe.lpddrFault h), (by split; exacts [(.ite h.noteUe.lotUe h), h]),
    (by split; exacts [(.ite h.noteUe.poolError h), h]), (by split; exacts [h.noteUe.freeUnit.blkBus, h]), h.noteUe.bumpReg.raise, (.ite
    h.noteUe.sendTo h), (.ite h.engineUe h), h.noteUe.raise.moduleFault]

theorem Keeps.eccCorrected (h : Keeps s₀ s) {a : Nat} {use : EccUse} : Keeps s₀ (s.eccCorrected a use) := by
  unfold State.eccCorrected
  split
  exacts [h, (.ite h.bumpReg.corrected h.bumpReg)]

theorem execEccUe_settles (h : Keeps s₀ s) {address : Nat} {error : EccError} : Settles s₀ (execEccUe address error s) :=
  h.when (.ite h.eccCorrected h.eccUse)

theorem Keeps.declareReads (h : Keeps s₀ s) {before : List Nat} : Keeps s₀ (s.declareReads before) :=
  .ite h (Keeps.each h.update (fun _ h1 _ => h1.lpddrFault))

theorem execTransactionIssue_settles (h : Keeps s₀ s) {p engine : Nat} : Settles s₀ (execTransactionIssue p engine s) :=
  h.when h.issue.declareReads

theorem execTramRefetch_settles (h : Keeps s₀ s) {p engine : Nat} : Settles s₀ (execTramRefetch p engine s) :=
  h.tramRefetch.declareReads.ok

theorem execCompressorDispatch_settles (h : Keeps s₀ s) {level : Nat} : Settles s₀ (execCompressorDispatch level s) :=
  h.when h.dispatchBlk.declareReads

theorem execSegmentComplete_settles (h : Keeps s₀ s) {level unit : Nat} : Settles s₀ (execSegmentComplete level unit s) :=
  h.when h.segment.declareReads

theorem execArithFlagsClear_settles (h : Keeps s₀ s) {p : Nat} {value : Word} : Settles s₀ (execArithFlagsClear p value s) :=
  h.when h.clearFlags

theorem execTrapRecordClear_settles (h : Keeps s₀ s) {p : Nat} {value : Word} : Settles s₀ (execTrapRecordClear p value s) :=
  h.when h.clearTrap

theorem execSpillRecordClear_settles (h : Keeps s₀ s) {p : Nat} {value : Word} : Settles s₀ (execSpillRecordClear p value s) :=
  h.when h.clearSpill

theorem execTagFaultClear_settles (h : Keeps s₀ s) {p : Nat} {value : Word} : Settles s₀ (execTagFaultClear p value s) :=
  h.when h.clearTag

theorem execAddrErrClear_settles (h : Keeps s₀ s) {level : Option Nat} {value : Word} : Settles s₀ (execAddrErrClear level value s) :=
  h.when h.clearAddrErr

theorem execHstErrClear_settles (h : Keeps s₀ s) {p : Nat} {value : Word} : Settles s₀ (execHstErrClear p value s) :=
  h.when h.clearHstErr

theorem execWaitRecordClear_settles (h : Keeps s₀ s) {level : Nat} {value : Word} : Settles s₀ (execWaitRecordClear level value s) :=
  h.when h.clearWait

theorem execRoundAbortRecordClear_settles (h : Keeps s₀ s) {level : Option Nat} {value : Word} :
    Settles s₀ (execRoundAbortRecordClear level value s) :=
  h.when h.clearAbort

theorem execEccRecordClear_settles (h : Keeps s₀ s) {level : Option Nat} {value : Word} : Settles s₀ (execEccRecordClear level value s) :=
  h.when h.clearEcc

theorem execTakeoverRecordClear_settles (h : Keeps s₀ s) {level : Nat} {value : Word} : Settles s₀ (execTakeoverRecordClear level value s) :=
  h.when h.clearTakeover

theorem execPhaseLastClear_settles (h : Keeps s₀ s) {value : Word} : Settles s₀ (execPhaseLastClear value s) :=
  h.clearPhaseLast.ok

theorem execCounterReadClear_settles (h : Keeps s₀ s) {addr : Nat} : Settles s₀ (execCounterReadClear addr s) :=
  h.when h.readEffect

theorem execTimNowLoRead_settles (h : Keeps s₀ s) : Settles s₀ (execTimNowLoRead s) :=
  h.readEffect.ok

theorem execRegisterWriteOther_settles (h : Keeps s₀ s) {addr : Nat} {value : Word} : Settles s₀ (execRegisterWriteOther addr value s) :=
  h.when h.writeEffect

theorem Keeps.afterAbort (h : Keeps s₀ s) {r : Round} : Keeps s₀ (s.afterAbort r) := by
  unfold State.afterAbort
  split
  exacts [h.slotAbsent.afterTakeover, h.askAgain, h.askAgain, h.askAgain, h, h, h]

theorem Keeps.abortRound (h : Keeps s₀ s) {r : Round} {reason : Nat} : Keeps s₀ (s.abortRound r reason) :=
  h.dropRound.afterAbort

theorem Keeps.abortWith (h : Keeps s₀ s) {r : Round} {reason : Nat} {lost : List Nat} : Keeps s₀ (s.abortWith r reason lost) := by
  unfold State.abortWith
  split
  exacts [h.ckptFail, h.abortRound, h.abortRound, h.abortRound, h.abortRound, h.abortRound, h.abortRound]

theorem execRoundArm_settles (h : Keeps s₀ s) {id : Nat} : Settles s₀ (execRoundArm id s) :=
  h.tryArm.ok

theorem execRoundMemberComplete_settles (h : Keeps s₀ s) {id memberIx : Nat} {good : Bool} :
    Settles s₀ (execRoundMemberComplete id memberIx good s) := by
  unfold execRoundMemberComplete
  split
  exacts [h.ok, (h.when (.ite h.setRound h.abortWith))]

theorem Keeps.refuseRound (h : Keeps s₀ s) {r : Round} : Keeps s₀ (s.refuseRound r) := by
  unfold State.refuseRound
  dsimp only
  split
  exacts [(.ite h.removeRound.setShadow h.removeRound), h.removeRound.askAgain, h.removeRound.askAgain, h.removeRound, h.removeRound,
    h.removeRound, h.removeRound]

theorem execRoundDecision_settles (h : Keeps s₀ s) {id : Nat} : Settles s₀ (execRoundDecision id s) := by
  unfold execRoundDecision
  split
  exacts [h.ok, (by split; exacts [h.ok, (h.when (.ite h.refuseRound (.ite h.setRound h.abortRound)))])]

theorem execRoundFireTimed_settles (h : Keeps s₀ s) {id : Nat} : Settles s₀ (execRoundFireTimed id s) := by
  unfold execRoundFireTimed
  split
  exacts [h.ok, (by split; exacts [h.ok, (h.when h.fireRound.beginDue)])]

theorem Keeps.fireDone (h : Keeps s₀ s) {r : Round} : Keeps s₀ (s.fireDone r) := by
  unfold State.fireDone
  split
  exacts [h.enterService.fireRound.afterRemap, h.fireRound, h.fireRound, h.fireRound, h.fireRound, h.fireRound, h.fireRound]

theorem execRoundFireCompletion_settles (h : Keeps s₀ s) {id : Nat} : Settles s₀ (execRoundFireCompletion id s) := by
  unfold execRoundFireCompletion
  split
  exacts [h.ok, (by split; exacts [h.ok, (h.when h.fireDone.beginDue)])]

theorem execRoundDeadline_settles (h : Keeps s₀ s) {id : Nat} : Settles s₀ (execRoundDeadline id s) := by
  unfold execRoundDeadline
  split
  exacts [h.ok, (h.when h.abortWith)]

theorem Keeps.migrateAtStart (h : Keeps s₀ s) {id : Nat} : Keeps s₀ (s.migrateAtStart id) := by
  unfold State.migrateAtStart
  dsimp only
  split
  exacts [h, (.ite h.refuseRound (.ite h.fireRound.beginDue h.abortRound))]

theorem execUsfFrameHeader_settles (h : Keeps s₀ s) {session : Nat} {unit : Bytes} : Settles s₀ (execUsfFrameHeader session unit s) :=
  Keeps.ok (.ite h.deliver h.deliver.migrateAtStart)

theorem Keeps.tick (h : Keeps s₀ s) : Keeps s₀ (tick s) :=
  h.cycle

/-! Every command, and every step. -/

/-- Every command answers a next state, and one that keeps what s₀ holds for good. -/
theorem exec_settles (h : Keeps s₀ s) (c : Instr) : Settles s₀ (exec c s) :=
  match c with
  | .ctrlFrameReceive .. => execCtrlFrameReceive_settles h
  | .probe .. => execProbe_settles h
  | .status .. => execStatus_settles h
  | .sessionStatus .. => execSessionStatus_settles h
  | .sessionCounters .. => execSessionCounters_settles h
  | .jobStatus .. => execJobStatus_settles h
  | .eventRead .. => execEventRead_settles h
  | .eventSubscribe .. => execEventSubscribe_settles h
  | .repairRead .. => execRepairRead_settles h
  | .regRead .. => execRegRead_settles h
  | .regWrite .. => execRegWrite_settles h
  | .attest .. => execAttest_settles h
  | .modelList .. => execModelList_settles h
  | .sesOpen .. => execSesOpen_settles h
  | .sesClose .. => execSesClose_settles h
  | .sesPark .. => execSesPark_settles h
  | .sesResume .. => execSesResume_settles h
  | .sesReset .. => execSesReset_settles h
  | .sesSet .. => execSesSet_settles h
  | .migrate .. => execMigrate_settles h
  | .jobStart .. => execJobStart_settles h
  | .jobSuspend .. => execJobSuspend_settles h
  | .jobResume .. => execJobResume_settles h
  | .jobCancel .. => execJobCancel_settles h
  | .jobRelease .. => execJobRelease_settles h
  | .jobExport .. => execJobExport_settles h
  | .stageBegin .. => execStageBegin_settles h
  | .stageData .. => execStageData_settles h
  | .stageCommit .. => execStageCommit_settles h
  | .stageAbort .. => execStageAbort_settles h
  | .modelUnstage .. => execModelUnstage_settles h
  | .swapArm .. => execSwapArm_settles h
  | .swapDisarm .. => execSwapDisarm_settles h
  | .directorySet .. => execDirectorySet_settles h
  | .logClear .. => execLogClear_settles h
  | .warmReset .. => execWarmReset_settles h
  | .levelReset .. => execLevelReset_settles h
  | .faceReset .. => execFaceReset_settles h
  | .levelPark .. => execLevelPark_settles h
  | .standby .. => execStandby_settles h
  | .remove .. => execRemove_settles h
  | .keySet .. => execKeySet_settles h
  | .keyClear .. => execKeyClear_settles h
  | .smbIdentity .. => execSmbIdentity_settles h
  | .smbStatus .. => execSmbStatus_settles h
  | .smbEventNext .. => execSmbEventNext_settles h
  | .smbThermal .. => execSmbThermal_settles h
  | .smbArm .. => execSmbArm_settles h
  | .smbArmWindowExpire => execSmbArmWindowExpire_settles h
  | .smbReset .. => execSmbReset_settles h
  | .smbPark .. => execSmbPark_settles h
  | .smbStandby .. => execSmbStandby_settles h
  | .smbRemove .. => execSmbRemove_settles h
  | .smbResult .. => execSmbResult_settles h
  | .lampLineReceive .. => execLampLineReceive_settles h
  | .lampHelp => execLampHelp_settles h
  | .lampId => execLampId_settles h
  | .lampStatus => execLampStatus_settles h
  | .lampLog .. => execLampLog_settles h
  | .lampRepair => execLampRepair_settles h
  | .lampBaud .. => execLampBaud_settles h
  | .lampBaudApply => execLampBaudApply_settles h
  | .lampRegRead .. => execLampRegRead_settles h
  | .lampRegWrite .. => execLampRegWrite_settles h
  | .lampMemRead .. => execLampMemRead_settles h
  | .lampResetCold => execLampResetCold_settles h
  | .lampResetWarm => execLampResetWarm_settles h
  | .lampResetLevel .. => execLampResetLevel_settles h
  | .lampResetFace .. => execLampResetFace_settles h
  | .lampPark .. => execLampPark_settles h
  | .lampUnpark .. => execLampUnpark_settles h
  | .lampStandbyOn => execLampStandbyOn_settles h
  | .lampStandbyOff => execLampStandbyOff_settles h
  | .lampKeyload .. => execLampKeyload_settles h
  | .lampHfload .. => execLampHfload_settles h
  | .lampPlanload .. => execLampPlanload_settles h
  | .lampImageFrame .. => execLampImageFrame_settles h
  | .lampTransferTimeout => execLampTransferTimeout_settles h
  | .lampLock .. => execLampLock_settles h
  | .arithFlagsClear .. => execArithFlagsClear_settles h
  | .trapRecordClear .. => execTrapRecordClear_settles h
  | .spillRecordClear .. => execSpillRecordClear_settles h
  | .tagFaultClear .. => execTagFaultClear_settles h
  | .addrErrClear .. => execAddrErrClear_settles h
  | .hstErrClear .. => execHstErrClear_settles h
  | .waitRecordClear .. => execWaitRecordClear_settles h
  | .roundAbortRecordClear .. => execRoundAbortRecordClear_settles h
  | .eccRecordClear .. => execEccRecordClear_settles h
  | .takeoverRecordClear .. => execTakeoverRecordClear_settles h
  | .phaseLastClear .. => execPhaseLastClear_settles h
  | .counterReadClear .. => execCounterReadClear_settles h
  | .timNowLoRead => execTimNowLoRead_settles h
  | .registerWriteOther .. => execRegisterWriteOther_settles h
  | .hoistCopy .. => execHoistCopy_settles h
  | .hoistFill .. => execHoistFill_settles h
  | .tram .. => execTram_settles h
  | .transactionIssue .. => execTransactionIssue_settles h
  | .descriptorComplete .. => execDescriptorComplete_settles h
  | .busError .. => execBusError_settles h
  | .fusedStageCommand .. => execFusedStageCommand_settles h
  | .computeStep .. => execComputeStep_settles h
  | .muster .. => execMuster_settles h
  | .musterRelease .. => execMusterRelease_settles h
  | .skipPublish .. => execSkipPublish_settles h
  | .skipRelease .. => execSkipRelease_settles h
  | .poolBorrow .. => execPoolBorrow_settles h
  | .borrowReturnBy .. => execBorrowReturnBy_settles h
  | .ringMonitorSample .. => execRingMonitorSample_settles h
  | .waitJoinSample => execWaitJoinSample_settles h
  | .tramChunkArrive .. => execTramChunkArrive_settles h
  | .tramRefetch .. => execTramRefetch_settles h
  | .faceIdleGate .. => execFaceIdleGate_settles h
  | .faceUngate .. => execFaceUngate_settles h
  | .motionBandStart .. => execMotionBandStart_settles h
  | .columnBlockLoad .. => execColumnBlockLoad_settles h
  | .motionTileStart .. => execMotionTileStart_settles h
  | .motionBandPublish .. => execMotionBandPublish_settles h
  | .regionMapPaint .. => execRegionMapPaint_settles h
  | .coderJobSubmit .. => execCoderJobSubmit_settles h
  | .coderJobDispatch .. => execCoderJobDispatch_settles h
  | .coderCacheFill .. => execCoderCacheFill_settles h
  | .coderContextSwitch .. => execCoderContextSwitch_settles h
  | .coderJobComplete .. => execCoderJobComplete_settles h
  | .compress .. => execCompress_settles h
  | .decompress .. => execDecompress_settles h
  | .verify .. => execVerify_settles h
  | .compressorDispatch .. => execCompressorDispatch_settles h
  | .segmentComplete .. => execSegmentComplete_settles h
  | .sessionActivate .. => execSessionActivate_settles h
  | .frameStart .. => execFrameStart_settles h
  | .bandLaunch .. => execBandLaunch_settles h
  | .encodeDeadline .. => execEncodeDeadline_settles h
  | .sliceEmit .. => execSliceEmit_settles h
  | .destinationSend .. => execDestinationSend_settles h
  | .spectatorSkip .. => execSpectatorSkip_settles h
  | .decodeFrameDeadline .. => execDecodeFrameDeadline_settles h
  | .decodeFrameOutput .. => execDecodeFrameOutput_settles h
  | .sessionParkComplete .. => execSessionParkComplete_settles h
  | .sessionFree .. => execSessionFree_settles h
  | .ethFrameReceive .. => execEthFrameReceive_settles h
  | .usfPacketReceive .. => execUsfPacketReceive_settles h
  | .fragmentTimeout .. => execFragmentTimeout_settles h
  | .rawMediaPacket .. => execRawMediaPacket_settles h
  | .usfStreamHeader .. => execUsfStreamHeader_settles h
  | .usfFrameHeader .. => execUsfFrameHeader_settles h
  | .usfSlice .. => execUsfSlice_settles h
  | .usfEndOfStream .. => execUsfEndOfStream_settles h
  | .usfLossReport .. => execUsfLossReport_settles h
  | .usfReservedType .. => execUsfReservedType_settles h
  | .roundArm .. => execRoundArm_settles h
  | .roundMemberComplete .. => execRoundMemberComplete_settles h
  | .roundDecision .. => execRoundDecision_settles h
  | .roundFireTimed .. => execRoundFireTimed_settles h
  | .roundFireCompletion .. => execRoundFireCompletion_settles h
  | .roundDeadline .. => execRoundDeadline_settles h
  | .faceWatchdogExpire .. => execFaceWatchdogExpire_settles h
  | .facePowerFault .. => execFacePowerFault_settles h
  | .faceAutoReset .. => execFaceAutoReset_settles h
  | .faceSoundingDone .. => execFaceSoundingDone_settles h
  | .ringSegment .. => execRingSegment_settles h
  | .lpddrDevice .. => execLpddrDevice_settles h
  | .eccUe .. => execEccUe_settles h
  | .patrolScrub .. => execPatrolScrub_settles h
  | .phaseShed .. => execPhaseShed_settles h
  | .junctionReport .. => execJunctionReport_settles h
  | .dvfsThermalStep .. => execDvfsThermalStep_settles h
  | .dvfsStepDone .. => execDvfsStepDone_settles h
  | .mgmtWatchdogExpire => execMgmtWatchdogExpire_settles h
  | .coldStart => execColdStart_settles h
  | .planLoad => execPlanLoad_settles h
  | .memoryInitDone .. => execMemoryInitDone_settles h
  | .linkTrainingDone .. => execLinkTrainingDone_settles h
  | .soundingDone .. => execSoundingDone_settles h
  | .modelStagingDone => execModelStagingDone_settles h
  | .timeSettled .. => execTimeSettled_settles h
  | .survey => execSurvey_settles h
  | .surveyRerun => execSurveyRerun_settles h
  | .helloSend .. => execHelloSend_settles h
  | .helloReceive .. => execHelloReceive_settles h
  | .neighbourTimeout => execNeighbourTimeout_settles h
  | .electionSettle => execElectionSettle_settles h
  | .streamPortLinkChange .. => execStreamPortLinkChange_settles h
  | .streamPortLinkTimeout .. => execStreamPortLinkTimeout_settles h
  | .warmResetResume .. => execWarmResetResume_settles h
  | .levelResetComplete .. => execLevelResetComplete_settles h
  | .levelParkComplete .. => execLevelParkComplete_settles h
  | .levelUnparkComplete .. => execLevelUnparkComplete_settles h
  | .standbyExitComplete => execStandbyExitComplete_settles h
  | .repairLogWrite => execRepairLogWrite_settles h
  | .shadowBuildComplete => execShadowBuildComplete_settles h
  | .stageInstallComplete .. => execStageInstallComplete_settles h
  | .stageHandleTimeout .. => execStageHandleTimeout_settles h
  | .jobStep .. => execJobStep_settles h
  | .jobStepDone .. => execJobStepDone_settles h
  | .prechargeContact => execPrechargeContact_settles h
  | .vauxUp .. => execVauxUp_settles h
  | .modPresentAssert => execModPresentAssert_settles h
  | .inputValid .. => execInputValid_settles h
  | .modEnRise => execModEnRise_settles h
  | .modEnFall => execModEnFall_settles h
  | .modRemoveOkAssert => execModRemoveOkAssert_settles h
  | .drainLimitExpire => execDrainLimitExpire_settles h
  | .surpriseRemoval .. => execSurpriseRemoval_settles h
  | .inputUndervoltage => execInputUndervoltage_settles h
  | .ptpMessageReceive .. => execPtpMessageReceive_settles h
  | .ptpSyncSend .. => execPtpSyncSend_settles h
  | .servoHoldover => execServoHoldover_settles h
  | .holdoverExpire => execHoldoverExpire_settles h
  | .xctTimeSend .. => execXctTimeSend_settles h
  | .xctTimeFrame .. => execXctTimeFrame_settles h
  | .xctLaneFrame .. => execXctLaneFrame_settles h
  | .xctRelay .. => execXctRelay_settles h
  | .xctNak .. => execXctNak_settles h
  | .xctReplayTimeout .. => execXctReplayTimeout_settles h
  | .xctLane .. => execXctLane_settles h
  | .decodeCloseLaunch .. => execDecodeCloseLaunch_settles h
  | .standbyEntryComplete => execStandbyEntryComplete_settles h
  | .xctAckReceive .. => execXctAckReceive_settles h

theorem step_settles (s : State) : Settles s (step s) := by
  unfold step
  split
  · exact (Keeps.refl s).tick.next
  · exact exec_settles (Keeps.refl s).update _

/-- A step's next state keeps what the state before holds for good. -/
theorem keeps_of_step {s t : State} (h : step s = .next t) : Keeps s t := by
  obtain ⟨u, hu, hk⟩ := step_settles s
  rw [h] at hu
  cases hu
  exact hk

/-- Settles O3: each command's own lemma gives the next state. -/
theorem noCommandStopsTheBlock : Obligations.NoCommandStopsTheBlock := by
  unfold Obligations.NoCommandStopsTheBlock
  intro c s
  obtain ⟨t, ht, -⟩ := exec_settles (Keeps.refl s) c
  exact ⟨t, ht⟩

/-- Settles O5: of what a step keeps, the canonical form. -/
theorem stepKeepsCanonical : Obligations.StepKeepsCanonical := by
  unfold Obligations.StepKeepsCanonical
  intro s t hForm hStep
  exact (keeps_of_step hStep).1 hForm

/-- Settles O6: of what a step keeps, the fuses, the lock and the counters. -/
theorem stepKeepsRootOfTrust : Obligations.StepKeepsRootOfTrust := by
  unfold Obligations.StepKeepsRootOfTrust
  intro s t hStep
  exact (keeps_of_step hStep).2

end Sys2Proof.Machine
end

section
/-! PROOFS. The control path: requests answered and refused (R447, R451, R453), the commands that read (R454 to R468), the parts of a response
(R448) and the frames received (R443 to R449). -/

namespace Sys2Proof.Machine

open Sys2Proof

/-! Requests that are answered OK. -/

/-- A request that nothing stands against, whose own checks let it through: it is answered OK, then takes effect. -/
theorem State.request_ok {s : State} {rq : Req} {op : Nat} {bad : Bool} {req body : Bytes} {run : State → Reply} {f : State → State}
    (hTakes : s.Takes rq op 0) (hGood : bad = false) (hRun : run (s.taken rq op) = { body := body, after := f }) :
    s.request rq op req bad run = .next (f ((s.taken rq op).okReply rq op req body)) := by
  rw [hGood, State.request_of_takes hTakes, hRun]
  rfl

/-- The same of a command without an effect of its own. -/
theorem State.request_read {s : State} {rq : Req} {op : Nat} {bad : Bool} {req body : Bytes} {run : State → Reply}
    (hTakes : s.Takes rq op 0) (hGood : bad = false) (hRun : run (s.taken rq op) = { body := body }) :
    s.request rq op req bad run = .next ((s.taken rq op).okReply rq op req body) :=
  State.request_ok (f := fun t => t) hTakes hGood hRun

/-- A staging request that nothing stands against, whose own checks let it through. -/
theorem State.stageRequest_ok {s : State} {rq : Req} {op kind : Nat} {bad : Bool} {req body : Bytes} {run : State → Reply}
    {f : State → State} (hTakes : s.Takes rq op kind) (hGood : bad = false) (hRun : run (s.taken rq op) = { body := body, after := f }) :
    s.stageRequest rq op kind req bad run = .next (f ((s.taken rq op).okReply rq op req body)) := by
  rw [hGood, State.stageRequest_of_takes hTakes, hRun]
  rfl

/-! What a response leaves of the subscriptions. -/

theorem State.nextSeq_subs (s : State) (slot : Nat) : (s.nextSeq slot).2.ctrl.subs = s.ctrl.subs := by
  unfold State.nextSeq
  split <;> rfl

theorem State.sendCtrl_subs (s : State) (port : Nat) (dst : NetAddr) (kind slot op reqId st detail : Nat) (body : Bytes) :
    (s.sendCtrl port dst kind slot op reqId st detail body).ctrl.subs = s.ctrl.subs :=
  State.each_keeps (fun u => u.ctrl.subs) _ _ (fun u _ => u.nextSeq_subs slot)

theorem State.hold_subs (s : State) (h : Held) : (s.hold h).ctrl.subs = s.ctrl.subs := by
  unfold State.hold
  split <;> rfl

/-- A response changes no subscription. -/
theorem State.okReply_subs (s : State) (rq : Req) (op : Nat) (req body : Bytes) : (s.okReply rq op req body).ctrl.subs = s.ctrl.subs :=
  (State.hold_subs ..).trans (State.sendCtrl_subs ..)

/-! The commands that read. -/

theorem execProbe_of_keyless {s : State} {rq : Req} (hSlot : rq.slot = 0xFF) (hRuns : s.boot.hfRunning = true)
    (hTurn : s.entryTurn (reqEntry rq 1) = true) :
    execProbe rq s = .next ((s.taken rq 1).sendCtrl rq.port rq.src 1 rq.slot 1 rq.reqId 0 0 (s.taken rq 1).probeBody) := by
  rw [execProbe, if_pos hSlot]
  exact when_true (by rw [hRuns, hTurn]; rfl) ..

theorem sesIdOk_of_lt {id : Nat} (h : id < 2 ^ 20) : sesIdOk id = true := decide_eq_true h

/-- Settles O7: each read is a request answered OK, with the body of its row. -/
theorem controlReadsAnswer : Obligations.ControlReadsAnswer := by
  unfold Obligations.ControlReadsAnswer
  intro s rq
  refine ⟨?probe, ?status, ?session, ?counters, ?job, ?events, ?repair, ?models, ?attest⟩
  case probe =>
    intro hSlot hRuns hTurn
    have h := execProbe_of_keyless hSlot hRuns hTurn
    rw [hSlot] at h
    exact h
  case status => exact fun hTakes => State.request_read hTakes rfl rfl
  case session => exact fun id hTakes hId => State.request_read hTakes (congrArg not (sesIdOk_of_lt hId)) rfl
  case counters =>
    intro id clear hTakes hId
    exact State.request_ok (f := fun t => if clear then t.clearCounters id.toNat else t) hTakes (congrArg not (sesIdOk_of_lt hId)) rfl
  case job =>
    intro job j hTakes hJob
    refine State.request_read hTakes rfl ?_
    rw [show (s.taken rq 0x13).job job.toNat = some j from hJob]
    rfl
  case events =>
    intro first count hTakes hCount hFirst
    have hRange : (decide (64 < count.toNat) || decide (1024 ≤ first.toNat)) = false := by simp [hCount, hFirst]
    exact State.request_read hTakes hRange rfl
  case repair => exact fun first count hTakes hCount => State.request_read hTakes (decide_eq_false (Nat.not_lt.2 hCount)) rfl
  case models =>
    intro first count hTakes hCount hEnd
    have hRange : (decide (256 < count.toNat) || decide (4096 < first.toNat + count.toNat)) = false := by simp [hCount, hEnd]
    exact State.request_read hTakes hRange rfl
  case attest =>
    intro nonce hTakes hNonce
    have hLength : (nonce.length != 32) = false := by simp [hNonce]
    exact State.request_ok (f := fun t => t.draw.2) hTakes hLength rfl

/-! Subscriptions and register accesses. -/

theorem execEventSubscribe_of_takes {s : State} {rq : Req} (on : Bool) (hTakes : s.Takes rq 0x15 0) (hRoom : s.ctrl.subs.length < 4) :
    execEventSubscribe rq on s =
      .next (((s.taken rq 0x15).okReply rq 0x15 (natBe 1 (b2n on) ++ zeros 3) []).subscribe rq on) := by
  refine State.request_ok (f := fun t => t.subscribe rq on) hTakes rfl (if_neg ?_)
  have hNotFull : ¬ 4 ≤ (s.taken rq 0x15).ctrl.subs.length := Nat.not_le.2 hRoom
  simp [hNotFull]

theorem State.subscribe_same (s : State) (rq : Req) (on : Bool) : s.SameButControl (s.subscribe rq on) := rfl

/-- One register read where its access does not err. -/
theorem State.readRegs_one {s : State} {a : Nat} (h : s.regError a false = none) : s.readRegs a 1 = ([s.viewReg a], none, s.readEffect a) := by
  rw [State.readRegs, h]
  rfl

theorem State.writeReg_of_sound {s : State} {a : Nat} (v : Word) (h : s.regError a true = none) :
    s.writeReg a v = (none, s.writeEffect a v) := by
  rw [State.writeReg, h]

/-- Whether a register access errs is no matter of the control path. -/
theorem State.regError_of_same {s t : State} (h : s.SameButControl t) (a : Nat) (write : Bool) : t.regError a write = s.regError a write :=
  h.keeps (fun u => u.regError a write) (fun _ _ _ => rfl)

theorem State.okReply_regError (s : State) (rq : Req) (op : Nat) (req body : Bytes) (a : Nat) (write : Bool) :
    ((s.taken rq op).okReply rq op req body).regError a write = s.regError a write :=
  State.regError_of_same ((State.takeEntry_same s (reqEntry rq op)).trans (State.okReply_same ..)) a write

/-- Settles O8: the subscription replaces the slot's own, and the accesses act on the state that has answered. -/
theorem controlSubscribesAndAccessesRegisters : Obligations.ControlSubscribesAndAccessesRegisters := by
  unfold Obligations.ControlSubscribesAndAccessesRegisters
  intro s rq
  refine ⟨?subscribe, ?read, ?write⟩
  case subscribe =>
    intro on hTakes hRoom
    refine ⟨_, execEventSubscribe_of_takes on hTakes hRoom, ?_,
      (State.takeEntry_same s (reqEntry rq 0x15)).trans ((State.okReply_same ..).trans (State.subscribe_same ..))⟩
    have hSubs := State.okReply_subs (s.taken rq 0x15) rq 0x15 (natBe 1 (b2n on) ++ zeros 3) []
    rw [State.subscribe]
    dsimp only
    rw [hSubs]
    cases on
    · exact (List.append_nil _).symm
    · rfl
  case read =>
    intro addr hTakes hAddr hSound
    have hBad : (decide ((1 : BitVec 8).toNat = 0) || decide (64 < (1 : BitVec 8).toNat) || decide (2 ^ 48 ≤ addr.toNat)) = false := by
      simpa using hAddr
    have hRead : (s.taken rq 0x17).readRegs addr.toNat 1 = _ := State.readRegs_one hSound
    refine ⟨_, State.request_ok (f := fun t => (t.readRegs addr.toNat 1).2.2) (body := natBe 4 ((s.taken rq 0x17).viewReg addr.toNat).toNat)
      hTakes hBad ?_, ?_⟩
    · rw [show (1 : BitVec 8).toNat = 1 from rfl, hRead]
      simp
    · rw [State.readRegs_one ((State.okReply_regError ..).trans hSound)]
      rfl
  case write =>
    intro addr value hTakes hAddr hSound
    have hWrite : (s.taken rq 0x18).writeReg addr.toNat value = _ := State.writeReg_of_sound value hSound
    have h := State.request_ok (req := natBe 8 addr.toNat ++ natBe 4 value.toNat) (bad := decide (2 ^ 48 ≤ addr.toNat)) (body := [])
      (run := fun s => { status := if (s.writeReg addr.toNat value).1.isSome then 17 else 0, detail := (s.writeReg addr.toNat value).1.getD 0,
                         after := fun t => (t.writeReg addr.toNat value).2 })
      (f := fun t => (t.writeReg addr.toNat value).2) hTakes (decide_eq_false (Nat.not_le.2 hAddr)) (by rw [hWrite]; rfl)
    rw [State.writeReg_of_sound value ((State.okReply_regError ..).trans hSound)] at h
    exact h

/-- A request whose reply has no effect of its own changes nothing beside the control path. -/
theorem State.same_of_request {s t : State} {rq : Req} {op : Nat} {req : Bytes} {bad : Bool} {run : State → Reply}
    (hRun : ∀ u : State, u.SameButControl ((run (s.taken rq op)).after u)) (h : s.request rq op req bad run = .next t) : s.SameButControl t := by
  obtain ⟨u, hu, rfl | rfl⟩ := State.request_rel h
  · exact hu
  · exact hu.trans (hRun u)

theorem execProbe_same {s t : State} {rq : Req} (h : execProbe rq s = .next t) : s.SameButControl t := by
  unfold execProbe at h
  split at h
  · rcases when_next h with ⟨-, rfl⟩ | ⟨-, rfl⟩
    · exact (State.takeEntry_same s (reqEntry rq 1)).trans (State.sendCtrl_same ..)
    · rfl
  · exact State.same_of_request (fun _ => rfl) h

theorem execJobStatus_same {s t : State} {rq : Req} {job : BitVec 32} (h : execJobStatus rq job s = .next t) : s.SameButControl t := by
  refine State.same_of_request (fun u => ?_) h
  split <;> rfl

theorem execEventSubscribe_same {s t : State} {rq : Req} {on : Bool} (h : execEventSubscribe rq on s = .next t) : s.SameButControl t := by
  refine State.same_of_request (fun u => ?_) h
  split <;> rfl

/-- Settles O9: no read's reply has an effect beside the control path. -/
theorem controlReadsChangeNothingElse : Obligations.ControlReadsChangeNothingElse := by
  unfold Obligations.ControlReadsChangeNothingElse
  intro s t rq id job first f c on h
  rcases h with h | h | h | h | h | h | h | h | h
  · exact execProbe_same h
  · exact State.same_of_request (fun _ => rfl) h
  · exact State.same_of_request (fun _ => rfl) h
  · exact State.same_of_request (fun _ => rfl) h
  · exact execJobStatus_same h
  · exact State.same_of_request (fun _ => rfl) h
  · exact execEventSubscribe_same h
  · exact State.same_of_request (fun _ => rfl) h
  · exact State.same_of_request (fun _ => rfl) h

/-! Responses in parts. -/

/-- Runs of n elements cut a list that the fuel covers: they join to it, and none is longer than n. -/
theorem chunksFuel_spec {α : Type} {n : Nat} (hn : 0 < n) (f : Nat) : ∀ l : List α, l.length ≤ f →
    (chunksFuel n f l).flatten = l ∧ ∀ c ∈ chunksFuel n f l, c.length ≤ n := by
  induction f with
  | zero =>
    intro l hl
    rw [List.length_eq_zero_iff.1 (Nat.le_zero.1 hl)]
    exact ⟨rfl, by simp [chunksFuel]⟩
  | succ f ih =>
    intro l hl
    by_cases hEmpty : l.isEmpty = true
    · rw [chunksFuel, if_pos hEmpty, List.isEmpty_iff.1 hEmpty]
      exact ⟨rfl, by simp⟩
    · have hPos : 0 < l.length := List.length_pos_iff.2 (fun h => hEmpty (List.isEmpty_iff.2 h))
      obtain ⟨hJoin, hLen⟩ := ih (l.drop n) (by rw [List.length_drop]; omega)
      rw [chunksFuel, if_neg hEmpty]
      refine ⟨?_, fun c hc => ?_⟩
      · rw [List.flatten_cons, hJoin, List.take_append_drop]
      · rcases List.mem_cons.1 hc with rfl | hc
        · exact List.length_take_le ..
        · exact hLen c hc

/-- Numbering parts keeps them in their order. -/
theorem zip_range_spec {α : Type} (p : List α) :
    ((List.range p.length).zip p).map Prod.fst = List.range p.length ∧ ((List.range p.length).zip p).map Prod.snd = p :=
  ⟨List.map_fst_zip (by simp), List.map_snd_zip (by simp)⟩

/-- Numbered parts whose runs join to the body and are no longer than n. -/
theorem numbered_parts {n : Nat} {body : Bytes} {p : List Bytes} (hJoin : p.flatten = body) (hLen : ∀ c ∈ p, c.length ≤ n) :
    let q := (List.range p.length).zip p
    q.flatMap (fun x => x.2) = body ∧ (∀ x ∈ q, x.2.length ≤ n) ∧ q.map (fun x => x.1) = List.range q.length := by
  obtain ⟨hFst, hSnd⟩ := zip_range_spec p
  refine ⟨?_, fun x hx => hLen _ (List.of_mem_zip hx).2, ?_⟩
  · rw [List.flatMap_def]
    exact (congrArg List.flatten hSnd).trans hJoin
  · rw [List.length_zip, List.length_range, Nat.min_self]
    exact hFst

/-- Settles O10: the parts are the body's runs of MTU − 112 bytes, or one empty part. -/
theorem responsePartsJoinToBody : Obligations.ResponsePartsJoinToBody := by
  unfold Obligations.ResponsePartsJoinToBody
  intro mtu body hMtu
  unfold ctrlParts
  rw [if_neg (Nat.not_le.2 hMtu)]
  by_cases hEmpty : body.isEmpty = true
  · rw [if_pos hEmpty, List.isEmpty_iff.1 hEmpty]
    exact numbered_parts rfl (by simp)
  · rw [if_neg hEmpty]
    obtain ⟨hJoin, hLen⟩ := chunksFuel_spec (Nat.sub_pos_of_lt hMtu) body.length body le_rfl
    exact numbered_parts hJoin hLen

/-! Frames received. -/

section

variable {s : State} {port : Nat} {src : NetAddr} {f : Bytes} (hRuns : s.boot.hfRunning = true)
  (hUp : s.links.streamUp.getD port false = true)

include hRuns hUp

theorem execCtrlFrameReceive_of_full (hFull : 1024 ≤ s.ctrl.queue.length) :
    execCtrlFrameReceive port src f s = .next (s.bumpReg (cmdReg 0xE14) 1) := by
  have hTakes : (s.boot.hfRunning && s.links.streamUp.getD port false) = true := by rw [hRuns, hUp]; rfl
  rw [execCtrlFrameReceive, when_true hTakes, if_pos hFull]

/-- A frame of a request, of version 1, that finds room in the queue: the PROBE of R445 on key slot 0xFF, else what its TAG says. -/
theorem execCtrlFrameReceive_of_room (hRoom : s.ctrl.queue.length < 1024) (hLength : 32 ≤ f.length) (hVersion : beAt f 0 1 = 1)
    (hKind : beAt f 1 1 = 0) :
    let rq : Req := { port := port, src := src, slot := beAt f 2 1, reqId := beAt f 24 4 }
    execCtrlFrameReceive port src f s = .next (
      if beAt f 2 1 = 0xFF then (if isProbe f then s.enqueue (reqEntry rq 1) else s)
      else if !s.authentic f then s.bumpReg (cmdReg 0xE0C) 1
      else s.fresh rq f) := by
  have hTakes : (s.boot.hfRunning && s.links.streamUp.getD port false) = true := by rw [hRuns, hUp]; rfl
  have hForm : ¬ (f.length < 32 ∨ beAt f 0 1 ≠ 1 ∨ beAt f 1 1 ≠ 0) := by omega
  dsimp only
  rw [execCtrlFrameReceive, when_true hTakes, if_neg (Nat.not_le.2 hRoom), if_neg hForm]

end

/-- A frame of another epoch is answered STALE_EPOCH (R445). -/
theorem State.fresh_of_stale {s : State} {rq : Req} {f : Bytes} (h : beAt f 8 8 ≠ s.rot.epoch.toNat) :
    s.fresh rq f = s.sendCtrl rq.port rq.src 1 rq.slot (beAt f 4 2) rq.reqId 22 0 (zeros 8) := by
  rw [State.fresh, if_pos h]

/-- A fresh and well formed request is queued, its SEQ noted (R442). -/
theorem State.fresh_of_accepts {s : State} {rq : Req} {f : Bytes} (hEpoch : beAt f 8 8 = s.rot.epoch.toNat)
    (hFresh : (s.ctrl.windows.getD rq.slot {}).accepts (beAt f 16 8) = true)
    (hForm : (bodyFits (beAt f 4 2) (sub f 32 (beAt f 30 2)) && headerFits f) = true) :
    s.fresh rq f = { s with ctrl := { s.ctrl with
      windows := s.ctrl.windows.set rq.slot ((s.ctrl.windows.getD rq.slot {}).note (beAt f 16 8))
      queue := s.ctrl.queue ++ [reqEntry rq (beAt f 4 2)] } } := by
  have hTaken : ¬ (!(s.ctrl.windows.getD rq.slot {}).accepts (beAt f 16 8)) = true := by rw [hFresh]; decide
  rw [State.fresh, if_neg (not_not_intro hEpoch), if_neg hTaken, State.admitFrame, if_pos hForm]
  rfl

/-- Settles O12: the cases of a received datagram, one after the other. -/
theorem controlFrameReceived : Obligations.ControlFrameReceived := by
  unfold Obligations.ControlFrameReceived
  intro s port src f hRuns hUp slot rq w
  refine ⟨execCtrlFrameReceive_of_full hRuns hUp, fun hRoom hLength hVersion hKind => ?_⟩
  have hTaken := execCtrlFrameReceive_of_room (src := src) hRuns hUp hRoom hLength hVersion hKind
  rw [exec_ctrlFrameReceive, hTaken]
  refine ⟨fun hSlot hOp hLen hBody => ?_, fun hSlot hTag => ?_, fun hSlot hTag hEpoch => ?_, fun hSlot hTag hEpoch hSeen => ?_,
    fun hSlot hTag hEpoch hFresh hBody hHeader => ?_⟩
  · have hProbe : isProbe f = true := by simp [isProbe, hOp, hLen, hBody]
    rw [if_pos hSlot, if_pos hProbe]
  · have hRefused : (!s.authentic f) = true := by rw [hTag]; rfl
    rw [if_neg hSlot, if_pos hRefused]
  all_goals
    have hPassed : ¬ (!s.authentic f) = true := by rw [hTag]; decide
    rw [if_neg hSlot, if_neg hPassed]
  · rw [State.fresh_of_stale hEpoch]
  · rw [State.fresh_of_not_accepts hEpoch hSeen]
  · exact ⟨_, congrArg _ (State.fresh_of_accepts hEpoch hFresh (by rw [hBody, hHeader]; rfl)), rfl, rfl, rfl⟩

/-! Requests that are refused. -/

/-- What refuses a request before its command's own checks: its slot lacks the role, its response is held, or a general status stands. -/
def State.Refuses (s : State) (rq : Req) (op kind : Nat) : Prop :=
  s.hasRole rq.slot (op / 256) = false ∨ (s.heldFor rq.slot rq.reqId).isSome = true ∨ s.gate op kind ≠ 0

/-- Refused, a request that is no PROBE has a bare status for its reply. -/
theorem State.judge_of_refuses {s : State} {rq : Req} {op kind : Nat} (bad : Bool) (run : State → Reply) (hOp : op ≠ 1)
    (h : s.Refuses rq op kind) (hHeld : s.heldFor rq.slot rq.reqId = none) : ∃ n, s.judge rq.slot op kind bad run = { status := n } := by
  unfold State.judge
  split
  · exact ⟨_, rfl⟩
  · split
    · exact ⟨_, rfl⟩
    · rename_i hRole
      rw [if_pos]
      · exact ⟨_, rfl⟩
      · rcases h with h | h | h
        · simp [h, hOp] at hRole
        · rw [hHeld] at h
          cases h
        · exact h

theorem State.accept_of_refuses {s : State} {rq : Req} {op kind : Nat} (req : Bytes) (bad : Bool) (run : State → Reply) (hOp : op ≠ 1)
    (h : s.Refuses rq op kind) : s.SameButControl (s.accept rq op kind req bad run) := by
  refine (State.takeEntry_same s (reqEntry rq op)).trans ?_
  unfold State.accept
  dsimp only
  split
  · exact State.again_same ..
  · rename_i hHeld
    obtain ⟨n, hReply⟩ := State.judge_of_refuses (s := s.taken rq op) bad run hOp h hHeld
    rw [hReply]
    exact (State.sendCtrl_same ..).trans (State.hold_same ..)

theorem State.stageRequest_of_refuses {s t : State} {rq : Req} {op kind : Nat} {req : Bytes} {bad : Bool} {run : State → Reply}
    (hOp : op ≠ 1) (hRefused : s.Refuses rq op kind) (h : s.stageRequest rq op kind req bad run = .next t) : s.SameButControl t := by
  rcases when_next h with ⟨-, rfl⟩ | ⟨-, rfl⟩
  · exact State.accept_of_refuses req bad run hOp hRefused
  · rfl

/-- Every command of a control frame but PROBE is a request, under a KIND of its own only where it stages. -/
theorem exec_of_requestOf {c : Instr} {rq : Req} {op : Nat} (h : c.requestOf = some (rq, op)) (hOp : op ≠ 1) (s : State) :
    ∃ kind req bad run, exec c s = s.stageRequest rq op kind req bad run ∧ (op / 256 ≠ 3 → kind = 0) := by
  unfold Instr.requestOf at h
  split at h
  all_goals cases h
  case h_1 => exact absurd rfl hOp
  all_goals exact ⟨_, _, _, _, rfl, fun hStage => by simp at hStage ⊢⟩

/-- Settles O13: each of these commands is a request, and a refused one gets a bare status or its held response. -/
theorem refusedRequestsHaveNoEffect : Obligations.RefusedRequestsHaveNoEffect := by
  unfold Obligations.RefusedRequestsHaveNoEffect
  intro c s t rq op hRequest hOp hRefused hNext
  obtain ⟨kind, req, bad, run, hExec, hKind⟩ := exec_of_requestOf hRequest hOp s
  rw [hExec] at hNext
  refine State.stageRequest_of_refuses hOp (hRefused.imp_right (Or.imp_right ?_)) hNext
  rintro ⟨hStage, hGate⟩
  rw [hKind hStage]
  exact hGate

end Sys2Proof.Machine
end

section
/-! PROOFS. What events and rounds leave of the module, and the sessions' control frames: OPEN (R246, R247, R456), CLOSE, PARK, RESUME, RESET, SET
and MIGRATE (R246 to R253, R457), with what closing, parking and resetting make of a session. -/

namespace Sys2Proof.Machine

open Sys2Proof

/-! Events and aborted rounds touch records only. -/

/-- t differs from s at most in what is recorded and sent, and in its rounds: the log, registers, root of trust, control path, outbox. -/
def State.SameButRecords (s t : State) : Prop :=
  { t with events := s.events, regs := s.regs, rot := s.rot, ctrl := s.ctrl, outbox := s.outbox, rounds := s.rounds } = s

theorem State.SameButRecords.refl (s : State) : s.SameButRecords s := rfl

theorem State.SameButRecords.trans {s t u : State} (h : s.SameButRecords t) (k : t.SameButRecords u) : s.SameButRecords u := by
  unfold State.SameButRecords at *
  rw [← h, ← k]

theorem State.SameButControl.records {s t : State} (h : s.SameButControl t) : s.SameButRecords t := by
  unfold State.SameButRecords
  rw [← h]

/-- A fold of operations that touch records only. -/
theorem State.SameButRecords.each {β : Type} {s : State} (l : List β) (f : State → β → State) (hf : ∀ (t : State) b, t.SameButRecords (f t b)) :
    s.SameButRecords (s.each l f) :=
  State.each_rel State.SameButRecords State.SameButRecords.refl (fun _ _ _ h k => h.trans k) l f hf

theorem State.SameButRecords.ite {s a b : State} {c : Prop} [Decidable c] (ha : s.SameButRecords a) (hb : s.SameButRecords b) :
    s.SameButRecords (if c then a else b) := by
  split
  · exact ha
  · exact hb

/-- A field that neither the records nor what is sent or the rounds are. -/
theorem State.SameButRecords.keeps {s t : State} {γ : Type} (h : s.SameButRecords t) (q : State → γ)
    (hq : ∀ (u : State) e g r c o l, q { u with events := e, regs := g, rot := r, ctrl := c, outbox := o, rounds := l } = q u) : q t = q s := by
  unfold State.SameButRecords at h
  have hEq := congrArg q h
  rwa [hq] at hEq

theorem State.SameButRecords.mem {s t : State} (h : s.SameButRecords t) : t.mem = s.mem :=
  h.keeps State.mem (fun _ _ _ _ _ _ _ => rfl)
theorem State.SameButRecords.sessions {s t : State} (h : s.SameButRecords t) : t.sessions = s.sessions :=
  h.keeps State.sessions (fun _ _ _ _ _ _ _ => rfl)
theorem State.SameButRecords.jobs {s t : State} (h : s.SameButRecords t) : t.jobs = s.jobs :=
  h.keeps State.jobs (fun _ _ _ _ _ _ _ => rfl)
theorem State.SameButRecords.faces {s t : State} (h : s.SameButRecords t) : t.faces = s.faces :=
  h.keeps State.faces (fun _ _ _ _ _ _ _ => rfl)
theorem State.SameButRecords.levels {s t : State} (h : s.SameButRecords t) : t.levels = s.levels :=
  h.keeps State.levels (fun _ _ _ _ _ _ _ => rfl)
theorem State.SameButRecords.models {s t : State} (h : s.SameButRecords t) : t.models = s.models :=
  h.keeps State.models (fun _ _ _ _ _ _ _ => rfl)
theorem State.SameButRecords.ses {s t : State} (h : s.SameButRecords t) (id : Nat) : t.ses id = s.ses id := by
  rw [State.ses, h.sessions, State.ses]

theorem State.setRegNat_same (s : State) (a v : Nat) : s.SameButRecords (s.setRegNat a v) := rfl
theorem State.setField_same (s : State) (a lo n v : Nat) : s.SameButRecords (s.setField a lo n v) := rfl
theorem State.bumpReg_same (s : State) (a n : Nat) : s.SameButRecords (s.bumpReg a n) := rfl
theorem State.countEvent_same (s : State) (code : Nat) : s.SameButRecords (s.countEvent code) := rfl
theorem State.removeRound_same (s : State) (id : Nat) : s.SameButRecords (s.removeRound id) := rfl

theorem State.events_same (s : State) (l : EventLog) : s.SameButRecords { s with events := l } := rfl

theorem State.writeLog_same (s : State) (e : EventRec) : s.SameButRecords (s.writeLog e) :=
  (s.events_same _).trans (State.setRegNat_same ..)

theorem State.alert_same (s : State) (e : EventRec) : s.SameButRecords (s.alert e) := by
  unfold State.alert
  dsimp only
  split <;> rfl

theorem State.eventFrames_same (s : State) (e : EventRec) : s.SameButRecords (s.eventFrames e) :=
  .ite (.each _ _ (fun _ _ => (State.sendCtrl_same ..).records)) rfl

theorem State.logEvent_same (s : State) (e : EventRec) : s.SameButRecords (s.logEvent e) := by
  have hRecord : s.SameButRecords (if s.events.suppressed e then (s.countEvent e.code).bumpReg (cmdReg 0x0864) 1
      else (s.countEvent e.code).writeLog e) :=
    .ite ((s.countEvent_same e.code).trans (State.bumpReg_same ..)) ((s.countEvent_same e.code).trans (State.writeLog_same ..))
  exact (State.SameButRecords.ite (hRecord.trans (State.alert_same _ e)) hRecord).trans (State.eventFrames_same _ e)

/-- An event of another class than 1 contains nothing. -/
theorem State.raise_same (s : State) (code : Nat) {cls : Nat} (origin level face : Nat) (owner : Option Ctx) (d0 d1 : Nat) (hCls : cls ≠ 1) :
    s.SameButRecords (s.raise code cls origin level face owner d0 d1) := by
  rw [State.raise, if_neg hCls]
  exact State.logEvent_same ..

theorem State.abortRecord_same (s : State) (c : Option Nat) (kind reason subject : Nat) :
    s.SameButRecords (s.abortRecord c kind reason subject) :=
  .ite (State.SameButRecords.refl s) ((State.setRegNat_same ..).trans (State.setRegNat_same ..))

theorem State.setShadow_same (s : State) (v : Nat) : s.SameButRecords (s.setShadow v) := .each _ _ (fun _ _ => State.setField_same ..)

theorem State.setOldFrames_same (s : State) (v : Nat) : s.SameButRecords (s.setOldFrames v) := .each _ _ (fun _ _ => State.setField_same ..)

theorem State.countOld_same (s : State) : s.SameButRecords s.countOld :=
  .ite (.ite ((State.setOldFrames_same ..).trans (State.setShadow_same ..)) (State.setOldFrames_same ..)) (State.SameButRecords.refl s)

/-- A round given up or aborted changes records only (R329). -/
theorem State.dropRound_same (s : State) (r : Round) (reason : Nat) : s.SameButRecords (s.dropRound r reason) := by
  unfold State.dropRound
  dsimp only
  split
  · rfl
  · have hCounted := ((s.removeRound_same r.id).trans (State.bumpReg_same _ (lvlOrCmd r.flip.controller 0x808) 1)).trans
      (State.abortRecord_same _ r.flip.controller r.flip.kind reason r.flip.subject)
    refine (hCounted.trans ?_).trans (State.raise_same _ _ _ _ _ _ _ _ (by decide))
    split
    case h_1 => exact .ite (State.setShadow_same ..) (State.SameButRecords.refl _)
    case h_2 => exact State.bumpReg_same ..
    all_goals exact State.SameButRecords.refl _

theorem State.dropRounds_same (s : State) (sel : Round → Bool) (reason : Nat) : s.SameButRecords (s.dropRounds sel reason) :=
  .each _ _ (fun _ _ => State.dropRound_same ..)

theorem State.withdrawSession_same (s : State) (id : Nat) (all : Bool) : s.SameButRecords (s.withdrawSession id all) :=
  State.dropRounds_same ..

/-! What closing, parking and resetting make of a session. -/

/-- A session that passes to CLOSING gracefully emits its end-of-stream unit, an encode session's that has not left yet (R64, R246). -/
def Session.lastUnit (x : Session) (graceful : Bool) (now : Nat) : Session :=
  if graceful && !x.decode && !x.eosSent then { x with eosSent := true }.emit 5 [] now x.egress.lastPts true else x

theorem Session.lastUnit_keeps (x : Session) (graceful : Bool) (now : Nat) : (x.lastUnit graceful now).slots = x.slots ∧
    (x.lastUnit graceful now).ltAge = x.ltAge ∧ (x.lastUnit graceful now).refreshAge = x.refreshAge := by
  unfold Session.lastUnit
  split <;> exact ⟨rfl, rfl, rfl⟩

/-- The session as it stands in CLOSING (R246). -/
def Session.closed (x : Session) (now : Nat) : Session :=
  { x with state := .closing, closingAt := now, frame := none, pending := none, coldNew := [], dec := { x.dec with frames := [] } }

theorem State.toClosing_ses (s : State) (id : Nat) (graceful : Bool) : (s.toClosing id graceful).ses id =
    ((((if graceful then s else s.cancelWork id).withdrawSession id true).ses id).lastUnit graceful s.now).closed s.now :=
  ((State.countOld_same _).ses id).trans ((State.ses_setSes ..).trans (if_pos rfl))

theorem State.toClosing_closing (s : State) (id : Nat) (graceful : Bool) : ((s.toClosing id graceful).ses id).state = .closing ∧
    ((s.toClosing id graceful).ses id).frame = none ∧ ((s.toClosing id graceful).ses id).dec.frames = [] := by
  rw [s.toClosing_ses id graceful]
  exact ⟨rfl, rfl, rfl⟩

/-- May a session in this state park (R246)? -/
abbrev SesState.parks (t : SesState) : Prop := t = .active ∨ t = .opening ∨ t = .resuming

theorem State.toParking_of_parks {s : State} {id : Nat} (h : (s.ses id).state.parks) : (s.toParking id).ses id =
    { s.ses id with state := .parking, parkAsked := false, frame := none, dec := { (s.ses id).dec with frames := [] } } := by
  have hSes := (State.withdrawSession_same s id true).ses id
  unfold State.toParking
  dsimp only
  rw [hSes, if_pos h]
  exact ((State.countOld_same _).ses id).trans ((State.ses_setSes ..).trans (if_pos rfl))

theorem State.toParking_of_not_parks {s : State} {id : Nat} (h : ¬ (s.ses id).state.parks) : s.toParking id = s := by
  have hSes := (State.withdrawSession_same s id true).ses id
  unfold State.toParking
  dsimp only
  rw [hSes, if_neg h]

theorem State.askPark_of_idle {s : State} {id : Nat} (h : (s.ses id).busy = false) : s.askPark id = s.toParking id := by
  rw [State.askPark, h]
  rfl

theorem State.askPark_of_busy {s : State} {id : Nat} (h : (s.ses id).busy = true) :
    s.askPark id = s.setSes id { s.ses id with parkAsked := true } := by
  rw [State.askPark, if_pos h]

/-- What a close or a park that follows a commit leaves as it is. -/
theorem State.afterCommit_ses (s : State) (id : Nat) : ((s.afterCommit id).ses id).slots = (s.ses id).slots ∧
    ((s.afterCommit id).ses id).ltAge = (s.ses id).ltAge ∧ ((s.afterCommit id).ses id).refreshAge = (s.ses id).refreshAge ∧
    ((s.ses id).frame = none → ((s.afterCommit id).ses id).frame = none) := by
  unfold State.afterCommit
  dsimp only
  split
  · exact ⟨rfl, rfl, rfl, fun h => h⟩
  · split
    · obtain ⟨hSlots, hLt, hRefresh⟩ := (s.ses id).lastUnit_keeps true s.now
      rw [s.toClosing_ses id true, if_pos rfl, (State.withdrawSession_same s id true).ses id]
      exact ⟨hSlots, hLt, hRefresh, fun _ => rfl⟩
    · split
      · by_cases hParks : (s.ses id).state.parks
        · rw [State.toParking_of_parks hParks]
          exact ⟨rfl, rfl, rfl, fun _ => rfl⟩
        · rw [State.toParking_of_not_parks hParks]
          exact ⟨rfl, rfl, rfl, fun h => h⟩
      · exact ⟨rfl, rfl, rfl, fun h => h⟩

/-- A session after its reset (R250). -/
theorem State.resetSession_ses (s : State) (id : Nat) : ((s.resetSession id).ses id).slots = List.replicate 8 {} ∧
    ((s.resetSession id).ses id).frame = none ∧ ((s.resetSession id).ses id).ltAge = 0 ∧ ((s.resetSession id).ses id).refreshAge = 0 := by
  unfold State.resetSession
  dsimp only
  obtain ⟨hSlots, hLt, hRefresh, hFrame⟩ := State.afterCommit_ses (State.countOld (((s.cancelWork id).withdrawSession id false).setSes id _)) id
  have hReset := fun x => ((State.countOld_same (((s.cancelWork id).withdrawSession id false).setSes id x)).ses id).trans
    ((State.ses_setSes ..).trans (if_pos rfl))
  rw [hReset] at hSlots hLt hRefresh hFrame
  exact ⟨hSlots, hFrame rfl, hLt, hRefresh⟩

/-- Settles O16: the laws of closing, parking and resetting. -/
theorem sessionTransitions : Obligations.SessionTransitions := by
  unfold Obligations.SessionTransitions
  intro s id
  obtain ⟨hSlots, hFrame, hLt, hRefresh⟩ := s.resetSession_ses id
  refine ⟨s.toClosing_closing id, fun hParks => ?_, fun hActive hOpening hResuming => ?_, hSlots, hFrame, hLt, hRefresh, fun hBusy => ?_⟩
  · have hParked := State.toParking_of_parks hParks
    refine ⟨by rw [hParked], by rw [hParked], fun hIdle => ?_⟩
    rw [State.askPark_of_idle hIdle, hParked]
  · exact State.toParking_of_not_parks (not_or.2 ⟨hActive, not_or.2 ⟨hOpening, hResuming⟩⟩)
  · rw [State.askPark_of_busy hBusy, State.ses_setSes, if_pos rfl]

/-! Opening and resuming. -/

/-- What is picked is of the list. -/
theorem State.mem_of_pick {s : State} {l : List Nat} {n : Nat} (h : (s.pick l).1 = some n) : n ∈ l := by
  unfold State.pick at h
  split at h
  · cases h
  · exact List.mem_of_getElem? h

theorem State.mem_of_pick_ite {s : State} {c : Bool} {l : List Nat} {n : Nat} (h : (s.pick (if c then l else [])).1 = some n) : n ∈ l := by
  have hMem := State.mem_of_pick h
  split at hMem
  · exact hMem
  · cases hMem

/-- Where the checks of R247 let an OPEN through, it opens the session in a free entry of its class, at least 1 ms ahead. -/
theorem State.openChecked_ok {s : State} {b : OpenBody} (h : (s.openChecked b).status = 0) :
    ∃ (n a : Nat) (q : Nat × Nat) (d : Nat), n ∈ s.freePlacements b.cls.toNat b.modelSlot.toNat ∧ s.now + 1000000 ≤ launchGrain b.start0.toNat ∧
      s.openChecked b = done (fun t => { t with draws := d }.openSession b n a q.1 q.2) := by
  revert h
  unfold State.openChecked
  dsimp only
  generalize hPick : s.pick _ = p
  split
  case h_4 n a q hPlace _ _ =>
    split
    · intro h
      cases h
    · rename_i hAhead
      exact fun _ => ⟨n, a, q, _, State.mem_of_pick_ite (hPick ▸ hPlace), Nat.not_lt.1 hAhead, rfl⟩
  all_goals
    intro h
    cases h

section

variable (s : State) (b : OpenBody) (n w a c : Nat)

theorem State.openSession_ses_other {j : Nat} (h : j ≠ b.session.toNat) : (s.openSession b n w a c).ses j = s.ses j :=
  (State.ses_setSes ..).trans (if_neg h)

/-- The session as an OPEN leaves it. -/
theorem State.openSession_ses_same : let x := (s.openSession b n w a c).ses b.session.toNat
    x.state = .opening ∧ x.decode = openDecode b ∧ x.modelSlot = b.modelSlot.toNat ∧ x.start0 = launchGrain b.start0.toNat ∧
      x.frameIndex = 0 ∧ x.counters = List.replicate 29 0 ∧ x.slots = List.replicate 8 {} ∧ x.placement = n := by
  dsimp only
  rw [show (s.openSession b n w a c).ses b.session.toNat = _ from (State.ses_setSes ..).trans (if_pos rfl)]
  exact ⟨rfl, rfl, rfl, rfl, rfl, rfl, rfl, rfl⟩

end

/-- The state that has answered OK differs from s in the control path only. -/
theorem State.okReply_taken (s : State) (rq : Req) (op : Nat) (req body : Bytes) :
    s.SameButControl ((s.taken rq op).okReply rq op req body) :=
  (State.takeEntry_same s (reqEntry rq op)).trans (State.okReply_same ..)

theorem State.SameButControl.ses {s t : State} (h : s.SameButControl t) (id : Nat) : t.ses id = s.ses id :=
  h.keeps (fun u => u.ses id) (fun _ _ _ => rfl)

/-- Settles O14: the request's checks, those of R247, and the session opened. -/
theorem openLeavesSessionOpening : Obligations.OpenLeavesSessionOpening := by
  unfold Obligations.OpenLeavesSessionOpening
  intro s rq b hTakes hForm u m id hFree hClaim hUsable hNamed hRate hBinding hChecked
  obtain ⟨n, a, q, d, hPlace, hAhead, hOpen⟩ := State.openChecked_ok hChecked
  have hSame := State.okReply_taken s rq 0x100 (openBytes b) []
  have hModel : ¬ (m.state != 3 || !pkgNamed m.pkg b.header || decide (m.pkg.ratePoints ≤ b.ratePoint.toNat)) = true := by
    simp [hUsable, hNamed, hRate]
  have hExec : exec (.sesOpen rq b) s = _ := State.request_ok (f := fun t => { t with draws := d }.openSession b n a q.1 q.2)
    (req := openBytes b) (body := []) hTakes hForm (by
      rw [if_neg (not_not_intro hFree), if_neg (by rw [hClaim]; decide), if_neg hModel, if_neg (by rw [hBinding]; decide)]
      exact hOpen)
  obtain ⟨hState, hDecode, hSlot, hStart, hIndex, hCounters, hSlots, hPlacement⟩ := State.openSession_ses_same
    { (s.taken rq 0x100).okReply rq 0x100 (openBytes b) [] with draws := d } b n a q.1 q.2
  refine ⟨_, hExec, hState, hDecode, hSlot, hStart, hIndex, hCounters, hSlots, ?_, ?_, fun j hj => ?_, ?_, ?_⟩
  · exact hPlacement.symm ▸ hPlace
  · exact hStart.symm ▸ hAhead
  · exact (State.openSession_ses_other _ b n a q.1 q.2 hj).trans (hSame.ses j)
  · exact hSame.keeps State.regs (fun _ _ _ => rfl)
  · exact hSame.keeps State.mem (fun _ _ _ => rfl)

/-! The commands on an open session. -/

/-- Where the checks let a RESUME through, the session is resumed in a free entry of its class. -/
theorem State.resumeChecked_ok {s : State} {id tr : Nat} (h : (s.resumeChecked id tr).status = 0) :
    ∃ n a d : Nat, n ∈ s.freePlacements (s.ses id).cls (s.ses id).modelSlot ∧
      s.resumeChecked id tr = done (fun t => { t with draws := d }.resumeSession id n a tr) := by
  revert h
  unfold State.resumeChecked
  dsimp only
  split
  · intro h
    cases h
  · generalize hPick : s.pick _ = p
    split
    case h_3 n a hPlace _ => exact fun _ => ⟨n, a, _, State.mem_of_pick_ite (hPick ▸ hPlace), rfl⟩
    all_goals
      intro h
      cases h

/-- A session whose copy A reads resumes from it (R248). -/
theorem State.resumeSession_of_copyA {s : State} {id : Nat} (place work tr : Nat) (h : s.copyReads (s.ses id) 0 = true) :
    s.resumeSession id place work tr = s.setSes id { s.ses id with
      state := .resuming, placement := place, workBase := work, settings := (s.ses id).copyA.settings, counters := (s.ses id).copyA.counters,
      committed := (s.ses id).copyA.image, cold := (s.ses id).copyA.cold, pending := none, half := false, frameIndex := 0,
      start0 := launchGrain (max tr (s.now + 1000000)) } := by
  unfold State.resumeSession
  rw [if_pos h]

/-- A graceful close of an active session waits for its launch time (R253). -/
theorem State.closeGracefully_of_active {s : State} {id : Nat} (launch : Nat) (h : (s.ses id).state = .active) :
    s.closeGracefully id launch = s.setSes id { s.ses id with closeAsked := some { launch := launch } } := by
  unfold State.closeGracefully
  simp only [h]

/-- A session set on the state that has answered: that session takes its new value, every other is as before the request. -/
theorem State.SameButControl.ses_setSes {s t : State} (h : s.SameButControl t) (id j : Nat) (x : Session) :
    (t.setSes id x).ses j = if j = id then x else s.ses j := by
  rw [State.ses_setSes, h.ses]

theorem State.pick_of_ne_nil (s : State) {l : List Nat} (h : l ≠ []) : ∃ n, (s.pick l).1 = some n := by
  cases l with
  | nil => exact absurd rfl h
  | cons a l => exact ⟨_, List.getElem?_eq_getElem (Nat.mod_lt (Config.freeChoice s.draws) (Nat.succ_pos l.length) : _ < (a :: l).length)⟩

/-- A request that nothing stands against takes effect on a state that differs in the control path alone. -/
theorem State.exec_effect {s : State} {c : Instr} {rq : Req} {op : Nat} {bad : Bool} {req : Bytes} {run : State → Reply}
    (hRequest : exec c s = s.request rq op req bad run) (f : State → State) {body : Bytes}
    (hTakes : s.Takes rq op 0) (hGood : bad = false) (hRun : run (s.taken rq op) = { body := body, after := f }) :
    ∃ t, s.SameButControl t ∧ exec c s = .next (f t) :=
  ⟨_, State.okReply_taken s rq op req body, hRequest.trans (State.request_ok hTakes hGood hRun)⟩

theorem not_tooFar {s : State} {launch : Nat} (h : launch ≤ s.now + 60000000000) : s.tooFar launch = false :=
  decide_eq_false (Nat.not_lt.2 h)

/-- Settles O15: each command is a request whose checks pass, with its own effect. -/
theorem sessionCommandsAct : Obligations.SessionCommandsAct := by
  unfold Obligations.SessionCommandsAct
  intro s rq sid hSid id
  have hId : (!sesIdOk sid.toNat) = false := congrArg not (sesIdOk_of_lt hSid)
  refine ⟨?close, ?closeLater, ?park, ?resume, ?reset, ?set, ?migrate⟩
  case close =>
    intro launch hTakes hHeld req
    have hMode : (!sesIdOk sid.toNat || decide (2 ≤ (1 : BitVec 8).toNat)) = false := by rw [hId]; decide
    have hOne : ¬ (1 : BitVec 8).toNat = 0 := by decide
    refine ⟨fun hOpen => State.request_ok (f := fun t => t.toClosing id false) hTakes hMode ?_,
      fun hClosing => State.request_read hTakes hMode ?_⟩
    · exact (if_neg hHeld).trans ((if_neg hOne).trans (if_neg hOpen))
    · exact (if_neg hHeld).trans ((if_neg hOne).trans (if_pos hClosing))
  case closeLater =>
    intro launch hTakes hActive hLaunch
    have hMode : (!sesIdOk sid.toNat || decide (2 ≤ (0 : BitVec 8).toNat)) = false := by rw [hId]; decide
    have hHeld : ¬ (s.ses id).state = .free := fun h => by rw [h] at hActive; cases hActive
    obtain ⟨u, hSame, hExec⟩ := State.exec_effect (c := .sesClose rq sid 0 launch) rfl
      (fun t => t.closeGracefully id (max launch.toNat s.now)) hTakes hMode
      ((if_neg hHeld).trans ((if_pos rfl).trans (if_neg (Bool.eq_false_iff.1 (not_tooFar hLaunch)))))
    refine ⟨_, hExec, ?_⟩
    rw [State.closeGracefully_of_active _ ((congrArg Session.state (hSame.ses id)).trans hActive), hSame.ses]
    exact ⟨(hSame.ses_setSes ..).trans (if_pos rfl), fun j hj => (hSame.ses_setSes ..).trans (if_neg hj)⟩
  case park =>
    intro hTakes hActive
    refine State.request_ok (f := fun t => t.askPark id) hTakes hId ?_
    simp only [show ((s.taken rq 0x102).ses sid.toNat).state = .active from hActive]
    rfl
  case resume =>
    intro tr hTakes hParked hChecked hReads
    obtain ⟨n, a, d, hPlace, hResume⟩ := State.resumeChecked_ok hChecked
    obtain ⟨u, hSame, hExec⟩ := State.exec_effect (c := .sesResume rq sid tr) rfl
      (fun t => { t with draws := d }.resumeSession id n a tr.toNat) (body := []) hTakes hId
      (by rw [show ((s.taken rq 0x103).ses sid.toNat).state = .parked from hParked]; exact hResume)
    have hSes : ({ u with draws := d } : State).ses = s.ses := funext fun i => hSame.ses i
    have hCopy : ({ u with draws := d } : State).copyReads (({ u with draws := d } : State).ses id) 0 = true := by
      rw [hSes]
      exact (hSame.keeps (fun u => ({ u with draws := d } : State).copyReads (s.ses id) 0) (fun _ _ _ => rfl)).trans hReads
    have hNow : u.now = s.now := hSame.keeps State.now (fun _ _ _ => rfl)
    refine ⟨_, hExec, ?_⟩
    rw [State.resumeSession_of_copyA n a tr.toNat hCopy, hSes]
    simp only [State.ses_setSes, hNow, if_pos]
    exact ⟨trivial, trivial, trivial, trivial, trivial, hPlace, fun j hj => (if_neg hj).trans (hSame.ses j)⟩
  case reset =>
    intro hTakes hActive hFree
    refine State.request_ok (f := fun t => t.resetSession id) hTakes hId ?_
    exact (if_neg (not_not_intro hActive)).trans (if_neg (Bool.eq_false_iff.1 hFree))
  case set =>
    intro rate launch off g hTakes hActive hSettings hGood hLaunch
    have hForm : (!sesIdOk sid.toNat || !settingsOk g || s.setBad sid.toNat rate.toNat off.toNat) = false := by rw [hId, hSettings, hGood]; rfl
    have hHeld : ¬ ((s.ses id).state = .free ∨ (s.ses id).state = .closing) := by simp [hActive]
    obtain ⟨u, hSame, hExec⟩ := State.exec_effect (c := .sesSet rq sid rate launch off g) rfl
      (fun t => t.setSes id { t.ses id with sets := (t.ses id).sets ++ [{ launch := max launch.toNat s.now, settings := parseSettings g, ratePoint := rate.toNat, deadlineOff := off.toNat }] })
      hTakes hForm ((if_neg hHeld).trans (if_neg (Bool.eq_false_iff.1 (not_tooFar hLaunch))))
    refine ⟨_, hExec, ?_⟩
    dsimp only
    rw [hSame.ses]
    exact ⟨(hSame.ses_setSes ..).trans (if_pos rfl), fun j hj => (hSame.ses_setSes ..).trans (if_neg hj)⟩
  case migrate =>
    intro cls l hTakes hActive hLevel hPlaces
    have hForm : (!sesIdOk sid.toNat || (decide (4 ≤ l.toNat) && l.toNat != 0xFF)) = false := by
      rw [hId]
      rcases hLevel with h | h <;> simp [h]
    obtain ⟨n, hPick⟩ := (s.taken rq 0x106).pick_of_ne_nil hPlaces
    let d := ((s.taken rq 0x106).pick ((s.taken rq 0x106).migrateTo id cls.toNat l.toNat)).2.draws
    refine ⟨n, d, State.mem_of_pick hPick, ?_⟩
    refine State.request_ok (f := fun t => { t with draws := d }.requestRound (.migration id n) none 0) hTakes hForm ?_
    refine (if_neg (not_not_intro hActive)).trans ?_
    dsimp only
    rw [hPick]
    rfl

end Sys2Proof.Machine
end

section
/-! PROOFS. The adaptation jobs (R163 to R165, R458 to R461). -/

namespace Sys2Proof.Machine
open Sys2Proof

/-- Settles O17: each command is a request whose checks pass, with its own effect on the job. -/
theorem jobCommandsAct : Obligations.JobCommandsAct := by
  unfold Obligations.JobCommandsAct
  intro s rq
  refine ⟨?start, fun jid j hJob => ⟨?suspend, ?resume, ?cancel, ?release, ?exported⟩⟩
  case start =>
    intro b hTakes hId hSteps hSource hModel hOpen hServes hEnabled hNew hUsable hLearned hPlaces hDevice hRoom
    obtain ⟨n, hPick⟩ := (s.taken rq 0x200).pick_of_ne_nil hPlaces
    obtain ⟨d, hDevice, hOk⟩ := hDevice
    have hDevices : (List.range 16).filter s.lpddrOk ≠ [] := List.ne_nil_of_mem (List.mem_filter.2 ⟨List.mem_range.2 hDevice, hOk⟩)
    let p := (s.taken rq 0x200).pick ((s.taken rq 0x200).freePlacements b.cls.toNat b.modelSlot.toNat)
    obtain ⟨v, hPickV⟩ := p.2.pick_of_ne_nil hDevices
    obtain ⟨hRange, hVOk⟩ := List.mem_filter.1 (State.mem_of_pick hPickV)
    have hForm : (b.jobId == 0 || b.steps == 0 || !sesIdOk b.source.toNat || decide (4096 ≤ b.modelSlot.toNat)) = false := by
      simpa [sesIdOk_of_lt hSource, hModel] using And.intro hId hSteps
    have hSound : ¬ (((s.model b.modelSlot.toNat).state != 3 || !hasLearned (s.pkg b.modelSlot.toNat)) = true) := by simp [hUsable, hLearned]
    let e := (p.2.pick ((List.range 16).filter s.lpddrOk)).2.draws
    obtain ⟨u, hSame, hExec⟩ := State.exec_effect (c := .jobStart rq b) rfl
      (fun t => { t with draws := e }.startJob b n v) (body := []) hTakes hForm (by
        refine (if_neg (not_or.2 ⟨hOpen, not_not_intro hServes⟩)).trans ((if_neg ?_).trans ((if_neg ?_).trans ((if_neg hSound).trans ?_)))
        · rw [show bitAt (s.taken rq 0x200).boot.enabled 5 = true from hEnabled]
          decide
        · rw [show (s.taken rq 0x200).job b.jobId.toNat = none from hNew]
          decide
        · simp only [hPick]
          rw [show (p.2.pick ((List.range 16).filter (s.taken rq 0x200).lpddrOk)).1 = some v from hPickV]
          exact if_neg (Nat.not_le.2 hRoom))
    exact ⟨_, n, v, hExec, State.mem_of_pick hPick, List.mem_range.1 hRange, hVOk,
      hSame.keeps (fun u => ({ u with draws := e }.startJob b n v).jobs) (fun _ _ _ => rfl)⟩
  case suspend =>
    intro hTakes hHeld t
    by_cases hRuns : j.state = .running
    · rw [if_pos hRuns]
      refine State.request_ok (f := fun t => t.setJob { j with state := if j.stepping then .suspending else .suspended, fed := false })
        hTakes rfl ?_
      rw [show (s.taken rq 0x201).job jid.toNat = some j from hJob]
      exact (if_neg (Bool.eq_false_iff.1 hHeld)).trans (if_pos hRuns)
    · rw [if_neg hRuns]
      refine State.request_read hTakes rfl ?_
      rw [show (s.taken rq 0x201).job jid.toNat = some j from hJob]
      exact (if_neg (Bool.eq_false_iff.1 hHeld)).trans (if_neg hRuns)
  case resume =>
    intro hTakes
    have hJob' : (s.taken rq 0x202).job jid.toNat = some j := hJob
    refine ⟨fun hRuns => State.request_read hTakes rfl ?_, fun hSuspended hPlaces => ?_⟩
    · rw [hJob']
      exact if_pos hRuns
    · obtain ⟨n, hPick⟩ := (s.taken rq 0x202).pick_of_ne_nil hPlaces
      let d := ((s.taken rq 0x202).pick ((s.taken rq 0x202).jobPlaces j)).2.draws
      obtain ⟨u, hSame, hExec⟩ := State.exec_effect (c := .jobResume rq jid) rfl
        (fun t => { t with draws := d }.setJob { j with state := .running, placement := n, fed := false }) (body := []) hTakes rfl (by
          rw [hJob']
          refine (if_neg (by simp [hSuspended])).trans ((if_neg (not_not_intro hSuspended)).trans ?_)
          dsimp only
          rw [hPick]
          rfl)
      exact ⟨_, n, hExec, State.mem_of_pick hPick, hSame.keeps (fun u => (u.setJob _).jobs) (fun _ _ _ => rfl)⟩
  case cancel =>
    intro hTakes t
    cases hEnded : j.state.ended with
    | true =>
      refine State.request_read hTakes rfl ?_
      rw [show (s.taken rq 0x203).job jid.toNat = some j from hJob]
      exact if_pos hEnded
    | false =>
      refine State.request_ok (f := fun t => t.cancelJob j) hTakes rfl ?_
      rw [show (s.taken rq 0x203).job jid.toNat = some j from hJob]
      exact if_neg (Bool.eq_false_iff.1 hEnded)
  case release =>
    intro hTakes hEnded
    obtain ⟨u, hSame, hExec⟩ := State.exec_effect (c := .jobRelease rq jid) rfl
      (fun t => { t with jobs := t.jobs.filter (fun k => k.id != j.id) }) (body := []) hTakes rfl (by
        rw [show (s.taken rq 0x204).job jid.toNat = some j from hJob]
        exact if_pos hEnded)
    exact ⟨_, hExec, hSame.keeps (fun u => u.jobs.filter _) (fun _ _ _ => rfl)⟩
  case exported =>
    intro off n hTakes hState hPos hMax hFits
    have hForm : (decide (n.toNat = 0) || decide (65536 < n.toNat) || s.exportBad jid.toNat off.toNat n.toNat) = false := by
      unfold State.exportBad
      rw [hJob]
      simp only [Bool.or_eq_false_iff, decide_eq_false_iff_not]
      omega
    refine State.request_read hTakes hForm ?_
    rw [show (s.taken rq 0x205).job jid.toNat = some j from hJob]
    exact if_pos hState

/-! A job's steps. -/

theorem newParams_length (marks : List Bool) (old : List (BitVec 32)) (new : List (Option (BitVec 32))) (h : new.length = old.length) :
    (newParams marks old new).length = old.length := by
  induction old generalizing marks new with
  | nil => cases marks <;> cases new <;> simp_all [newParams]
  | cons v vs ih =>
    cases new with
    | nil => cases h
    | cons w ws => cases marks <;> simp [newParams, ih _ ws (Nat.succ.inj h)]

/-- A parameter after a step: its new value, but a λ whose new value is rejected keeps the old one (R165). -/
theorem newParams_getD (marks : List Bool) (old : List (BitVec 32)) (new : List (Option (BitVec 32))) (hNew : new.length = old.length)
    (hMarks : marks.length = old.length) (i : Nat) (hi : i < old.length) :
    (newParams marks old new).getD i 0 = match new.getD i none with
      | none => old.getD i 0
      | some v => if marks.getD i false = true ∧ lambdaRejected v = true then old.getD i 0 else v := by
  induction old generalizing marks new i with
  | nil => cases hi
  | cons v vs ih =>
    obtain ⟨m, ms, rfl⟩ := List.exists_cons_of_length_eq_add_one hMarks
    obtain ⟨w, ws, rfl⟩ := List.exists_cons_of_length_eq_add_one hNew
    cases i with
    | succ i => exact ih ms ws (Nat.succ.inj hNew) (Nat.succ.inj hMarks) i (Nat.lt_of_succ_lt_succ hi)
    | zero =>
      cases w with
      | none => rfl
      | some x => cases m <;> cases hRejected : lambdaRejected x <;> simp [newParams, hRejected, Option.filter]

/-- Each learned tensor gives as many updates as it has elements, and without written tensors they are the operand's. -/
theorem updates_spec (k : ModelPkg) (written : List (Nat × Tensor)) (l : List Nat) (given : List (BitVec 32)) :
    (updates k written l given).length = (l.map (learnedSize k)).sum ∧
    ((∀ n ∈ l, ∀ q ∈ written, q.1 ≠ n) → given.length = (l.map (learnedSize k)).sum → updates k written l given = given.map some) := by
  induction l generalizing given with
  | nil => exact ⟨rfl, fun _ h => by rw [List.length_eq_zero_iff.1 h]; rfl⟩
  | cons n r ih =>
    obtain ⟨hLen, hGiven⟩ := ih (given.drop (learnedSize k n))
    refine ⟨?_, fun hNone hSize => ?_⟩
    · unfold updates
      dsimp only
      rw [List.length_append, hLen]
      split <;> simp
    · have hFind : written.find? (fun q => q.1 == n) = none :=
        List.find?_eq_none.2 fun q hq => by simpa using hNone n List.mem_cons_self q hq
      have hHead : (List.range (learnedSize k n)).map (fun i => given[i]?) = (given.take (learnedSize k n)).map some := by
        refine List.ext_getElem? fun i => ?_
        have hi : i < learnedSize k n → i < given.length := by
          rw [hSize, List.map_cons, List.sum_cons]
          omega
        by_cases h : i < learnedSize k n
        · simp [h, hi h]
        · simp [h]
      unfold updates
      dsimp only
      rw [hFind]
      dsimp only
      rw [hHead, hGiven (fun m hm => hNone m (List.mem_cons_of_mem _ hm)) (by simp_all), ← List.map_append, List.take_append_drop]

theorem lambdaMarks_length (k : ModelPkg) : (lambdaMarks k).length = ((learnedTensors k).map (learnedSize k)).sum := by
  unfold lambdaMarks
  rw [List.length_flatMap]
  simp

/-- Settles O18: what begins and ends a step says the counts and states, `newParams` and `updates` the parameters. -/
theorem jobStepEnds : Obligations.JobStepEnds := by
  unfold Obligations.JobStepEnds
  intro s id j new hJob k e marks ups
  refine ⟨fun hRuns hFed hIdle hCold => ?begins, fun hSteps hRuns => ?ends, rfl, rfl, fun hLast => ?last, fun hMore => ?more, fun hMarks => ?parameters⟩
  case begins =>
    refine ⟨?_, rfl, rfl, rfl, rfl⟩
    show execJobStep id s = _
    unfold execJobStep
    rw [hJob]
    refine when_true ?_ _ _
    simp [hRuns, hFed, hIdle, hCold]
  case ends =>
    show execJobStepDone id new s = _
    unfold execJobStepDone
    rw [hJob]
    refine when_true ?_ _ _
    rcases hRuns with h | h <;> simp [hSteps, h]
  case last => simp [e, State.stepEnds, hLast]
  case more => simp [e, State.stepEnds, Nat.not_le.2 hMore]
  case parameters =>
    obtain ⟨hLen, hGiven⟩ := updates_spec k j.tensors (learnedTensors k) new
    have hUps : ups.length = j.params.length := hLen.trans ((lambdaMarks_length k).symm.trans hMarks)
    refine ⟨hUps, newParams_length _ _ _ hUps, fun i hi => newParams_getD _ _ _ hUps hMarks i hi, ?_, fun hNone hNew => ?_⟩
    · show min (j.rejected + rejectedCount marks (ups.take j.params.length)) 0xFFFFFFFF = _
      rw [← hUps, List.take_length]
      rfl
    · exact hGiven hNone (hNew.trans (hMarks.symm.trans (lambdaMarks_length k)))

end Sys2Proof.Machine
end

section
/-! PROOFS. Staging, models and their shadow, the directory and the repair log (R232, R235, R349, R350, R365, R370, R462, R463). -/

namespace Sys2Proof.Machine
open Sys2Proof

/-- A staging request that nothing stands against takes effect on a state that differs in the control path alone. -/
theorem State.exec_stage {s : State} {c : Instr} {rq : Req} {op kind : Nat} {bad : Bool} {req : Bytes} {run : State → Reply}
    (hRequest : exec c s = s.stageRequest rq op kind req bad run) (f : State → State) {body : Bytes}
    (hTakes : s.Takes rq op kind) (hGood : bad = false) (hRun : run (s.taken rq op) = { body := body, after := f }) :
    ∃ t, s.SameButControl t ∧ exec c s = .next (f t) :=
  ⟨_, State.okReply_taken s rq op req body, hRequest.trans (State.stageRequest_ok hTakes hGood hRun)⟩

theorem State.handleKind_of_handle {s : State} {hn : BitVec 32} {h : StageHandle} (hHandle : s.handle hn = some h) : s.handleKind hn = h.kind := by
  unfold State.handleKind
  rw [hHandle]
  rfl

/-- The rows of a handle find it by its number as the commands do. -/
theorem State.find_handle {s : State} {hn : BitVec 32} {h : StageHandle} (hHandle : s.handle hn = some h) :
    s.handles.find? (fun x => x.handle.toNat == hn.toNat) = some h := by
  rw [← hHandle]
  unfold State.handle
  congr 1
  funext x
  rw [Bool.eq_iff_iff, beq_iff_eq, beq_iff_eq]
  exact BitVec.toNat_inj

/-- Settles O19: what each command makes of the handles. -/
theorem stagingHandlesLive : Obligations.StagingHandlesLive := by
  unfold Obligations.StagingHandlesLive
  intro s rq hn h
  refine ⟨?begins, fun hHandle => ⟨?data, ?commit, ?abort, ?timeout⟩⟩
  case begins =>
    intro k m n fire hTakes hLow hHigh hPos hLimit hModel hFree hRoom
    have hForm : (decide (k.toNat = 0) || decide (4 < k.toNat) || decide (n.toNat = 0) || decide (4096 ≤ m.toNat)) = false := by
      simp only [Bool.or_eq_false_iff, decide_eq_false_iff_not]
      omega
    obtain ⟨u, hSame, hExec⟩ := State.exec_stage (c := .stageBegin rq k m n fire) rfl (f := _) hTakes hForm
      ((if_neg (Nat.not_lt.2 hLimit)).trans (if_neg (not_or.2 ⟨Nat.not_le.2 hFree, Nat.not_lt.2 hRoom⟩)))
    exact ⟨_, hExec, hSame.keeps (fun u => u.draws + 1) (fun _ _ _ => rfl), hSame.keeps (fun u => u.handles ++ _) (fun _ _ _ => rfl)⟩
  case data =>
    intro off data hTakes hFits hIdle hOpen
    have hForm : (match s.handle hn with
        | some h => decide (h.total < off.toNat + data.length)
        | none => false) = false := by
      rw [hHandle]
      exact decide_eq_false (Nat.not_lt.2 hFits)
    obtain ⟨u, hSame, hExec⟩ := State.exec_stage (c := .stageData rq hn off data) rfl
      (fun t => t.setHandle { h with data := putData h.data off.toNat data, lastAt := t.now }) (body := [])
      (State.handleKind_of_handle hHandle ▸ hTakes) hForm (by
        rw [show (s.taken rq 0x301).handle hn = some h from hHandle]
        exact (if_neg (Bool.eq_false_iff.1 hIdle)).trans (if_neg (Bool.eq_false_iff.1 hOpen)))
    exact ⟨_, hExec, hSame.keeps (fun u => (u.setHandle { h with data := putData h.data off.toNat data, lastAt := u.now }).handles)
      (fun _ _ _ => rfl)⟩
  case commit =>
    intro hTakes hIdle hInstalled
    have hForm : (s.handle hn).any (fun h => !h.installing && !h.installed && decide (h.data.length < h.total)) = false := by
      simp [hHandle, hInstalled]
    obtain ⟨u, hSame, hExec⟩ := State.exec_stage (c := .stageCommit rq hn) rfl (fun t => t.dropHandle h) (body := [])
      (State.handleKind_of_handle hHandle ▸ hTakes) hForm (by
        rw [show (s.taken rq 0x302).handle hn = some h from hHandle]
        exact (if_neg (Bool.eq_false_iff.1 hIdle)).trans (if_pos hInstalled))
    exact ⟨_, hExec, hSame.keeps (fun u => (u.dropHandle h).handles) (fun _ _ _ => rfl)⟩
  case abort =>
    intro hTakes hIdle
    obtain ⟨u, hSame, hExec⟩ := State.exec_stage (c := .stageAbort rq hn) rfl (fun t => t.dropHandle h) (body := [])
      (State.handleKind_of_handle hHandle ▸ hTakes) rfl (by
        rw [show (s.taken rq 0x303).handle hn = some h from hHandle]
        exact if_neg (Bool.eq_false_iff.1 hIdle))
    exact ⟨_, hExec, hSame.keeps (fun u => (u.dropHandle h).handles) (fun _ _ _ => rfl)⟩
  case timeout =>
    intro hRuns hIdle hDue
    show execStageHandleTimeout hn.toNat s = _
    unfold execStageHandleTimeout
    rw [State.find_handle hHandle]
    refine when_true ?_ _ _
    simp [hRuns, hIdle, hDue]

/-- Settles O20: the commit of each kind, and the installation's end, which writes the image over its erased slot. -/
theorem stagingInstalls : Obligations.StagingInstalls := by
  unfold Obligations.StagingInstalls
  intro s rq hn h hHandle
  refine ⟨fun hTakes hIdle hOpen hWhole hSound => ?commits, fun hRuns hInstalling hBuilt => ?ends, fun hPlan i hi => ?reads⟩
  case commits =>
    have hForm : (s.handle hn).any (fun h => !h.installing && !h.installed && decide (h.data.length < h.total)) = false := by
      simp [hHandle, Nat.not_lt.2 hWhole]
    have hChecks : (match (s.taken rq 0x302).handle hn with
        | none => status 23
        | some h =>
          if h.installing then State.stageStatus h 12 0
          else if h.installed then done (fun t => t.dropHandle h)
          else
            let e := (s.taken rq 0x302).checkContainer h.kind h.bytes
            if e ≠ 0 then State.refuseContainer h e else (s.taken rq 0x302).commitKind h h.bytes) = (s.taken rq 0x302).commitKind h h.bytes := by
      rw [show (s.taken rq 0x302).handle hn = some h from hHandle]
      exact (if_neg (Bool.eq_false_iff.1 hIdle)).trans ((if_neg (Bool.eq_false_iff.1 hOpen)).trans (if_neg (not_not_intro hSound)))
    have hKind : s.Takes rq 0x302 (s.handleKind hn) := State.handleKind_of_handle hHandle ▸ hTakes
    refine ⟨fun hFlash => ?_, fun hModel hArith hEmpty hShadow => ?_, fun n hClaim => ?_⟩
    · refine State.stageRequest_ok (f := fun t => t.beginInstall h
          (1 - bits (s.taken rq 0x302).directory (if h.kind = 3 then 0 else 1) 1)) hKind hForm (hChecks.trans ?_)
      exact (if_neg (by omega)).trans (if_neg (by omega))
    · refine State.stageRequest_ok (f := fun t => t.beginModel h (contPackage h.bytes)) hKind hForm (hChecks.trans ?_)
      refine (if_pos hModel).trans ((if_neg ?_).trans ((if_neg (not_not_intro hEmpty)).trans (if_neg (not_not_intro hShadow))))
      rintro ⟨hNeeds, hDisabled⟩
      exact absurd (hArith hNeeds) (Bool.eq_false_iff.1 hDisabled)
    · intro sweep hSlot
      refine State.stageRequest_ok (f := fun t => (sweep t).beginInstall h n) hKind hForm (hChecks.trans ?_)
      refine (if_neg (by omega)).trans ((if_pos hClaim).trans ?_)
      dsimp only
      rw [hSlot]
      rfl
  case ends =>
    show execStageInstallComplete hn.toNat s = _
    unfold execStageInstallComplete
    rw [State.find_handle hHandle]
    refine when_true ?_ _ _
    by_cases hModel : h.kind = 2
    · simp [hRuns, hInstalling, hBuilt hModel]
    · simp [hRuns, hInstalling, hModel]
  case reads =>
    unfold State.installed State.writeSlot State.writeFlash
    rw [if_pos hPlan]
    exact spGet_spPuts_inside _ _ _ _ _ hi

/-! Building the shadow bank touches memory only. -/

/-- t differs from s at most in device memory and its poisoned granules. -/
def State.SameButMemory (s t : State) : Prop := { t with mem := s.mem, poisoned := s.poisoned } = s

theorem State.SameButMemory.refl (s : State) : s.SameButMemory s := rfl

theorem State.SameButMemory.trans {s t u : State} (h : s.SameButMemory t) (k : t.SameButMemory u) : s.SameButMemory u := by
  unfold State.SameButMemory at *
  rw [← h, ← k]

/-- A field that memory is not. -/
theorem State.SameButMemory.keeps {s t : State} {γ : Type} (h : s.SameButMemory t) (q : State → γ)
    (hq : ∀ (u : State) m p, q { u with mem := m, poisoned := p } = q u) : q t = q s := by
  unfold State.SameButMemory at h
  have hEq := congrArg q h
  rwa [hq] at hEq

/-- A fold of operations that touch memory only. -/
theorem State.SameButMemory.each {β : Type} {s : State} (l : List β) (f : State → β → State) (hf : ∀ (t : State) b, t.SameButMemory (f t b)) :
    s.SameButMemory (s.each l f) :=
  State.each_rel State.SameButMemory State.SameButMemory.refl (fun _ _ _ h k => h.trans k) l f hf

theorem State.SameButMemory.ite {s a b : State} {c : Prop} [Decidable c] (ha : s.SameButMemory a) (hb : s.SameButMemory b) :
    s.SameButMemory (if c then a else b) := by
  split
  · exact ha
  · exact hb

theorem State.writeMem_same (s : State) (a : Nat) (b : Bytes) : s.SameButMemory (s.writeMem a b) := rfl
theorem State.clearMem_same (s : State) (a n : Nat) : s.SameButMemory (s.clearMem a n) := rfl

theorem State.copyRange_same (s : State) (a b n : Nat) : s.SameButMemory (s.copyRange a b n) :=
  (s.clearMem_same b n).trans (.each _ _ fun t _ => t.writeMem_same ..)

theorem State.writeTable_same (s : State) (l bank : Nat) (m : ModelSlot) (n : Nat) : s.SameButMemory (s.writeTable l bank m n) :=
  (s.writeMem_same ..).trans (State.writeMem_same ..)

theorem State.buildShadow_same (s : State) (b : ShadowBuild) (l : Nat) : s.SameButMemory (s.buildShadow b l) :=
  (s.copyRange_same ..).trans (.ite (.each _ _ fun t _ => t.clearMem_same ..) (.each _ _ fun t _ => t.writeTable_same ..))

/-- Settles O21: each command is a request whose checks pass, and a build writes the pool's bank alone. -/
theorem modelShadowAndFlashCommands : Obligations.ModelShadowAndFlashCommands := by
  unfold Obligations.ModelShadowAndFlashCommands
  intro s rq
  refine ⟨?unstage, ?arm, ?disarm, ?directory, ?log, ?build⟩
  case unstage =>
    intro m hTakes hModel hHeld hStaged hUnused hShadow
    obtain ⟨u, hSame, hExec⟩ := State.exec_effect (c := .modelUnstage rq m) rfl
      (fun t => { t.setModel m.toNat { s.model m.toNat with state := 4 } with
        shadow := some { slot := m.toNat, remove := true, handle := none } }.setShadow 1) (body := []) hTakes (decide_eq_false (Nat.not_le.2 hModel))
      ((if_neg hHeld).trans ((if_neg (Bool.eq_false_iff.1 hStaged)).trans ((if_neg (Bool.eq_false_iff.1 hUnused)).trans
        (if_neg (not_not_intro hShadow)))))
    have hSet := State.setShadow_same { u.setModel m.toNat { s.model m.toNat with state := 4 } with
      shadow := some { slot := m.toNat, remove := true, handle := none } } 1
    have hModels : ∀ k, (({ u.setModel m.toNat { s.model m.toNat with state := 4 } with
        shadow := some { slot := m.toNat, remove := true, handle := none } } : State).setShadow 1).model k =
        if k = m.toNat then { s.model m.toNat with state := 4 } else s.model k := fun k =>
      (hSet.keeps (fun t => t.model k) (fun _ _ _ _ _ _ _ => rfl)).trans
        ((State.model_setModel u m.toNat k _).trans (by rw [hSame.keeps (fun t => t.model k) (fun _ _ _ => rfl)]))
    exact ⟨_, hExec, congrArg ModelSlot.state ((hModels m.toNat).trans (if_pos rfl)),
      hSet.keeps State.shadow (fun _ _ _ _ _ _ _ => rfl), fun k hk => (hModels k).trans (if_neg hk)⟩
  case arm =>
    intro at' hTakes hReady hAwake hAhead
    refine State.request_ok (f := fun u => (u.setShadow 3).requestRound .swap (some (launchGrain at'.toNat)) 0) hTakes rfl ?_
    exact (if_neg (not_or.2 ⟨not_not_intro hReady, not_not_intro hAwake⟩)).trans (if_neg (Nat.not_lt.2 hAhead))
  case disarm =>
    intro r hTakes hArmed
    refine State.request_ok (f := fun t => (t.dropRound r 5).setShadow 2) hTakes rfl ?_
    rw [show (s.taken rq 0x306).rounds.find? (fun r => decide (r.flip = .swap) && !r.decided) = some r from hArmed]
    rfl
  case directory =>
    intro b hTakes hBits
    exact State.request_ok (f := fun t => t.writeDirectory b.toNat) hTakes (decide_eq_false (Nat.not_le.2 hBits)) rfl
  case log =>
    intro k ix hTakes hUnit
    exact State.request_ok (f := fun t => (t.compactLog (fun v => v != { kind := k.toNat, index := ix.toNat })).logStat) hTakes
      (congrArg not hUnit) rfl
  case build =>
    intro b hRuns hShadow hBuilding
    let v := (s.each s.servingLevels (fun s l => s.buildShadow b l)).setShadow 2
    have hModels : v.models = s.models :=
      (State.setShadow_same _ 2).models.trans
        ((State.SameButMemory.each _ _ fun t l => t.buildShadow_same b l).keeps State.models (fun _ _ _ => rfl))
    have hBuilt : exec .shadowBuildComplete s = .next (if b.remove then v else v.setModel b.slot { v.model b.slot with state := 2 }) := by
      show execShadowBuildComplete s = _
      unfold execShadowBuildComplete
      rw [hShadow]
      refine when_true ?_ _ _
      simp [hRuns, hBuilding]
    have hModel : ∀ k, v.model k = s.model k := fun k => by rw [State.model, hModels, State.model]
    refine ⟨_, hBuilt, fun hAdds => ?_, fun hRemoves => ?_, fun k hk => ?_⟩
    · rw [hAdds]
      simp
    · rw [hRemoves]
      exact hModels
    · split
      · exact hModel k
      · rw [State.model_setModel, if_neg hk, hModel]

end Sys2Proof.Machine
end

section
/-! PROOFS. Resets, power states, removal and keys over the control path (R383 to R405, R451, R452). -/

namespace Sys2Proof.Machine
open Sys2Proof

/-! The checks of the power commands, which the control path, the SMBus and Lamp share, let through. -/

section
variable {s : State}

theorem State.moduleReset_of_free {width : Nat} (cause : Nat) (h : s.resetBusy width 0 = false) :
    s.moduleReset width cause = done (fun t => t.acceptReset width 0 cause false) :=
  if_neg (Bool.eq_false_iff.1 h)

theorem State.askLevelReset_of_free {l : Nat} (cause : Nat) (h : s.levelResetStatus l = 0) :
    s.askLevelReset l cause = done (fun t => t.acceptReset 2 l cause false) :=
  if_neg (not_not_intro h)

theorem State.askFaceReset_of_free {p : Nat} (cause : Nat) (h : s.faceResetStatus p = 0) :
    s.askFaceReset p cause = done (fun t => t.acceptReset 3 p cause false) :=
  if_neg (not_not_intro h)

theorem State.askLevelPark_of_free {l : Nat} (h : s.parkStatus l = 0) :
    s.askLevelPark l true = done (fun t => t.beginPark l false) :=
  if_neg (not_not_intro h)

theorem State.askLevelPark_of_parked {l : Nat} (h : s.unparkStatus l = 0) :
    s.askLevelPark l false = done (fun t => t.beginUnpark l) :=
  if_neg (not_not_intro h)

theorem State.askStandby_of_free (h : s.standbyStatus = 0) : s.askStandby true = done State.beginStandby :=
  (if_pos rfl).trans (if_neg (not_not_intro h))

theorem State.askStandby_of_asleep (h : s.pwr.standby = 2) : s.askStandby false = done State.endStandby :=
  (if_neg Bool.false_ne_true).trans (if_pos h)

theorem State.askRemove_withdraws (limit : Nat) (hHeld : s.pwr.removeOk = false) (h : s.removing = true) :
    s.askRemove 0 limit = done State.withdrawRemoval :=
  (if_neg (Bool.eq_false_iff.1 hHeld)).trans ((if_pos rfl).trans (if_pos h))

/-- A removal asked for begins at once where no reset is in progress. -/
theorem State.askRemove_asks {mode : Nat} (limit : Nat) (hHeld : s.pwr.removeOk = false) (hMode : mode ≠ 0) :
    s.askRemove mode limit = done (fun t => if t.resets.isEmpty then
      t.startRemoval { drain := decide (mode = 2), limitAt := s.now + 1000000000 * limit, closed := false }
      else { t with pwr := { t.pwr with
        wantRemoval := some { drain := decide (mode = 2), limitAt := s.now + 1000000000 * limit, closed := false } } }) :=
  (if_neg (Bool.eq_false_iff.1 hHeld)).trans (if_neg hMode)

end

/-- Settles O22: each command is a request whose checks pass. -/
theorem powerCommandsAct : Obligations.PowerCommandsAct := by
  unfold Obligations.PowerCommandsAct
  intro s rq
  refine ⟨?warm, fun l hLevel => ⟨?levelReset, ?park, ?unpark⟩, ?faceReset, ?standby, ?wake, ?withdraw, ?remove⟩
  case warm =>
    intro hTakes hFree
    exact State.request_ok (f := fun t => t.acceptReset 1 0 4 false) hTakes rfl (State.moduleReset_of_free (s := s.taken rq 0x500) 4 hFree)
  case levelReset =>
    intro hTakes hFree
    exact State.request_ok (f := fun t => t.acceptReset 2 l.toNat 4 false) hTakes (decide_eq_false (Nat.not_le.2 hLevel)) (State.askLevelReset_of_free 4 hFree)
  case park =>
    intro hTakes hFree
    refine State.request_ok (f := fun t => t.beginPark l.toNat false) hTakes ?_ (State.askLevelPark_of_free hFree)
    simp [hLevel]
  case unpark =>
    intro hTakes hParked hAwake
    refine State.request_ok (f := fun t => t.beginUnpark l.toNat) hTakes ?_ (State.askLevelPark_of_parked (if_pos ⟨hParked, hAwake⟩))
    simp [hLevel]
  case faceReset =>
    intro p hTakes hFace hFree
    exact State.request_ok (f := fun t => t.acceptReset 3 p.toNat 4 false) hTakes (congrArg not hFace) (State.askFaceReset_of_free 4 hFree)
  case standby =>
    intro hTakes hFree
    exact State.request_ok (f := State.beginStandby) hTakes rfl (State.askStandby_of_free hFree)
  case wake =>
    intro hTakes hAsleep
    exact State.request_ok (f := State.endStandby) hTakes rfl (State.askStandby_of_asleep (s := s.taken rq 0x504) hAsleep)
  case withdraw =>
    intro limit hTakes hHeld hAsked
    exact State.request_ok (f := State.withdrawRemoval) hTakes rfl (State.askRemove_withdraws (s := s.taken rq 0x505) limit.toNat hHeld hAsked)
  case remove =>
    intro limit hTakes hHeld hIdle
    have hNone : ∀ req, ((s.taken rq 0x505).okReply rq 0x505 req []).resets = [] := fun req =>
      ((State.okReply_taken s rq 0x505 req []).keeps State.resets (fun _ _ _ => rfl)).trans hIdle
    refine ⟨?_, fun hLow hHigh => ?_⟩
    · refine (State.request_ok hTakes rfl (State.askRemove_asks (s := s.taken rq 0x505) limit.toNat hHeld (by decide))).trans ?_
      rw [hNone]
      rfl
    · refine (State.request_ok hTakes ?_ (State.askRemove_asks (s := s.taken rq 0x505) limit.toNat hHeld (by decide))).trans ?_
      · simp only [removeBad]
        rw [decide_eq_false (by omega : ¬ limit.toNat = 0), decide_eq_false (by omega : ¬ 3600 < limit.toNat)]
        rfl
      · rw [hNone]
        rfl

/-- Settles O23: a key change acts on the state that has answered, and one that leaves no KEYS role is a bare status. -/
theorem keyCommandsAct : Obligations.KeyCommandsAct := by
  unfold Obligations.KeyCommandsAct
  intro s rq slot roles nonce wrapped hSlot hRoles hNonce hWrapped k c op hCommand hTakes
  obtain ⟨req, bad, run, hGood, hRequest, hRun⟩ : ∃ req bad run, bad = false ∧ exec c s = s.request rq op req bad run ∧
      run (s.taken rq op) = if s.lastKeys slot.toNat k then status 1 else done (fun t => t.changeKey slot.toNat k) := by
    rcases hCommand with ⟨rfl, rfl, rfl⟩ | ⟨rfl, rfl, rfl⟩
    · refine ⟨_, _, _, ?_, rfl, rfl⟩
      rw [hRoles]
      simp [hSlot, hNonce, hWrapped]
    · exact ⟨_, _, _, decide_eq_false (Nat.not_le.2 hSlot), rfl, rfl⟩
  refine ⟨fun hOthers => ?_, fun hLast => ?_⟩
  · obtain ⟨u, hSame, hExec⟩ := State.exec_effect hRequest (fun t => t.changeKey slot.toNat k) hTakes hGood
      (hRun.trans (if_neg (Bool.eq_false_iff.1 hOthers)))
    refine ⟨_, hExec, hSame.keeps (fun u => u.rot.keys.set slot.toNat k) (fun _ _ _ => rfl), ?_, ?_, ?_,
      hSame.keeps State.regs (fun _ _ _ => rfl), hSame.keeps State.mem (fun _ _ _ => rfl)⟩
    · intro h hMem
      simpa using (List.mem_filter.1 hMem).2
    · intro x hMem
      simpa using (List.mem_filter.1 hMem).2
    · intro w hWindow
      rw [State.changeKey, List.getElem?_modify_eq] at hWindow
      obtain ⟨v, -, rfl⟩ := Option.map_eq_some_iff.1 hWindow
      exact ⟨rfl, rfl⟩
  · obtain ⟨t, hExec⟩ := noCommandStopsTheBlock c s
    refine ⟨t, hExec, State.same_of_request (fun u => ?_) (hRequest.symm.trans hExec)⟩
    rw [hRun, if_pos hLast]
    rfl

end Sys2Proof.Machine
end

section
/-! PROOFS. The SMBus sideband (R439, R479). -/

namespace Sys2Proof.Machine
open Sys2Proof

/-- A transaction to the endpoint's address while VAUX is there takes effect (R439). -/
theorem State.exec_smb {s : State} {addr : BitVec 7} {o : Host.Outcome State Fault Refusal} {f : State → State} (hVaux : s.pwr.vaux = true)
    (hAddr : addr.toNat = 0x58 + s.rot.strap.toNat) (hExec : o = s.smb addr f) : o = .next (f s) := by
  refine hExec.trans (when_true ?_ _ _)
  rw [hVaux, State.smbAddress, decide_eq_true hAddr]
  rfl

/-- Settles O24: each is a block read of its fields. -/
theorem smbusReadsAnswer : Obligations.SmbusReadsAnswer := by
  unfold Obligations.SmbusReadsAnswer
  intro s addr hVaux hAddr
  refine ⟨?_, ?_, fun hNone => ?_, fun e r hFirst => ?_, ?_, ?_⟩
  · refine (State.exec_smb hVaux hAddr (Eq.refl (execSmbIdentity addr s))).trans ?_
    simp only [fieldsLe, State.identity, List.flatMap_cons, List.flatMap_nil, List.append_assoc, List.append_nil]
  · refine (State.exec_smb hVaux hAddr (Eq.refl (execSmbStatus addr s))).trans ?_
    simp only [fieldsLe, State.smbStatusFields, List.flatMap_cons, List.flatMap_nil, List.append_assoc, List.append_nil]
  · refine (State.exec_smb hVaux hAddr (Eq.refl (execSmbEventNext addr s))).trans ?_
    rw [hNone]
  · refine (State.exec_smb hVaux hAddr (Eq.refl (execSmbEventNext addr s))).trans ?_
    rw [hFirst]
  · refine (State.exec_smb hVaux hAddr (Eq.refl (execSmbThermal addr s))).trans ?_
    simp only [fieldsLe, List.flatMap_cons, List.flatMap_nil, List.append_assoc, List.append_nil]

  · exact State.exec_smb hVaux hAddr (Eq.refl (execSmbResult addr s))

/-! A command of 0x10 to 0x13 (R439). -/

section
variable {s : State} {code : Nat} {data : Bytes} {bad cold : Bool} {run : State → Reply}

theorem State.smbCommand_of_unarmed (hOther : s.ctrl.queue.head? ≠ some (smbEntry code data)) (hArmed : s.armed = false) :
    s.smbCommand code data (s.smbPec code data) bad cold run = s.smbResult 13 code := by
  unfold State.smbCommand
  simp [hArmed, hOther]

theorem State.smbCommand_of_queue (hOther : s.ctrl.queue.head? ≠ some (smbEntry code data)) (hArmed : s.armed = true)
    (hRuns : s.boot.hfRunning = true) (hPower : s.pwr.pwrgd = true) (hWaits : s.ctrl.queue ≠ []) (hRoom : s.ctrl.queue.length < 1024) :
    s.smbCommand code data (s.smbPec code data) bad cold run =
      ({ s with rot := { s.rot with armUntil := none } } : State).enqueue (smbEntry code data) := by
  unfold State.smbCommand
  simp [hArmed, hOther, hRuns, hPower, hWaits, hRoom]

/-- In the window, with Headframe at work and nothing waiting, an allowed command takes effect and leaves OK. -/
theorem State.exec_smbCommand_of_armed {f : State → State} {addr : BitVec 7} {o : Host.Outcome State Fault Refusal} (hVaux : s.pwr.vaux = true)
    (hAddr : addr.toNat = 0x58 + s.rot.strap.toNat) (hExec : o = s.smb addr (fun t => t.smbCommand code data (s.smbPec code data) bad cold run))
    (hArmed : s.armed = true)
    (hRuns : s.boot.hfRunning = true) (hPower : s.pwr.pwrgd = true) (hEmpty : s.ctrl.queue = []) (hGood : bad = false)
    (hRun : run { s with rot := { s.rot with armUntil := none } } = done f) :
    o = .next (f { s with rot := { s.rot with armUntil := none, smbStatus := 0, smbCommand := code } }) := by
  rw [State.exec_smb hVaux hAddr hExec]
  unfold State.smbCommand State.smbAct State.smbRun
  simp [hArmed, hRuns, hPower, hEmpty, hGood, hRun, State.smbResult]
  rfl

/-- With no Headframe a cold reset is the root of trust's, and everything else completes NOT_READY. -/
theorem State.exec_smbCommand_of_stopped {addr : BitVec 7} {o : Host.Outcome State Fault Refusal} (hVaux : s.pwr.vaux = true)
    (hAddr : addr.toNat = 0x58 + s.rot.strap.toNat) (hExec : o = s.smb addr (fun t => t.smbCommand code data (s.smbPec code data) bad cold run))
    (hArmed : s.armed = true) (hRuns : s.boot.hfRunning = false) (hEnable : s.pwr.enable = true) :
    let s1 : State := { s with rot := { s.rot with armUntil := none } }
    o = .next (if cold then s1.smbRun code (s1.moduleReset 0 3) else s1.smbResult 9 code) := by
  dsimp only
  rw [State.exec_smb hVaux hAddr hExec]
  unfold State.smbCommand
  simp [hArmed, hRuns, hEnable]

end

/-- Settles O25: the window's row, and each command by the state of the window, Headframe and the queue. -/
theorem smbusCommandsAct : Obligations.SmbusCommandsAct := by
  unfold Obligations.SmbusCommandsAct
  intro s addr hVaux hAddr
  refine ⟨?arm, ?expire, ?queue, fun hArmed => ?armed⟩
  case arm =>
    refine (State.exec_smb hVaux hAddr (Eq.refl (execSmbArm addr 0xA5 (s.smbPec 0x1F [0xA5]) s))).trans ?_
    simp
  case expire =>
    intro t hUntil hPast
    show execSmbArmWindowExpire s = _
    unfold execSmbArmWindowExpire
    rw [hUntil]
    exact when_true (decide_eq_true hPast) _ _
  case queue =>
    intro c code a b d e hCommand hOther
    obtain ⟨data, bad, cold, run, rfl, hExec⟩ : ∃ data bad cold run, e = smbEntry code data ∧
        exec c s = s.smb addr (fun t => t.smbCommand code data (s.smbPec code data) bad cold run) := by
      rcases hCommand with ⟨rfl, rfl, rfl⟩ | ⟨rfl, rfl, rfl⟩ | ⟨rfl, rfl, rfl⟩ | ⟨rfl, rfl, rfl⟩ <;> exact ⟨_, _, _, _, rfl, rfl⟩
    have hNext := State.exec_smb hVaux hAddr hExec
    refine ⟨fun hUnarmed => ?_, fun hArmed hRuns hPower hWaits hRoom => ?_⟩
    · rw [hNext, State.smbCommand_of_unarmed hOther hUnarmed]
      rfl
    · rw [hNext, State.smbCommand_of_queue hOther hArmed hRuns hPower hWaits hRoom]
      exact ⟨_, rfl, rfl, rfl, rfl⟩
  case armed =>
    intro u
    refine ⟨fun hRuns hPower hEmpty => ⟨fun l hFree => ?cold, fun l hFree => ?warm, fun l hLevel hFree => ?level,
      fun l hLevel hFree => ?park, fun l hLevel hFree => ?unpark, fun hFree => ?standby, fun hAsleep => ?wake,
      fun lo hi hHeld hAsked => ?withdraw, fun lo hi hHeld hIdle => ?remove, fun lo hi hHeld hIdle hLow hHigh => ?drain⟩,
      fun hRuns hEnable hFree => ⟨fun l => ?stoppedCold, fun en => ?stopped⟩⟩
    case cold =>
      refine State.exec_smbCommand_of_armed (f := fun t => t.acceptReset 0 0 3 false) hVaux hAddr (Eq.refl (execSmbReset addr 1 l _ s)) hArmed hRuns hPower hEmpty rfl ?_
      exact (if_pos rfl).trans (State.moduleReset_of_free 3 hFree)
    case warm =>
      refine State.exec_smbCommand_of_armed (f := fun t => t.acceptReset 1 0 3 false) hVaux hAddr (Eq.refl (execSmbReset addr 2 l _ s)) hArmed hRuns hPower hEmpty rfl ?_
      exact (if_neg (by decide)).trans ((if_pos rfl).trans (State.moduleReset_of_free 3 hFree))
    case level =>
      refine State.exec_smbCommand_of_armed (f := fun t => t.acceptReset 2 l.toNat 3 false) hVaux hAddr (Eq.refl (execSmbReset addr 3 l _ s)) hArmed hRuns hPower hEmpty (by simp; omega) ?_
      exact (if_neg (by decide)).trans ((if_neg (by decide)).trans (State.askLevelReset_of_free 3 hFree))
    case park =>
      refine State.exec_smbCommand_of_armed (f := fun t => t.beginPark l.toNat false) hVaux hAddr (Eq.refl (execSmbPark addr 1 l _ s)) hArmed hRuns hPower hEmpty (by simp; omega) ?_
      exact State.askLevelPark_of_free hFree
    case unpark =>
      refine State.exec_smbCommand_of_armed (f := fun t => t.beginUnpark l.toNat) hVaux hAddr (Eq.refl (execSmbPark addr 0 l _ s)) hArmed hRuns hPower hEmpty (by simp; omega) ?_
      exact State.askLevelPark_of_parked hFree
    case standby =>
      refine State.exec_smbCommand_of_armed (f := State.beginStandby) hVaux hAddr (Eq.refl (execSmbStandby addr 1 _ s)) hArmed hRuns hPower hEmpty rfl ?_
      exact State.askStandby_of_free hFree
    case wake =>
      refine State.exec_smbCommand_of_armed (f := State.endStandby) hVaux hAddr (Eq.refl (execSmbStandby addr 0 _ s)) hArmed hRuns hPower hEmpty rfl ?_
      exact State.askStandby_of_asleep hAsleep
    case withdraw =>
      refine State.exec_smbCommand_of_armed (f := State.withdrawRemoval) hVaux hAddr (Eq.refl (execSmbRemove addr 0 lo hi _ s)) hArmed hRuns hPower hEmpty rfl ?_
      exact State.askRemove_withdraws _ hHeld hAsked
    case remove =>
      refine (State.exec_smbCommand_of_armed hVaux hAddr (Eq.refl (execSmbRemove addr 1 lo hi _ s)) hArmed hRuns hPower hEmpty rfl
        (State.askRemove_asks _ hHeld (by decide))).trans ?_
      exact congrArg Host.Outcome.next (if_pos (List.isEmpty_iff.2 hIdle))
    case drain =>
      refine (State.exec_smbCommand_of_armed hVaux hAddr (Eq.refl (execSmbRemove addr 2 lo hi _ s)) hArmed hRuns hPower hEmpty ?_
        (State.askRemove_asks _ hHeld (by decide))).trans ?_
      · simp [removeBad]; omega
      · exact congrArg Host.Outcome.next (if_pos (List.isEmpty_iff.2 hIdle))
    case stoppedCold =>
      refine (State.exec_smbCommand_of_stopped hVaux hAddr (Eq.refl (execSmbReset addr 1 l _ s)) hArmed hRuns hEnable).trans ?_
      refine congrArg Host.Outcome.next ((if_pos rfl).trans ?_)
      rw [State.moduleReset_of_free (s := { s with rot := { s.rot with armUntil := none } }) 3 hFree]
      rfl
    case stopped => exact State.exec_smbCommand_of_stopped hVaux hAddr (Eq.refl (execSmbStandby addr en _ s)) hArmed hRuns hEnable

end Sys2Proof.Machine
end

section
/-! PROOFS. The Lamp monitor (R440, R470 to R474), with the rules of a register's field. -/

namespace Sys2Proof.Machine
open Sys2Proof

/-! Fields of a register. -/

/-- A field written into a word: what is above it, its value, what is below it. -/
theorem putField_eq (w lo n v : Nat) : putField w lo n v = w / 2 ^ (lo + n) * 2 ^ (lo + n) + v % 2 ^ n * 2 ^ lo + w % 2 ^ lo := by
  have hHigh : w / 2 ^ lo / 2 ^ n = w / 2 ^ (lo + n) := by rw [Nat.div_div_eq_div_mul, Nat.pow_add]
  have hLow := Nat.div_add_mod w (2 ^ lo)
  have hMid := Nat.div_add_mod (w / 2 ^ lo) (2 ^ n)
  have hWhole : w / 2 ^ (lo + n) * 2 ^ (lo + n) + bits w lo n * 2 ^ lo + w % 2 ^ lo = w := by
    rw [← hHigh, Nat.pow_add, bits]
    nth_rewrite 4 [← hLow]
    nth_rewrite 3 [← hMid]
    ring
  unfold putField
  omega

/-- A field reads as its value. -/
theorem bits_of_split {a b c lo n : Nat} (hb : b < 2 ^ n) (hc : c < 2 ^ lo) : bits (a * 2 ^ (lo + n) + b * 2 ^ lo + c) lo n = b := by
  have h : a * 2 ^ (lo + n) + b * 2 ^ lo + c = c + 2 ^ lo * (b + a * 2 ^ n) := by ring
  rw [bits, h, Nat.add_mul_div_left _ _ (Nat.two_pow_pos lo), Nat.div_eq_of_lt hc, Nat.zero_add, Nat.add_mul_mod_self_right, Nat.mod_eq_of_lt hb]

theorem bits_mod (w lo n k : Nat) (h : lo + n ≤ k) : bits (w % 2 ^ k) lo n = bits w lo n := by
  have hBits : ∀ x, bits x lo n = x % 2 ^ (lo + n) / 2 ^ lo := fun x => by rw [Nat.pow_add, Nat.mod_mul_right_div_self, bits]
  rw [hBits, hBits, Nat.mod_mod_of_dvd _ (Nat.pow_dvd_pow 2 h)]

theorem bits_putField_same (w lo n v : Nat) : bits (putField w lo n v) lo n = v % 2 ^ n := by
  rw [putField_eq]
  exact bits_of_split (Nat.mod_lt _ (Nat.two_pow_pos n)) (Nat.mod_lt _ (Nat.two_pow_pos lo))

/-- A field below the one written keeps its value. -/
theorem bits_putField_below (w v : Nat) {lo n lo' n' : Nat} (h : lo' + n' ≤ lo) : bits (putField w lo n v) lo' n' = bits w lo' n' := by
  rw [← bits_mod (putField w lo n v) lo' n' lo h, ← bits_mod w lo' n' lo h, putField_eq]
  have hMod : (w / 2 ^ (lo + n) * 2 ^ (lo + n) + v % 2 ^ n * 2 ^ lo + w % 2 ^ lo) % 2 ^ lo = w % 2 ^ lo := by
    have hSum : w / 2 ^ (lo + n) * 2 ^ (lo + n) + v % 2 ^ n * 2 ^ lo + w % 2 ^ lo =
      w % 2 ^ lo + 2 ^ lo * (w / 2 ^ (lo + n) * 2 ^ n + v % 2 ^ n) := by ring
    rw [hSum, Nat.add_mul_mod_self_left, Nat.mod_mod]
  rw [hMod]

theorem State.regNat_setRegNat_same (s : State) (a v : Nat) : (s.setRegNat a v).regNat a = v % 2 ^ 32 := by
  simp [State.regNat, State.setRegNat]

theorem State.field_setField_same (s : State) (a v : Nat) {lo n : Nat} (h : lo + n ≤ 32) : (s.setField a lo n v).field a lo n = v % 2 ^ n := by
  rw [State.field, State.setField, State.regNat_setRegNat_same, bits_mod _ _ _ _ h, bits_putField_same]

theorem State.field_setField_below (s : State) (a n v : Nat) {lo lo' n' : Nat} (h : lo' + n' ≤ lo) (hWord : lo ≤ 32) :
    (s.setField a lo n v).field a lo' n' = s.field a lo' n' := by
  rw [State.field, State.setField, State.regNat_setRegNat_same, bits_mod _ _ _ _ (h.trans hWord), bits_putField_below _ _ h, State.field]

theorem State.reg_setField_other (s : State) (a b lo n v : Nat) (h : b ≠ a) : (s.setField a lo n v).reg b = s.reg b := by
  rw [State.setField, State.setRegNat, State.reg_setReg, if_neg h]

/-! A Lamp command in its turn. -/

section
variable {s : State} {n : Nat} {args : List Nat} {run : State → LampReply}

theorem State.lampDo_of_turn {o : Host.Outcome State Fault Refusal} {e : HfEntry} {run : State → State} (hExec : o = s.lampDo e run)
    (hReady : s.lampReady = true) (hTurn : s.boot.hfRunning = true → s.ctrl.queue = []) :
    o = .next (run s.takeLine) := by
  refine hExec.trans ((when_true hReady _ _).trans ?_)
  unfold State.lampTurn State.lampTaken State.entryTurn
  cases hRuns : s.boot.hfRunning with
  | false => rfl
  | true => simp [hTurn hRuns]

/-- Behind commands that wait a Lamp command waits as the last of them. -/
theorem State.lampRun_of_queue {o : Host.Outcome State Fault Refusal} (hExec : o = s.lampRun n args run)
    (hReady : s.lampReady = true) (hRuns : s.boot.hfRunning = true)
    (hFirst : s.ctrl.queue.head? ≠ some (lampEntry n args)) (hWaits : s.ctrl.queue ≠ []) (hRoom : s.ctrl.queue.length < 1024) (hOthers : ∀ e ∈ s.ctrl.queue, e.path ≠ 2) :
    o = .next (s.takeLine.enqueue (lampEntry n args)) := by
  have hTurn : s.lampTurn (lampEntry n args) = false := by
    unfold State.lampTurn State.entryTurn
    cases hQueue : s.ctrl.queue with
    | nil => exact absurd hQueue hWaits
    | cons k r =>
      rw [hQueue] at hFirst
      simpa [hRuns] using hFirst
  have hNone : s.lampWaits = false := by
    unfold State.lampWaits
    simpa using hOthers
  refine hExec.trans ((when_true hReady _ _).trans ?_)
  rw [hTurn, State.lampWait, hNone]
  simp [hRoom]

/-- A command that is offered answers as its run says, then takes effect. -/
theorem State.lampRun_ok {o : Host.Outcome State Fault Refusal} {r : LampReply} (hExec : o = s.lampRun n args run) (hReady : s.lampReady = true) (hTurn : s.boot.hfRunning = true → s.ctrl.queue = [])
    (hOffers : s.lampOffers n = true) (hRun : run s.takeLine = r) :
    o = .next (r.after (s.takeLine.send (.lamp r.data (r.status == 0) r.status))) := by
  refine (State.lampDo_of_turn hExec hReady hTurn).trans (congrArg Host.Outcome.next ((if_pos hOffers).trans ?_))
  rw [hRun, State.lampAnswer]

/-- A command that is not offered answers LOCKED. -/
theorem State.lampRun_locked {o : Host.Outcome State Fault Refusal} (hExec : o = s.lampRun n args run) (hReady : s.lampReady = true) (hTurn : s.boot.hfRunning = true → s.ctrl.queue = [])
    (hOffers : s.lampOffers n = false) : o = .next (s.takeLine.send (.lamp [] false 20)) :=
  (State.lampDo_of_turn hExec hReady hTurn).trans (congrArg Host.Outcome.next (if_neg (Bool.eq_false_iff.1 hOffers)))

theorem State.lampLoad_locked {o : Host.Outcome State Fault Refusal} {kind slot : Nat} (hExec : o = s.lampLoad n kind slot)
    (hReady : s.lampReady = true) (hTurn : s.boot.hfRunning = true → s.ctrl.queue = []) (hOffers : s.lampOffers n = false) :
    o = .next (s.takeLine.send (.lamp [] false 20)) := by
  refine (State.lampDo_of_turn hExec hReady hTurn).trans (congrArg Host.Outcome.next (if_pos ?_))
  rw [show s.takeLine.lampOffers n = false from hOffers]
  rfl

/-- A load that is offered for one of the two slots answers READY. -/
theorem State.lampLoad_ok {o : Host.Outcome State Fault Refusal} {kind slot : Nat} (hExec : o = s.lampLoad n kind slot)
    (hReady : s.lampReady = true) (hTurn : s.boot.hfRunning = true → s.ctrl.queue = []) (hOffers : s.lampOffers n = true) (hSlot : slot < 2) :
    o = .next (s.takeLine.beginTransfer kind slot) := by
  refine (State.lampDo_of_turn hExec hReady hTurn).trans (congrArg Host.Outcome.next ((if_neg ?_).trans (if_neg (by omega))))
  rw [show s.takeLine.lampOffers n = true from hOffers]
  decide

/-- Five commands are offered in every state. -/
theorem State.lampOffers_always (h : n = 0 ∨ n = 1 ∨ n = 2 ∨ n = 5 ∨ n = 12) : s.lampOffers n = true := by
  unfold State.lampOffers
  split
  · rcases h with rfl | rfl | rfl | rfl | rfl <;> rfl
  · split <;> rcases h with rfl | rfl | rfl | rfl | rfl <;> rfl

theorem State.lampOffers_reads (hPhase : s.phase ≠ 12) (h : n ≤ 6) : s.lampOffers n = true := by
  unfold State.lampOffers
  rw [if_neg hPhase]
  split
  · simp [h]
  · simp only [decide_eq_true_eq]
    omega

theorem State.lampOffers_unlocked (hPhase : s.phase ≠ 12) (hLock : s.rot.locked = false) (h : n ≤ 14) : s.lampOffers n = true := by
  unfold State.lampOffers
  rw [if_neg hPhase, if_neg (Bool.eq_false_iff.1 hLock), decide_eq_true h]

theorem State.lampOffers_locked (hPhase : s.phase ≠ 12) (hLock : s.rot.locked = true) (h : 6 < n) (hLoad : n ≠ 12) : s.lampOffers n = false := by
  unfold State.lampOffers
  rw [if_neg hPhase, if_pos hLock]
  simp [h, hLoad]

end

/-- A line that fits a command has words. -/
theorem lineWords_of_good {line : Bytes} (h : lineBad line = false) : lineWords line ≠ [] := by
  intro hNone
  have hForms : lampForms.any (spells []) = false := by
    rw [List.any_eq_false]
    intro f hf
    have hWords : f.1 ≠ [] := by
      simp only [lampForms, List.map_cons, List.map_nil, List.mem_cons, List.not_mem_nil, or_false] at hf
      rcases hf with rfl | rfl | rfl | rfl | rfl | rfl | rfl | rfl | rfl | rfl | rfl | rfl | rfl | rfl | rfl | rfl | rfl | rfl | rfl | rfl <;>
        exact List.cons_ne_nil _ _
    simp [spells, hWords]
  rw [lineBad, hNone, hForms] at h
  simp [isKeyload] at h

/-- Settles O26: each read is offered, and prints its row. -/
theorem lampReadsPrint : Obligations.LampReadsPrint := by
  unfold Obligations.LampReadsPrint
  intro s hReady
  refine ⟨fun hRuns hWaits hRoom hOthers => ?waits, fun c t hBaud hDue => ?apply, fun line hGood hRoom => ?line, fun hTurn => ?prints⟩
  case waits =>
    have hFirst : ∀ k, s.ctrl.queue.head? ≠ some (lampEntry k []) := fun k h => hOthers _ (List.mem_of_head? h) rfl
    exact ⟨State.lampRun_of_queue (Eq.refl (execLampHelp s)) hReady hRuns (hFirst 0) hWaits hRoom hOthers,
      State.lampRun_of_queue (Eq.refl (execLampId s)) hReady hRuns (hFirst 1) hWaits hRoom hOthers,
      State.lampRun_of_queue (Eq.refl (execLampStatus s)) hReady hRuns (hFirst 2) hWaits hRoom hOthers⟩
  case apply =>
    show execLampBaudApply s = _
    unfold execLampBaudApply
    rw [hBaud]
    exact when_true (decide_eq_true hDue) _ _
  case line =>
    show execLampLineReceive line s = _
    unfold execLampLineReceive
    rw [if_neg (lineWords_of_good hGood), if_neg (by simp [hGood])]
    exact when_true (decide_eq_true hRoom) _ _
  case prints =>
    intro u told
    refine ⟨State.lampRun_ok (Eq.refl (execLampHelp s)) hReady hTurn (State.lampOffers_always (by decide)) rfl,
      State.lampRun_ok (Eq.refl (execLampId s)) hReady hTurn (State.lampOffers_always (by decide)) rfl,
      State.lampRun_ok (Eq.refl (execLampStatus s)) hReady hTurn (State.lampOffers_always (by decide)) rfl, fun hPhase => ⟨fun k hLow hHigh => ?log, ?repair, fun a hAddr hSound => ?regRead,
        fun hLock a k hLow hHigh hAddr hSound => ?memRead, fun hLock a v hAddr hSound => ?regWrite⟩, fun rate c hCode => ?baud⟩
    case log =>
      refine State.lampRun_ok (Eq.refl (execLampLog k s)) (r := lampPrint _) hReady hTurn (State.lampOffers_reads hPhase (by decide)) (if_neg ?_)
      omega
    case repair => exact State.lampRun_ok (Eq.refl (execLampRepair s)) hReady hTurn (State.lampOffers_reads hPhase (by decide)) rfl
    case regRead =>
      refine (State.lampRun_ok (Eq.refl (execLampRegRead a 1 s)) (r := { data := [(u.viewReg a).toNat], after := fun t => (t.readRegs a 1).2.2 })
        hReady hTurn (State.lampOffers_reads hPhase (by decide)) ?_).trans ?_
      · have hRead : s.takeLine.readRegs a 1 = ([u.viewReg a], none, u.readEffect a) := State.readRegs_one hSound
        dsimp only
        rw [if_neg (by omega), hRead]
        rfl
      · have hRead := State.readRegs_one (s := told [(u.viewReg a).toNat]) ((State.regError_of_same (s := u) rfl a false).trans hSound)
        exact congrArg (fun q => Host.Outcome.next (Prod.snd (Prod.snd q))) hRead
    case memRead =>
      refine State.lampRun_ok (Eq.refl (execLampMemRead a k s)) (r := lampPrint _) hReady hTurn (State.lampOffers_unlocked hPhase hLock (by decide))
        ((if_neg (by omega)).trans ?_)
      rw [hSound]
    case regWrite =>
      refine (State.lampRun_ok (Eq.refl (execLampRegWrite a v s)) (r := { after := fun t => (t.writeReg a v).2 })
        hReady hTurn (State.lampOffers_unlocked hPhase hLock (by decide)) ?_).trans ?_
      · have hWrite : s.takeLine.writeReg a v = (none, u.writeEffect a v) := State.writeReg_of_sound v hSound
        rw [if_neg (by omega), hWrite]
        rfl
      · have hWrite := State.writeReg_of_sound (s := told []) v ((State.regError_of_same (s := u) rfl a true).trans hSound)
        exact congrArg (fun q => Host.Outcome.next (Prod.snd q)) hWrite
    case baud =>
      refine State.lampRun_ok (Eq.refl (execLampBaud rate s)) hReady hTurn (State.lampOffers_always (by decide)) (r := { after := fun t => { t with lamp := { t.lamp with newBaud := some (c, t.now + 10000000) } } }) ?_
      rw [hCode]

/-- A command shared with the control path whose checks pass answers OK, then takes effect. -/
theorem State.lampRun_shared {s : State} {n : Nat} {args : List Nat} {run : State → LampReply} {o : Host.Outcome State Fault Refusal}
    {f : State → State} (hExec : o = s.lampRun n args run) (hReady : s.lampReady = true) (hTurn : s.boot.hfRunning = true → s.ctrl.queue = [])
    (hOffers : s.lampOffers n = true) (hRun : run s.takeLine = { after := f }) : o = .next (f (s.takeLine.send (.lamp [] true 0))) :=
  State.lampRun_ok hExec hReady hTurn hOffers hRun

/-- Settles O27: before the lock each command is offered and its checks pass; after it none is offered. -/
theorem lampCommandsAct : Obligations.LampCommandsAct := by
  unfold Obligations.LampCommandsAct
  intro s hReady hPhase hTurn u told
  refine ⟨fun hLock => ?before, fun hLock c l p slot roles key a v hCommand => ?after⟩
  case before =>
    have hOffers : ∀ {k}, k ≤ 14 → s.lampOffers k = true := State.lampOffers_unlocked hPhase hLock
    refine ⟨fun hFree => ?_, fun hFree => ?_, fun l hLevel => ⟨fun hFree => ?_, fun hFree => ?_, fun hFree => ?_⟩, fun p hFace hFree => ?_,
      fun hFree => ?_, fun hAsleep => ?_, fun slot roles key hSlot hRoles hKey => ?_, ?lock⟩
    · exact State.lampRun_shared (Eq.refl (execLampResetCold s)) hReady hTurn (hOffers (by decide)) (congrArg lampOf (State.moduleReset_of_free 5 hFree))
    · exact State.lampRun_shared (Eq.refl (execLampResetWarm s)) hReady hTurn (hOffers (by decide)) (congrArg lampOf (State.moduleReset_of_free 5 hFree))
    · exact State.lampRun_shared (Eq.refl (execLampResetLevel l s)) hReady hTurn (hOffers (by decide)) (by
        rw [if_neg (Nat.not_le.2 hLevel), State.askLevelReset_of_free 5 hFree]
        rfl)
    · exact State.lampRun_shared (f := fun t => t.beginPark l false) (Eq.refl (execLampPark l s)) hReady hTurn (hOffers (by decide)) (by
        rw [if_neg (Nat.not_le.2 hLevel), State.askLevelPark_of_free hFree]
        rfl)
    · exact State.lampRun_shared (Eq.refl (execLampUnpark l s)) hReady hTurn (hOffers (by decide)) (by
        rw [if_neg (Nat.not_le.2 hLevel), State.askLevelPark_of_parked hFree]
        rfl)
    · exact State.lampRun_shared (Eq.refl (execLampResetFace p s)) hReady hTurn (hOffers (by decide))
        ((if_neg (by simp [hFace])).trans (congrArg lampOf (State.askFaceReset_of_free 5 hFree)))
    · exact State.lampRun_shared (Eq.refl (execLampStandbyOn s)) hReady hTurn (hOffers (by decide)) (congrArg lampOf (State.askStandby_of_free hFree))
    · exact State.lampRun_shared (Eq.refl (execLampStandbyOff s)) hReady hTurn (hOffers (by decide)) (congrArg lampOf (State.askStandby_of_asleep hAsleep))
    · exact State.lampRun_shared (Eq.refl (execLampKeyload slot roles key s)) hReady hTurn (hOffers (by decide)) (if_neg (by omega))
    · refine ⟨_, State.lampRun_shared (Eq.refl (execLampLock s.rot.fuses.moduleId s)) hReady hTurn (hOffers (by decide)) (if_neg (not_not_intro rfl)), ?_, ?_⟩
      · rw [State.setField_rot]
      · show (({ told with rot := { told.rot with locked := true } } : State).setField (cmdReg 0xE20) 0 1 1).field (cmdReg 0xE20) 0 1 = 1
        rw [State.field_setField_same _ _ _ (by decide)]
        rfl
  case after =>
    have hOffers : ∀ {k}, 6 < k → k ≠ 12 → s.lampOffers k = false := State.lampOffers_locked hPhase hLock
    rcases hCommand with rfl | rfl | rfl | rfl | rfl | rfl | rfl | rfl | rfl | rfl | rfl | rfl | rfl
    case inr.inr.inr.inr.inr.inr.inr.inr.inr.inr.inr.inl =>
      exact State.lampLoad_locked (Eq.refl (execLampPlanload slot s)) hReady hTurn (hOffers (by decide) (by decide))
    · exact State.lampRun_locked (Eq.refl (execLampResetCold s)) hReady hTurn (hOffers (by decide) (by decide))
    · exact State.lampRun_locked (Eq.refl (execLampResetWarm s)) hReady hTurn (hOffers (by decide) (by decide))
    · exact State.lampRun_locked (Eq.refl (execLampResetLevel l s)) hReady hTurn (hOffers (by decide) (by decide))
    · exact State.lampRun_locked (Eq.refl (execLampResetFace p s)) hReady hTurn (hOffers (by decide) (by decide))
    · exact State.lampRun_locked (Eq.refl (execLampPark l s)) hReady hTurn (hOffers (by decide) (by decide))
    · exact State.lampRun_locked (Eq.refl (execLampUnpark l s)) hReady hTurn (hOffers (by decide) (by decide))
    · exact State.lampRun_locked (Eq.refl (execLampStandbyOn s)) hReady hTurn (hOffers (by decide) (by decide))
    · exact State.lampRun_locked (Eq.refl (execLampStandbyOff s)) hReady hTurn (hOffers (by decide) (by decide))
    · exact State.lampRun_locked (Eq.refl (execLampKeyload slot roles key s)) hReady hTurn (hOffers (by decide) (by decide))
    · exact State.lampRun_locked (Eq.refl (execLampRegWrite a v s)) hReady hTurn (hOffers (by decide) (by decide))
    · exact State.lampRun_locked (Eq.refl (execLampMemRead a p s)) hReady hTurn (hOffers (by decide) (by decide))
    · exact State.lampRun_locked (Eq.refl (execLampLock p s)) hReady hTurn (hOffers (by decide) (by decide))

/-- Settles O28: the loads are offered, and the transfer's frames take data, answer, or end it. -/
theorem lampTransfersImages : Obligations.LampTransfersImages := by
  unfold Obligations.LampTransfersImages
  intro s
  refine ⟨fun slot hSlot hReady hTurn => ⟨?load, fun hPhase hLock => ?plan⟩,
    fun x hTransfer => ⟨fun n data crc hLength => ?frame, fun data crc hFits => ?ends, fun hLate => ?late⟩⟩
  case load => exact State.lampLoad_ok (Eq.refl (execLampHfload slot s)) hReady hTurn (State.lampOffers_always (by decide)) hSlot
  case plan => exact State.lampLoad_ok (Eq.refl (execLampPlanload slot s)) hReady hTurn (State.lampOffers_unlocked hPhase hLock (by decide)) hSlot
  case frame =>
    intro sound
    have hExec : exec (.lampImageFrame n data crc) s = .next (({ s with lamp := { s.lamp with
        transfer := some (if sound then { x with lastAt := s.now, data := x.data ++ data } else { x with lastAt := s.now }) } } : State).send
          (.lampByte (if sound then 0x06 else 0x15))) := by
      show execLampImageFrame n data crc s = _
      unfold execLampImageFrame
      rw [hTransfer]
      exact if_neg hLength
    refine ⟨_, hExec, congrArg some ?_, rfl⟩
    cases sound <;> rfl
  case ends =>
    have hEnd : exec (.lampImageFrame 0 data crc) s = .next (s.endTransfer x) := by
      show execLampImageFrame 0 data crc s = _
      unfold execLampImageFrame
      rw [hTransfer]
      rfl
    have hEnds : ∀ e, ({ s with lamp := { s.lamp with transfer := none } } : State).checkContainer x.kind x.data = e →
        s.endTransfer x = if e ≠ 0 then
          (if x.kind = 1 then ({ s with lamp := { s.lamp with transfer := none } } : State).setPlanErr e
            else { s with lamp := { s.lamp with transfer := none } }).lampAnswer { status := 15 }
        else
          let s2 := (({ s with lamp := { s.lamp with transfer := none } } : State).storeImage x).lampAnswer {}
          if s.phase = 12 ∧ x.kind = 3 then s2.acceptReset 0 0 5 false else s2 := by
      intro e hCheck
      unfold State.endTransfer
      dsimp only
      rw [if_neg (Nat.not_lt.2 hFits), hCheck]
    rw [hEnd]
    intro u
    refine ⟨fun hBad => ?_, fun hSound hRecovery hKind => ?_, fun hSound hPhase => ?_⟩
    · exact congrArg Host.Outcome.next ((hEnds _ rfl).trans (if_pos hBad))
    · exact congrArg Host.Outcome.next ((hEnds 0 hSound).trans (if_pos (And.intro hRecovery hKind)))
    · exact congrArg Host.Outcome.next ((hEnds 0 hSound).trans (if_neg (not_and_of_not_left _ hPhase)))
  case late =>
    show execLampTransferTimeout s = _
    unfold execLampTransferTimeout
    rw [hTransfer]
    exact when_true (decide_eq_true hLate) _ _

end Sys2Proof.Machine
end

section
/-! PROOFS. Register accesses with an effect of their own (R5, R6, R42, R104, R115, R169, R273, R297, R299, R346, R411, R441). -/

namespace Sys2Proof.Machine
open Sys2Proof

/-! Clearing a record. -/

theorem State.reg_zeroRegs (l : List Nat) : ∀ (s : State) (a : Nat), (s.zeroRegs l).reg a = if a ∈ l then regReset a else s.reg a := by
  induction l with
  | nil => intro s a; simp [State.zeroRegs]
  | cons b r ih =>
    intro s a
    rw [State.zeroRegs, ih, State.reg_setReg]
    by_cases h : a = b <;> simp [h]

theorem State.setReg_frame (s : State) (a : Nat) (v : Word) : { s.setReg a v with regs := s.regs } = s := rfl

theorem State.zeroRegs_frame (l : List Nat) : ∀ s : State, { s.zeroRegs l with regs := s.regs } = s := by
  induction l with
  | nil => intro s; rfl
  | cons b r ih =>
    intro s
    exact congrArg (fun t : State => { t with regs := s.regs }) (ih (s.setReg b (regReset b)))

/-- What a write to a record's VALID register does: words, registers and the rest of the state (R6). -/
theorem State.clearRecord_spec (s : State) (valid : Nat) (words : List Nat) (mask : Nat) (v : Word) :
    { s.clearRecord valid words mask v with regs := s.regs } = s ∧
    (v.getLsbD 31 = true → (∀ a ∈ words, (s.clearRecord valid words mask v).reg a = regReset a) ∧
      (∀ a, a ∉ words → (s.clearRecord valid words mask v).reg a = s.reg a)) ∧
    (v.getLsbD 31 = false → (s.clearRecord valid words mask v).reg valid = s.reg valid &&& ~~~(v &&& BitVec.ofNat 32 mask) ∧
      (∀ a, a ≠ valid → (s.clearRecord valid words mask v).reg a = s.reg a)) := by
  unfold State.clearRecord
  cases hAll : v.getLsbD 31 with
  | true =>
    rw [if_pos rfl]
    exact ⟨s.zeroRegs_frame words, fun _ => ⟨fun a ha => by rw [State.reg_zeroRegs, if_pos ha], fun a ha => by rw [State.reg_zeroRegs, if_neg ha]⟩,
      nofun⟩
  | false =>
    rw [if_neg Bool.false_ne_true]
    exact ⟨rfl, nofun, fun _ => ⟨by rw [State.reg_setReg, if_pos rfl], fun a ha => by rw [State.reg_setReg, if_neg ha]⟩⟩

/-! VALID of CMD_PHASE_LAST is bit 31 (R411). -/

theorem bits_top (w : Word) : bits w.toNat 31 1 = (w.getLsbD 31).toNat := by
  rw [bits, BitVec.getLsbD, Nat.testBit_eq_decide_div_mod_eq]
  have h := Nat.mod_lt (w.toNat / 2 ^ 31) (Nat.zero_lt_two)
  interval_cases w.toNat / 2 ^ 31 % 2 <;> simp

theorem bits_below_top (w : Word) : bits w.toNat 0 31 = (w.setWidth 31).toNat := by
  rw [bits, BitVec.toNat_setWidth, Nat.pow_zero, Nat.div_one]

/-- Writing 1 to bit 31 alone clears it and no other bit. -/
theorem clearTop_spec (w v : Word) : (w &&& ~~~(v &&& 0x80000000#32)).getLsbD 31 = (w.getLsbD 31 && !v.getLsbD 31) ∧
    (w &&& ~~~(v &&& 0x80000000#32)).setWidth 31 = w.setWidth 31 := by
  rw [show (0x80000000#32) = BitVec.twoPow 32 31 from rfl]
  refine ⟨by simp, BitVec.eq_of_getLsbD_eq fun i hi => ?_⟩
  have hOther : ¬ i = 31 := by omega
  have hWord : i < 32 := by omega
  simp [hi, hOther, hWord]

/-- Settles O29: the flags, the records by `clearRecord`, and VALID. -/
theorem writesClearFlagsAndRecords : Obligations.WritesClearFlagsAndRecords := by
  unfold Obligations.WritesClearFlagsAndRecords
  refine ⟨fun s p v hFace hAnswers => ?flags, fun s c v valid words mask hRecord hAnswers => ?records, fun s v => ?phase⟩
  case flags =>
    refine ⟨s.clearFlags p v, when_true (by rw [hFace, hAnswers]; rfl) _ _, ?_, fun a ha => ?_, s.setReg_frame ..⟩
    · rw [State.clearFlags, State.reg_setReg, if_pos rfl]
    · rw [State.clearFlags, State.reg_setReg, if_neg ha]
  case records =>
    obtain ⟨m, hMask, hExec⟩ : ∃ m, BitVec.ofNat 32 m = mask ∧ exec c s = .next (s.clearRecord valid words m v) := by
      rcases hRecord with ⟨p, hFace, hKind, rfl⟩ | ⟨l, hLevel, hKind, rfl⟩ | ⟨l, hLevel, hKind⟩
      · refine ⟨0, rfl, ?_⟩
        rcases hKind with ⟨rfl, rfl, rfl⟩ | ⟨rfl, rfl, rfl⟩ | ⟨rfl, rfl, rfl⟩ | ⟨rfl, rfl, rfl⟩ <;>
          exact when_true (by rw [hFace, hAnswers]; rfl) _ _
      · refine ⟨0, rfl, ?_⟩
        rcases hKind with ⟨rfl, rfl, rfl⟩ | ⟨rfl, rfl, rfl⟩ <;> exact when_true (by rw [decide_eq_true hLevel, hAnswers]; rfl) _ _
      · rcases hKind with ⟨rfl, rfl, rfl, rfl⟩ | ⟨rfl, rfl, rfl, rfl⟩ | ⟨rfl, rfl, rfl, rfl⟩
        · exact ⟨2 ^ 30, rfl, when_true (by rw [hLevel, hAnswers]; rfl) _ _⟩
        · exact ⟨0, rfl, when_true (by rw [hLevel, hAnswers]; rfl) _ _⟩
        · exact ⟨0, rfl, when_true (by rw [hLevel, hAnswers]; rfl) _ _⟩
    obtain ⟨hFrame, hAll, hSome⟩ := s.clearRecord_spec valid words m v
    rw [hMask] at hSome
    exact ⟨_, hExec, hFrame, hAll, hSome⟩
  case phase =>
    obtain ⟨hValid, hRest⟩ := clearTop_spec (s.reg (cmdReg 0xA24)) v
    refine ⟨s.clearPhaseLast v, rfl, ?_, ?_, fun a ha => ?_, s.setReg_frame ..⟩
    · rw [State.clearPhaseLast, State.field, State.field, State.regNat, State.regNat, State.reg_setReg, if_pos rfl, bits_top, bits_top, hValid]
      cases v.getLsbD 31 <;> simp
    · rw [State.clearPhaseLast, State.field, State.field, State.regNat, State.regNat, State.reg_setReg, if_pos rfl, bits_below_top, bits_below_top, hRest]
    · rw [State.clearPhaseLast, State.reg_setReg, if_neg ha]

/-! Where a register stands. -/

/-- The map of R5, by the offset from its base. -/
theorem regBlock_base (o : Nat) : regBlock (regBase + o) =
    if o < 0x100000 then .cmd o
    else if o < 0x140000 then .level ((o - 0x100000) / 0x10000) (o % 0x10000)
    else if o < 0x200000 then .unmapped
    else if o < 0x240000 then .drift ((o - 0x200000) / 0x10000) ((o - 0x200000) / 0x1000 % 16) (o % 0x1000)
    else if o < 0x1000000 then .unmapped
    else if o < 0x1800000 then
      if (o - 0x1000000) / 0x1000 % 32 < 17 then .face ((o - 0x1000000) / 0x1000) (o % 0x1000) else .unmapped
    else .unmapped := by
  unfold regBlock
  rw [if_neg (Nat.not_lt.2 (Nat.le_add_right _ _)), Nat.add_sub_cancel_left]

theorem regBlock_cmdReg {o : Nat} (h : o < 0x100000) : regBlock (cmdReg o) = .cmd o :=
  (regBlock_base o).trans (if_pos h)

theorem regBlock_lvlReg {l o : Nat} (hLevel : l < 4) (h : o < 0x10000) : regBlock (lvlReg l o) = .level l o := by
  rw [lvlReg, Nat.add_assoc, Nat.add_assoc, regBlock_base, if_neg (by omega), if_pos (by omega)]
  congr 1 <;> omega

theorem regBlock_drfReg {l d o : Nat} (hLevel : l < 4) (hDrift : d < 16) (h : o < 0x1000) : regBlock (drfReg l d o) = .drift l d o := by
  rw [drfReg, Nat.add_assoc, Nat.add_assoc, regBlock_base, if_neg (by omega), if_neg (by omega), if_neg (by omega), if_pos (by omega)]
  congr 1 <;> omega

theorem regBlock_fceReg {p o : Nat} (hFace : faceWf p = true) (h : o < 0x1000) : regBlock (fceReg p o) = .face p o := by
  obtain ⟨hLow, hSlot⟩ : p < 2048 ∧ p % 32 < 17 := by simpa [faceWf] using hFace
  rw [fceReg, Nat.add_assoc, Nat.add_assoc, regBlock_base, if_neg (by omega), if_neg (by omega), if_neg (by omega), if_neg (by omega),
    if_neg (by omega), if_pos (by omega), if_pos (by omega)]
  congr 1 <;> omega

/-- Settles O30: what `readEffect` and `writeEffect` do by the register's place in the map. -/
theorem readsClearAndReadOnlyWritesAreIgnored : Obligations.ReadsClearAndReadOnlyWritesAreIgnored := by
  unfold Obligations.ReadsClearAndReadOnlyWritesAreIgnored
  refine ⟨fun s => ⟨fun a hRc hAnswers => ?rc, ?clock⟩, fun s v => ?writes⟩
  case rc =>
    have hEffect : s.readEffect a = s.setReg a 0 := if_pos hRc
    refine ⟨s.setReg a 0, (when_true (by rw [hRc, hAnswers]; rfl) _ _).trans (congrArg Host.Outcome.next hEffect), ?_, fun b hb => ?_, s.setReg_frame ..⟩
    · rw [State.reg_setReg, if_pos rfl]
    · rw [State.reg_setReg, if_neg hb]
  case clock =>
    have hRc : regRc (cmdReg 0xB08) = false := by
      rw [regRc, regBlock_cmdReg (by decide)]
      rfl
    have hEffect : s.readEffect (cmdReg 0xB08) = s.setRegNat (cmdReg 0xB0C) (s.now / 2 ^ 32) :=
      (if_neg (Bool.eq_false_iff.1 hRc)).trans (if_pos rfl)
    refine ⟨_, congrArg Host.Outcome.next hEffect, ?_, ?_, fun b hb => ?_, s.setReg_frame ..⟩
    · refine (show s.viewReg (cmdReg 0xB08) = BitVec.ofNat 32 (s.now % 2 ^ 32) from ?_).trans
        (BitVec.eq_of_toNat_eq (by simp))
      unfold State.viewReg
      rw [regBlock_cmdReg (by decide)]
      rfl
    · rw [State.setRegNat, State.reg_setReg, if_pos rfl]
    · rw [State.setRegNat, State.reg_setReg, if_neg hb]
  case writes =>
    have hIgnored : ∀ {a}, s.answers a = true → s.writeEffect a v = s → exec (.registerWriteOther a v) s = .next s := fun hAnswers hSame =>
      (when_true hAnswers _ _).trans (congrArg Host.Outcome.next hSame)
    refine ⟨fun o hOff hOther hAnswers => hIgnored hAnswers ?_, fun l d o hLevel hDrift hOff hAnswers => hIgnored hAnswers ?_,
      fun l o hLevel hOff hOther hAnswers => hIgnored hAnswers ?_, fun p o hFace hOff hOther hAnswers => hIgnored hAnswers ?_⟩
    · rw [State.writeEffect, regBlock_cmdReg hOff]
      simp_all
    · rw [State.writeEffect, regBlock_drfReg hLevel hDrift hOff]
    · rw [State.writeEffect, regBlock_lvlReg hLevel hOff]
      simp_all
    · rw [State.writeEffect, regBlock_fceReg hFace hOff]
      simp_all

end Sys2Proof.Machine
end

section
/-! PROOFS. How an engine takes, injects and completes descriptors (R21, R29, R257, R274, R276, R293, R297, R298). -/

namespace Sys2Proof.Machine
open Sys2Proof

/-! States that differ in their faces alone. -/

/-- t differs from s at most in its faces. -/
def State.SameButFaces (s t : State) : Prop := { t with faces := s.faces } = s

theorem State.SameButFaces.refl (s : State) : s.SameButFaces s := rfl

theorem State.SameButFaces.trans {s t u : State} (h : s.SameButFaces t) (k : t.SameButFaces u) : s.SameButFaces u := by
  unfold State.SameButFaces at *
  rw [← h, ← k]

/-- What does not read the faces. -/
theorem State.SameButFaces.keeps {s t : State} {γ : Type} (h : s.SameButFaces t) (q : State → γ)
    (hq : ∀ (u : State) f, q { u with faces := f } = q u) : q t = q s := by
  unfold State.SameButFaces at h
  have hEq := congrArg q h
  rwa [hq] at hEq

theorem State.setFace_same (s : State) (p : Nat) (f : Face) : s.SameButFaces (s.setFace p f) := rfl

theorem State.setEngine_same (s : State) (p e : Nat) (g : Engine) : s.SameButFaces (s.setEngine p e g) := rfl

theorem State.face_setFace_other (s : State) {p k : Nat} (f : Face) (h : k ≠ p) : (s.setFace p f).face k = s.face k := by
  rw [State.face_setFace, if_neg h]

theorem State.face_setEngine_other (s : State) {p k : Nat} (e : Nat) (g : Engine) (h : k ≠ p) : (s.setEngine p e g).face k = s.face k :=
  s.face_setFace_other _ h

theorem State.engine_setEngine_same (s : State) {p e : Nat} (g : Engine) (h : e < (s.face p).engines.length) : (s.setEngine p e g).engine p e = g := by
  simp [State.engine, h]

theorem State.engine_setEngine_other (s : State) (p : Nat) {e k : Nat} (g : Engine) (h : k ≠ e) : (s.setEngine p e g).engine p k = s.engine p k := by
  simp [State.engine, List.getD_eq_getElem?_getD, List.getElem?_set_ne (Ne.symm h)]

section
variable {s t : State} (hSame : s.SameButFaces t)
include hSame

/-- Whether an access errs depends on the faces' epochs alone. -/
theorem State.accessError_of_epochs (hEpoch : ∀ k, (t.face k).epoch = (s.face k).epoch) (a n : Nat) (write : Bool) :
    t.accessError a n write = s.accessError a n write := by
  have hLevel : t.levelUp = s.levelUp := hSame.keeps State.levelUp (fun _ _ => rfl)
  have hActive : t.activeFace = s.activeFace := hSame.keeps State.activeFace (fun _ _ => rfl)
  have hReg : t.regError = s.regError := hSame.keeps State.regError (fun _ _ => rfl)
  have hStale : t.stale = s.stale := funext fun k => by
    rw [State.stale, hEpoch, hSame.keeps (fun u => u.expected k) (fun _ _ => rfl), State.stale]
  unfold State.accessError
  rw [hLevel, hActive, hReg, hStale]

theorem State.runError_of_epochs (hEpoch : ∀ k, (t.face k).epoch = (s.face k).epoch) (write : Bool) (l : List (Nat × Nat)) :
    t.runError write l = s.runError write l := by
  unfold State.runError
  simp only [State.accessError_of_epochs hSame hEpoch]

/-- What reads return depends on the faces' marked tiles alone. -/
theorem State.memBytes_of_tiles (hTiles : ∀ k, (t.face k).zeroTiles = (s.face k).zeroTiles) (a n : Nat) : t.memBytes a n = s.memBytes a n := by
  have hKept : t.kept = s.kept := hSame.keeps State.kept (fun _ _ => rfl)
  have hRead : t.readMem = s.readMem := hSame.keeps State.readMem (fun _ _ => rfl)
  unfold State.memBytes State.tiled
  rw [hKept, hRead, hTiles]

end

/-! A descriptor queued. -/

/-- The engine's new descriptor. -/
def State.newDesc (s : State) (p offset layer : Nat) (work : Work) : QueuedDesc :=
  { offset := offset, bytes := s.readMem (storeBase p + offset) 64, work := work, layer := layer, stored := false, seq := (s.face p).workSeq }

section
variable (s : State) (p e off layer : Nat) (work : Work)

theorem State.queueDesc_same : s.SameButFaces (s.queueDesc p e off layer work) := rfl

theorem State.face_queueDesc : (s.queueDesc p e off layer work).face p =
    { s.face p with engines := (s.face p).engines.set e { s.engine p e with queue := (s.engine p e).queue ++ [s.newDesc p off layer work] },
                    gated := false, lastWork := s.now, workSeq := (s.face p).workSeq + 1 } := by
  simp [State.queueDesc, State.newDesc]

theorem State.face_queueDesc_other {k : Nat} (h : k ≠ p) : (s.queueDesc p e off layer work).face k = s.face k :=
  (State.face_setFace_other _ _ h).trans (s.face_setEngine_other e _ h)

theorem State.engine_queueDesc (h : e < (s.face p).engines.length) : (s.queueDesc p e off layer work).engine p e =
    { s.engine p e with queue := (s.engine p e).queue ++ [s.newDesc p off layer work] } := by
  rw [State.engine, State.face_queueDesc]
  simp [h]

theorem State.engine_queueDesc_other {k : Nat} (h : k ≠ e) : (s.queueDesc p e off layer work).engine p k = s.engine p k := by
  rw [State.engine, State.face_queueDesc]
  simp [State.engine, List.getD_eq_getElem?_getD, List.getElem?_set_ne (Ne.symm h)]

end

/-! A descriptor completed. -/

theorem State.bumpCtr_same (s : State) (p c : Nat) : s.SameButFaces (s.bumpCtr p c) := rfl

theorem State.endItem_same (s : State) (p off : Nat) : s.SameButFaces (s.endItem p off) := s.setFace_same ..

theorem State.headLeft_same (s : State) (p e : Nat) (qd : QueuedDesc) : s.SameButFaces (s.headLeft p e qd) :=
  ((s.setEngine_same ..).trans (State.bumpCtr_same ..)).trans (State.setFace_same ..)

theorem State.headCompleted_same (s : State) (p e : Nat) (qd : QueuedDesc) : s.SameButFaces (s.headCompleted p e qd) :=
  (s.headLeft_same p e qd).trans (State.endItem_same ..)

theorem State.headCompleted_other (s : State) {p k : Nat} (e : Nat) (qd : QueuedDesc) (h : k ≠ p) : (s.headCompleted p e qd).face k = s.face k := by
  rw [State.headCompleted, State.endItem, State.face_setFace_other _ _ h, State.headLeft, State.face_setFace_other _ _ h,
    State.bumpCtr, State.face_setFace_other _ _ h, State.face_setEngine_other _ _ _ h]

/-- Settles O33: the head leaves its queue, and its face alone changes. -/
theorem descriptorCompletes : Obligations.DescriptorCompletes := by
  unfold Obligations.DescriptorCompletes
  intro s p e qd rest hFace hEngine hRuns hQueue hStopped hDone hFused hCtr c
  have hNext : (s.headCompleted p e qd).engine p e = (s.engine p e).next 0 := State.headCompleted_engine (State.lt_engines_of_queue hQueue)
  have hRest : ((s.headCompleted p e qd).engine p e).queue = rest := by
    rw [hNext, Engine.next, hQueue, List.drop_one, List.tail_cons]
  exact ⟨s.headCompleted p e qd, execDescriptorComplete_of_headDone hFace hEngine hRuns hQueue hStopped hDone hFused, hRest,
    by rw [hNext, Engine.next], by rw [hNext, Engine.next, Engine.rewind], by rw [hNext, Engine.next, Engine.rewind],
    by rw [hNext, Engine.next, Engine.rewind], by rw [hNext, Engine.next, Engine.rewind], State.headCompleted_counters,
    State.headCompleted_rings, fun k hk => s.headCompleted_other e qd hk, s.headCompleted_same p e qd⟩

/-! The injection of a chunk. -/

theorem spGets_length {α : Type} (d : α) (m : List (Nat × α)) (a n : Nat) : (spGets d m a n).length = n := by
  induction n generalizing a with
  | zero => rfl
  | succ n ih => simp [spGets, ih]

theorem State.readMem_length (s : State) (a n : Nat) : (s.readMem a n).length = n := spGets_length ..

theorem State.memBytes_length (s : State) (a n : Nat) : (s.memBytes a n).length = n := by
  have hRead : (s.readMem a n).length = n := State.readMem_length s a n
  have hTiled : (s.tiled a (s.readMem a n)).length = n := by
    unfold State.tiled
    dsimp only
    generalize (if inStore a then (s.face (storeOf a)).zeroTiles else []) = tiles
    split
    · exact hRead
    · rw [List.length_map, List.length_range, hRead]
  rw [State.memBytes, State.kept, List.length_map, List.length_zipIdx, hTiled]

theorem State.regNat_bumpReg_same (s : State) (a n : Nat) : (s.bumpReg a n).regNat a = min (s.regNat a + n) 0xFFFFFFFF := by
  rw [State.bumpReg, State.regNat_setRegNat_same]
  omega

theorem State.reg_bumpReg_other (s : State) {a b : Nat} (n : Nat) (h : b ≠ a) : (s.bumpReg a n).reg b = s.reg b := by
  rw [State.bumpReg, State.setRegNat, State.reg_setReg, if_neg h]

theorem State.regNat_bumpReg_other (s : State) {a b : Nat} (n : Nat) (h : b ≠ a) : (s.bumpReg a n).regNat b = s.regNat b := by
  rw [State.regNat, s.reg_bumpReg_other n h, State.regNat]

/-- A descriptor whose SRC lies outside the face's store injects nothing. -/
theorem State.issue_of_not_injecting {s : State} {p e : Nat} {q : QueuedDesc} {rest : List QueuedDesc} (hQueue : (s.engine p e).queue = q :: rest)
    (hOp : (parseDesc q.bytes).op = 3) (hOut : tramInjects p (parseDesc q.bytes) = false) : s.issue p e = s := by
  unfold State.issue
  simp only [hQueue]
  split
  · rfl
  · simp [hOut]

/-- A TRAM descriptor at the head, its face at work and its turn there: the transaction of its chunk's injection. -/
theorem State.issue_of_injecting {s : State} {p e : Nat} {q : QueuedDesc} {rest : List QueuedDesc} (hQueue : (s.engine p e).queue = q :: rest)
    (hRuns : s.faceRuns p = true) (hStopped : (s.engine p e).stopped = false) (hTurn : s.itsTurn p q.work.ctx q.seq = true)
    (hOp : (parseDesc q.bytes).op = 3) (hOpen : q.stored = false) (hInjects : tramInjects p (parseDesc q.bytes) = true)
    (hSome : (parseDesc q.bytes).count ≠ 0) :
    let d := parseDesc q.bytes
    s.issue p e = (s.atItem p q.work).inject p e
      { (s.engine p e).accrue s.now (if d.rateEn then d.share else 0) with key := s.transferKey p q } q rest := by
  obtain ⟨hUp, hSound⟩ : s.faceUp p = true ∧ (s.face p).engines.all (fun g => g.err.isNone) = true := by
    simpa only [State.faceRuns, Bool.and_eq_true] using hRuns
  have hErr : (s.engine p e).err.isSome = false := by
    have hMem : s.engine p e ∈ (s.face p).engines := by
      rw [State.engine, List.getD_eq_getElem _ _ (State.lt_engines_of_queue hQueue)]
      exact List.getElem_mem _
    simpa using List.all_eq_true.1 hSound _ hMem
  have hMay : (s.face p).mayIssue s.now = true := List.all_eq_true.2 fun g hg => by simp [List.all_eq_true.1 hSound g hg]
  unfold State.issue
  simp [hQueue, hUp, hStopped, hErr, hMay, hTurn, hOp, hOpen, hInjects, hSome]

/-- A piece of a chunk that its credit allows and that reads without error is read; the last one sends the chunk. -/
theorem State.inject_of_credit {s : State} {p e : Nat} {g : Engine} {q : QueuedDesc} {rest : List QueuedDesc} {d : Desc} {n : Nat}
    (hDesc : parseDesc q.bytes = d) (hPiece : n = min (d.count - g.pos) (granLeft (d.src + g.pos)))
    (hCredit : d.rateEn = true → 256 * n ≤ g.credit)
    (hSound : s.accessError (d.src + g.pos) n false = none) (hClean : s.poisonAt [(d.src + g.pos, n)] = none) :
    let g1 := g.sent d s.now (s.memBytes (d.src + g.pos) n)
    let s1 := s.bumpReg (fceReg p (0x404 + 16 * e)) n
    s.inject p e g q rest = if d.count ≤ g.pos + n then s1.sendChunk p e g1 q rest else s1.setEngine p e g1 := by
  have hRun : s.runError false [(d.src + g.pos, n)] = none := by simp [State.runError, hSound]
  have hEnough : (d.rateEn && decide (g.credit < 256 * n)) = false := by
    cases hRate : d.rateEn with
    | false => rfl
    | true => simpa using hCredit hRate
  unfold State.inject State.whenReads
  simp only [hDesc, ← hPiece, hRun, hClean, hEnough, Engine.sent, Engine.moved, State.memBytes_length]
  rfl

section
variable {s : State} {p e : Nat} {g : Engine} {q : QueuedDesc} {rest : List QueuedDesc}

theorem State.sendChunk_mem : (s.sendChunk p e g q rest).mem = s.mem := rfl

/-- The chunk that a mover sends on its way. -/
def Engine.chunk (g : Engine) (p : Nat) (q : QueuedDesc) : TramChunk :=
  let d := parseDesc q.bytes
  { home := p, layer := q.layer, chunk := d.param, dueBy := g.sentAt + d.budget, data := g.page, key := g.key }

theorem State.sendChunk_trams : (s.sendChunk p e g q rest).trams = s.trams ++ [g.chunk p q] := rfl

theorem State.engine_sendChunk (h : e < (s.face p).engines.length) : (s.sendChunk p e g q rest).engine p e =
    { g with queue := { q with stored := true } :: rest, page := [] } :=
  State.engine_setEngine_same { s with trams := s.trams ++ [g.chunk p q] } _ h

theorem State.regNat_sendChunk_other {a : Nat} (h : a ≠ drfReg (levelOf p) (driftOf p) 0x100) :
    (s.sendChunk p e g q rest).regNat a = s.regNat a :=
  State.regNat_bumpReg_other _ 1 h

theorem State.regNat_sendChunk_same : (s.sendChunk p e g q rest).regNat (drfReg (levelOf p) (driftOf p) 0x100) =
    min (s.regNat (drfReg (levelOf p) (driftOf p) 0x100) + 1) 0xFFFFFFFF :=
  State.regNat_bumpReg_same _ _ 1

end

/-! The item at work, and the counters of a face and of its drift. -/

theorem State.atItem_same (s : State) (p : Nat) (w : Work) : s.SameButFaces (s.atItem p w) := rfl

theorem State.face_atItem (s : State) (p : Nat) (w : Work) (k : Nat) :
    (s.atItem p w).face k = { s.face k with item := if k = p then some (s.itemOf p w) else (s.face k).item } := by
  rw [State.atItem, State.face_setFace]
  split
  · next h => subst h; rfl
  · rfl

theorem faceWf_bounds {p : Nat} (h : faceWf p = true) : levelOf p < 4 ∧ driftOf p < 16 := by
  have hLow : p < 2048 := by
    simp only [faceWf, Bool.and_eq_true, decide_eq_true_eq] at h
    exact h.1
  unfold levelOf driftOf
  omega

theorem drfReg_ne_fceReg {p o o' : Nat} (hFace : faceWf p = true) (ho : o < 0x1000) (ho' : o' < 0x1000) :
    drfReg (levelOf p) (driftOf p) o ≠ fceReg p o' := by
  intro h
  have hBlock := congrArg regBlock h
  rw [regBlock_drfReg (faceWf_bounds hFace).1 (faceWf_bounds hFace).2 ho, regBlock_fceReg hFace ho'] at hBlock
  cases hBlock

/-- A chunk's descriptor fills no ring: its key is its work's (R285). -/
theorem State.transferKey_of_chunk (s : State) (p : Nat) {q : QueuedDesc} (h : (parseDesc q.bytes).op = 3) : s.transferKey p q = s.workKey q.work := by
  unfold State.transferKey
  dsimp only
  split
  · exact if_pos h
  · rfl

/-- A queued descriptor leaves its face at work. -/
theorem State.faceRuns_queueDesc {s : State} {p e off layer : Nat} {work : Work} (hEngine : e < (s.face p).engines.length)
    (hRuns : s.faceRuns p = true) : (s.queueDesc p e off layer work).faceRuns p = true := by
  obtain ⟨hUp, hSound⟩ : s.faceUp p = true ∧ (s.face p).engines.all (fun g => g.err.isNone) = true := by
    simpa only [State.faceRuns, Bool.and_eq_true] using hRuns
  have hSame : (s.queueDesc p e off layer work).faceUp p = s.faceUp p := by
    unfold State.faceUp State.stale
    rw [State.face_queueDesc]
    rfl
  refine Bool.and_eq_true_iff.2 ⟨hSame.trans hUp, ?_⟩
  rw [State.face_queueDesc]
  refine List.all_eq_true.2 fun g hg => ?_
  rcases List.mem_or_eq_of_mem_set hg with hOld | rfl
  · exact List.all_eq_true.1 hSound g hOld
  · have hMem : s.engine p e ∈ (s.face p).engines := by
      rw [State.engine, List.getD_eq_getElem _ _ hEngine]
      exact List.getElem_mem _
    exact (List.all_eq_true.1 hSound _ hMem :)

/-- The face's turn is still the descriptor's own once it alone is queued on its engine. -/
theorem State.itsTurn_queueDesc {s : State} {p e off layer : Nat} {work : Work} (hEmpty : (s.engine p e).queue = [])
    (hTurn : s.itsTurn p work.ctx (s.face p).workSeq = true) :
    (s.queueDesc p e off layer work).itsTurn p work.ctx (s.face p).workSeq = true := by
  unfold State.itsTurn at hTurn ⊢
  obtain ⟨hEngines, hFused⟩ : (s.face p).engines.all (fun g => g.queue.all (fun q => decide (q.work.ctx = work.ctx) ||
      decide ((s.face p).workSeq < q.seq))) = true ∧ (s.face p).fused.all (fun u => decide (u.work.ctx = work.ctx) || decide ((s.face p).workSeq < u.seq)) = true := by
    simpa only [Face.turn, Bool.and_eq_true] using (Bool.and_eq_true_iff.1 hTurn).1
  have hItem := (Bool.and_eq_true_iff.1 hTurn).2
  rw [State.face_queueDesc, hEmpty, Face.turn]
  refine Bool.and_eq_true_iff.2 ⟨Bool.and_eq_true_iff.2 ⟨List.all_eq_true.2 fun g hg => ?_, hFused⟩, hItem⟩
  rcases List.mem_or_eq_of_mem_set hg with hOld | rfl
  · exact List.all_eq_true.1 hEngines g hOld
  · simp [State.newDesc]

/-- Settles O31: the queue takes the descriptor, and one that may inject issues its first transaction. -/
theorem enginesTakeDescriptors : Obligations.EnginesTakeDescriptors := by
  unfold Obligations.EnginesTakeDescriptors
  intro s p e off layer work c op ly hCommand hCan hEngine b d q
  have hOp : d.op = op := by
    simp only [State.canQueue, Bool.and_eq_true, beq_iff_eq] at hCan
    exact hCan.1.1.2
  refine ⟨fun hWaits => ?takes, fun hChunk hInjects hEmpty hStopped hSome hTurn => ?injects⟩
  case takes =>
    have hExec : exec c s = .next (s.queueDesc p e off ly work) := by
      rcases hCommand with ⟨rfl, rfl, rfl⟩ | ⟨rfl, rfl, rfl⟩ | ⟨rfl, rfl, rfl⟩
      · exact when_true hCan _ _
      · exact when_true hCan _ _
      · refine (when_true hCan _ _).trans (congrArg Host.Outcome.next ?_)
        cases hQueue : (s.engine p e).queue with
        | cons q rest => rfl
        | nil =>
          have hOut : tramInjects p d = false := by simpa [hQueue] using hWaits
          have hHead : ((s.queueDesc p e off ly work).engine p e).queue = [s.newDesc p off ly work] := by
            rw [s.engine_queueDesc p e off ly work hEngine, hQueue]
            rfl
          exact State.issue_of_not_injecting hHead hOp hOut
    refine ⟨_, hExec, ?_, ?_, ?_, ?_, fun k hk => s.engine_queueDesc_other p e off ly work hk, fun k hk => s.face_queueDesc_other p e off ly work hk,
      s.queueDesc_same p e off ly work⟩
    · rw [s.engine_queueDesc p e off ly work hEngine]
      rfl
    · rw [State.face_queueDesc]
    · rw [State.face_queueDesc]
    · rw [State.face_queueDesc]
  case injects =>
    intro g a n hCredit hSound hClean
    obtain rfl : c = .tram p e off layer work := by
      rcases hCommand with ⟨rfl, rfl, rfl⟩ | ⟨rfl, rfl, rfl⟩ | ⟨rfl, rfl, rfl⟩
      · cases hChunk
      · cases hChunk
      · rfl
    obtain rfl : ly = layer := by
      rcases hCommand with ⟨h, -⟩ | ⟨h, -⟩ | ⟨-, -, h⟩
      · cases h
      · cases h
      · exact h
    let v := s.queueDesc p e off ly work
    let u := v.atItem p work
    have hHead : (v.engine p e).queue = [q] := by
      rw [s.engine_queueDesc p e off ly work hEngine, hEmpty]
      rfl
    have hFaces : ∀ k, (u.face k).epoch = (s.face k).epoch ∧ (u.face k).zeroTiles = (s.face k).zeroTiles := by
      intro k
      rw [State.face_atItem]
      by_cases hk : k = p
      · rw [hk, State.face_queueDesc]
        exact ⟨rfl, rfl⟩
      · rw [s.face_queueDesc_other p e off ly work hk]
        exact ⟨rfl, rfl⟩
    have hSame : s.SameButFaces u := (s.queueDesc_same p e off ly work).trans (v.atItem_same p work)
    obtain ⟨hWf, hFaceRuns, hSix⟩ : faceWf p = true ∧ s.faceRuns p = true ∧ e < 6 := by
      simp only [State.canQueue, Bool.and_eq_true, decide_eq_true_eq] at hCan
      exact ⟨hCan.1.1.1.1.1.1.1.1.1, hCan.1.1.1.1.1.1.1.1.2, hCan.1.1.1.1.1.2⟩
    let g' : Engine := { g with queue := [q], key := s.workKey work }
    have hEngine' : { (v.engine p e).accrue v.now (if d.rateEn then d.share else 0) with key := v.transferKey p q } = g' := by
      rw [v.transferKey_of_chunk p (hOp.trans hChunk), s.engine_queueDesc p e off ly work hEngine, hEmpty]
      rfl
    have hIssue : v.issue p e = u.inject p e g' q [] := by
      rw [← hEngine']
      exact State.issue_of_injecting hHead (State.faceRuns_queueDesc hEngine hFaceRuns)
        (by rw [s.engine_queueDesc p e off ly work hEngine]; exact hStopped) (State.itsTurn_queueDesc hEmpty hTurn) (hOp.trans hChunk) rfl hInjects hSome
    have hInject := State.inject_of_credit (s := u) (p := p) (e := e) (g := g') (q := q) (rest := []) (d := d) (n := n) rfl rfl hCredit
      ((State.accessError_of_epochs hSame (fun k => (hFaces k).1) ..).trans hSound) hClean
    have hData : u.memBytes a n = s.memBytes a n := State.memBytes_of_tiles hSame (fun k => (hFaces k).2) ..
    have hLen : e < (u.face p).engines.length := by
      rw [State.face_atItem, State.face_queueDesc]
      simpa using hEngine
    have hExec : exec (.tram p e off ly work) s = .next (u.inject p e g' q []) := by
      show execTram p e off ly work s = _
      unfold execTram
      obtain rfl : op = 3 := hChunk
      rw [when_true hCan, hEmpty]
      exact congrArg Host.Outcome.next hIssue
    have hMem : u.mem = s.mem := hSame.keeps State.mem (fun _ _ => rfl)
    have hTrams : u.trams = s.trams := hSame.keeps State.trams (fun _ _ => rfl)
    have hReg : ∀ b, u.regNat b = s.regNat b := fun b => hSame.keeps (fun w => w.regNat b) (fun _ _ => rfl)
    have hNow : u.now = s.now := hSame.keeps State.now (fun _ _ => rfl)
    have hApart : drfReg (levelOf p) (driftOf p) 0x100 ≠ fceReg p (0x404 + 16 * e) := drfReg_ne_fceReg hWf (by decide) (by omega)
    have hBytes : (u.bumpReg (fceReg p (0x404 + 16 * e)) n).regNat (fceReg p (0x404 + 16 * e)) =
        min (s.regNat (fceReg p (0x404 + 16 * e)) + n) 0xFFFFFFFF := by rw [State.regNat_bumpReg_same, hReg]
    by_cases hWhole : d.count ≤ g.pos + n
    · refine ⟨_, hExec.trans (congrArg Host.Outcome.next (hInject.trans (if_pos hWhole))), ?_, ?_, fun hMore => absurd hMore (Nat.not_lt.2 hWhole),
        fun _ => ⟨?_, ?_, ?_⟩⟩
      · rw [State.sendChunk_mem, State.bumpReg_mem, hMem]
      · rw [State.regNat_sendChunk_other hApart.symm, hBytes]
      · rw [State.engine_sendChunk (s := u.bumpReg (fceReg p (0x404 + 16 * e)) n) hLen]
      · rw [State.sendChunk_trams, State.bumpReg_trams, hTrams, hData, hNow]
        rfl
      · rw [State.regNat_sendChunk_same, State.regNat_bumpReg_other _ _ hApart, hReg]
    · refine ⟨_, hExec.trans (congrArg Host.Outcome.next (hInject.trans (if_neg hWhole))), ?_, ?_, fun _ => ⟨?_, ?_, ?_⟩, fun h => absurd h hWhole⟩
      · rw [State.setEngine_mem, State.bumpReg_mem, hMem]
      · exact hBytes
      · rw [State.engine_setEngine_same (u.bumpReg (fceReg p (0x404 + 16 * e)) n) _ hLen]
        rfl
      · rw [State.engine_setEngine_same (u.bumpReg (fceReg p (0x404 + 16 * e)) n) _ hLen]
        exact congrArg (g.pos + ·) (u.memBytes_length a n)
      · rw [State.setEngine_trams, State.bumpReg_trams, hTrams]

end Sys2Proof.Machine
end

section
/-! PROOFS. A dense transaction moves its piece (R24, R30, R274, R275, R279, R297, R334). -/

namespace Sys2Proof.Machine
open Sys2Proof

/-! The next piece and what stands against it read, of the faces, the rings alone. -/

theorem State.locate_of_faces {s t : State} (hSame : s.SameButFaces t) : t.locate = s.locate := by
  have hTranslate : t.translate = s.translate := hSame.keeps State.translate (fun _ _ => rfl)
  funext log write l
  induction l with
  | nil => rfl
  | cons q r ih => rw [State.locate, State.locate, hTranslate, ih]

section
variable {s t : State} (hSame : s.SameButFaces t) (hRings : t.ring = s.ring)
include hSame hRings

theorem State.srcLoc_of_rings : t.srcLoc = s.srcLoc := by
  funext p g d
  have hBuffer : t.bufferAt = s.bufferAt := hSame.keeps State.bufferAt (fun _ _ => rfl)
  have hTranslate : t.translate = s.translate := hSame.keeps State.translate (fun _ _ => rfl)
  unfold State.srcLoc
  rw [hRings, hBuffer, hTranslate]

theorem State.fillLoc_of_rings : t.fillLoc = s.fillLoc := by
  funext p r g d
  have hBuffer : t.bufferAt = s.bufferAt := hSame.keeps State.bufferAt (fun _ _ => rfl)
  have hFace : t.ringFace = s.ringFace := hSame.keeps State.ringFace (fun _ _ => rfl)
  have hRec : t.ringRec = s.ringRec := hSame.keeps State.ringRec (fun _ _ => rfl)
  unfold State.fillLoc State.ringCap State.nextPlace
  rw [hRings, hBuffer, hFace, hRec]

theorem State.dstLoc_of_rings : t.dstLoc = s.dstLoc := by
  funext p g d
  have hTranslate : t.translate = s.translate := hSame.keeps State.translate (fun _ _ => rfl)
  unfold State.dstLoc
  rw [State.fillLoc_of_rings hSame hRings, hTranslate]

theorem State.nextPiece_of_rings : t.nextPiece = s.nextPiece := by
  funext p g d
  have hCut : t.skipCut = s.skipCut := hSame.keeps State.skipCut (fun _ _ => rfl)
  have hLocate : t.locate = s.locate := State.locate_of_faces hSame
  unfold State.nextPiece State.auxPiece
  rw [State.srcLoc_of_rings hSame hRings, State.dstLoc_of_rings hSame hRings, hCut, hLocate]

theorem State.tallyFails_of_rings : t.tallyFails = s.tallyFails := by
  funext p g d n
  have hBuffer : t.bufferAt = s.bufferAt := hSame.keeps State.bufferAt (fun _ _ => rfl)
  have hRead : t.readMem = s.readMem := hSame.keeps State.readMem (fun _ _ => rfl)
  unfold State.tallyFails
  rw [hRings, hBuffer, hRead]

end

/-! The size of a piece. -/

theorem Desc.gather_sum (d : Desc) : ∀ (k i n : Nat), n ≤ k → ((d.gather k i n).map Prod.snd).sum = n := by
  intro k
  induction k with
  | zero =>
    intro i n h
    rw [Nat.le_zero.1 h]
    rfl
  | succ k ih =>
    intro i n h
    unfold Desc.gather
    split
    · next hZero => rw [hZero]; rfl
    · next hSome =>
      have hElem : 0 < d.eb - i % d.eb := Nat.sub_pos_of_lt (Nat.mod_lt _ (Nat.two_pow_pos _))
      have hGran : 0 < granLeft (d.srcAddr i) := Nat.sub_pos_of_lt (Nat.mod_lt _ (by decide))
      dsimp only
      rw [List.map_cons, List.sum_cons, ih _ _ (by omega)]
      omega

theorem State.locate_sum (s : State) (log write : Bool) : ∀ {l m : List (Nat × Nat)}, s.locate log write l = .ok m →
    (m.map Prod.snd).sum = (l.map Prod.snd).sum := by
  intro l
  induction l with
  | nil =>
    intro m h
    cases h
    rfl
  | cons q r ih =>
    intro m h
    unfold State.locate at h
    split at h
    · cases h
    · cases h
    · next a l' _ hRest =>
      cases h
      rw [List.map_cons, List.map_cons, List.sum_cons, List.sum_cons, ih hRest]

/-- A piece's bytes lie within one granule of the destination, and its sources, where it has any, hold as many. -/
def Piece.Fits (q : Piece) : Prop := q.len ≤ granLeft q.dst ∧ (q.src = [] ∨ (q.src.map Prod.snd).sum = q.len)

theorem State.auxPiece_fits {s : State} {p : Nat} {g : Engine} {d : Desc} {o left : Nat} {q : Piece} (h : s.auxPiece p g d o left = .ok q) : q.Fits := by
  unfold State.auxPiece at h
  dsimp only at h
  split at h
  · cases h
  · cases h
  · cases h
    exact ⟨by dsimp only; omega, Or.inr (by simp)⟩

theorem State.nextPiece_fits {s : State} {p : Nat} {g : Engine} {d : Desc} {q : Piece} (h : s.nextPiece p g d = .ok q) : q.Fits := by
  unfold State.nextPiece at h
  dsimp only at h
  split at h
  · exact State.auxPiece_fits h
  · split at h
    · split at h
      · cases h
      · split at h
        · cases h
        · next hLocate =>
          cases h
          refine ⟨?_, Or.inr ((State.locate_sum _ _ _ hLocate).trans (d.gather_sum _ _ _ (Nat.le_refl _)))⟩
          dsimp only
          omega
    · split at h
      · cases h
      · cases h
      · cases h
        exact ⟨by dsimp only; omega, Or.inl rfl⟩
      · cases h
        exact ⟨by dsimp only; omega, Or.inr (by simp)⟩

theorem fillBytes_length (d : Desc) (pos n : Nat) : (fillBytes d pos n).length = n := by
  rw [fillBytes, List.length_map, List.length_range]

/-- Sources below the registers are read without an effect. -/
theorem State.busTake_of_memory (s : State) : ∀ {l : List (Nat × Nat)}, (∀ r ∈ l, r.1 < regBase) → s.busTake l = (l.flatMap (fun r => s.memBytes r.1 r.2), s) := by
  intro l
  induction l with
  | nil => intro _; rfl
  | cons r l ih =>
    intro h
    have hLow : ¬ regBase ≤ r.1 := Nat.not_le.2 (h r List.mem_cons_self)
    unfold State.busTake State.busRead
    rw [if_neg hLow, if_neg hLow, ih (fun x hx => h x (List.mem_cons_of_mem _ hx))]
    rfl

theorem flatMap_memBytes_length (s : State) (l : List (Nat × Nat)) : (l.flatMap (fun r => s.memBytes r.1 r.2)).length = (l.map Prod.snd).sum := by
  simp [List.length_flatMap, State.memBytes_length]

/-- What a bus write below the registers does. -/
theorem State.busWrite_of_memory (s : State) {a : Nat} (b : Bytes) (h : a < regBase) : s.busWrite a b = (s.writeMem a b).untile a b.length :=
  if_neg (Nat.not_le.2 h)

theorem State.untile_same (s : State) (a n : Nat) : s.SameButFaces (s.untile a n) := by
  unfold State.untile
  split
  · exact s.setFace_same ..
  · rfl

theorem State.untile_engines (s : State) (a n k : Nat) : ((s.untile a n).face k).engines = (s.face k).engines := by
  unfold State.untile
  split
  · rw [State.face_setFace]
    split
    · next h => rw [h]
    · rfl
  · rfl

theorem State.setRing_engines (s : State) (p r k : Nat) (v : Ring) : ((s.setRing p r v).face k).engines = (s.face k).engines := by
  rw [State.setRing, State.face_setFace]
  split
  · next h => rw [h]
  · rfl

theorem State.setRing_same (s : State) (p r : Nat) (v : Ring) : s.SameButFaces (s.setRing p r v) := rfl

/-- A transaction whose skip, if it drains one whole, matches its tally: beside the ring being filled it leaves the count and the engine. -/
theorem State.settle_of_tally {s s1 : State} {p e : Nat} {g : Engine} {d : Desc} {cost len drained filled : Nat}
    (hTally : s.tallyFails p g d drained = none) : ∃ s2, s1.SameButFaces s2 ∧ (∀ k, (s2.face k).engines = (s1.face k).engines) ∧
      s.settle s1 p e g d cost len drained filled =
        (s2.bumpReg (fceReg p (0x404 + 16 * e)) len).setEngine p e (g.moved d cost len drained filled) := by
  unfold State.settle
  rw [hTally]
  cases d.dstRing with
  | none => exact ⟨s1, .refl s1, fun _ => rfl, rfl⟩
  | some r =>
    by_cases hGoesOn : g.fill ≠ 0 ∨ filled = 0
    · exact ⟨s1, .refl s1, fun _ => rfl, by simp only [if_pos hGoesOn]⟩
    · exact ⟨s1.setRing (s.ringFace p d) r { s1.ring (s.ringFace p d) r with filling := s.nextPlace (s.ringFace p d) r },
        s1.setRing_same .., fun k => s1.setRing_engines .., by simp only [if_neg hGoesOn]⟩

/-- A dense descriptor at the head, its face at work and its turn there, and more to move: a transaction. -/
theorem State.issue_of_dense {s : State} {p e : Nat} {q : QueuedDesc} {rest : List QueuedDesc} (hQueue : (s.engine p e).queue = q :: rest)
    (hUp : s.faceUp p = true) (hStopped : (s.engine p e).stopped = false) (hErr : (s.engine p e).err = none)
    (hMay : (s.face p).mayIssue s.now = true) (hTurn : s.itsTurn p q.work.ctx q.seq = true)
    (hOp : (parseDesc q.bytes).op ≠ 3) (hMore : (s.engine p e).finished (parseDesc q.bytes) = false) (hDense : (parseDesc q.bytes).staged = false) :
    let d := parseDesc q.bytes
    s.issue p e = (s.atItem p q.work).issueDense p e
      { (s.engine p e).accrue s.now (if d.rateEn then d.share else 0) with key := s.transferKey p q } d := by
  unfold State.issue
  simp [hQueue, hUp, hStopped, hErr, hMay, hTurn, hOp, hMore, hDense]

/-- A piece with nothing in its way is moved. -/
theorem State.issueDense_of_free {s : State} {p e : Nat} {g : Engine} {d : Desc} {q : Piece} (hPiece : s.nextPiece p g d = .ok q)
    (hFirst : s.pieceBehind p e q = false) (hCredit : d.rateEn = true → 256 * q.len ≤ g.credit) (hSound : s.runError false q.src = none)
    (hClean : s.poisonAt q.src = none) (hHeld : s.discarded (d.dstLog && (!q.aux || d.dstRing.isSome)) q.dst = false)
    (hAccess : s.accessError q.dst q.len true = none) :
    s.issueDense p e g d = s.movePiece (s.busTake q.src).2 p e g d (if q.src = [] then fillBytes d g.pos q.len else (s.busTake q.src).1) q := by
  have hEnough : (d.rateEn && decide (g.credit < 256 * q.len)) = false := by
    cases hRate : d.rateEn with
    | false => rfl
    | true => simpa using hCredit hRate
  unfold State.issueDense State.issuePiece State.whenReads
  simp [hPiece, hFirst, hEnough, hSound, hClean, hHeld, hAccess]

theorem spGets_getElem {α : Type} (d : α) (m : List (Nat × α)) (n : Nat) : ∀ (a i : Nat) (h : i < (spGets d m a n).length),
    (spGets d m a n)[i] = spGet d m (a + i) := by
  induction n with
  | zero => intro a i h; cases h
  | succ n ih =>
    intro a i h
    cases i with
    | zero => rfl
    | succ i => exact (ih (a + 1) i (Nat.lt_of_succ_lt_succ h)).trans (by rw [Nat.add_assoc, Nat.add_comm 1])

theorem State.readMem_writeMem_same (s : State) (a : Nat) (b : Bytes) : (s.writeMem a b).readMem a b.length = b := by
  refine List.ext_getElem (State.readMem_length ..) fun i _ hi => (spGets_getElem ..).trans ?_
  rw [State.writeMem, spGet_spPuts_inside _ _ _ _ _ hi]
  exact (List.getElem_eq_getD _).symm

/-- Settles O32: the piece is in one granule, its bytes are those of its sources, and the write puts them at the destination alone. -/
theorem transactionMovesItsPiece : Obligations.TransactionMovesItsPiece := by
  unfold Obligations.TransactionMovesItsPiece
  intro s p e qd rest q hFace hSix hUp hQueue hStopped hErr hMay hTurn d g hOp hMore hDense hPiece hFirst hCredit hSound hClean hLow hTally hHeld
    hAccess hDst
  obtain ⟨hGran, hSrc⟩ := State.nextPiece_fits hPiece
  unfold granLeft at hGran
  refine ⟨by omega, by omega, ?_⟩
  let u := s.atItem p qd.work
  have hSame : s.SameButFaces u := s.atItem_same p qd.work
  have hRings : u.ring = s.ring := by
    funext k r
    rw [State.ring, State.face_atItem, State.ring]
  have hEpochs : ∀ k, (u.face k).epoch = (s.face k).epoch := fun k => by rw [State.face_atItem]
  have hTiles : ∀ k, (u.face k).zeroTiles = (s.face k).zeroTiles := fun k => by rw [State.face_atItem]
  have hBytes : ∀ a n, u.memBytes a n = s.memBytes a n := State.memBytes_of_tiles hSame hTiles
  let data := if q.src = [] then fillBytes d g.pos q.len else q.src.flatMap (fun r => s.memBytes r.1 r.2)
  have hLen : data.length = q.len := by
    by_cases hNone : q.src = []
    · simp only [data, if_pos hNone, fillBytes_length]
    · simp only [data, if_neg hNone, flatMap_memBytes_length]
      exact hSrc.resolve_left hNone
  have hIssue : s.issue p e = u.movePiece u p e g d data q := by
    have hTake : u.busTake q.src = (q.src.flatMap (fun r => s.memBytes r.1 r.2), u) := by
      rw [State.busTake_of_memory u hLow]
      simp only [hBytes]
    have hHeld' : u.discarded (d.dstLog && (!q.aux || d.dstRing.isSome)) q.dst = false := by
      rw [← hHeld, State.discarded, State.face_atItem, State.discarded]
    have hFirst' : u.pieceBehind p e q = false := (hSame.keeps (fun u => u.pieceBehind p e q) (fun _ _ => rfl)).trans hFirst
    have hClean' : u.poisonAt q.src = none := hClean
    rw [State.issue_of_dense hQueue hUp hStopped hErr hMay hTurn hOp hMore hDense,
      State.issueDense_of_free (q := q) ((congrFun (congrFun (congrFun (State.nextPiece_of_rings hSame hRings) p) g) d).trans hPiece) hFirst' hCredit
        ((State.runError_of_epochs hSame hEpochs ..).trans hSound) hClean' hHeld' ((State.accessError_of_epochs hSame hEpochs ..).trans hAccess), hTake]
  obtain ⟨v, hWritten, hEngines, hSettle⟩ := State.settle_of_tally (s := u) (s1 := u.busWrite q.dst data) (p := p) (e := e)
    (g := { g with auxPos := if q.aux then g.auxPos + data.length else g.auxPos }) (d := d) (cost := data.length) (len := data.length)
    (drained := if d.op = 2 then 0 else ifRing d.srcRing data.length) (filled := ifRing d.dstRing data.length)
    (by rw [State.tallyFails_of_rings hSame hRings, hLen]; exact hTally)
  let w := (v.bumpReg (fceReg p (0x404 + 16 * e)) data.length).setEngine p e ((({ g with
    auxPos := if q.aux then g.auxPos + data.length else g.auxPos } : Engine)).moved d data.length data.length
      (if d.op = 2 then 0 else ifRing d.srcRing data.length) (ifRing d.dstRing data.length))
  have hMoved : s.issue p e = w := hIssue.trans hSettle
  have hBus : u.busWrite q.dst data = (u.writeMem q.dst data).untile q.dst data.length := u.busWrite_of_memory data hDst
  have hKeeps : (u.writeMem q.dst data).SameButFaces v := by
    rw [hBus] at hWritten
    exact (State.untile_same ..).trans hWritten
  have hMem : w.mem = (u.writeMem q.dst data).mem := hKeeps.keeps State.mem (fun _ _ => rfl)
  have hRegs : v.reg = s.reg := (hKeeps.keeps State.reg (fun _ _ => rfl)).trans (hSame.keeps State.reg (fun _ _ => rfl))
  have hEngine : e < (v.face p).engines.length := by
    rw [hEngines, hBus, State.untile_engines]
    show e < (u.face p).engines.length
    rw [State.face_atItem]
    exact State.lt_engines_of_queue hQueue
  have hAt : w.engine p e = _ := State.engine_setEngine_same (v.bumpReg (fceReg p (0x404 + 16 * e)) data.length) _ hEngine
  have hExec : exec (.transactionIssue p e) s = .next w := by
    have hReads : w.badReads = s.badReads :=
      (hKeeps.keeps State.badReads (fun _ _ => rfl)).trans (hSame.keeps State.badReads (fun _ _ => rfl))
    rw [exec_transactionIssue, execTransactionIssue, when_true (by rw [hFace, decide_eq_true hSix]; rfl), hMoved, ← hReads, State.declareReads_self]
  refine ⟨w, hExec, ?_, fun a hOut => ?_, ?_, ?_, ?_, fun a ha => ?_⟩
  · have hRead := State.readMem_writeMem_same u q.dst data
    rw [hLen] at hRead
    rw [State.readMem, hMem]
    exact hRead
  · rw [State.readByte, hMem]
    exact State.readByte_writeMem_outside u q.dst a data (by omega)
  · rw [hAt, ← hLen]
    rfl
  · rw [hAt]
    rfl
  · exact (State.regNat_bumpReg_same v _ _).trans (by rw [hLen, State.regNat, hRegs, State.regNat])
  · exact (State.reg_bumpReg_other v _ ha).trans (congrFun hRegs a)

end Sys2Proof.Machine
end

section
/-! PROOFS. Fused stage commands (R257, R289) and bus errors (R287, R297). -/

namespace Sys2Proof.Machine
open Sys2Proof

/-! The steps of a fused stage command. -/

theorem State.each_nil {β : Type} (s : State) (f : State → β → State) : s.each [] f = s := rfl
theorem State.each_cons {β : Type} (s : State) (b : β) (l : List β) (f : State → β → State) : s.each (b :: l) f = (f s b).each l f := rfl

section
variable (p : Nat) (work : Work) (layer : Nat)

theorem State.queueSteps_same (s : State) (l : List FusedStep) : s.SameButFaces (s.queueSteps p work layer l) :=
  State.each_rel State.SameButFaces State.SameButFaces.refl (fun _ _ _ h k => h.trans k) l _ (fun t st => by
    split
    · exact t.queueDesc_same ..
    · rfl)

theorem State.face_queueSteps_other {k : Nat} (h : k ≠ p) (l : List FusedStep) : ∀ s : State, (s.queueSteps p work layer l).face k = s.face k := by
  induction l with
  | nil => intro s; rfl
  | cons st l ih =>
    intro s
    refine (ih _).trans ?_
    dsimp only
    split
    · exact s.face_queueDesc_other p _ _ _ _ h
    · rfl

theorem State.fused_queueSteps (l : List FusedStep) : ∀ s : State, ((s.queueSteps p work layer l).face p).fused = (s.face p).fused := by
  induction l with
  | nil => intro s; rfl
  | cons st l ih =>
    intro s
    refine (ih _).trans ?_
    dsimp only
    split
    · rw [State.face_queueDesc]
    · rfl

/-- Each engine takes the descriptors of its own steps, in their order. -/
theorem State.offsets_queueSteps {k : Nat} (hSix : k < 6) (l : List FusedStep) : ∀ s : State, k < (s.face p).engines.length →
    ((s.queueSteps p work layer l).engine p k).queue.map (fun q => q.offset) =
      (s.engine p k).queue.map (fun q => q.offset) ++ (l.filter (fun st => st.engine == k)).map (fun st => st.ptr) := by
  induction l with
  | nil => intro s _; simp [State.queueSteps, State.each_nil]
  | cons st l ih =>
    intro s hEngine
    have hRest := ih (if st.engine < 6 then s.queueDesc p st.engine st.ptr layer work else s) (by
      split
      · rw [State.face_queueDesc]
        simpa using hEngine
      · exact hEngine)
    refine hRest.trans ?_
    by_cases hOwn : st.engine = k
    · rw [hOwn, if_pos hSix, s.engine_queueDesc p k _ _ _ hEngine]
      simp [hOwn, State.newDesc]
    · have hOther : (if st.engine < 6 then s.queueDesc p st.engine st.ptr layer work else s).engine p k = s.engine p k := by
        split
        · exact s.engine_queueDesc_other p _ _ _ _ (Ne.symm hOwn)
        · rfl
      rw [hOther, List.filter_cons_of_neg (by simpa using hOwn)]

end

/-- Settles O36: the command completes at once, or its steps are queued behind what the engines hold. -/
theorem fusedStageStarts : Obligations.FusedStageStarts := by
  unfold Obligations.FusedStageStarts
  intro s p off work hFace hRuns hFree hOpen hFits hNone b hSound hSteps
  have hExec : exec (.fusedStageCommand p off work) s = .next (if fusedSkips b = 0 then s.bumpCtr p (fusedCtr b)
      else (s.setFace p { s.face p with
        fused := some { bytes := b, drained := 0, work := work, seq := (s.face p).workSeq, offset := off }, gated := false, lastWork := s.now,
        workSeq := (s.face p).workSeq + 1 }).queueSteps p work (s.fusedLayer p (fusedList b)) (fusedList b)) := by
    refine when_true ?_ _ _
    simp [hFace, hRuns, hFree, hOpen, hFits, hNone, hSound, hSteps, b]
  refine ⟨fun hEmpty => hExec.trans (congrArg Host.Outcome.next (if_pos hEmpty)), fun hSome => ?_⟩
  refine ⟨_, hExec.trans (congrArg Host.Outcome.next (if_neg hSome)), ?_, fun k hEngine hSix => ?_, fun j hj => ?_, ?_⟩
  · rw [State.fused_queueSteps, State.face_setFace, if_pos rfl]
  · rw [State.offsets_queueSteps p work _ hSix]
    · rw [State.engine, State.face_setFace, if_pos rfl, State.engine]
    · rw [State.face_setFace, if_pos rfl]
      exact hEngine
  · rw [State.face_queueSteps_other _ _ _ hj, State.face_setFace_other _ _ hj]
  · exact (s.setFace_same p _).trans (State.queueSteps_same ..)

/-! What raising an event leaves as it was. -/

/-- t differs from s at most by events raised: in what is recorded and sent, in the owners an event of class 1 contains, and of the registers
in those of the log. -/
def State.Raised (s t : State) : Prop :=
  { t with events := s.events, regs := s.regs, rot := s.rot, ctrl := s.ctrl, outbox := s.outbox, sessions := s.sessions, jobs := s.jobs } = s ∧
    ∀ a, a ≠ cmdReg 0x860 → a ≠ cmdReg 0x864 → t.reg a = s.reg a

theorem State.Raised.refl (s : State) : s.Raised s := ⟨rfl, fun _ _ _ => rfl⟩

theorem State.Raised.trans {s t u : State} (h : s.Raised t) (k : t.Raised u) : s.Raised u := by
  obtain ⟨hRest, hRegs⟩ := h
  obtain ⟨kRest, kRegs⟩ := k
  refine ⟨?_, fun a h1 h2 => (kRegs a h1 h2).trans (hRegs a h1 h2)⟩
  rw [← hRest, ← kRest]

/-- What events do not touch. -/
theorem State.Raised.keeps {s t : State} {γ : Type} (h : s.Raised t) (q : State → γ)
    (hq : ∀ (u : State) e g r c o x j, q { u with events := e, regs := g, rot := r, ctrl := c, outbox := o, sessions := x, jobs := j } = q u) :
    q t = q s := by
  have hEq := congrArg q h.1
  rwa [hq] at hEq

theorem State.SameButControl.raised {s t : State} (h : s.SameButControl t) : s.Raised t := by
  refine ⟨?_, fun a _ _ => h.keeps (fun u => u.reg a) (fun _ _ _ => rfl)⟩
  rw [← h]

theorem State.Raised.each {β : Type} {s : State} (l : List β) (f : State → β → State) (hf : ∀ (t : State) b, t.Raised (f t b)) :
    s.Raised (s.each l f) :=
  State.each_rel State.Raised State.Raised.refl (fun _ _ _ h k => h.trans k) l f hf

theorem State.Raised.ite {s a b : State} {c : Prop} [Decidable c] (ha : s.Raised a) (hb : s.Raised b) : s.Raised (if c then a else b) := by
  split
  · exact ha
  · exact hb

theorem State.countEvent_raised (s : State) (code : Nat) : s.Raised (s.countEvent code) := ⟨rfl, fun _ _ _ => rfl⟩

theorem State.events_raised (s : State) (l : EventLog) : s.Raised { s with events := l } := ⟨rfl, fun _ _ _ => rfl⟩

theorem State.setRegNat_log_raised (s : State) (v : Nat) : s.Raised (s.setRegNat (cmdReg 0x860) v) :=
  ⟨rfl, fun _ h _ => by rw [State.setRegNat, State.reg_setReg, if_neg h]⟩

theorem State.bumpReg_log_raised (s : State) (n : Nat) : s.Raised (s.bumpReg (cmdReg 0x864) n) :=
  ⟨rfl, fun _ _ h => s.reg_bumpReg_other n h⟩

theorem State.writeLog_raised (s : State) (e : EventRec) : s.Raised (s.writeLog e) :=
  (s.events_raised _).trans (State.setRegNat_log_raised ..)

theorem State.alert_raised (s : State) (e : EventRec) : s.Raised (s.alert e) := by
  unfold State.alert
  dsimp only
  split <;> exact ⟨rfl, fun _ _ _ => rfl⟩

theorem State.eventFrames_raised (s : State) (e : EventRec) : s.Raised (s.eventFrames e) :=
  .ite (.each _ _ (fun _ _ => (State.sendCtrl_same ..).raised)) (.refl s)

theorem State.logEvent_raised (s : State) (e : EventRec) : s.Raised (s.logEvent e) := by
  have hRecord : s.Raised (if s.events.suppressed e then (s.countEvent e.code).bumpReg (cmdReg 0x0864) 1
      else (s.countEvent e.code).writeLog e) :=
    .ite ((s.countEvent_raised e.code).trans (State.bumpReg_log_raised ..)) ((s.countEvent_raised e.code).trans (State.writeLog_raised ..))
  exact (State.Raised.ite (hRecord.trans (State.alert_raised _ e)) hRecord).trans (State.eventFrames_raised _ e)

theorem State.setSes_raised (s : State) (id : Nat) (x : Session) : s.Raised (s.setSes id x) := ⟨rfl, fun _ _ _ => rfl⟩

theorem State.faultJob_raised (s : State) (id code : Nat) : s.Raised (s.faultJob id code) := by
  unfold State.faultJob
  split
  · exact .ite ⟨rfl, fun _ _ _ => rfl⟩ (.refl s)
  · exact .refl s

theorem State.containClass_raised (s : State) (code : Nat) (owner : Option Ctx) : s.Raised (s.containClass code owner) := by
  unfold State.containClass
  split
  · exact .ite (.refl s) (s.setSes_raised ..)
  · exact s.faultJob_raised ..
  · exact .refl s

theorem State.raise_raised (s : State) (code cls origin level face : Nat) (owner : Option Ctx) (d0 d1 : Nat) :
    s.Raised (s.raise code cls origin level face owner d0 d1) :=
  .ite ((State.logEvent_raised ..).trans (State.containClass_raised ..)) (State.logEvent_raised ..)

/-! The engines that have met an error, the one that erred first before the others. -/

/-- Engine a of face p erred before engine b, or at its time and is the lower-numbered. -/
def State.ErredBefore (s : State) (p a b : Nat) : Prop :=
  (s.engine p a).errAt < (s.engine p b).errAt ∨ ((s.engine p a).errAt = (s.engine p b).errAt ∧ a < b)

/-- Engine k comes after engine e in the order of their errors: the later of the two erred later. -/
def State.errsLate (s : State) (p k e : Nat) : Bool := decide ((s.engine p e).errAt < (s.engine p k).errAt)

theorem State.erring_eq (s : State) (p : Nat) : s.erring p = ((List.range 6).filter (fun e => (s.engine p e).err.isSome)).foldl
    (fun l e => l.filter (fun k => !s.errsLate p k e) ++ e :: l.filter (fun k => s.errsLate p k e)) [] := rfl

/-- One engine more, of a higher number than those before it, takes its place. -/
theorem State.erring_insert (s : State) (p e : Nat) {l : List Nat} (hOrder : l.Pairwise (s.ErredBefore p)) (hLow : ∀ k ∈ l, k < e) :
    (l.filter (fun k => !s.errsLate p k e) ++ e :: l.filter (fun k => s.errsLate p k e)).Pairwise (s.ErredBefore p) ∧
    (l.filter (fun k => !s.errsLate p k e) ++ e :: l.filter (fun k => s.errsLate p k e)).Perm (e :: l) := by
  constructor
  · refine List.pairwise_append.2 ⟨hOrder.filter _, List.pairwise_cons.2 ⟨fun k hk => ?_, hOrder.filter _⟩, fun a ha b hb => ?_⟩
    · exact Or.inl (by simpa [State.errsLate] using (List.mem_filter.1 hk).2)
    · obtain ⟨hMem, hEarly⟩ := List.mem_filter.1 ha
      have hA : (s.engine p a).errAt ≤ (s.engine p e).errAt := by simpa [State.errsLate] using hEarly
      rcases List.mem_cons.1 hb with rfl | hb
      · have hNumber := hLow a hMem
        unfold State.ErredBefore
        omega
      · have hB : (s.engine p e).errAt < (s.engine p b).errAt := by simpa [State.errsLate] using (List.mem_filter.1 hb).2
        exact Or.inl (by omega)
  · refine List.perm_middle.trans (List.Perm.cons e ?_)
    exact (List.perm_append_comm).trans (List.filter_append_perm (fun k => s.errsLate p k e) l)

theorem State.erring_fold (s : State) (p : Nat) (l : List Nat) : ∀ acc : List Nat, l.Pairwise (· < ·) → (∀ k ∈ acc, ∀ e ∈ l, k < e) →
    acc.Pairwise (s.ErredBefore p) →
    let r := l.foldl (fun l e => l.filter (fun k => !s.errsLate p k e) ++ e :: l.filter (fun k => s.errsLate p k e)) acc
    r.Pairwise (s.ErredBefore p) ∧ r.Perm (acc ++ l) := by
  induction l with
  | nil => intro acc _ _ h; exact ⟨h, by simp⟩
  | cons e l ih =>
    intro acc hRise hLow hOrder
    obtain ⟨hFirst, hRise⟩ := List.pairwise_cons.1 hRise
    obtain ⟨hInserted, hPerm⟩ := s.erring_insert p e hOrder (fun k hk => hLow k hk e List.mem_cons_self)
    obtain ⟨hAll, hAllPerm⟩ := ih _ hRise (fun k hk j hj => by
      rcases List.mem_cons.1 (hPerm.mem_iff.1 hk) with rfl | hOld
      · exact hFirst j hj
      · exact hLow k hOld j (List.mem_cons_of_mem _ hj)) hInserted
    exact ⟨hAll, hAllPerm.trans ((hPerm.append_right l).trans List.perm_middle.symm)⟩

theorem State.erring_spec (s : State) (p : Nat) : (s.erring p).Pairwise (s.ErredBefore p) ∧
    (s.erring p).Perm ((List.range 6).filter (fun e => (s.engine p e).err.isSome)) :=
  s.erring_fold p _ [] ((List.pairwise_lt_range).filter _) (fun _ hk => by cases hk) .nil

/-- The engine that no other erred before comes first. -/
theorem State.erring_head {s : State} {p e : Nat} (hSix : e < 6) (hErr : (s.engine p e).err.isSome = true)
    (hFirst : ∀ j, j < 6 → (s.engine p j).err.isSome = true →
      (s.engine p e).errAt < (s.engine p j).errAt ∨ ((s.engine p e).errAt = (s.engine p j).errAt ∧ e ≤ j)) :
    ∃ l, s.erring p = e :: l := by
  obtain ⟨hOrder, hPerm⟩ := s.erring_spec p
  have hMem : e ∈ s.erring p := hPerm.mem_iff.2 (List.mem_filter.2 ⟨List.mem_range.2 hSix, hErr⟩)
  cases hList : s.erring p with
  | nil => rw [hList] at hMem; cases hMem
  | cons h l =>
    rw [hList] at hOrder hMem hPerm
    rcases List.mem_cons.1 hMem with rfl | hLater
    · exact ⟨l, rfl⟩
    · have hBefore := (List.pairwise_cons.1 hOrder).1 e hLater
      obtain ⟨hRange, hHead⟩ := List.mem_filter.1 (hPerm.mem_iff.1 (List.mem_cons_self (a := h) (l := l)))
      have hNotLater := hFirst h (List.mem_range.1 hRange) hHead
      unfold State.ErredBefore at hBefore
      omega

/-! One bus error noted (R297). -/

theorem fceReg_ne_cmdReg {p o o' : Nat} (h : o' < 0x1000000) : fceReg p o ≠ cmdReg o' := by
  unfold fceReg cmdReg
  omega

theorem fceReg_ne {p o o' : Nat} (h : o ≠ o') : fceReg p o ≠ fceReg p o' := by
  unfold fceReg
  omega

/-- Raised events leave a face's registers. -/
theorem State.Raised.fceReg {s t : State} (h : s.Raised t) (p o : Nat) : t.reg (fceReg p o) = s.reg (fceReg p o) :=
  h.2 _ (fceReg_ne_cmdReg (by decide)) (fceReg_ne_cmdReg (by decide))

/-- The first word of the record of engine e's error of a KIND. -/
def busWord (e kind : Nat) : Nat := e + kind * 16 + 2 ^ 31

theorem busWord_bounds {e k : Nat} (hSix : e < 6) (hKind : k < 8) : busWord e k % 2 ^ 32 = busWord e k ∧ bits (busWord e k) 31 1 = 1 := by
  unfold bits busWord
  omega

section
variable (s : State) (p e : Nat)

/-- Where VALID is 1 the error is counted as missed, and nothing else but an event comes of it. -/
theorem State.noteBus_of_valid (h : s.field (fceReg p 0x500) 31 1 = 1) : (s.bumpReg (fceReg p 0x510) 1).Raised (s.noteBus p e) := by
  unfold State.noteBus
  dsimp only
  rw [if_pos h]
  exact State.raise_raised ..

/-- Where VALID is 0 the record takes the error. -/
theorem State.noteBus_of_free (h : s.field (fceReg p 0x500) 31 1 = 0) {er : Nat × Nat} (hErr : (s.engine p e).err = some er) :
    ∃ w2 w3, ((((s.setRegNat (fceReg p 0x500) (busWord e er.1)).setRegNat (fceReg p 0x504) er.2).setRegNat (fceReg p 0x508) w2).setRegNat
      (fceReg p 0x50C) w3).Raised (s.noteBus p e) := by
  unfold State.noteBus
  dsimp only
  rw [if_neg (by omega), hErr]
  exact ⟨_, _, State.raise_raised ..⟩

end

/-- The bus errors after the first are counted as missed, up to the counter's limit. -/
theorem State.each_noteBus_of_valid (p : Nat) (l : List Nat) : ∀ s : State, s.field (fceReg p 0x500) 31 1 = 1 →
    let t := s.each l (fun s k => s.noteBus p k)
    t.reg (fceReg p 0x500) = s.reg (fceReg p 0x500) ∧ t.reg (fceReg p 0x504) = s.reg (fceReg p 0x504) ∧
      t.regNat (fceReg p 0x510) = min (s.regNat (fceReg p 0x510) + l.length) 0xFFFFFFFF ∧ t.faces = s.faces ∧ t.mem = s.mem := by
  induction l with
  | nil =>
    intro s _
    have hWord : s.regNat (fceReg p 0x510) < 2 ^ 32 := BitVec.isLt _
    refine ⟨rfl, rfl, ?_, rfl, rfl⟩
    show s.regNat (fceReg p 0x510) = _
    rw [List.length_nil]
    omega
  | cons e l ih =>
    intro s hValid
    have hRaised := s.noteBus_of_valid p e hValid
    have hReg : ∀ o, o ≠ 0x510 → (s.noteBus p e).reg (fceReg p o) = s.reg (fceReg p o) := fun o ho =>
      (hRaised.fceReg p o).trans (s.reg_bumpReg_other 1 (fceReg_ne ho))
    obtain ⟨h0, h4, hMissed, hFaces, hMem⟩ := ih (s.noteBus p e) (by rw [State.field, State.regNat, hReg _ (by decide)]; exact hValid)
    refine ⟨h0.trans (hReg _ (by decide)), h4.trans (hReg _ (by decide)), hMissed.trans ?_,
      hFaces.trans ((hRaised.keeps State.faces (fun _ _ _ _ _ _ _ _ => rfl)).trans (s.bumpReg_faces ..)),
      hMem.trans ((hRaised.keeps State.mem (fun _ _ _ _ _ _ _ _ => rfl)).trans (s.bumpReg_mem ..))⟩
    rw [State.regNat, hRaised.fceReg p 0x510, ← State.regNat, State.regNat_bumpReg_same, List.length_cons]
    omega

/-- What the errors of one step leave: the record takes the first where it is free, and the rest are counted. -/
theorem State.each_noteBus_of_free {s : State} {p e : Nat} {er : Nat × Nat} (l : List Nat) (hFree : s.field (fceReg p 0x500) 31 1 = 0)
    (hErr : (s.engine p e).err = some er) (hSix : e < 6) (hKind : er.1 < 8) :
    let t := (s.noteBus p e).each l (fun s k => s.noteBus p k)
    t.regNat (fceReg p 0x500) = busWord e er.1 ∧ t.reg (fceReg p 0x504) = BitVec.ofNat 32 er.2 ∧
      t.regNat (fceReg p 0x510) = min (s.regNat (fceReg p 0x510) + l.length) 0xFFFFFFFF ∧ t.faces = s.faces ∧ t.mem = s.mem := by
  obtain ⟨w2, w3, hRaised⟩ := s.noteBus_of_free p e hFree hErr
  have h0 : (s.noteBus p e).regNat (fceReg p 0x500) = busWord e er.1 := by
    rw [State.regNat, hRaised.fceReg p 0x500]
    simp only [State.setRegNat, State.reg_setReg]
    rw [if_neg (fceReg_ne (by decide)), if_neg (fceReg_ne (by decide)), if_neg (fceReg_ne (by decide)), if_true, BitVec.toNat_ofNat,
      (busWord_bounds hSix hKind).1]
  have h4 : (s.noteBus p e).reg (fceReg p 0x504) = BitVec.ofNat 32 er.2 := by
    rw [hRaised.fceReg p 0x504]
    simp [State.setRegNat, fceReg_ne]
  have h10 : (s.noteBus p e).regNat (fceReg p 0x510) = s.regNat (fceReg p 0x510) := by
    rw [State.regNat, hRaised.fceReg p 0x510]
    simp [State.setRegNat, fceReg_ne, State.regNat]
  have hValid : (s.noteBus p e).field (fceReg p 0x500) 31 1 = 1 := by
    rw [State.field, h0, (busWord_bounds hSix hKind).2]
  obtain ⟨k0, k4, k10, hFaces, hMem⟩ := State.each_noteBus_of_valid p l (s.noteBus p e) hValid
  exact ⟨by rw [State.regNat, k0, ← State.regNat, h0], k4.trans h4, k10.trans (by rw [h10]),
    hFaces.trans ((hRaised.keeps State.faces (fun _ _ _ _ _ _ _ _ => rfl)).trans (by rw [State.setRegNat_faces, State.setRegNat_faces, State.setRegNat_faces, State.setRegNat_faces])),
    hMem.trans ((hRaised.keeps State.mem (fun _ _ _ _ _ _ _ _ => rfl)).trans (by rw [State.setRegNat_mem, State.setRegNat_mem, State.setRegNat_mem, State.setRegNat_mem]))⟩

/-- An engine as its face stops. -/
def Engine.halted (g : Engine) : Engine :=
  { g with stopped := true, status := if g.err.isSome then 1 else if g.queue.isEmpty then g.status else 2 }

theorem State.face_stopFace (s : State) (p : Nat) (owner : Option Ctx) : (s.stopFace p owner).face p =
    { s.face p with stopped := true, stageStop := true, stopWork := owner, engines := (s.face p).engines.map Engine.halted } :=
  (State.face_setFace ..).trans (if_pos rfl)

theorem State.face_stopFace_other (s : State) {p j : Nat} (owner : Option Ctx) (h : j ≠ p) : (s.stopFace p owner).face j = s.face j :=
  s.face_setFace_other _ h

/-- Settles O35: the face stops for the first error's work, and the errors are noted in their order. -/
theorem busErrorStopsTheFace : Obligations.BusErrorStopsTheFace := by
  unfold Obligations.BusErrorStopsTheFace
  intro s p e k er hFace hUp hAny hSix hErr hKind hFirst n
  obtain ⟨l, hErring⟩ := State.erring_head hSix (by rw [hErr]; rfl) hFirst
  let u := s.stopFace p ((s.engine p e).queue.head?.map (fun q => q.work.ctx))
  have hExec : exec (.busError p k) s = .next ((u.noteBus p e).each l (fun s k => s.noteBus p k)) := by
    refine (when_true (by rw [hFace, hUp, hAny]; rfl) _ _).trans (congrArg Host.Outcome.next ?_)
    rw [State.busError, hErring]
    exact State.each_cons ..
  have hCount : n = l.length + 1 := by
    have hLen := (s.erring_spec p).2.length_eq
    rw [hErring, ← List.countP_eq_length_filter] at hLen
    exact hLen.symm
  have hSame : s.SameButFaces u := s.setFace_same p _
  have hEngine : (u.engine p e).err = some er := by
    have hIn : e < (s.face p).engines.length := by
      by_contra hOut
      rw [State.engine, List.getD_eq_default _ _ (Nat.le_of_not_lt hOut)] at hErr
      cases hErr
    rw [State.engine, List.getD_eq_getElem _ _ hIn] at hErr
    rw [State.engine, State.face_stopFace, List.getD_eq_getElem _ _ (by simpa using hIn), List.getElem_map]
    exact hErr
  have hField : u.field (fceReg p 0x500) 31 1 = s.field (fceReg p 0x500) 31 1 := hSame.keeps (fun u => u.field (fceReg p 0x500) 31 1) (fun _ _ => rfl)
  have hReg : ∀ a, u.reg a = s.reg a := fun a => hSame.keeps (fun u => u.reg a) (fun _ _ => rfl)
  have hFaces : ((u.noteBus p e).each l (fun s k => s.noteBus p k)).faces = u.faces ∧
      ((u.noteBus p e).each l (fun s k => s.noteBus p k)).mem = u.mem := by
    have hBit : u.field (fceReg p 0x500) 31 1 = 0 ∨ u.field (fceReg p 0x500) 31 1 = 1 := by
      unfold State.field bits
      omega
    rcases hBit with hFree | hValid
    · obtain ⟨-, -, -, h⟩ := State.each_noteBus_of_free l hFree hEngine hSix hKind
      exact h
    · obtain ⟨-, -, -, h⟩ := State.each_noteBus_of_valid p (e :: l) u hValid
      exact h
  have hFace' : ∀ j, ((u.noteBus p e).each l (fun s k => s.noteBus p k)).face j = u.face j := fun j => by rw [State.face, hFaces.1, State.face]
  refine ⟨_, hExec, ?_, ?_, ?_, ?_, fun j hj => ?_, ?_, fun hFree => ?_, fun hValid => ?_⟩
  · rw [hFace', State.face_stopFace]
  · rw [hFace', State.face_stopFace]
  · rw [hFace', State.face_stopFace]
  · rw [hFace', State.face_stopFace]
    intro g hg
    obtain ⟨g', -, rfl⟩ := List.mem_map.1 hg
    rfl
  · rw [hFace', State.face_stopFace_other _ _ hj]
  · exact hFaces.2.trans (hSame.keeps State.mem (fun _ _ => rfl))
  · obtain ⟨h0, h4, h10, -, -⟩ := State.each_noteBus_of_free l (hField.trans hFree) hEngine hSix hKind
    refine ⟨h0.trans ?_, h4, h10.trans ?_⟩
    · unfold busWord
      omega
    · rw [State.regNat, hReg, hCount, Nat.add_sub_cancel, State.regNat]
  · obtain ⟨h0, -, h10, -, -⟩ := State.each_noteBus_of_valid p (e :: l) u (hField.trans hValid)
    exact ⟨h0.trans (hReg _), h10.trans (by rw [State.regNat, hReg, hCount, List.length_cons, State.regNat])⟩

end Sys2Proof.Machine
end

section
/-! PROOFS. Musters (R291, R292) and idle faces (R393). -/

namespace Sys2Proof.Machine
open Sys2Proof

/-! An arrival. -/

section
variable {s : State} {scope unit id : Nat} {w : MusterWait}

/-- The first face of a scope and identifier opens the muster. -/
theorem State.arriveAt_of_none (h : s.musters.any (sameMuster scope unit id) = false) :
    s.arriveAt scope unit id w = { s with musters := s.musters ++ [s.openMuster scope unit id w] } :=
  if_neg (Bool.eq_false_iff.1 h)

/-- A further face meets the muster that is open. -/
theorem State.arriveAt_of_single {m : MusterState} (h : s.musters = [m]) (hSame : sameMuster scope unit id m = true) :
    s.arriveAt scope unit id w = { s with musters := [m.meet w s.now] } := by
  unfold State.arriveAt
  simp [h, hSame]

theorem MusterState.meet_arrives {m : MusterState} {now : Nat} (hNew : m.arrived.contains w.face = false) (hOpen : m.arrived.length < m.parts) :
    m.meet w now = { m with arrived := m.arrived ++ [w.face], lastAt := now } := by
  unfold MusterState.meet
  simp_all

theorem MusterState.meet_waits {m : MusterState} {now : Nat} (h : m.arrived.contains w.face = true ∨ m.parts ≤ m.arrived.length) :
    m.meet w now = { m with waiting := m.waiting ++ [w] } := by
  unfold MusterState.meet
  simp_all

end

theorem sameMuster_self (m : MusterState) : sameMuster m.scope m.unit m.id m = true := by
  simp [sameMuster]

/-- A face at a muster is held. -/
theorem State.faceHeld_of_muster {s : State} {p lf : Nat} {m : MusterState} (hMuster : m ∈ s.musters) (hFace : s.logicalOf p = some lf)
    (hThere : lf ∈ m.arrived ∨ ∃ w ∈ m.waiting, w.face = lf) : s.faceHeld p = true := by
  have hAt : s.atMuster p = true := by
    refine List.any_eq_true.2 ⟨m, hMuster, ?_⟩
    rw [hFace]
    rcases hThere with h | ⟨w, hw, rfl⟩
    · simp [h]
    · simp only [Option.any_some, Bool.or_eq_true, List.any_eq_true, beq_iff_eq]
      exact Or.inr ⟨w, hw, rfl⟩
  rw [State.faceHeld, hAt, Bool.true_or]

/-- The state once its one muster is released: a release after the deadline is counted (R292). -/
def State.released (s : State) (m : MusterState) : State :=
  if m.deadline < s.releaseTick m then ({ s with musters := [] } : State).bumpReg (lvlReg (musterLevel m) 0x620) 1 else { s with musters := [] }

theorem State.released_of_late {s : State} {m : MusterState} (h : m.deadline < s.releaseTick m) :
    s.released m = ({ s with musters := [] } : State).bumpReg (lvlReg (musterLevel m) 0x620) 1 := if_pos h

theorem State.released_of_timely {s : State} {m : MusterState} (h : s.releaseTick m ≤ m.deadline) : s.released m = { s with musters := [] } :=
  if_neg (Nat.not_lt.2 h)

theorem State.released_musters (s : State) (m : MusterState) : (s.released m).musters = [] := by
  unfold State.released
  split
  · rw [State.bumpReg_musters]
  · rfl

theorem State.released_now (s : State) (m : MusterState) : (s.released m).now = s.now := by
  unfold State.released
  split
  · rw [State.bumpReg_now]
  · rfl

/-- A complete muster whose tick has come is released, and the faces that waited arrive at the next. -/
theorem execMusterRelease_of_due {s : State} {m : MusterState} (h : s.musters = [m]) (hParts : m.parts ≤ m.arrived.length)
    (hTick : s.releaseTick m ≤ s.now) :
    execMusterRelease m.scope m.unit m.id s = .next ((s.released m).each m.waiting (fun s w => s.arriveAt m.scope m.unit m.id w)) := by
  unfold execMusterRelease State.released
  simp [h, sameMuster_self, hParts, hTick, when]

/-- Settles O38: a command arrives at the muster of its scope and identifier, and a release leaves it. -/
theorem mustersArriveAndRelease : Obligations.MustersArriveAndRelease := by
  unfold Obligations.MustersArriveAndRelease
  intro s p off work hFace hRuns hQuiet hJobs hOpen hFits b c u lf n w
  refine ⟨fun hSound hOnce => ?arrives, fun m hMuster lf hLf hThere => State.faceHeld_of_muster hMuster hLf hThere,
    fun m hMuster hParts hTick => ?releases, fun m => rfl⟩
  case arrives =>
    have hExec : exec (.muster p off work) s = .next ((s.arriveAt c.scope u c.id w).endItem p off) := by
      refine when_true ?_ _ _
      show (faceWf p && s.faceRuns p && s.quiet p && !s.hasJobs p && s.workOpen work && decide (off + 16 ≤ storeBytes) && musterOk b &&
        !s.inMuster lf (sameMuster c.scope u c.id)) = true
      simp [hFace, hRuns, hQuiet, hJobs, hOpen, hFits, hSound, hOnce]
    refine ⟨fun hFirst => ?_, fun m hMuster hSame => ⟨fun hNew hRoom => ?_, fun hWaits => ?_⟩⟩
    · rw [hExec, State.arriveAt_of_none hFirst]
      rfl
    · rw [hExec, State.arriveAt_of_single hMuster hSame, MusterState.meet_arrives hNew hRoom]
    · rw [hExec, State.arriveAt_of_single hMuster hSame, MusterState.meet_waits hWaits]
  case releases =>
    have hExec := execMusterRelease_of_due hMuster hParts hTick
    refine ⟨fun hNone => ?_, fun v hOne => ?_⟩
    · rw [hNone] at hExec
      exact ⟨_, hExec, s.released_musters m, State.released_of_timely, fun hLate => (congrArg (fun t : State => t.regNat _) (State.released_of_late hLate)).trans
        (State.regNat_bumpReg_same { s with musters := [] } _ 1)⟩
    · rw [hOne] at hExec
      have hArrive : (s.released m).arriveAt m.scope m.unit m.id v =
          { s.released m with musters := [(s.released m).openMuster m.scope m.unit m.id v] } := by
        rw [State.arriveAt_of_none (by rw [s.released_musters m]; rfl), s.released_musters m]
        rfl
      refine ⟨_, (s.released m).openMuster m.scope m.unit m.id v, hExec, congrArg State.musters hArrive, sameMuster_self _, ?_, rfl, rfl, rfl,
        s.released_now m, rfl⟩
      exact List.mem_eraseDups.2 List.mem_cons_self

/-- Settles O43: the gate's commands set it and nothing else. -/
theorem idleFacesGate : Obligations.IdleFacesGate := by
  unfold Obligations.IdleFacesGate
  intro s p hFace
  refine ⟨fun hQuiet hIdle => when_true ?_ _ _, fun hBusy => when_false ?_ _ _, when_true hFace _ _⟩
  · rw [hFace, hQuiet, decide_eq_true hIdle]
    rfl
  · rw [hBusy, Bool.and_false, Bool.false_and]

end Sys2Proof.Machine
end

section
/-! PROOFS. Rings: skips published and released (R150, R282, R283, R295, R332). -/

namespace Sys2Proof.Machine
open Sys2Proof

/-! A face's ring after an update. -/

theorem State.face_setRing (s : State) (p r : Nat) (v : Ring) :
    (s.setRing p r v).face p = { s.face p with rings := (s.face p).rings.set r v } :=
  (State.face_setFace ..).trans (if_pos rfl)

theorem State.face_setRing_other (s : State) {p q : Nat} (r : Nat) (v : Ring) (h : q ≠ p) : (s.setRing p r v).face q = s.face q :=
  s.face_setFace_other _ h

theorem State.ring_setRing_same (s : State) {p r : Nat} (v : Ring) (h : r < (s.face p).rings.length) : (s.setRing p r v).ring p r = v := by
  rw [State.ring, State.face_setRing]
  simp [h]

theorem State.ring_setRing_other (s : State) {p r q j : Nat} (v : Ring) (h : q ≠ p ∨ j ≠ r) : (s.setRing p r v).ring q j = s.ring q j := by
  by_cases hFace : q = p
  · obtain rfl := hFace
    have hRing : j ≠ r := h.resolve_left (not_not_intro rfl)
    rw [State.ring, State.face_setRing, State.ring]
    simp [List.getD_eq_getElem?_getD, List.getElem?_set_ne (Ne.symm hRing)]
  · rw [State.ring, State.face_setRing_other _ _ _ hFace, State.ring]

theorem State.engine_setRing (s : State) (p r q e : Nat) (v : Ring) : (s.setRing p r v).engine q e = s.engine q e := by
  rw [State.engine, State.setRing_engines, State.engine]

theorem State.fused_setRing (s : State) (p r q : Nat) (v : Ring) : ((s.setRing p r v).face q).fused = (s.face q).fused := by
  rw [State.setRing, State.face_setFace]
  split
  · next h => rw [h]
  · rfl

theorem State.rings_length_setRing (s : State) (p r : Nat) (v : Ring) : ((s.setRing p r v).face p).rings.length = (s.face p).rings.length := by
  rw [State.face_setRing, List.length_set]

/-! Engines whose skip is handed on. -/

/-- t differs from s at most in how far engines' skips are filled, drained and handed on. -/
structure State.SameButSkips (s t : State) : Prop where
  rest : s.SameButFaces t
  rings : ∀ q, (t.face q).rings = (s.face q).rings
  fused : ∀ q, (t.face q).fused = (s.face q).fused

theorem State.SameButSkips.refl (s : State) : s.SameButSkips s := ⟨.refl s, fun _ => rfl, fun _ => rfl⟩

theorem State.SameButSkips.trans {s t u : State} (h : s.SameButSkips t) (k : t.SameButSkips u) : s.SameButSkips u :=
  ⟨h.rest.trans k.rest, fun q => (k.rings q).trans (h.rings q), fun q => (k.fused q).trans (h.fused q)⟩

theorem State.SameButSkips.ring {s t : State} (h : s.SameButSkips t) (q j : Nat) : t.ring q j = s.ring q j := by
  rw [State.ring, h.rings, State.ring]

theorem State.setEngine_sameButSkips (s : State) (p e : Nat) (g : Engine) : s.SameButSkips (s.setEngine p e g) := by
  refine ⟨s.setEngine_same p e g, fun q => ?_, fun q => ?_⟩ <;>
  · rw [State.setEngine, State.face_setFace]
    split
    · next h => rw [h]
    · rfl

/-- Of an engine set to v every other engine, and it where no such engine is, stays as it was. -/
theorem State.engine_setEngine (s : State) (p e q k : Nat) (v : Engine) :
    (s.setEngine p e v).engine q k = v ∧ q = p ∧ k = e ∨ (s.setEngine p e v).engine q k = s.engine q k := by
  by_cases hFace : q = p
  · obtain rfl := hFace
    by_cases hEngine : k = e
    · obtain rfl := hEngine
      by_cases hIn : k < (s.face q).engines.length
      · exact Or.inl ⟨s.engine_setEngine_same v hIn, rfl, rfl⟩
      · right
        rw [State.engine, State.face_setEngine_same, List.set_eq_of_length_le (Nat.le_of_not_lt hIn), State.engine]
    · exact Or.inr (s.engine_setEngine_other q v hEngine)
  · right
    rw [State.engine, State.face_setEngine_other _ _ _ hFace, State.engine]

/-- The engine but for how far its skip is filled and how many it has handed on. -/
def Engine.unfilled (g : Engine) : Engine := { g with fill := 0, handed := 0 }

/-- The engine but for how far its skip is drained. -/
def Engine.undrained (g : Engine) : Engine := { g with drain := 0 }

theorem Engine.eq_of_unfilled {g k : Engine} (h : g.unfilled = k.unfilled) : { g with fill := k.fill, handed := k.handed } = k :=
  congrArg (fun x : Engine => { x with fill := k.fill, handed := k.handed }) h

theorem Engine.eq_of_undrained {g k : Engine} (h : g.undrained = k.undrained) : { g with drain := k.drain } = k :=
  congrArg (fun x : Engine => { x with drain := k.drain }) h

theorem State.refill_spec (s : State) (p r : Nat) : s.SameButSkips (s.refill p r) ∧ ∀ q e, ((s.refill p r).engine q e).unfilled = (s.engine q e).unfilled := by
  refine State.each_rel (fun s t => s.SameButSkips t ∧ ∀ q e, (t.engine q e).unfilled = (s.engine q e).unfilled)
    (fun s => ⟨.refl s, fun _ _ => rfl⟩) (fun _ _ _ h k => ⟨h.1.trans k.1, fun q e => (k.2 q e).trans (h.2 q e)⟩) _ _ (fun t k => ?_)
  refine ⟨t.setEngine_sameButSkips .., fun q e => ?_⟩
  rcases t.engine_setEngine k.1 k.2 q e _ with ⟨h, rfl, rfl⟩ | h
  · rw [h]
    rfl
  · rw [h]

theorem State.redrain_spec (s : State) (p r : Nat) : s.SameButSkips (s.redrain p r) ∧ (∀ e, ((s.redrain p r).engine p e).undrained = (s.engine p e).undrained) ∧
    ∀ q, q ≠ p → (s.redrain p r).face q = s.face q := by
  refine State.each_rel (fun s t => s.SameButSkips t ∧ (∀ e, (t.engine p e).undrained = (s.engine p e).undrained) ∧ ∀ q, q ≠ p → t.face q = s.face q)
    (fun s => ⟨.refl s, fun _ => rfl, fun _ _ => rfl⟩)
    (fun _ _ _ h k => ⟨h.1.trans k.1, fun e => (k.2.1 e).trans (h.2.1 e), fun q hq => (k.2.2 q hq).trans (h.2.2 q hq)⟩) _ _ (fun t k => ?_)
  dsimp only
  split
  · split
    · refine ⟨t.setEngine_sameButSkips .., fun e => ?_, fun q hq => t.face_setEngine_other k _ hq⟩
      rcases t.engine_setEngine p k p e _ with ⟨h, -, hk⟩ | h
      · rw [h, hk]
        rfl
      · rw [h]
    · exact ⟨.refl t, fun _ => rfl, fun _ _ => rfl⟩
  · exact ⟨.refl t, fun _ => rfl, fun _ _ => rfl⟩

theorem State.fusedCount_of_none {s : State} {p : Nat} (h : (s.face p).fused = none) (hit : FusedStep → Bool) : s.fusedCount p hit = s := by
  rw [State.fusedCount, h]

/-- A stage's skip takes the next block's number; of a skip that an engine fills nothing is noted (R150). -/
theorem State.noted_spec (s : State) {p r : Nat} (tag : Option (BitVec 4)) (hIn : r < (s.face p).rings.length) :
    let u := if (s.fillerOf p r).isNone then s.noteBlock p r tag else s
    s.SameButFaces u ∧ (∀ q e, u.engine q e = s.engine q e) ∧ (∀ q, (u.face q).fused = (s.face q).fused) ∧
      (s.face p).rings.length = (u.face p).rings.length ∧ (∀ q j, (q ≠ p ∨ j ≠ r) → u.ring q j = s.ring q j) ∧
      ∃ made, u.ring p r = { s.ring p r with made := made } ∧ ∀ x m, tag = some x → s.fillerOf p r = none → (s.face p).making = some m →
        made = some (m.1, m.2.1, (s.ring p r).nextBlock m) := by
  have hSelf : ∀ P : Prop, P → s.SameButFaces s ∧ (∀ q e, s.engine q e = s.engine q e) ∧ (∀ q, (s.face q).fused = (s.face q).fused) ∧
      (s.face p).rings.length = (s.face p).rings.length ∧ (∀ q j, (q ≠ p ∨ j ≠ r) → s.ring q j = s.ring q j) ∧ P :=
    fun P h => ⟨.refl s, fun _ _ => rfl, fun _ => rfl, rfl, fun _ _ _ => rfl, h⟩
  intro u
  cases hFiller : s.fillerOf p r with
  | some k =>
    have hu : u = s := by
      simp only [u, hFiller]
      rfl
    rw [hu]
    exact hSelf _ ⟨_, rfl, fun _ _ _ h _ => by cases h⟩
  | none =>
    have hu : u = s.noteBlock p r tag := by
      simp only [u, hFiller]
      rfl
    rw [hu]
    unfold State.noteBlock
    split
    · next x m hMaking =>
      refine ⟨s.setRing_same .., fun q e => s.engine_setRing .., fun q => s.fused_setRing .., (s.rings_length_setRing ..).symm,
        fun q j h => s.ring_setRing_other _ h, _, s.ring_setRing_same _ hIn, fun _ m' _ _ hm' => ?_⟩
      cases hMaking.symm.trans hm'
      rfl
    · exact hSelf _ ⟨_, rfl, fun _ _ h _ _ => by cases h⟩
    · next hMaking => exact hSelf _ ⟨_, rfl, fun _ _ _ _ h => by cases hMaking.symm.trans h⟩

/-- A published skip's ring, where g was the ring. -/
def State.publishedRing (s : State) (p r place bytes : Nat) (tag : Option (BitVec 4)) : Ring :=
  let g := s.ring p r
  { g with tail := (g.tail + 1) % 65536, filling := none, waitData := false,
           skips := spSet g.skips g.tail { bytes := bytes, tag := (tag.map (fun t => t.toNat)).getD 0, tagged := tag.isSome,
                                           tally := crc32c (s.readMem (s.bufferAt p r place) bytes), place := place } }

theorem State.publish_eq (s : State) (p r place bytes : Nat) (tag : Option (BitVec 4)) :
    s.publish p r place bytes tag = s.setRing p r (s.publishedRing p r place bytes tag) := rfl

/-- A released skip's ring. -/
def State.releasedRing (s : State) (p r : Nat) : Ring :=
  let g := s.ring p r
  let place := (g.headSkip.map (fun k => k.place)).getD 0
  { g with head := (g.head + 1) % 65536, skips := spDrop g.skips (g.head % 65536), lastHead := some s.now, waitSpace := false,
           block := g.block + 1, taken := false, pool := g.pool.filter (fun k => !(place == k.1 + 128)) }

theorem State.release_eq (s : State) (p r : Nat) : s.release p r = s.setRing p r (s.releasedRing p r) := rfl

/-! Occupancy. -/

theorem Ring.occ_spec (g : Ring) (hHead : g.head < 65536) (hTail : g.tail < 65536) : g.occ < 65536 ∧ (g.head + g.occ) % 65536 = g.tail ∧
    ∀ n, n < 65536 → ({ g with tail := (g.head + n) % 65536 } : Ring).occ = n := by
  unfold Ring.occ
  refine ⟨Nat.mod_lt _ (by decide), by omega, fun n hn => ?_⟩
  dsimp only
  omega

/-- Settles O39: a ring's update, and what handing its skip on leaves of the engines. -/
theorem ringSkipsMove : Obligations.RingSkipsMove := by
  unfold Obligations.RingSkipsMove
  refine ⟨Ring.occ_spec, fun s p r bytes tag hFace hRing hRuns hMay hIn => ⟨fun k hRoom hPlace hFused => ?publish, fun hFull => ?full⟩,
    fun s p r hFace hRing hRuns hMay hIn hFused => ⟨fun hSome => ?release, fun hNone => ?empty⟩⟩
  case publish =>
    let u := if (s.fillerOf p r).isNone then s.noteBlock p r tag else s
    let v := u.setRing p r (u.publishedRing p r k bytes tag)
    have hExec : exec (.skipPublish p r bytes tag) s = .next ((v.refill p r).fusedCount p
        (fun st => decide (6 ≤ st.engine) && st.inRing.isNone && decide (st.outRing = some r))) := by
      refine (when_true (by rw [hFace, decide_eq_true hRing, hRuns, hMay]; rfl) _ _).trans (congrArg Host.Outcome.next ((if_pos hRoom).trans ?_))
      rw [hPlace]
      rfl
    obtain ⟨hSame, hEngines, hFusedU, hLen, hRest, made, hMade, hBlock⟩ := s.noted_spec (r := r) tag hIn
    obtain ⟨hFilled, hKept⟩ := v.refill_spec p r
    have hNone : ((v.refill p r).fusedCount p (fun st => decide (6 ≤ st.engine) && st.inRing.isNone && decide (st.outRing = some r))) =
        v.refill p r := by
      refine State.fusedCount_of_none ?_ _
      rw [hFilled.fused, State.fused_setRing, hFusedU]
      exact hFused
    have hPublished : v.ring p r = u.publishedRing p r k bytes tag := u.ring_setRing_same _ (hLen ▸ hIn)
    rw [hNone] at hExec
    have hFrame : s.SameButFaces v := hSame.trans (u.setRing_same ..)
    refine ⟨_, hExec, ?_, ?_, ?_, ?_, fun x m hTag hOwn hMaking => ⟨?_, ?_⟩, fun q j hOther => ?_, fun q e => ?_, ?_⟩
    · rw [hFilled.ring, hPublished, State.publishedRing, hMade]
    · rw [hFilled.ring, hPublished, State.publishedRing, hMade]
    · rw [hFilled.ring, hPublished, State.publishedRing, hMade]
    · rw [hFilled.ring, hPublished, State.publishedRing, hMade, spGet_spSet, if_pos rfl, hSame.keeps (fun u => u.readMem (u.bufferAt p r k) bytes) (fun _ _ => rfl)]
    · rw [hFilled.ring, hPublished, State.publishedRing, hMade]
      exact hBlock x m hTag hOwn hMaking
    · have hTagged : (s.ring p r).mayTag (s.ringRec p r).tagged (s.face p).making tag = true := by
        have hAll := (Bool.and_eq_true_iff.1 hMay).2
        rw [hOwn] at hAll
        exact (Bool.and_eq_true_iff.1 hAll).2
      rw [hTag, hMaking, Ring.mayTag] at hTagged
      simpa using (Bool.and_eq_true_iff.1 hTagged).2
    · rw [hFilled.ring, State.ring_setRing_other _ _ hOther]
      exact hRest q j hOther
    · have hEngine := hKept q e
      rw [State.engine_setRing, hEngines] at hEngine
      exact Engine.eq_of_unfilled hEngine
    · exact hFrame.trans hFilled.rest
  case full =>
    exact (when_true (by rw [hFace, decide_eq_true hRing, hRuns, hMay]; rfl) _ _).trans
      (congrArg Host.Outcome.next (if_neg (Bool.eq_false_iff.1 hFull)))
  case release =>
    have hExec : exec (.skipRelease p r) s = .next (((s.release p r).redrain p r).fusedDrain p r) :=
      (when_true (by rw [hFace, decide_eq_true hRing, hRuns, hMay]; rfl) _ _).trans (congrArg Host.Outcome.next (if_neg hSome))
    obtain ⟨hDrained, hEngines, hOthers⟩ := (s.release p r).redrain_spec p r
    have hNone : ((s.release p r).redrain p r).fusedDrain p r = (s.release p r).redrain p r := by
      refine State.fusedCount_of_none ?_ _
      rw [hDrained.fused, State.release_eq, State.fused_setRing]
      exact hFused
    have hReleased : (s.release p r).ring p r = s.releasedRing p r := s.ring_setRing_same _ hIn
    rw [hNone] at hExec
    refine ⟨_, hExec, ?_, ?_, ?_, ?_, fun k due w hHead hPlace => ?_, fun j hj => ?_, fun e => ?_, fun q hq => ?_, ?_⟩
    · rw [hDrained.ring, hReleased, State.releasedRing]
    · rw [hDrained.ring, hReleased, State.releasedRing]
    · rw [hDrained.ring, hReleased, State.releasedRing]
    · rw [hDrained.ring, hReleased, State.releasedRing]
    · rw [hDrained.ring, hReleased, State.releasedRing, hHead]
      simp [hPlace]
    · rw [hDrained.ring, State.release_eq, State.ring_setRing_other _ _ (Or.inr hj)]
    · have hEngine := hEngines e
      rw [State.release_eq, State.engine_setRing] at hEngine
      exact Engine.eq_of_undrained hEngine
    · rw [hOthers q hq, State.release_eq, State.face_setRing_other _ _ _ hq]
    · exact (s.setRing_same p r (s.releasedRing p r)).trans hDrained.rest
  case empty =>
    exact (when_true (by rw [hFace, decide_eq_true hRing, hRuns, hMay]; rfl) _ _).trans (congrArg Host.Outcome.next (if_pos hNone))

end Sys2Proof.Machine
end

section
/-! PROOFS. Pool buffers and lots borrowed and returned (R225, R295). -/

namespace Sys2Proof.Machine
open Sys2Proof

/-! A level after an update. -/

theorem State.level_setLevel_same (s : State) {l : Nat} (v : Level) (h : l < s.levels.length) : (s.setLevel l v).level l = v := by
  simp [State.level, State.setLevel, h]

theorem State.level_setLevel_other (s : State) {l k : Nat} (v : Level) (h : k ≠ l) : (s.setLevel l v).level k = s.level k := by
  simp [State.level, State.setLevel, List.getD_eq_getElem?_getD, List.getElem?_set_ne (Ne.symm h)]

/-! Lots that a ring gives back but for as many as still hold data. -/

/-- Of the elements that b picks, those kept whose rank among them is below M: as many as there are, up to M. -/
theorem countP_of_rank {α : Type} (b : α → Bool) (M : Nat) (S : List α) : ∀ (P : List α) (st : Nat → α → Bool),
    (∀ i o, (P ++ S)[i]? = some o → b o = true → st i o = decide (((P ++ S).take i).countP b < M)) →
    ((List.range' P.length S.length).zip S).countP (fun q => b q.2 && st q.1 q.2) + min (P.countP b) M = min ((P ++ S).countP b) M := by
  induction S with
  | nil => intro P st _; simp
  | cons o S ih =>
    intro P st hSt
    have hRest := ih (P ++ [o]) st (by simpa using hSt)
    have hHere : b o = true → st P.length o = decide (P.countP b < M) := fun h => by
      simpa using hSt P.length o (by simp) h
    rw [List.length_append, List.length_singleton, List.append_assoc, List.singleton_append] at hRest
    rw [List.length_cons, List.range'_succ, List.zip_cons_cons, List.countP_cons, ← hRest, List.countP_append, List.countP_singleton]
    cases hb : b o with
    | false => simp
    | true =>
      have hDecide := hHere hb
      by_cases hLess : P.countP b < M
      · simp [hDecide, hLess]
        omega
      · simp [hDecide, hLess]
        omega

theorem headD_mem {l : List Nat} (d : Nat) (h : l.isEmpty = false) : l.headD d ∈ l := by
  cases l with
  | nil => cases h
  | cons a l => exact List.mem_cons_self

theorem State.lotsMin_frame (s : State) (l : Nat) : (s.lotsMin l).levels = s.levels ∧ (s.lotsMin l).faces = s.faces ∧ (s.lotsMin l).mem = s.mem ∧
    (s.lotsMin l).boot = s.boot := by
  unfold State.lotsMin
  dsimp only
  split
  · exact ⟨by rw [State.setField_levels], by rw [State.setField_faces], by rw [State.setField_mem], by rw [State.setField_boot]⟩
  · exact ⟨rfl, rfl, rfl, rfl⟩

/-- Bytes brought to a coder's context change its level's coders alone. -/
theorem State.level_bring (s : State) {l : Nat} (c x : Nat) (h : l < s.levels.length) :
    { (s.bring l c x).level l with coders := (s.level l).coders } = s.level l := by
  rw [State.bring, State.level_setLevel_same _ _ h]

theorem State.sharedLots_bring (s : State) {l : Nat} (c x : Nat) (h : l < s.levels.length) :
    ((s.bring l c x).level l).sharedLots = (s.level l).sharedLots := by
  rw [State.bring, State.level_setLevel_same _ _ h]

/-- What is due of a ring's lots is marked, and the ring takes no more. -/
theorem State.dueLots_shared (s : State) {l : Nat} (c x w : Nat) (h : l < s.levels.length) : ((s.dueLots l c x w).level l).sharedLots =
    (s.level l).sharedLots.map (fun o => if lotOf l c x w o && decide (o.2.2 ≤ s.now) then (o.1, o.2.1, 2 ^ 64) else o) := by
  rw [State.dueLots, State.level_setLevel_same _ _ h]

/-- Does a lot of level l stay, the i-th of its list: not given back, or among the first that still hold data? -/
def State.lotStays (s : State) (l i : Nat) (o : RingRef × Nat × Nat) : Bool :=
  match o.1 with
  | .lot _ c x w => o.2.2 != 2 ^ 64 ||
      decide (((s.level l).sharedLots.take i).countP (fun q => q.1 == o.1 && q.2.2 == 2 ^ 64) < s.lotsInUse l c x w)
  | .face .. => true

theorem State.returnLots_shared (s : State) {l : Nat} (h : l < s.levels.length) : ((s.returnLots l).level l).sharedLots =
    (((List.range (s.level l).sharedLots.length).zip (s.level l).sharedLots).filter (fun q => s.lotStays l q.1 q.2)).map (fun q => q.2) := by
  rw [State.returnLots, State.level_setLevel_same _ _ h]
  rfl

/-- Of a ring's lots to be given back as many stay as still hold data. -/
theorem State.returnLots_count (s : State) {l : Nat} (c x w : Nat) (h : l < s.levels.length) :
    ((s.returnLots l).level l).sharedLots.countP (fun o => lotOf l c x w o && o.2.2 == 2 ^ 64) =
      min ((s.level l).sharedLots.countP (fun o => lotOf l c x w o && o.2.2 == 2 ^ 64)) (s.lotsInUse l c x w) := by
  rw [s.returnLots_shared h, List.countP_map, List.countP_filter, List.range_eq_range']
  have hRank := countP_of_rank (fun o => lotOf l c x w o && o.2.2 == 2 ^ 64) (s.lotsInUse l c x w) (s.level l).sharedLots [] (s.lotStays l)
    (fun i o _ hBack => by
      obtain ⟨hOf, hDue⟩ : o.1 = .lot l c x w ∧ o.2.2 = 2 ^ 64 := by simpa [lotOf] using hBack
      unfold State.lotStays
      rw [hOf, hDue, List.nil_append]
      simp only [bne_self_eq_false, Bool.false_or]
      rfl)
  simpa using hRank

/-- A lot not to be given back stays. -/
theorem State.mem_returnLots (s : State) {l : Nat} {o : RingRef × Nat × Nat} (h : l < s.levels.length) (hIn : o ∈ (s.level l).sharedLots)
    (hStays : o.2.2 ≠ 2 ^ 64) : o ∈ ((s.returnLots l).level l).sharedLots := by
  obtain ⟨i, hLess, hAt⟩ := List.mem_iff_getElem.mp hIn
  rw [s.returnLots_shared h, List.mem_map]
  refine ⟨(i, o), List.mem_filter.mpr ⟨List.mem_iff_getElem.mpr ⟨i, by simpa using hLess, by simp [hAt]⟩, ?_⟩, rfl⟩
  unfold State.lotStays
  split
  · exact Bool.or_eq_true_iff.mpr (Or.inl (bne_iff_ne.mpr hStays))
  · rfl

theorem State.mem_of_returnLots (s : State) {l : Nat} {o : RingRef × Nat × Nat} (h : l < s.levels.length)
    (hIn : o ∈ ((s.returnLots l).level l).sharedLots) : o ∈ (s.level l).sharedLots := by
  rw [s.returnLots_shared h, List.mem_map] at hIn
  obtain ⟨q, hq, rfl⟩ := hIn
  exact (List.of_mem_zip (List.mem_filter.mp hq).1).2

/-! What is free. -/

theorem State.notMem_poolFree (s : State) {p r : Nat} {k : Nat × Nat} (hIn : r < (s.face p).rings.length) (h : k ∈ (s.ring p r).pool) :
    k.1 ∉ s.poolFree p := by
  have hRing : s.ring p r ∈ (s.face p).rings := by
    rw [State.ring, List.getD_eq_getElem _ _ hIn]
    exact List.getElem_mem hIn
  have hHeld : k.1 ∈ (s.face p).rings.flatMap (fun g => g.pool.map (fun k => k.1)) :=
    List.mem_flatMap.mpr ⟨_, hRing, List.mem_map.mpr ⟨k, h, rfl⟩⟩
  intro hFree
  simpa [hHeld] using (List.mem_filter.mp hFree).2

theorem State.notMem_freeLots (s : State) {l : Nat} {o : RingRef × Nat × Nat} (h : o ∈ (s.level l).sharedLots) : o.2.1 ∉ s.freeLots l := by
  have hHeld : (s.level l).lotHeld o.2.1 = true := Bool.or_eq_true_iff.mpr (Or.inr (List.any_eq_true.mpr ⟨o, h, beq_self_eq_true _⟩))
  intro hFree
  simpa [hHeld] using (List.mem_filter.mp hFree).2

/-- The level with a lot lent to a ring until the given time. -/
def State.lent (s : State) (l c x w due : Nat) : State :=
  let v := s.level l
  s.setLevel l { v with sharedLots := v.sharedLots ++ [(.lot l c x w, (s.freeLots l).headD 0, due)] }

/-- Settles O40: the borrower's list grows by a free buffer or lot; at the return time what holds no data goes back. -/
theorem buffersBorrowAndReturn : Obligations.BuffersBorrowAndReturn := by
  unfold Obligations.BuffersBorrowAndReturn
  refine ⟨fun s ctx p r hFace hRing hRuns hMay hIn => ?buffer, fun s ctx l c x w hl hc hx hw hUp hMay hIn => ?lot,
    fun s p r hFace hRing hDue hIn => ?bufferBack, fun s l c x w hl hc hx hw hIn hNow => ?lotsBack⟩
  case buffer =>
    have hFree : (s.poolFree p).isEmpty = false := by
      rw [State.mayBorrow, Bool.and_eq_true, Bool.and_eq_true, Bool.not_eq_true'] at hMay
      exact hMay.1.2
    refine ⟨_, (s.poolFree p).headD 0, when_true (by rw [hFace, hRuns, hMay, decide_eq_true hRing]; rfl) s _, headD_mem 0 hFree,
      s.ring_setRing_same _ hIn, ?_, fun j hj => s.ring_setRing_other _ (Or.inr hj), fun q hq => s.face_setRing_other _ _ hq, rfl⟩
    refine State.notMem_poolFree _ (k := (_, s.now + s.slack ctx)) (by rw [s.rings_length_setRing]; exact hIn) ?_
    rw [s.ring_setRing_same _ hIn]
    exact List.mem_append_right _ List.mem_cons_self
  case lot =>
    have hFree : (s.freeLots l).isEmpty = false := by
      rw [State.mayBorrowLot, Bool.and_eq_true, Bool.and_eq_true, Bool.not_eq_true'] at hMay
      exact hMay.1.2
    let t := s.lent l c x w (s.now + s.slack ctx)
    obtain ⟨hLevels, hFaces, hMem, -⟩ := (t.bring l c x).lotsMin_frame l
    have hLent : t.level l = _ := s.level_setLevel_same _ hIn
    have hThere : l < t.levels.length := by simpa [t, State.lent, State.setLevel] using hIn
    have hBrought := t.level_bring c x hThere
    have hAt : ∀ j, ((t.bring l c x).lotsMin l).level j = (t.bring l c x).level j := fun j => by rw [State.level, hLevels, State.level]
    refine ⟨(t.bring l c x).lotsMin l, (s.freeLots l).headD 0, when_true ?_ s _, headD_mem 0 hFree, ?_, ?_, fun j hj => ?_, hFaces, hMem⟩
    · rw [hUp, hMay, RingRef.wf, decide_eq_true hl, decide_eq_true hc, decide_eq_true hx, decide_eq_true hw]
      rfl
    · rw [hAt]
      rw [hLent] at hBrought
      exact hBrought
    · refine State.notMem_freeLots (o := (.lot l c x w, (s.freeLots l).headD 0, s.now + s.slack ctx)) _ ?_
      rw [hAt, show ((t.bring l c x).level l).sharedLots = (t.level l).sharedLots from t.sharedLots_bring c x hThere, hLent]
      exact List.mem_append_right _ List.mem_cons_self
    · rw [hAt, State.bring, State.level_setLevel_other _ _ hj]
      exact s.level_setLevel_other _ hj
  case bufferBack =>
    intro g holds
    have hKept : ∀ k : Nat × Nat, (if decide (k.2 ≤ s.now) = true then (k.1, 2 ^ 64) else k).1 = k.1 := fun k => by split <;> rfl
    have hThere : ∀ (v : Ring) n q j, ((s.setRing p r v).bumpReg (lvlReg (levelOf p) 0x610) n).ring q j = (s.setRing p r v).ring q j :=
      fun v n q j => by rw [State.ring, State.face, State.bumpReg_faces]; rfl
    refine ⟨_, when_true ?_ s _, ?_, ?_, fun k hk hHolds hLater => ?_, fun j hj => ?_, State.bumpReg_mem .., ?_⟩
    · obtain ⟨k, hk, hPast⟩ := hDue
      rw [hFace, decide_eq_true hRing, List.any_eq_true.mpr ⟨k, hk, decide_eq_true hPast⟩]
      rfl
    · rw [hThere, s.ring_setRing_same _ hIn]
    · rw [hThere, s.ring_setRing_same _ hIn, List.map_map]
      exact List.map_congr_left fun k _ => hKept k
    · rw [hThere, s.ring_setRing_same _ hIn]
      exact List.mem_map.mpr ⟨k, List.mem_filter.mpr ⟨hk, hHolds⟩, if_neg (by simpa using hLater)⟩
    · rw [hThere, s.ring_setRing_other _ (Or.inr hj)]
    · exact State.regNat_bumpReg_same _ _ _
  case lotsBack =>
    intro ofRing due back hDue
    have hDueIn : l < (s.dueLots l c x w).levels.length := by simpa [State.dueLots, State.setLevel] using hIn
    have hAt : ∀ n, (((s.dueLots l c x w).returnLots l).bumpReg (lvlReg l 0x610) n).level l = ((s.dueLots l c x w).returnLots l).level l :=
      fun n => by rw [State.level, State.bumpReg_levels]; rfl
    have hMarked := s.dueLots_shared c x w hIn
    refine ⟨_, when_true ?_ s _, State.bumpReg_faces .., State.bumpReg_mem .., fun o ho hNotDue hNotBack => ?_, fun o ho => ?_, ?_, ?_⟩
    · obtain ⟨o, ho, hPast⟩ := hDue
      rw [RingRef.wf, decide_eq_true hl, decide_eq_true hc, decide_eq_true hx, decide_eq_true hw]
      exact List.any_eq_true.mpr ⟨o, ho, hPast⟩
    · rw [hAt]
      refine State.mem_returnLots _ hDueIn ?_ hNotBack
      rw [hMarked]
      exact List.mem_map.mpr ⟨o, ho, if_neg (Bool.eq_false_iff.mp hNotDue)⟩
    · rw [hAt] at ho
      have hOld := State.mem_of_returnLots _ hDueIn ho
      rw [hMarked, List.mem_map] at hOld
      obtain ⟨q, hq, rfl⟩ := hOld
      split
      · exact ⟨by simp [due]; omega, q, hq, rfl, rfl⟩
      · next hNotDue => exact ⟨Bool.eq_false_iff.mpr hNotDue, q, hq, rfl, rfl⟩
    · rw [hAt]
      refine (State.returnLots_count _ c x w hDueIn).trans ?_
      rw [hMarked, List.countP_map]
      refine congrArg (fun n => min n _) (List.countP_congr fun o _ => ?_)
      have hMeets : due o = (lotOf l c x w o && decide (o.2.2 ≤ s.now)) := rfl
      rw [Function.comp_apply, hMeets]
      split
      · next hPast =>
        have hOf : lotOf l c x w o = true := (Bool.and_eq_true_iff.mp hPast).1
        rw [hPast, Bool.true_or]
        exact iff_of_true (Bool.and_eq_true_iff.mpr ⟨hOf, beq_self_eq_true _⟩) rfl
      · next hNotPast =>
        rw [Bool.eq_false_iff.mpr hNotPast]
        rfl
    · refine (State.regNat_bumpReg_same _ _ _).trans ?_
      rw [hAt]
      rfl

end Sys2Proof.Machine
end

section
/-! PROOFS. The ring monitor (R296). -/

namespace Sys2Proof.Machine
open Sys2Proof

/-! The cycles of waits are made of waits. -/

theorem mem_of_waitPath (ws : List Wait) (b fuel a : Nat) (used : List Wait) {c : List Wait} (hPath : waitPath ws b fuel a used = some c)
    (hUsed : ∀ w ∈ used, w ∈ ws) : ∀ w ∈ c, w ∈ ws := by
  induction fuel generalizing a used with
  | zero => cases hPath
  | succ fuel ih =>
    unfold waitPath at hPath
    split at hPath
    · obtain rfl := Option.some.inj hPath
      exact hUsed
    · obtain ⟨w, hw, hRest⟩ := List.exists_of_findSome?_eq_some hPath
      refine ih _ _ hRest fun x hx => ?_
      rcases List.mem_append.mp hx with hOld | hNew
      · exact hUsed x hOld
      · obtain rfl := List.mem_singleton.mp hNew
        exact (List.mem_filter.mp hw).1

theorem mem_of_fromLowest {c : List Wait} {w : Wait} (h : w ∈ fromLowest c) : w ∈ c :=
  (List.mem_append.mp h).elim List.mem_of_mem_drop List.mem_of_mem_take

theorem mem_of_waitCycle {ws c : List Wait} (h : waitCycle ws = some c) : ∀ w ∈ c, w ∈ ws := by
  obtain ⟨d, hFound, rfl⟩ := Option.map_eq_some_iff.mp h
  obtain ⟨x, -, hPath⟩ := List.exists_of_findSome?_eq_some hFound
  exact fun w hw => mem_of_waitPath ws _ _ _ [] hPath (fun _ h => (List.not_mem_nil h).elim) w (mem_of_fromLowest hw)

theorem mem_of_waitCycles (n : Nat) (ws : List Wait) : ∀ c ∈ waitCycles n ws, ∀ w ∈ c, w ∈ ws := by
  induction n generalizing ws with
  | zero => exact fun _ h => (List.not_mem_nil h).elim
  | succ n ih =>
    unfold waitCycles
    split
    · exact fun _ h => (List.not_mem_nil h).elim
    · next c hCycle =>
      intro d hd w hw
      rcases List.mem_cons.mp hd with rfl | hRest
      · exact mem_of_waitCycle hCycle w hw
      · exact (List.mem_filter.mp (ih _ d hRest w hw)).1

/-! Faces that a cyclic wait stops. -/

/-- From s to t no level changed and no stopped face runs again. -/
structure State.StopsFaces (s t : State) : Prop where
  levels : t.levels = s.levels
  stopped : ∀ p, (s.face p).stopped = true → (t.face p).stopped = true

theorem State.StopsFaces.of_eq {s t : State} (hLevels : t.levels = s.levels) (hFaces : t.faces = s.faces) : s.StopsFaces t :=
  ⟨hLevels, fun p h => by rw [State.face, hFaces]; exact h⟩

theorem State.StopsFaces.refl (s : State) : s.StopsFaces s := .of_eq rfl rfl

theorem State.StopsFaces.trans {s t u : State} (h : s.StopsFaces t) (k : t.StopsFaces u) : s.StopsFaces u :=
  ⟨k.levels.trans h.levels, fun p hp => k.stopped p (h.stopped p hp)⟩

theorem State.StopsFaces.each {β : Type} {s : State} (l : List β) (f : State → β → State) (hf : ∀ (t : State) b, t.StopsFaces (f t b)) :
    s.StopsFaces (s.each l f) :=
  State.each_rel State.StopsFaces State.StopsFaces.refl (fun _ _ _ h k => h.trans k) l f hf

/-- A face stopped for one of a list's members is stopped after them all. -/
theorem State.StopsFaces.each_mem {β : Type} {s : State} {l : List β} {f : State → β → State} (hf : ∀ (t : State) b, t.StopsFaces (f t b))
    {b : β} (hb : b ∈ l) {p : Nat} (hp : ∀ t : State, ((f t b).face p).stopped = true) : ((s.each l f).face p).stopped = true := by
  induction l generalizing s with
  | nil => exact (List.not_mem_nil hb).elim
  | cons x l ih =>
    rw [State.each_cons]
    rcases List.mem_cons.mp hb with rfl | hRest
    · exact (State.StopsFaces.each l f hf).stopped p (hp s)
    · exact ih hRest

theorem State.stopFace_stops (s : State) (p : Nat) (owner : Option Ctx) : s.StopsFaces (s.stopFace p owner) := by
  refine ⟨rfl, fun q hq => ?_⟩
  by_cases hFace : q = p
  · rw [hFace, State.face_stopFace]
  · rwa [State.face_stopFace_other _ _ hFace]

theorem State.Raised.stops {s t : State} (h : s.Raised t) : s.StopsFaces t :=
  .of_eq (h.keeps State.levels (fun _ _ _ _ _ _ _ _ => rfl)) (h.keeps State.faces (fun _ _ _ _ _ _ _ _ => rfl))

/-- A cyclic wait is its faces' stop, and records and events. -/
theorem State.cyclicWait_eq (s : State) (c : List Wait) :
    (s.each c (fun s x => s.stopFace x.p (s.face x.p).owner)).StopsFaces (s.cyclicWait c) := by
  unfold State.cyclicWait
  cases c with
  | nil => exact .refl s
  | cons w rest =>
    refine State.StopsFaces.trans ?_ (State.raise_raised ..).stops
    split
    · exact .of_eq (State.bumpReg_levels ..) (State.bumpReg_faces ..)
    · exact .of_eq (by rw [State.setRegNat_levels, State.setRegNat_levels]) (by rw [State.setRegNat_faces, State.setRegNat_faces])

theorem State.cyclicWait_stops (s : State) (c : List Wait) : s.StopsFaces (s.cyclicWait c) :=
  (State.StopsFaces.each c _ fun t _ => t.stopFace_stops ..).trans (s.cyclicWait_eq c)

theorem State.face_cyclicWait (s : State) {c : List Wait} {w : Wait} (h : w ∈ c) : ((s.cyclicWait c).face w.p).stopped = true :=
  (s.cyclicWait_eq c).stopped w.p (State.StopsFaces.each_mem (fun t _ => t.stopFace_stops ..) h fun t => by rw [State.face_stopFace])

/-! A sample. -/

theorem State.sampleWaits_of_unseen (s : State) {sel : Nat → Bool} {seen : List (Nat × Nat × Nat × Nat)}
    (h : ∀ c ∈ s.cycles sel, seenCycle seen c = false) : s.sampleWaits sel seen = (s, (s.cycles sel).flatMap cycleMark) := by
  have hNone : (s.cycles sel).filter (seenCycle seen) = [] := List.filter_eq_nil_iff.mpr fun c hc => Bool.eq_false_iff.mp (h c hc)
  have hAll : (s.cycles sel).filter (fun c => !seenCycle seen c) = s.cycles sel :=
    List.filter_eq_self.mpr fun c hc => by rw [h c hc]; rfl
  unfold State.sampleWaits
  dsimp only
  rw [hNone, hAll]
  rfl

theorem State.cycles_of_waits_nil (s : State) {sel : Nat → Bool} (h : s.waits sel = []) : s.cycles sel = [] := by
  rw [State.cycles, h]
  rfl

/-- Settles O41: what the sample before saw alike stops its faces; the rest is remembered. -/
theorem ringMonitorSamples : Obligations.RingMonitorSamples := by
  unfold Obligations.RingMonitorSamples
  intro s l hl hUp hIn sel seen
  have hRuns : ∀ t, when (decide (l < 4) && s.levelUp l) s t = .next t := when_true (by rw [decide_eq_true hl, hUp]; rfl) s
  have hUnseen : (∀ c ∈ s.cycles sel, seenCycle seen c = false) →
      exec (.ringMonitorSample l) s = .next (s.setLevel l { s.level l with waitSeen := (s.cycles sel).flatMap cycleMark }) := fun h => by
    refine (hRuns _).trans ?_
    rw [s.sampleWaits_of_unseen h]
  refine ⟨mem_of_waitCycles _ _, fun hNone => ?_, hUnseen, fun c hc hSeen => ?_, fun h => ?_⟩
  · have hCycles := s.cycles_of_waits_nil hNone
    rw [hUnseen (by rw [hCycles]; exact fun _ h => (List.not_mem_nil h).elim), hCycles]
    rfl
  · have hStops : s.StopsFaces (s.sampleWaits sel seen).1 := State.StopsFaces.each _ _ fun t d => t.cyclicWait_stops d
    refine ⟨_, hRuns _, fun w hw => ?_, ?_⟩
    · exact State.StopsFaces.each_mem (fun t d => t.cyclicWait_stops d) (List.mem_filter.mpr ⟨hc, hSeen⟩) fun t => t.face_cyclicWait hw
    · rw [State.level_setLevel_same _ _ (by rw [hStops.levels]; exact hIn)]
      rfl
  · show ok _ = _
    rw [s.sampleWaits_of_unseen h]
    rfl

end Sys2Proof.Machine
end

section
/-! PROOFS. Trams: a chunk stored, missed and read again (R293, R294, R298). -/

namespace Sys2Proof.Machine
open Sys2Proof

/-! A chunk's bytes written and its skip published. -/

theorem State.face_untile (s : State) (a n p : Nat) :
    ((s.untile a n).face p).rings = (s.face p).rings ∧ ((s.untile a n).face p).missed = (s.face p).missed := by
  unfold State.untile
  split
  · rw [State.face_setFace]
    split
    · next h => rw [h]; exact ⟨rfl, rfl⟩
    · exact ⟨rfl, rfl⟩
  · exact ⟨rfl, rfl⟩

theorem State.face_busWrite (s : State) {a : Nat} (b : Bytes) (p : Nat) (h : a < regBase) :
    ((s.busWrite a b).face p).rings = (s.face p).rings ∧ ((s.busWrite a b).face p).missed = (s.face p).missed := by
  rw [s.busWrite_of_memory b h]
  exact (s.writeMem a b).face_untile a b.length p

/-- Bytes written to memory change beside it faces alone. -/
theorem State.busWrite_same (s : State) {a : Nat} (b : Bytes) (h : a < regBase) : (s.writeMem a b).SameButFaces (s.busWrite a b) := by
  rw [s.busWrite_of_memory b h]
  exact State.untile_same ..

/-- What stands in memory once the bytes are written. -/
theorem State.readByte_of_written {s t : State} {a : Nat} {b : Bytes} (h : t.mem = (s.writeMem a b).mem) :
    (∀ i, i < b.length → t.readByte (a + i) = b.getD i 0) ∧ ∀ k, k < a ∨ a + b.length ≤ k → t.readByte k = s.readByte k :=
  ⟨fun i hi => (congrArg (fun m => spGet memUnlisted m (a + i)) h).trans (s.readByte_writeMem_inside a i b hi),
    fun k hk => (congrArg (fun m => spGet memUnlisted m k) h).trans (s.readByte_writeMem_outside a k b hk)⟩

theorem State.face_setEngine (s : State) (p e : Nat) (g : Engine) : (s.setEngine p e g).face p = { s.face p with engines := (s.face p).engines.set e g } :=
  (State.face_setFace ..).trans (if_pos rfl)

/-- A stored chunk is published, its descriptor marked. -/
theorem State.tramDone_spec (s : State) {p r : Nat} (e layer chunk k : Nat) (tag : Option (BitVec 4)) (n : Nat) (hIn : r < (s.face p).rings.length) :
    let t := s.tramDone p e r layer chunk k tag n
    s.SameButFaces t ∧ (t.face p).missed = (s.face p).missed ∧ (t.ring p r).tail = ((s.ring p r).tail + 1) % 65536 ∧
      (spGet {} (t.ring p r).skips (s.ring p r).tail).place = k ∧ (spGet {} (t.ring p r).skips (s.ring p r).tail).bytes = n := by
  intro t
  let u := s.setEngine p e { s.engine p e with queue := markStored p layer chunk (s.engine p e).queue }
  have hFace : u.face p = _ := s.face_setEngine ..
  have hRing : u.ring p r = s.ring p r := by rw [State.ring, hFace, State.ring]
  have hAt : t.ring p r = u.publishedRing p r k n tag := u.ring_setRing_same _ (by rw [hFace]; exact hIn)
  refine ⟨(s.setEngine_same ..).trans (u.setRing_same ..), ?_, ?_, ?_, ?_⟩
  · rw [show t.face p = _ from u.face_setRing p r _, hFace]
  · rw [hAt, State.publishedRing, hRing]
  · rw [hAt, State.publishedRing, hRing, spGet_spSet, if_pos rfl]
  · rw [hAt, State.publishedRing, hRing, spGet_spSet, if_pos rfl]

/-- From s to t the bytes stand at a and the ring has one skip more, of them. -/
structure State.Joined (s t : State) (p r a k : Nat) (b : Bytes) : Prop where
  mem : t.mem = (s.writeMem a b).mem
  badReads : t.badReads = s.badReads
  missed : (t.face p).missed = (s.face p).missed
  tail : (t.ring p r).tail = ((s.ring p r).tail + 1) % 65536

/-- A chunk that joins its skip: its bytes, some count, then the skip. -/
theorem State.tramDone_joined (s u : State) {a p r : Nat} (b : Bytes) (e layer chunk k : Nat) (tag : Option (BitVec 4)) (n : Nat)
    (hMem : a < regBase) (hIn : r < (s.face p).rings.length) (hFaces : u.faces = (s.busWrite a b).faces)
    (hWritten : u.mem = (s.busWrite a b).mem) (hReads : u.badReads = (s.busWrite a b).badReads) :
    let t := u.tramDone p e r layer chunk k tag n
    s.Joined t p r a k b ∧ t.reg = u.reg ∧
      (spGet {} (t.ring p r).skips (s.ring p r).tail).place = k ∧ (spGet {} (t.ring p r).skips (s.ring p r).tail).bytes = n := by
  intro t
  have hFace : u.face p = (s.busWrite a b).face p := by rw [State.face, hFaces, State.face]
  obtain ⟨hRings, hMissed⟩ := s.face_busWrite b p hMem
  have hRing : u.ring p r = s.ring p r := by rw [State.ring, hFace, hRings, State.ring]
  obtain ⟨hSame, hMissedT, hTail, hPlace, hBytes⟩ := u.tramDone_spec e layer chunk k tag n (r := r) (by rw [hFace, hRings]; exact hIn)
  rw [hRing] at hTail hPlace hBytes
  rw [hFace, hMissed] at hMissedT
  have hSameWrite := s.busWrite_same b hMem
  exact ⟨⟨(hSame.keeps State.mem (fun _ _ => rfl)).trans (hWritten.trans (hSameWrite.keeps State.mem (fun _ _ => rfl))),
    (hSame.keeps State.badReads (fun _ _ => rfl)).trans (hReads.trans (hSameWrite.keeps State.badReads (fun _ _ => rfl))), hMissedT, hTail⟩,
    hSame.keeps State.reg (fun _ _ => rfl), hPlace, hBytes⟩

/-! A chunk that arrives. -/

theorem State.takeChunk_of_none {s : State} {p : Nat} {c : TramChunk} (h : s.tramMover p c.layer c.chunk = none) : s.takeChunk p c = s := by
  unfold State.takeChunk
  rw [h]

theorem State.takeChunk_of_room {s : State} {p e r k : Nat} {c : TramChunk} {d : Desc} (hMover : s.tramMover p c.layer c.chunk = some e)
    (hDesc : s.tramDesc p e c.layer c.chunk = some d) (hRing : d.dstRing = some r) (hPlace : s.nextPlace p r = some k) (hRuns : s.faceRuns p = true)
    (hRoom : s.ringRoom p r = true) (hFilling : (s.ring p r).filling = none) (hTime : s.now ≤ c.dueBy)
    (hFits : c.data.length ≤ (s.ringRec p r).skipBytes) : s.takeChunk p c = s.tramStore p e r c.layer c.chunk k d.firstTag c.data := by
  unfold State.takeChunk
  rw [hMover]
  dsimp only
  rw [hDesc]
  dsimp only
  rw [hRing]
  dsimp only [Option.getD_some]
  rw [hPlace]
  dsimp only
  rw [if_pos (by rw [hRuns, hRoom, hFilling, decide_eq_true hTime, decide_eq_true hFits]; rfl)]

theorem State.takeChunk_of_late {s : State} {p e r k : Nat} {c : TramChunk} {d : Desc} (hMover : s.tramMover p c.layer c.chunk = some e)
    (hDesc : s.tramDesc p e c.layer c.chunk = some d) (hRing : d.dstRing = some r) (hPlace : s.nextPlace p r = some k) (hLate : c.dueBy < s.now) :
    s.takeChunk p c = s.tramLeave p e c.layer c.chunk c.dueBy c.data.length := by
  unfold State.takeChunk
  rw [hMover]
  dsimp only
  rw [hDesc]
  dsimp only
  rw [hRing]
  dsimp only [Option.getD_some]
  rw [hPlace]
  dsimp only
  rw [if_neg (by rw [decide_eq_false (Nat.not_le.mpr hLate)]; simp)]

theorem State.face_bumpReg (s : State) (a n p : Nat) : (s.bumpReg a n).face p = s.face p := by
  rw [State.face, State.bumpReg_faces, State.face]

theorem State.ring_bumpReg (s : State) (a n p r : Nat) : (s.bumpReg a n).ring p r = s.ring p r := by
  rw [State.ring, State.face_bumpReg, State.ring]

theorem State.mem_chunkSeen (s : State) (c : TramChunk) (p : Nat) : (s.chunkSeen c p).mem = s.mem := rfl

theorem State.face_chunkSeen (s : State) (c : TramChunk) (p q : Nat) : (s.chunkSeen c p).face q = s.face q := rfl

theorem State.ring_chunkSeen (s : State) (c : TramChunk) (p q r : Nat) : (s.chunkSeen c p).ring q r = s.ring q r := rfl

theorem State.regNat_chunkSeen (s : State) (c : TramChunk) (p a : Nat) : (s.chunkSeen c p).regNat a = s.regNat a := rfl

theorem State.tramStore_eq (s : State) (p e r layer chunk place : Nat) (tag : Option (BitVec 4)) (data : Bytes) :
    s.tramStore p e r layer chunk place tag data =
      ((s.busWrite (s.bufferAt p r place) data).tramDone p e r layer chunk place tag data.length).bumpReg (fceReg p (0x404 + 16 * e)) data.length :=
  rfl

/-! A missed chunk read again. -/

theorem State.refetchBytes_of_sound {s : State} {g : Engine} {d : Desc} {a n : Nat} (hSound : s.spanError a n false = none)
    (hClean : s.poisonAt [(a, n)] = none) (hCredit : d.rateEn = true → 256 * n ≤ g.credit) : s.refetchBytes g d a n = n := by
  unfold State.refetchBytes
  rw [hSound, hClean]
  simp only [Option.elim_none, Nat.min_self]
  refine if_neg fun h => ?_
  have hEnough := hCredit h.1
  omega

/-- A face's only missed chunk, read to its end, is missed no more. -/
theorem State.refetch_of_whole {s : State} {p e r k : Nat} {m : TramMissed} {d : Desc} (hMissed : (s.face p).missed = [m])
    (hBytes : ∀ g : Engine, g.credit = ((s.engine p e).accrue s.now (if d.rateEn then d.share else 0)).credit →
      s.refetchBytes g d (d.auxSrc + m.done) (m.bytes - m.done) = m.bytes - m.done) :
    ∃ u, s.SameButFaces u ∧ (u.face p).missed = [] ∧ (u.face p).rings = (s.face p).rings ∧
      s.refetch p e r k m d = (((u.busWrite (s.bufferAt p r k + m.done) (s.memBytes (d.auxSrc + m.done) (m.bytes - m.done))).bumpReg
        (fceReg p (0x404 + 16 * e)) (m.bytes - m.done)).tramDone p e r m.layer m.chunk k d.firstTag m.bytes).bumpReg (fceReg p 0x520) 1 := by
  have hWhole : decide (m.bytes ≤ m.done + (m.bytes - m.done)) = true := decide_eq_true (by omega)
  have hErased : (s.face p).missed.erase m = [] := by rw [hMissed, List.erase_cons_head]
  unfold State.refetch
  dsimp only
  have hAll := hBytes { (s.engine p e).accrue s.now (if d.rateEn then d.share else 0) with key := m.dueBy } rfl
  rw [hAll, if_pos hWhole, if_pos hWhole, hErased]
  refine ⟨_, (s.setFace_same ..).trans (State.setEngine_same ..), ?_, ?_, rfl⟩
  · rw [State.face_setEngine, State.face_setFace, if_pos rfl]
  · rw [State.face_setEngine, State.face_setFace, if_pos rfl]

theorem State.tramRefetch_of_room {s : State} {p e r k : Nat} {m : TramMissed} {d : Desc} (hMissed : (s.face p).missed = [m]) (hEngine : m.engine = e)
    (hDesc : s.tramDesc p e m.layer m.chunk = some d) (hRing : d.dstRing = some r)
    (hPlace : (if m.done = 0 then s.nextPlace p r else (s.ring p r).filling) = some k) (hFilling : m.done = 0 → (s.ring p r).filling = none)
    (hMay : (faceWf p && s.faceRuns p && s.ringRoom p r) = true) (hStopped : (s.engine p e).stopped = false) :
    s.tramRefetch p e = s.refetch p e r k m d := by
  have hFound : (s.face p).missed.find? (fun m => m.engine == e) = some m := by simp [hMissed, hEngine]
  have hFree : (m.done != 0 || (s.ring p r).filling.isNone) = true := by
    by_cases hDone : m.done = 0
    · simp [hFilling hDone]
    · simp [hDone]
  unfold State.tramRefetch
  rw [hFound]
  dsimp only
  rw [hDesc]
  dsimp only
  rw [hRing]
  dsimp only
  rw [hPlace]
  dsimp only
  rw [hMay, hStopped, hFree]
  rfl

theorem fceReg_bytes_ne (p e : Nat) : fceReg p 0x520 ≠ fceReg p (0x404 + 16 * e) := by
  unfold fceReg
  omega

/-- Settles O42: a chunk taken is stored or noted as missed; a missed one read whole is stored. -/
theorem tramsDeliver : Obligations.TramsDeliver := by
  unfold Obligations.TramsDeliver
  intro s p c hFace hHome hOther hLevel hDrift hNext hReaches
  have hArrive : exec (.tramChunkArrive c.home p c.layer c.chunk c.dueBy c.data) s = .next ((s.takeChunk p c).chunkSeen c p) := by
    show execTramChunkArrive _ _ _ _ _ _ s = _
    unfold execTramChunkArrive
    rw [hNext]
    refine when_true ?_ s _
    rw [hFace, hHome, hReaches, hLevel, hDrift]
    simp [hOther]
  refine ⟨fun hNone => by rw [hArrive, State.takeChunk_of_none hNone],
    fun e r k d hRuns hMover hDesc hRing hIn hPlace hLow => ⟨fun hRoom hFilling hTime hFits => ?stored, fun hLate => ?late⟩,
    fun m e r k d hMissed hEngine hRuns hDesc hRing hPlace hFilling hRoom hIn hStopped => ?again⟩
  case stored =>
    obtain ⟨hJoined, -, hAt, hBytes⟩ := s.tramDone_joined (s.busWrite (s.bufferAt p r k) c.data) c.data e c.layer c.chunk k d.firstTag c.data.length
      hLow hIn rfl rfl rfl
    rw [State.takeChunk_of_room hMover hDesc hRing hPlace hRuns hRoom hFilling hTime hFits, State.tramStore_eq] at hArrive
    have hMem : ∀ u : State, u.mem = (s.writeMem (s.bufferAt p r k) c.data).mem →
        ((u.bumpReg (fceReg p (0x404 + 16 * e)) c.data.length).chunkSeen c p).mem = (s.writeMem (s.bufferAt p r k) c.data).mem := fun u h => by
      rw [State.mem_chunkSeen, State.bumpReg_mem, h]
    obtain ⟨hInside, hOutside⟩ := State.readByte_of_written (hMem _ hJoined.mem)
    refine ⟨_, hArrive, hInside, hOutside, ?_⟩
    rw [State.ring_chunkSeen, State.ring_bumpReg]
    exact ⟨hJoined.tail, hAt, hBytes⟩
  case late =>
    rw [State.takeChunk_of_late hMover hDesc hRing hPlace hLate] at hArrive
    refine ⟨_, hArrive, ?_, ?_, ?_⟩
    · rw [State.face_chunkSeen, State.tramLeave, State.face_bumpReg, State.face_setFace, if_pos rfl]
    · rw [State.regNat_chunkSeen, State.tramLeave, State.regNat_bumpReg_same]
      rfl
    · rw [State.mem_chunkSeen, State.tramLeave, State.bumpReg_mem]
      rfl
  case again =>
    intro a n hSound hClean hLow hCredit
    obtain ⟨u, hSame, hNone, hRings, hRefetch⟩ := State.refetch_of_whole (s := s) (p := p) (e := e) (r := r) (k := k) (d := d) hMissed fun g hg =>
      State.refetchBytes_of_sound hSound hClean fun hRate => by
        rw [hg, if_pos hRate]
        exact hCredit hRate
    have hBytes : (s.memBytes a n).length = n := State.memBytes_length ..
    let w := (u.busWrite (s.bufferAt p r k + m.done) (s.memBytes a n)).bumpReg (fceReg p (0x404 + 16 * e)) n
    obtain ⟨hJoined, hRegs, -, -⟩ := u.tramDone_joined w (s.memBytes a n) e m.layer m.chunk k d.firstTag m.bytes hLow (by rw [hRings]; exact hIn)
      (State.bumpReg_faces ..) (State.bumpReg_mem ..) (State.bumpReg_badReads ..)
    have hExec : exec (.tramRefetch p e) s = .next ((w.tramDone p e r m.layer m.chunk k d.firstTag m.bytes).bumpReg (fceReg p 0x520) 1) := by
      show ok ((s.tramRefetch p e).declareReads s.badReads) = _
      rw [State.tramRefetch_of_room hMissed hEngine hDesc hRing hPlace hFilling (by rw [hFace, hRuns, hRoom]; rfl) hStopped, hRefetch]
      have hReads : ((w.tramDone p e r m.layer m.chunk k d.firstTag m.bytes).bumpReg (fceReg p 0x520) 1).badReads = s.badReads :=
        (State.bumpReg_badReads ..).trans (hJoined.badReads.trans (hSame.keeps State.badReads (fun _ _ => rfl)))
      rw [← hReads]
      exact congrArg Host.Outcome.next (State.declareReads_self _)
    have hMem := (State.bumpReg_mem (w.tramDone p e r m.layer m.chunk k d.firstTag m.bytes) (fceReg p 0x520) 1).trans hJoined.mem
    have hRing : u.ring p r = s.ring p r := by rw [State.ring, hRings, State.ring]
    refine ⟨_, hExec, ?_, fun i hi => ?_, ?_, ?_⟩
    · rw [State.face_bumpReg, hJoined.missed, hNone]
    · exact (State.readByte_of_written hMem).1 i (hBytes.symm ▸ hi)
    · rw [State.ring_bumpReg, hJoined.tail, hRing]
    · have hWritten := u.busWrite_same (s.memBytes a n) hLow
      rw [State.regNat_bumpReg_same, State.regNat, hRegs, State.reg_bumpReg_other _ _ (fceReg_bytes_ne p e),
        hWritten.keeps (fun u => u.reg (fceReg p 0x520)) (fun _ _ => rfl)]
      exact congrArg (fun b : BitVec 32 => min (b.toNat + 1) 0xFFFFFFFF) (hSame.keeps (fun u => u.reg (fceReg p 0x520)) (fun _ _ => rfl))

end Sys2Proof.Machine
end

section
/-! PROOFS. The motion engine and packed maps (R204 to R213). -/

namespace Sys2Proof.Machine
open Sys2Proof

/-! Lists of small numbers packed into bytes. -/

theorem chunksFuel_getElem {α : Type} {n : Nat} (hn : 0 < n) (fuel : Nat) : ∀ (l : List α) (i : Nat), l.length ≤ fuel → i < l.length →
    (chunksFuel n fuel l)[i / n]? = some ((l.drop (i / n * n)).take n) := by
  induction fuel with
  | zero => exact fun l i hFuel hi => absurd hi (by omega)
  | succ fuel ih =>
    intro l i hFuel hi
    cases l with
    | nil => cases hi
    | cons a l =>
      rw [chunksFuel, if_neg (by simp)]
      by_cases hFirst : i < n
      · rw [Nat.div_eq_of_lt hFirst]
        simp
      · have hDiv : i / n = (i - n) / n + 1 := Nat.div_eq_sub_div hn (Nat.le_of_not_lt hFirst)
        have hLen : ((a :: l).drop n).length = (a :: l).length - n := List.length_drop
        rw [hDiv, List.getElem?_cons_succ, ih _ _ (by omega) (by omega), List.drop_drop, Nat.succ_mul, Nat.add_comm n]

theorem packBits_lt (w : Nat) (l : List Nat) : packBits (l.map (fun v => (v, w))) < 2 ^ (w * l.length) := by
  induction l with
  | nil => exact Nat.two_pow_pos _
  | cons v l ih =>
    have hLow := Nat.mod_lt v (Nat.two_pow_pos w)
    have hHigh := Nat.mul_le_mul_left (2 ^ w) (Nat.succ_le_of_lt ih)
    rw [List.length_cons, Nat.mul_succ, Nat.pow_add, Nat.mul_comm (2 ^ (w * l.length))]
    simp only [List.map_cons, packBits]
    rw [Nat.mul_succ] at hHigh
    omega

/-- A field of packed numbers is its number. -/
theorem bits_packBits (w : Nat) : ∀ (l : List Nat) (i : Nat), bits (packBits (l.map (fun v => (v, w)))) (w * i) w = l.getD i 0 % 2 ^ w := by
  intro l
  induction l with
  | nil => intro i; simp [packBits, bits]
  | cons v l ih =>
    intro i
    have hLow := Nat.mod_lt v (Nat.two_pow_pos w)
    cases i with
    | zero => simp [packBits, bits, Nat.add_mul_mod_self_left]
    | succ i =>
      rw [List.getD_cons_succ, ← ih i, bits, bits, Nat.mul_succ, Nat.add_comm, Nat.pow_add, ← Nat.div_div_eq_div_mul]
      simp only [List.map_cons, packBits]
      rw [Nat.add_mul_div_left _ _ (Nat.two_pow_pos w), Nat.div_eq_of_lt hLow, Nat.zero_add]

/-- Bytes of n numbers of w bits each. -/
def packedBytes (n w : Nat) (l : List Nat) : Bytes := (chunks n l).map (fun q => BitVec.ofNat 8 (packBits (q.map (fun v => (v, w)))))

theorem packClasses_eq (l : List Nat) : packClasses l = packedBytes 4 2 l := rfl

theorem packMap_eq (l : List Nat) : packMap l = packedBytes 2 4 l := rfl

/-- The i-th of numbers packed into bytes. -/
theorem packedBytes_field {n w : Nat} (hw : w * n = 8) (hn : 0 < n) {l : List Nat} {i : Nat} (hi : i < l.length) :
    ∃ b, (packedBytes n w l)[i / n]? = some b ∧ bits b.toNat (w * (i % n)) w = l.getD i 0 % 2 ^ w := by
  refine ⟨_, (List.getElem?_map ..).trans (congrArg (Option.map _) (chunksFuel_getElem hn _ l i (Nat.le_refl _) hi)), ?_⟩
  have hLess : packBits (((l.drop (i / n * n)).take n).map (fun v => (v, w))) < 2 ^ 8 :=
    Nat.lt_of_lt_of_le (packBits_lt w _) (Nat.pow_le_pow_right (by decide) (hw ▸ Nat.mul_le_mul_left w (List.length_take_le ..)))
  have hAt : ((l.drop (i / n * n)).take n).getD (i % n) 0 = l.getD i 0 := by
    rw [List.getD_eq_getElem?_getD, List.getElem?_take_of_lt (Nat.mod_lt i hn), List.getElem?_drop, Nat.div_add_mod', ← List.getD_eq_getElem?_getD]
  rw [BitVec.toNat_ofNat, Nat.mod_eq_of_lt hLess, bits_packBits, hAt]

/-! The skip map. -/

/-- What a band put into a skip map reads as. -/
theorem skipClass_putBand (map : Bytes) {w i : Nat} (b : Nat) {l : List Nat} (hw : w % 64 = 0) (hLen : l.length = w / 4) (hClass : ∀ v ∈ l, v < 4)
    (hi : i < w / 4) : skipClass (putBand map w b l) (b * (w / 4) + i) = l.getD i 0 := by
  have hQuarter : w / 4 = 4 * (w / 16) := by omega
  have hByte : (b * (w / 4) + i) / 4 = b * (w / 16) + i / 4 := by
    rw [hQuarter, Nat.mul_left_comm, Nat.mul_add_div (by decide)]
  have hField : (b * (w / 4) + i) % 4 = i % 4 := by
    rw [hQuarter, Nat.mul_left_comm, Nat.mul_add_mod]
  have hLess : l.getD i 0 < 4 := by
    rw [List.getD_eq_getElem _ _ (hLen ▸ hi)]
    exact hClass _ (List.getElem_mem _)
  obtain ⟨x, hAt, hBits⟩ := packedBytes_field (w := 2) (n := 4) rfl (by decide) (hLen ▸ hi : i < l.length)
  have hFront : ((map ++ List.replicate (b * (w / 16) - map.length) 0xAA).take (b * (w / 16))).length = b * (w / 16) := by
    rw [List.length_take, List.length_append, List.length_replicate]
    omega
  have hFound : (putBand map w b l)[b * (w / 16) + i / 4]? = some x := by
    rw [putBand, packClasses_eq, List.append_assoc, List.getElem?_append_right (by omega), hFront, Nat.add_sub_cancel_left,
      List.getElem?_append_left (List.getElem?_eq_some_iff.mp hAt).1, hAt]
  rw [skipClass, hByte, hFound]
  dsimp only
  rw [hField, hBits]
  exact Nat.mod_eq_of_lt hLess

/-! The motion engine. -/

/-- A tile appends its sixteen blocks. -/
theorem Session.tile_spec (x : Session) (f : EncFrame) (m : MotionEngine) (t : Nat) :
    ∃ new, new.length = 16 ∧ x.tile f m t = { m with vectors := m.vectors ++ new } := by
  have hFold : ∀ (l : List Nat) (m : MotionEngine), ∃ new, new.length = l.length ∧
      l.foldl (fun (m : MotionEngine) i => { m with vectors := m.vectors ++ [x.classify f m t (i / 4) (i % 4)] }) m =
        { m with vectors := m.vectors ++ new } := by
    intro l
    induction l with
    | nil => exact fun m => ⟨[], rfl, by rw [List.append_nil]; rfl⟩
    | cons i l ih =>
      intro m
      obtain ⟨new, hLen, hRest⟩ := ih { m with vectors := m.vectors ++ [x.classify f m t (i / 4) (i % 4)] }
      refine ⟨x.classify f m t (i / 4) (i % 4) :: new, congrArg Nat.succ hLen, hRest.trans ?_⟩
      simp
  exact hFold (List.range 16) m

/-- A load replaces its slot's column alone. -/
theorem MotionEngine.mem_load (m : MotionEngine) (pl : Plane) (j : Int) {c : Nat × Int × List Nat} (h : c.1 ≠ (j % 6).toNat) :
    c ∈ (m.load pl j).columns ↔ c ∈ m.columns := by
  unfold MotionEngine.load
  simp only [List.mem_append, List.mem_filter, List.mem_singleton]
  constructor
  · rintro (hOld | rfl)
    · exact hOld.1
    · exact absurd rfl h
  · exact fun hOld => Or.inl ⟨hOld, bne_iff_ne.mpr h⟩

theorem State.face_setFace_same (s : State) (p : Nat) (f : Face) : (s.setFace p f).face p = f := (State.face_setFace ..).trans (if_pos rfl)

/-- Three counters that follow each other, bumped in turn. -/
theorem State.regNat_bump3 (s : State) (p : Nat) (n : Nat → Nat) {k : Nat} (hk : k < 3) :
    (((s.bumpReg (fceReg p 0x304) (n 0)).bumpReg (fceReg p 0x308) (n 1)).bumpReg (fceReg p 0x30C) (n 2)).regNat (fceReg p (0x304 + 4 * k)) =
      min (s.regNat (fceReg p (0x304 + 4 * k)) + n k) 0xFFFFFFFF := by
  have hNe : ∀ {a b : Nat}, a ≠ b → fceReg p a ≠ fceReg p b := fun h hEq => h (by unfold fceReg at hEq; omega)
  match k, hk with
  | 0, _ =>
    rw [State.regNat_bumpReg_other _ _ (hNe (by decide)), State.regNat_bumpReg_other _ _ (hNe (by decide)), State.regNat_bumpReg_same]
  | 1, _ =>
    rw [State.regNat_bumpReg_other _ _ (hNe (by decide)), State.regNat_bumpReg_same, State.regNat_bumpReg_other _ _ (hNe (by decide))]
  | 2, _ =>
    rw [State.regNat_bumpReg_same, State.regNat_bumpReg_other _ _ (hNe (by decide)), State.regNat_bumpReg_other _ _ (hNe (by decide))]

/-- A frame with the blocks of the engine's band published, its flow in the given tensor. -/
def EncFrame.withBand (f : EncFrame) (h : Bytes) (m : MotionEngine) (tensor : Option Nat) : EncFrame :=
  let g := { f with
    skipMap := putBand f.skipMap (codedWidth h) m.band (bandClasses (codedWidth h) m.band m.vectors)
    flow := mergeBlocks f.flow (m.vectors.map (fun v => (v.block, v.vx * 4, v.vy * 4)))
    cost := mergeBlocks f.cost (m.vectors.map (fun v => (v.block, v.cost)))
    bandsDone := f.bandsDone ++ [m.band] }
  match tensor with
  | some i => { g with tensors := spSet g.tensors i (flowPlanes (codedWidth h / 16) (codedHeight h / 16) g.flow) }
  | none => g

theorem EncFrame.withBand_spec (f : EncFrame) (h : Bytes) (m : MotionEngine) (tensor : Option Nat) :
    let g := f.withBand h m tensor
    g.bandsDone = f.bandsDone ++ [m.band] ∧ g.slices = f.slices ∧
      g.skipMap = putBand f.skipMap (codedWidth h) m.band (bandClasses (codedWidth h) m.band m.vectors) ∧
      g.flow = mergeBlocks f.flow (m.vectors.map (fun v => (v.block, v.vx * 4, v.vy * 4))) ∧
      g.cost = mergeBlocks f.cost (m.vectors.map (fun v => (v.block, v.cost))) := by
  cases tensor <;> exact ⟨rfl, rfl, rfl, rfl, rfl⟩

/-- A face whose engine has published its band. -/
def Face.bandEnded (f : Face) (now : Nat) : Face :=
  { f with motion := { f.motion with busy := false, previous := f.motion.vectors, vectors := [] }, lastWork := now }

/-- Settles O44: each command's update of the engine, and the packed map's fields. -/
theorem motionCommandsAct : Obligations.MotionCommandsAct := by
  unfold Obligations.MotionCommandsAct
  refine ⟨fun s p hFace hRuns => ?_, fun map w b i l hw hLen hClass hi => skipClass_putBand map b hw hLen hClass hi⟩
  intro m
  refine ⟨fun session band f hIdle hEncode hVideo hFrame hBand hSlice => ?start, fun x f h hMotion =>
    ⟨fun block pls hPlanes hSearches hLoad => ?load, fun hMore hReady => ?tile, fun hAll => ?publish⟩⟩
  case start =>
    refine ⟨?started, ?startedBy, ?startedRest⟩
    case startedBy =>
      show execMotionBandStart p session band s = _
      unfold execMotionBandStart
      dsimp only
      rw [hFrame]
      refine when_true ?_ s _
      rw [hFace, hRuns, hEncode, hVideo, hSlice, decide_eq_true hBand, show (s.face p).motion.busy = false from hIdle]
      rfl
    case startedRest =>
      rw [State.face_setFace_same]
      exact ⟨rfl, rfl, rfl, rfl, rfl, rfl, fun k hk => s.face_setFace_other _ hk, rfl⟩
  case load =>
    refine ⟨?loaded, ?loadedBy, ?loadedRest⟩
    case loadedBy =>
      show execColumnBlockLoad p block s = _
      unfold execColumnBlockLoad
      rw [hMotion]
      dsimp only
      rw [hPlanes]
      refine when_true ?_ s _
      rw [hFace, hRuns, hSearches, hLoad]
      rfl
    case loadedRest =>
      rw [State.face_setFace_same]
      exact ⟨List.mem_append_right _ List.mem_cons_self, fun c hc => MotionEngine.mem_load _ _ _ hc, fun k hk => s.face_setFace_other _ hk, rfl⟩
  case tile =>
    obtain ⟨new, hLen, hNew⟩ := x.tile_spec f { m with tile := m.tilesDone } m.tilesDone
    refine ⟨?run, new, ?runBy, ?runRest⟩
    case runBy =>
      show execMotionTileStart p s = _
      unfold execMotionTileStart
      rw [hMotion]
      refine when_true ?_ s _
      rw [hFace, hRuns, show decide ((s.face p).motion.tilesDone < tileCount h) = true from decide_eq_true hMore]
      cases hSearches : f.searches with
      | false => rfl
      | true => rw [show (s.face p).motion.ready (s.face p).motion.tilesDone = true from hReady hSearches]; rfl
    case runRest =>
      have hVectors : (x.tile f { m with tile := m.tilesDone } m.tilesDone).vectors = m.vectors ++ new := by rw [hNew]
      have hDrop : (x.tile f { m with tile := m.tilesDone } m.tilesDone).vectors.drop m.vectors.length = new := by
        rw [hVectors, List.drop_left]
      refine ⟨?_, hLen, fun k hk => ?_, ?_, ?_⟩
      · rw [State.face_bumpReg, State.face_bumpReg, State.face_bumpReg, State.face_setFace_same]
        exact hVectors
      · refine (State.regNat_bump3 _ _ (fun k => classCount _ k) hk).trans ?_
        rw [hDrop]
        rfl
      · rw [State.bumpReg_sessions, State.bumpReg_sessions, State.bumpReg_sessions]
        rfl
      · rw [State.bumpReg_mem, State.bumpReg_mem, State.bumpReg_mem]
        rfl
  case publish =>
    have hExec : exec (.motionBandPublish p) s = .next ((s.setFace p ((s.face p).bandEnded s.now)).setSes m.session
        { s.ses m.session with frame := some (f.withBand h m (flowTensor (s.pkg x.modelSlot))) }) := by
      show execMotionBandPublish p s = _
      unfold execMotionBandPublish
      rw [hMotion]
      refine when_true ?_ s _
      rw [hFace, hRuns, show (s.face p).motion.tilesDone = tileCount h from hAll]
      simp
    obtain ⟨hBands, hSlices, hSkip, hFlow, hCost⟩ := f.withBand_spec h m (flowTensor (s.pkg x.modelSlot))
    refine ⟨_, _, hExec, ?_, hBands, hSlices, hSkip, hFlow, hCost, ?_, ?_, fun k hk => ?_, rfl, rfl⟩
    · rw [State.ses_setSes, if_pos rfl]
    · exact congrArg (fun v : Face => v.motion.busy) (s.face_setFace_same p ((s.face p).bandEnded s.now))
    · exact congrArg (fun v : Face => v.motion.previous) (s.face_setFace_same p ((s.face p).bandEnded s.now))
    · exact s.face_setFace_other ((s.face p).bandEnded s.now) hk

end Sys2Proof.Machine
end

section
/-! PROOFS. Region maps (R197 to R202). -/

namespace Sys2Proof.Machine
open Sys2Proof

theorem foldl_max_spec (l : List Nat) : ∀ a, (a ≤ l.foldl max a ∧ ∀ v ∈ l, v ≤ l.foldl max a) ∧ (l.foldl max a = a ∨ l.foldl max a ∈ l) := by
  induction l with
  | nil => exact fun a => ⟨⟨Nat.le_refl a, fun _ h => (List.not_mem_nil h).elim⟩, Or.inl rfl⟩
  | cons x l ih =>
    intro a
    obtain ⟨⟨hBase, hAll⟩, hFrom⟩ := ih (max a x)
    refine ⟨⟨(Nat.le_max_left a x).trans hBase, fun v hv => ?_⟩, ?_⟩
    · rcases List.mem_cons.mp hv with rfl | hRest
      · exact (Nat.le_max_right a v).trans hBase
      · exact hAll v hRest
    · rcases hFrom with hEq | hMem
      · rcases Nat.le_total x a with hLess | hMore
        · exact Or.inl (hEq.trans (Nat.max_eq_left hLess))
        · exact Or.inr (List.mem_cons.mpr (Or.inl (hEq.trans (Nat.max_eq_right hMore))))
      · exact Or.inr (List.mem_cons_of_mem x hMem)

/-- Does the box overlap block i of a map of blocks, bw in a row? -/
def Overlaps (bw i : Nat) (b : Nat × Nat × Nat × Nat × Nat) : Prop :=
  max b.1 (i % bw * 16) < min b.2.1 (i % bw * 16 + 16) ∧ max b.2.2.1 (i / bw * 16) < min b.2.2.2.1 (i / bw * 16 + 16)

/-- A block's weight: none above it overlaps, and it is 0 or that of a box that overlaps. -/
theorem paintMap_spec (w h : Nat) (boxes : List (Nat × Nat × Nat × Nat × Nat)) {i : Nat} (hi : i < (w + 15) / 16 * ((h + 15) / 16)) :
    let v := (paintMap w h boxes).getD i 0
    (∀ b ∈ boxes, Overlaps ((w + 15) / 16) i b → b.2.2.2.2 ≤ v) ∧ (v = 0 ∨ ∃ b ∈ boxes, Overlaps ((w + 15) / 16) i b ∧ b.2.2.2.2 = v) := by
  intro v
  let weight : Nat × Nat × Nat × Nat × Nat → Nat := fun b =>
    if max b.1 (i % ((w + 15) / 16) * 16) < min b.2.1 (i % ((w + 15) / 16) * 16 + 16) ∧
      max b.2.2.1 (i / ((w + 15) / 16) * 16) < min b.2.2.2.1 (i / ((w + 15) / 16) * 16 + 16) then b.2.2.2.2 else 0
  have hValue : v = (boxes.map weight).foldl max 0 := by
    simp only [v, paintMap, List.getD_eq_getElem?_getD, List.getElem?_map, List.getElem?_range hi]
    rfl
  obtain ⟨⟨-, hAll⟩, hFrom⟩ := foldl_max_spec (boxes.map weight) 0
  rw [← hValue] at hAll hFrom
  refine ⟨fun b hb hOver => ?_, ?_⟩
  · have hLess := hAll _ (List.mem_map_of_mem hb)
    rwa [show weight b = b.2.2.2.2 from if_pos hOver] at hLess
  · rcases hFrom with hNone | hMem
    · exact Or.inl hNone
    · obtain ⟨b, hb, hEq⟩ := List.mem_map.mp hMem
      by_cases hOver : Overlaps ((w + 15) / 16) i b
      · exact Or.inr ⟨b, hb, hOver, (if_pos hOver).symm.trans hEq⟩
      · exact Or.inl (hEq.symm.trans (if_neg hOver))

/-- No more boxes are kept than the record allows. -/
theorem selectBoxes_length (r : RegionRec) (l : List RBox) : (selectBoxes r l).length ≤ r.maxKeep := by
  have hFold : ∀ (l kept : List RBox), kept.length ≤ r.maxKeep → (l.foldl (fun kept b =>
      if kept.length < r.maxKeep ∧ ¬ kept.any (suppresses r.iouT b) then kept ++ [b] else kept) kept).length ≤ r.maxKeep := by
    intro l
    induction l with
    | nil => exact fun _ h => h
    | cons b l ih =>
      refine fun kept hKept => ih _ ?_
      dsimp only
      split
      · next h => simpa using h.1
      · exact hKept
  exact hFold _ [] (Nat.zero_le _)

/-- Numbers below 16 read back from their packed map. -/
theorem mapValue_packMap {l : List Nat} (hSmall : ∀ v ∈ l, v < 16) {i : Nat} (hi : i < l.length) : mapValue (packMap l) i = l.getD i 0 := by
  obtain ⟨x, hAt, hBits⟩ := packedBytes_field (w := 4) (n := 2) rfl (by decide) hi
  have hLess : l.getD i 0 < 2 ^ 4 := by
    rw [List.getD_eq_getElem _ _ hi]
    exact hSmall _ (List.getElem_mem _)
  rw [mapValue, packMap_eq, List.getD_eq_getElem?_getD, hAt]
  exact hBits.trans (Nat.mod_eq_of_lt hLess)

theorem paintMap_length (w h : Nat) (boxes : List (Nat × Nat × Nat × Nat × Nat)) : (paintMap w h boxes).length = (w + 15) / 16 * ((h + 15) / 16) := by
  unfold paintMap
  rw [List.length_map, List.length_range]

/-- Boxes of small weight paint small numbers. -/
theorem paintMap_small {w h : Nat} {boxes : List (Nat × Nat × Nat × Nat × Nat)} (hSmall : ∀ b ∈ boxes, b.2.2.2.2 < 16) :
    ∀ v ∈ paintMap w h boxes, v < 16 := by
  intro v hv
  obtain ⟨i, hi, rfl⟩ := List.mem_iff_getElem.mp hv
  have hFrom := (paintMap_spec w h boxes (i := i) (paintMap_length w h boxes ▸ hi)).2
  rw [List.getD_eq_getElem _ _ hi] at hFrom
  rcases hFrom with hNone | ⟨b, hb, -, hEq⟩
  · omega
  · exact hEq ▸ hSmall b hb

/-- What is painted has the map of the focus box and the given ones; the frame's slices and the session's counters stay. -/
theorem Session.painted_spec (x : Session) (k : ModelPkg) (f : EncFrame) (boxes : List (Nat × Nat × Nat × Nat × Nat)) :
    ∃ g, (x.painted k f boxes).frame = some g ∧ g.slices = f.slices ∧ (x.painted k f boxes).counters = x.counters ∧
      g.rateMap = some (packMap (paintMap (hdrWidth x.header) (hdrHeight x.header)
        (focusBox x.settings (hdrWidth x.header) (hdrHeight x.header) :: boxes))) :=
  ⟨_, rfl, rfl, rfl, rfl⟩

theorem getD_of_all {α : Type} {P : α → Prop} {l : List α} (hAll : ∀ v ∈ l, P v) {d : α} (hd : P d) {i : Nat} : P (l.getD i d) := by
  rw [List.getD_eq_getElem?_getD]
  cases hAt : l[i]? with
  | none => exact hd
  | some v => exact hAll v (List.mem_of_getElem? hAt)

/-- Settles O45: the painted map is the greatest weight of each block, packed. -/
theorem regionMapPaints : Obligations.RegionMapPaints := by
  unfold Obligations.RegionMapPaints
  intro s id dets late f r hFrame hRegion hEncode hVideo hUnpainted hWeights hFocus w h cands boxes
  let x := s.ses id
  let x1 := x.painted (s.pkg x.modelSlot) f (if late then [] else r.painted cands)
  let x2 := if late then x1.bump 15 1 else x1.bump 14 (cands.countP (fun c => c.2))
  have hExec : exec (.regionMapPaint id dets late) s = .next (s.setSes id x2) := by
    show execRegionMapPaint id dets late s = _
    unfold execRegionMapPaint
    dsimp only
    rw [hFrame, hRegion]
    exact when_true (by rw [hEncode, hVideo, hUnpainted]; rfl) s _
  obtain ⟨g, hg, hSlices, hCounters, hMap⟩ := x.painted_spec (s.pkg x.modelSlot) f (if late then [] else r.painted cands)
  have hKept : x2.frame = x1.frame ∧ x2.counters =
      (if late then x.bump 15 1 else x.bump 14 (cands.countP (fun c => c.2))).counters := by
    cases late with
    | true => exact ⟨rfl, by simp only [x2, if_true, Session.bump]; rw [hCounters]⟩
    | false => exact ⟨rfl, by simp only [x2, Bool.false_eq_true, if_false, Session.bump]; rw [hCounters]⟩
  have hSmall : ∀ b ∈ boxes, b.2.2.2.2 < 16 := by
    intro b hb
    rcases List.mem_cons.mp hb with rfl | hOther
    · exact hFocus
    · cases late with
      | true => cases hOther
      | false =>
        obtain ⟨q, -, rfl⟩ := List.mem_map.mp hOther
        exact getD_of_all hWeights (by decide)
  have hAt : (s.setSes id x2).ses id = x2 := by rw [State.ses_setSes, if_pos rfl]
  refine ⟨_, g, _, hExec, ?_, hMap, ?_, fun i hi => ?_, hSlices, ?_, fun k hk => ?_, rfl⟩
  · rw [hAt, hKept.1, hg]
  · rw [RegionRec.painted, List.length_map]
    exact selectBoxes_length ..
  · dsimp only
    rw [mapValue_packMap (paintMap_small hSmall) (by rw [paintMap_length]; exact hi)]
    obtain ⟨hAll, hFrom⟩ := paintMap_spec w h boxes hi
    exact ⟨fun b hb hx hy => hAll b hb ⟨hx, hy⟩, hFrom.imp (fun h => h) fun ⟨b, hb, hOver, hEq⟩ => ⟨b, hb, hOver.1, hOver.2, hEq⟩⟩
  · rw [hAt, hKept.2]
  · rw [State.ses_setSes, if_neg hk]

end Sys2Proof.Machine
end

section
/-! PROOFS. The entropy coders' commands (R216 to R223, R229, R231). -/

namespace Sys2Proof.Machine
open Sys2Proof

/-! What a job's records leave. -/

theorem State.setFlags_frame (s : State) (p flags : Nat) (owner : Option Ctx) :
    (s.setFlags p flags owner).levels = s.levels ∧ (s.setFlags p flags owner).mem = s.mem := by
  unfold State.setFlags
  dsimp only
  split
  · exact ⟨State.setRegNat_levels .., State.setRegNat_mem ..⟩
  · exact ⟨((State.raise_raised ..).keeps State.levels (fun _ _ _ _ _ _ _ _ => rfl)).trans (State.setRegNat_levels ..),
      ((State.raise_raised ..).keeps State.mem (fun _ _ _ _ _ _ _ _ => rfl)).trans (State.setRegNat_mem ..)⟩

theorem State.noteYhat_frame (s : State) (d : CoderDesc) (l : List (Nat × Nat × Nat)) :
    (s.noteYhat d l).levels = s.levels ∧ (s.noteYhat d l).mem = s.mem := by
  unfold State.noteYhat
  dsimp only
  split <;> exact ⟨rfl, rfl⟩

/-- The level with a job more in its coders' queue, its lots held. -/
def State.queueCoder (s : State) (l : Nat) (j : CoderJob) (owners : List (Nat × Nat × Nat)) : State :=
  let v := s.level l
  s.setLevel l { v with coderQ := v.coderQ ++ [j], coderSeq := v.coderSeq + 1, lotOwners := v.lotOwners ++ owners }

/-! The commands. -/

section
variable {s : State} {p n : Nat} {desc : Bytes} (hFace : faceWf p = true) (hRuns : s.faceRuns p = true)
include hFace hRuns

theorem coderJobSubmit_refused (hBad : s.coderOk (levelOf p) desc = false) :
    exec (.coderJobSubmit p desc n) s = .next (s.portDone p (parseCoder desc).session (parseCoder desc).slice 3 0) := by
  refine (when_true (by rw [hFace, hRuns]; rfl) s _).trans (congrArg Host.Outcome.next (if_pos ?_))
  rw [hBad]
  rfl

/-- A sound descriptor joins its level's queue; beside that come flags, registers and the records' reconstruction. -/
theorem coderJobSubmit_queued (hGood : s.coderOk (levelOf p) desc = true) : ∃ t rs, exec (.coderJobSubmit p desc n) s = .next t ∧
    t.levels = (s.queueCoder (levelOf p) ((s.newJob p desc).feed rs)
      ((parseCoder desc).lots.map (fun k => (k, (s.level (levelOf p)).coderSeq, (parseCoder desc).session)))).levels ∧ t.mem = s.mem := by
  have hNot : ¬(!s.coderOk (levelOf p) desc) = true := by rw [hGood]; decide
  refine ⟨_, (s.nextRecords (s.newJob p desc) (min n ((s.newJob p desc).room (65536 * (lotRing (parseCoder desc).elem).2)))).records,
    (when_true (by rw [hFace, hRuns]; rfl) s _).trans (congrArg Host.Outcome.next (if_neg hNot)), ?_, ?_⟩
  · rw [(State.setFlags_frame ..).1, (State.noteYhat_frame ..).1, (State.lotsMin_frame ..).1]
    rfl
  · rw [(State.setFlags_frame ..).2, (State.noteYhat_frame ..).2, (State.lotsMin_frame ..).2.2.1]
    rfl

end

theorem State.stale_of_runs {s : State} {p : Nat} (h : s.faceRuns p = true) : s.stale p = false := by
  unfold State.faceRuns State.faceUp at h
  simp only [Bool.and_eq_true, Bool.not_eq_true'] at h
  exact h.1.1.1.1.1.2

theorem State.portDone_of_runs {s : State} {p : Nat} (h : s.faceRuns p = true) (session slice status bytes : Nat) :
    s.portDone p session slice status bytes =
      s.setFace p { s.face p with portDone := (s.face p).portDone ++ [(session, slice, status, bytes)] } :=
  if_neg (by rw [State.stale_of_runs h]; decide)

/-! A context's end. -/

section
variable {s : State} {l c x : Nat} {j : CoderJob} (hl : l < 4) (hc : c < 16) (hx : x < 4) (hUp : s.levelUp l = true)
  (hJob : (s.ctxAt l c x).job = some j)
include hl hc hx hUp hJob

/-- The fill of a context's tables, correctable or not. -/
theorem coderCacheFill_eq (uncorrectable : Bool) (hFilling : (s.ctxAt l c x).filling = true) :
    let v := s.ctxAt l c x
    let d := parseCoder j.desc
    let base := { v with filling := false, running := true, cache := s.fillCache l d }.look d.decode (s.jobTensors d)
    exec (.coderCacheFill l c x uncorrectable) s = .next (if uncorrectable then
      (s.poolUe l d.bank (some (.session d.session))).poolError l c x d.bank (some (.session d.session))
      else ((s.setCtx l c x (if d.decode then
          match (if d.bytes < 4 then none else decStart (j.data.take d.bytes)) with
          | some r => { base with range := r }
          | none => base.spoil
        else { base with range := encStart })).bumpReg (lvlReg l (0x408 + 16 * c))
          (if d.decode then min 4 (j.data.take d.bytes).length else 0)).runNext l c) := by
  show execCoderCacheFill l c x uncorrectable s = _
  unfold execCoderCacheFill
  dsimp only
  rw [hJob]
  refine when_true ?_ s _
  rw [hUp, hFilling, decide_eq_true hl, decide_eq_true hc, decide_eq_true hx]
  rfl

/-- The end of a job all of whose elements are done. -/
theorem coderJobComplete_eq (ok : Bool) (hFilling : (s.ctxAt l c x).filling = false)
    (hDone : (s.ctxAt l c x).done = jobElems (s.jobTensors (parseCoder j.desc))) :
    let v := s.ctxAt l c x
    let d := parseCoder j.desc
    let bad := v.malformed || v.range.read != d.bytes
    let tally := !bad && !(ok && crc32c j.data == j.tally)
    exec (.coderJobComplete l c x ok) s = .next (if d.decode then
      if bad || tally then (((if tally then
          (s.bumpReg (lvlReg l 0x840) 1).raise 0x13 1 0 l noFace (some (.session d.session)) (0x10 + c) 0 else s)).bumpReg
            (lvlReg l 0x314) 1).endCoder l c x 1
      else s.endCoder l c x 0
      else s.closeCoder l c x) := by
  show execCoderJobComplete l c x ok s = _
  unfold execCoderJobComplete
  dsimp only
  rw [hJob]
  refine when_true ?_ s _
  rw [hUp, hFilling, hDone, decide_eq_true hl, decide_eq_true hc, decide_eq_true hx]
  simp

end

theorem coderContextSwitch_eq {s : State} {l c : Nat} {a : List (Nat × Nat × Nat)} (hl : l < 4) (hc : c < 16) (hUp : s.levelUp l = true)
    (ha : ∀ e ∈ a, e.1 < 4) : exec (.coderContextSwitch l c a) s = .next ((s.arriveRecords l c a).runNext l c) := by
  have hAll : a.filter (fun e => decide (e.1 < 4)) = a := List.filter_eq_self.mpr fun e he => decide_eq_true (ha e he)
  show execCoderContextSwitch l c a s = _
  unfold execCoderContextSwitch
  rw [hAll]
  exact when_true (by rw [hUp, decide_eq_true hl, decide_eq_true hc]; rfl) s _

/-- Settles O46: each command's update, by the case of its descriptor. -/
theorem coderCommandsAct : Obligations.CoderCommandsAct := by
  unfold Obligations.CoderCommandsAct
  intro s
  refine ⟨fun p n desc hFace hRuns => ⟨fun hBad => ?refused, fun hGood hIn => ?queued⟩, fun l hl hUp => ⟨fun j q hHead hFree => ?dispatch,
    fun c hc => ⟨fun x hx j hJob => ?job, fun a ha => ⟨fun hNone => ?stays, fun i hSome => ?runs⟩⟩⟩⟩
  case refused =>
    refine ⟨_, coderJobSubmit_refused hFace hRuns hBad, ?_⟩
    rw [State.portDone_of_runs hRuns]
    exact ⟨congrArg Face.portDone (s.face_setFace_same p _), fun k hk => s.face_setFace_other _ hk, rfl⟩
  case queued =>
    obtain ⟨t, rs, hExec, hLevels, hMem⟩ := coderJobSubmit_queued (n := n) hFace hRuns hGood
    have hAt : t.level (levelOf p) = _ := (congrArg (fun v : List Level => v.getD (levelOf p) Level.zero) hLevels).trans (s.level_setLevel_same _ hIn)
    refine ⟨t, (s.newJob p desc).feed rs, hExec, ?_, rfl, rfl, rfl, ?_, fun k hk => ?_, hMem⟩
    · rw [hAt]
    · rw [hAt]
    · rw [hAt]
      exact List.mem_append_right _ (List.mem_map.mpr ⟨k, hk, rfl⟩)
  case dispatch =>
    show execCoderJobDispatch l s = _
    unfold execCoderJobDispatch
    dsimp only
    rw [hHead, hFree]
    exact when_true (by rw [decide_eq_true hl, hUp]; rfl) s _
  case job =>
    intro v d
    refine ⟨fun hFilling => ?fill, fun hFilling hDone => ⟨fun ok hEncode => ?close, fun hDecode hWell hRead => ?decoded, fun ok hDecode hBad => ?malformed⟩⟩
    case fill =>
      intro base
      have hExec := fun u => coderCacheFill_eq hl hc hx hUp hJob u hFilling
      refine ⟨fun hEncode => ?_, fun r hDecode hBytes hData hStart => ?_, hExec true⟩
      · have hNot : ¬(parseCoder j.desc).decode = true := Bool.eq_false_iff.mp hEncode
        rw [hExec, if_neg Bool.false_ne_true, if_neg hNot, if_neg hNot]
      · have hFour : min 4 (j.data.take (parseCoder j.desc).bytes).length = 4 := by
          rw [List.length_take]
          exact Nat.min_eq_left (Nat.le_min.mpr ⟨hBytes, hData⟩)
        rw [hExec, if_neg Bool.false_ne_true, if_pos hDecode, if_pos hDecode, if_neg (Nat.not_lt.mpr hBytes), hFour, hStart]
    case close =>
      have hNot : ¬(parseCoder j.desc).decode = true := Bool.eq_false_iff.mp hEncode
      rw [coderJobComplete_eq hl hc hx hUp hJob ok hFilling hDone, if_neg hNot]
      exact ⟨fun hRoom => congrArg Host.Outcome.next (if_neg (Nat.not_lt.mpr hRoom)), fun hFull => congrArg Host.Outcome.next (if_pos hFull)⟩
    case decoded =>
      have hNotBad : ((s.ctxAt l c x).malformed || (s.ctxAt l c x).range.read != (parseCoder j.desc).bytes) = false := by
        rw [hWell, hRead, bne_self_eq_false]
        rfl
      refine ⟨fun hTally => ?_, fun ok hTally => ?_⟩
      · rw [coderJobComplete_eq hl hc hx hUp hJob true hFilling hDone, if_pos hDecode, hNotBad, beq_iff_eq.mpr hTally]
        rfl
      · have hNot : (ok && crc32c j.data == j.tally) = false := by
          rcases hTally with rfl | hDiffers
          · rfl
          · rw [beq_eq_false_iff_ne.mpr hDiffers, Bool.and_false]
        rw [coderJobComplete_eq hl hc hx hUp hJob ok hFilling hDone, if_pos hDecode, hNotBad, hNot]
        rfl
    case malformed =>
      have hIsBad : ((s.ctxAt l c x).malformed || (s.ctxAt l c x).range.read != (parseCoder j.desc).bytes) = true := by
        rcases hBad with hSpoilt | hDiffers
        · rw [hSpoilt, Bool.true_or]
        · rw [bne_iff_ne.mpr hDiffers, Bool.or_true]
      rw [coderJobComplete_eq hl hc hx hUp hJob ok hFilling hDone, if_pos hDecode, hIsBad]
      rfl
  case stays =>
    rw [coderContextSwitch_eq hl hc hUp ha, State.runNext, hNone]
  case runs =>
    rw [coderContextSwitch_eq hl hc hUp ha, State.runNext, hSome]

end Sys2Proof.Machine
end

section
/-! PROOFS. The block compressor's commands (R285, R310 to R313). -/

namespace Sys2Proof.Machine
open Sys2Proof

/-! What a register write leaves. -/

/-- t differs from s at most in its registers. -/
def State.SameButRegs (s t : State) : Prop := { t with regs := s.regs } = s

theorem State.SameButRegs.refl (s : State) : s.SameButRegs s := rfl

theorem State.SameButRegs.ite {s a b : State} {c : Prop} [Decidable c] (ha : s.SameButRegs a) (hb : s.SameButRegs b) :
    s.SameButRegs (if c then a else b) := by
  split
  · exact ha
  · exact hb

theorem State.SameButRegs.keeps {s t : State} {γ : Type} (h : s.SameButRegs t) (q : State → γ)
    (hq : ∀ (u : State) f, q { u with regs := f } = q u) : q t = q s := by
  unfold State.SameButRegs at h
  have hEq := congrArg q h
  rwa [hq] at hEq

theorem State.setReg_same (s : State) (a : Nat) (v : Word) : s.SameButRegs (s.setReg a v) := s.setReg_frame a v

theorem State.clearRecord_same (s : State) (valid : Nat) (words : List Nat) (mask : Nat) (v : Word) : s.SameButRegs (s.clearRecord valid words mask v) :=
  .ite (s.zeroRegs_frame words) (s.setReg_same ..)

/-- A register's write has no effect beyond the registers. -/
theorem State.writeEffect_same (s : State) (a : Nat) (v : Word) : s.SameButRegs (s.writeEffect a v) := by
  have hRecord := fun valid words mask => s.clearRecord_same valid words mask v
  unfold State.writeEffect
  split
  · exact .ite (s.setReg_same ..) (.ite (hRecord ..) (.ite (hRecord ..) (.ite (hRecord ..) (.ite (hRecord ..) (.refl s)))))
  · exact .refl s
  · exact .ite (hRecord ..) (.ite (hRecord ..) (.ite (hRecord ..) (.ite (hRecord ..) (.ite (hRecord ..) (.refl s)))))
  · exact .ite (hRecord ..) (.ite (hRecord ..) (.ite (hRecord ..) (.ite (s.setReg_same ..) (.refl s))))
  · exact .refl s

theorem State.busWrite_badReads (s : State) (a : Nat) (b : Bytes) : (s.busWrite a b).badReads = s.badReads := by
  unfold State.busWrite
  split
  · exact (s.writeEffect_same ..).keeps State.badReads (fun _ _ => rfl)
  · exact (State.untile_same ..).keeps State.badReads (fun _ _ => rfl)

theorem State.countBlk_badReads (s : State) (p c : Nat) : (s.countBlk p c).badReads = s.badReads := by
  unfold State.countBlk
  split
  · rfl
  · exact (s.bumpCtr_same p c).keeps State.badReads (fun _ _ => rfl)

theorem State.refuseBlk_badReads (s : State) (j : BlkJob) : (s.refuseBlk j).badReads = s.badReads := by
  unfold State.refuseBlk
  dsimp only
  rw [State.countBlk_badReads]
  split
  · exact State.busWrite_badReads ..
  · rfl

/-! The commands. -/

/-- The job a descriptor at an offset of a face's store asks for. -/
def State.blkJob (s : State) (p off : Nat) (work : Work) : BlkJob :=
  { face := p, ctx := work.ctx, desc := s.readMem (storeBase p + off) 64, key := s.workKey work, seq := (s.level (levelOf p)).blkSeq }

theorem State.queueBlk_spec (s : State) (p off : Nat) (work : Work) (h : levelOf p < s.levels.length) :
    let t := s.queueBlk p off work
    (t.level (levelOf p)).blkQ = (s.level (levelOf p)).blkQ ++ [s.blkJob p off work] ∧ (∀ l, l ≠ levelOf p → t.level l = s.level l) ∧
      (∀ q, q ≠ p → t.face q = s.face q) ∧ { t with levels := s.levels, faces := s.faces } = s := by
  refine ⟨?_, fun l hl => s.level_setLevel_other _ hl, fun q hq => State.face_setFace_other _ _ hq, rfl⟩
  exact congrArg Level.blkQ (s.level_setLevel_same _ h)

/-- Settles O47: each command's update, a refused descriptor leaving no read to declare. -/
theorem compressorCommandsAct : Obligations.CompressorCommandsAct := by
  unfold Obligations.CompressorCommandsAct
  intro s
  refine ⟨fun p off work c op hOp hCan hIn => ?queue, fun l j u hl hUp hHead hFree => ?dispatch, fun l u j hl hu hUp hJob => ?segment⟩
  case queue =>
    have hExec : exec c s = .next (s.queueBlk p off work) := by
      rcases hOp with ⟨rfl, rfl⟩ | ⟨rfl, rfl⟩ | ⟨rfl, rfl⟩ <;> exact when_true hCan s _
    obtain ⟨hQueue, hLevels, hFaces, hRest⟩ := s.queueBlk_spec p off work hIn
    refine ⟨_, _, hExec, hQueue, rfl, rfl, rfl, fun id hCtx => ?_, fun id hCtx => ?_, hLevels, hFaces, hRest⟩
    · rw [State.blkJob, State.workKey, hCtx]
    · rw [State.blkJob, State.workKey, hCtx]
  case dispatch =>
    intro v
    have hBegins : exec (.compressorDispatch l) s = .next ((v.beginBlk l u j).declareReads s.badReads) := by
      refine (when_true (by rw [decide_eq_true hl, hUp]; rfl) s _).trans ?_
      rw [State.dispatchBlk]
      rw [hHead, hFree]
    refine ⟨hBegins, fun hBad => ?_⟩
    have hRefused : v.beginBlk l u j = v.refuseBlk j := if_pos (by rw [hBad]; rfl)
    have hReads : (v.refuseBlk j).badReads = s.badReads := v.refuseBlk_badReads j
    rw [hBegins, hRefused, ← hReads, State.declareReads_self]
  case segment =>
    have hRuns : exec (.segmentComplete l u) s = .next ((s.segment l u).declareReads s.badReads) :=
      when_true (by rw [decide_eq_true hl, decide_eq_true hu, hUp]; rfl) s _
    rw [State.segment, hJob] at hRuns
    dsimp only at hRuns
    exact ⟨fun hOp => hRuns.trans (by rw [if_pos hOp]), fun hOp => hRuns.trans (by rw [if_neg hOp])⟩

end Sys2Proof.Machine
end

section
/-! PROOFS. Zero compression (R187 to R189): a page read back run by run. -/

namespace Sys2Proof.Machine
open Sys2Proof

/-! Bytes at a place of a byte string. -/

theorem natLe_length (n : Nat) : ∀ v, (natLe n v).length = n := by
  induction n with
  | zero => exact fun _ => rfl
  | succ n ih => exact fun v => congrArg Nat.succ (ih _)

theorem natLe_take (n m : Nat) : ∀ v, (natLe (n + m) v).take n = natLe n v := by
  induction n with
  | zero => exact fun _ => rfl
  | succ n ih =>
    intro v
    rw [Nat.succ_add]
    exact congrArg (BitVec.ofNat 8 v :: ·) (ih _)

theorem leNat_natLe (n : Nat) : ∀ v, v < 256 ^ n → leNat (natLe n v) = v := by
  induction n with
  | zero =>
    intro v hv
    simp only [Nat.pow_zero] at hv
    simp [natLe, leNat]
    omega
  | succ n ih =>
    intro v hv
    have hHigh : v / 256 < 256 ^ n := Nat.div_lt_of_lt_mul (by rwa [Nat.pow_succ, Nat.mul_comm] at hv)
    rw [natLe, leNat, ih _ hHigh, BitVec.toNat_ofNat]
    omega

theorem sub_append (pre mid rest : Bytes) : sub (pre ++ (mid ++ rest)) pre.length mid.length = mid := by
  rw [sub, List.drop_left, List.take_left]

theorem leAt_append (pre rest : Bytes) {n m v : Nat} (h : v < 256 ^ n) : leAt (pre ++ (natLe (n + m) v ++ rest)) pre.length n = v := by
  rw [leAt, sub, List.drop_left, List.take_append_of_le_length (by rw [natLe_length]; omega), natLe_take, leNat_natLe n v h]

/-! A run's mask. -/

/-- The mask of a run's present elements. -/
def zcMask (es : List Bytes) : Nat := ((List.range es.length).zip es).foldl (fun m q => if zcPresent q.2 then m + 2 ^ q.1 else m) 0

theorem zcMask_append (es : List Bytes) (e : Bytes) : zcMask (es ++ [e]) = zcMask es + if zcPresent e then 2 ^ es.length else 0 := by
  unfold zcMask
  rw [List.length_append, List.length_singleton, List.range_succ, List.zip_append (by simp), List.foldl_append]
  simp only [List.zip_cons_cons, List.zip_nil_right, List.foldl_cons, List.foldl_nil]
  split <;> rfl

theorem bitAt_add_above (v : Nat) {j n : Nat} (h : j < n) : bitAt (v + 2 ^ n) j = bitAt v j := by
  obtain ⟨d, rfl⟩ := Nat.exists_eq_add_of_lt h
  have hPow : 2 ^ (j + d + 1) = 2 ^ j * (2 * 2 ^ d) := by ring
  rw [bitAt, hPow, Nat.add_mul_div_left _ _ (Nat.two_pow_pos j), Nat.add_mul_mod_self_left, bitAt]

theorem zcMask_spec (es : List Bytes) : zcMask es < 2 ^ es.length ∧ ∀ j, j < es.length → bitAt (zcMask es) j = zcPresent (es.getD j []) := by
  induction es using List.reverseRecOn with
  | nil => exact ⟨Nat.one_pos, fun j hj => absurd hj (Nat.not_lt_zero j)⟩
  | append_singleton es e ih =>
    obtain ⟨hLess, hBits⟩ := ih
    have hPow : 2 ^ (es ++ [e]).length = 2 ^ es.length + 2 ^ es.length := by
      rw [List.length_append, List.length_singleton, Nat.pow_succ]
      omega
    rw [zcMask_append, hPow]
    refine ⟨by split <;> omega, fun j hj => ?_⟩
    rw [List.length_append, List.length_singleton] at hj
    by_cases hLast : j = es.length
    · obtain rfl := hLast
      rw [List.getD_append_right _ _ _ _ (Nat.le_refl _), Nat.sub_self, List.getD_cons_zero]
      cases zcPresent e with
      | false => simp [bitAt, Nat.div_eq_of_lt hLess]
      | true => simp [bitAt, Nat.add_div_right _ (Nat.two_pow_pos _), Nat.div_eq_of_lt hLess]
    · have hOld : j < es.length := by omega
      rw [List.getD_append _ _ _ _ hOld, ← hBits j hOld]
      cases zcPresent e with
      | false => rfl
      | true => exact bitAt_add_above (zcMask es) hOld

/-! A run read back. -/

theorem zeros_of_absent {e : Bytes} (h : zcPresent e = false) : e = zeros e.length := by
  rw [zcPresent, List.any_eq_false] at h
  exact List.eq_replicate_iff.mpr ⟨rfl, fun b hb => by simpa using h b hb⟩

/-- The present elements' bytes. -/
def zcData (es : List Bytes) : Bytes := (es.filter zcPresent).flatten

theorem zcRun_eq (es : List Bytes) : zcRun es = natLe 8 (zcMask es) ++ padTo (roundUp (zcData es).length 8) (zcData es) := rfl

theorem zcData_append (a b : List Bytes) : zcData (a ++ b) = zcData a ++ zcData b := by
  rw [zcData, List.filter_append, List.flatten_append, zcData, zcData]

theorem padTo_eq {n : Nat} {b : Bytes} (h : b.length ≤ n) : padTo n b = b ++ zeros (n - b.length) := by
  rw [padTo, List.take_of_length_le]
  rw [List.length_append, zeros, List.length_replicate]
  omega

theorem le_roundUp8 (n : Nat) : n ≤ roundUp n 8 ∧ roundUp n 8 < n + 8 ∧ roundUp n 8 % 8 = 0 := by
  rw [roundUp, if_neg (by decide)]
  omega

theorem zcRun_length (es : List Bytes) : (zcRun es).length = 8 + roundUp (zcData es).length 8 := by
  rw [zcRun_eq, padTo_eq (le_roundUp8 _).1, List.length_append, natLe_length, List.length_append, zeros, List.length_replicate]
  have h := (le_roundUp8 (zcData es).length).1
  omega

/-- One element of a run read: its bytes and the place after it. -/
def zcStep (eb : Nat) (page : Bytes) (off mask : Nat) (q : Bytes × Nat) (j : Nat) : Bytes × Nat :=
  if bitAt mask j then (q.1 ++ sub page (off + 8 + q.2) eb, q.2 + eb) else (q.1 ++ zeros eb, q.2)

/-- The first elements of a run that stands after pre. -/
theorem zcStep_run {eb : Nat} {es : List Bytes} (hLen : ∀ e ∈ es, e.length = eb) (pre rest : Bytes) :
    ∀ k, k ≤ es.length → (List.range k).foldl (zcStep eb (pre ++ (zcRun es ++ rest)) pre.length (zcMask es)) ([], 0) =
      ((es.take k).flatten, (zcData (es.take k)).length) := by
  intro k
  induction k with
  | zero => exact fun _ => rfl
  | succ k ih =>
    intro hk
    have hIn : k < es.length := hk
    obtain ⟨e, hAt⟩ : ∃ e, es[k] = e := ⟨_, rfl⟩
    have hElem : e.length = eb := hAt ▸ hLen _ (List.getElem_mem hIn)
    have hBit : bitAt (zcMask es) k = zcPresent e := by
      rw [(zcMask_spec es).2 k hIn, List.getD_eq_getElem _ _ hIn, hAt]
    have hTake : es.take (k + 1) = es.take k ++ [e] := by rw [← hAt, List.take_append_getElem hIn]
    have hSplit : es = es.take k ++ ([e] ++ es.drop (k + 1)) := by
      rw [← hAt, List.singleton_append, List.getElem_cons_drop hIn, List.take_append_drop]
    rw [List.range_succ, List.foldl_append, ih (by omega), List.foldl_cons, List.foldl_nil, zcStep, hBit, hTake, zcData_append,
      List.flatten_append, List.flatten_singleton]
    cases hPresent : zcPresent e with
    | false =>
      have hNone : zcData [e] = [] := by simp [zcData, hPresent]
      rw [if_neg (by decide), hNone, List.append_nil, ← hElem, ← zeros_of_absent hPresent]
    | true =>
      have hSome : zcData [e] = e := by simp [zcData, hPresent]
      have hData : zcData es = zcData (es.take k) ++ (e ++ zcData (es.drop (k + 1))) := by
        conv_lhs => rw [hSplit]
        rw [zcData_append, zcData_append, hSome]
      have hPage : pre ++ (zcRun es ++ rest) = (pre ++ (natLe 8 (zcMask es) ++ zcData (es.take k))) ++ (e ++ (zcData (es.drop (k + 1)) ++
          (zeros (roundUp (zcData es).length 8 - (zcData es).length) ++ rest))) := by
        rw [zcRun_eq, padTo_eq (le_roundUp8 _).1]
        conv_lhs => rw [hData]
        simp only [List.append_assoc, hData]
      have hPlace : pre.length + 8 + (zcData (es.take k)).length = (pre ++ (natLe 8 (zcMask es) ++ zcData (es.take k))).length := by
        rw [List.length_append, List.length_append, natLe_length, Nat.add_assoc]
      rw [if_pos rfl, hSome, List.length_append, hPage, hPlace, ← hElem, sub_append]

/-- A run that stands at the place being read gives its elements; the rest is read from its end on. -/
theorem zcRuns_run {eb fuel : Nat} {es run : List Bytes} {pre rest : Bytes} (hSome : es ≠ []) (hRun : run.length = min es.length 64)
    (hLen : ∀ e ∈ run, e.length = eb) : zcRuns eb (pre ++ (zcRun run ++ rest)) (fuel + 1) es.length pre.length =
      (zcRuns eb (pre ++ (zcRun run ++ rest)) fuel (es.length - min es.length 64) (pre.length + (zcRun run).length)).map
        (fun r => (run.flatten ++ r.1, r.2)) := by
  have hMask : leAt (pre ++ (zcRun run ++ rest)) pre.length 8 = zcMask run := by
    rw [zcRun_eq, List.append_assoc]
    refine leAt_append pre _ (n := 8) (m := 0) (Nat.lt_of_lt_of_le (zcMask_spec run).1 ?_)
    exact (Nat.pow_le_pow_right (by decide) (by omega : run.length ≤ 64)).trans (by decide)
  have hFit : ¬2 ^ min es.length 64 ≤ zcMask run := Nat.not_le.mpr (hRun ▸ (zcMask_spec run).1)
  have hStep := zcStep_run hLen pre rest run.length (Nat.le_refl _)
  rw [List.take_length, hRun] at hStep
  have hEmpty : ¬es.length = 0 := fun h => hSome (List.eq_nil_of_length_eq_zero h)
  rw [zcRuns, if_neg hEmpty]
  dsimp only
  rw [hMask, if_neg hFit]
  unfold zcStep at hStep
  rw [hStep, zcRun_length, ← Nat.add_assoc]
  cases zcRuns eb (pre ++ (zcRun run ++ rest)) fuel (es.length - min es.length 64) (pre.length + 8 + roundUp (zcData run).length 8) with
  | none => rfl
  | some r => rfl

/-- A page's runs read back, those of the chunks of es, from the first on. -/
theorem zcRuns_spec {eb : Nat} (fuel : Nat) : ∀ (f : Nat) (es : List Bytes) (pre : Bytes), es.length ≤ f → es.length ≤ 64 * fuel →
    (∀ e ∈ es, e.length = eb) → zcRuns eb (pre ++ ((chunksFuel 64 f es).map zcRun).flatten) fuel es.length pre.length =
      some (es.flatten, (pre ++ ((chunksFuel 64 f es).map zcRun).flatten).length) := by
  induction fuel with
  | zero =>
    intro f es pre hFuel hAll hLen
    obtain rfl : es = [] := List.eq_nil_of_length_eq_zero (Nat.le_zero.mp hAll)
    cases f <;> simp [zcRuns, chunksFuel]
  | succ fuel ih =>
    intro f es pre hFuel hAll hLen
    by_cases hNone : es = []
    · obtain rfl := hNone
      cases f <;> simp [zcRuns, chunksFuel]
    · obtain ⟨f, rfl⟩ : ∃ g, f = g + 1 := ⟨f - 1, by have := List.length_pos_iff.mpr hNone; omega⟩
      have hChunks : chunksFuel 64 (f + 1) es = es.take 64 :: chunksFuel 64 f (es.drop 64) := if_neg (by simpa using hNone)
      have hRun : (es.take 64).length = min es.length 64 := by rw [List.length_take, Nat.min_comm]
      have hRunLen : ∀ e ∈ es.take 64, e.length = eb := fun e he => hLen e (List.mem_of_mem_take he)
      have hDrop : (es.drop 64).length = es.length - min es.length 64 := by rw [List.length_drop]; omega
      rw [hChunks, List.map_cons, List.flatten_cons, zcRuns_run hNone hRun hRunLen, ← hDrop, ← List.append_assoc, ← List.length_append,
        ih f (es.drop 64) (pre ++ zcRun (es.take 64)) (by omega) (by omega) (fun e he => hLen e (List.mem_of_mem_drop he))]
      rw [Option.map_some, ← List.flatten_append, List.take_append_drop]

/-! A page. -/

theorem chunksFuel_cons {α : Type} {n f : Nat} {l : List α} (h : l ≠ []) : chunksFuel n (f + 1) l = l.take n :: chunksFuel n f (l.drop n) :=
  if_neg (by simpa using h)

theorem chunksFuel_nil {α : Type} (n f : Nat) : chunksFuel n f ([] : List α) = [] := by
  cases f <;> simp [chunksFuel]

/-- A list of c times n elements is cut into c runs of n. -/
theorem chunksFuel_exact {α : Type} {n : Nat} (hn : 0 < n) (c : Nat) : ∀ (f : Nat) (l : List α), l.length ≤ f → l.length = c * n →
    (chunksFuel n f l).length = c ∧ ∀ q ∈ chunksFuel n f l, q.length = n := by
  induction c with
  | zero =>
    intro f l _ hLen
    obtain rfl : l = [] := List.eq_nil_of_length_eq_zero (by rw [hLen, Nat.zero_mul])
    rw [chunksFuel_nil]
    exact ⟨rfl, fun _ h => (List.not_mem_nil h).elim⟩
  | succ c ih =>
    intro f l hFuel hLen
    rw [Nat.succ_mul] at hLen
    have hSome : l ≠ [] := List.ne_nil_of_length_pos (by omega)
    obtain ⟨f, rfl⟩ : ∃ g, f = g + 1 := ⟨f - 1, by omega⟩
    obtain ⟨hCount, hAll⟩ := ih f (l.drop n) (by rw [List.length_drop]; omega) (by rw [List.length_drop]; omega)
    rw [chunksFuel_cons hSome]
    refine ⟨congrArg Nat.succ hCount, fun q hq => ?_⟩
    rcases List.mem_cons.mp hq with rfl | hRest
    · rw [List.length_take]
      omega
    · exact hAll q hRest

theorem flatten_length_le {eb : Nat} {es : List Bytes} (h : ∀ e ∈ es, e.length = eb) : es.flatten.length = es.length * eb := by
  induction es with
  | nil => simp
  | cons e es ih =>
    rw [List.flatten_cons, List.length_append, List.length_cons, Nat.succ_mul, ih (fun x hx => h x (List.mem_cons_of_mem e hx)),
      h e List.mem_cons_self, Nat.add_comm]

/-- A page's runs take 8 bytes and their elements each, in whole words. -/
theorem zcBody_length {eb : Nat} (k : Nat) : ∀ (f : Nat) (es : List Bytes), es.length ≤ f → es.length ≤ 64 * k → (∀ e ∈ es, e.length = eb) →
    ((chunksFuel 64 f es).map zcRun).flatten.length ≤ k * (8 + 64 * eb) ∧ ((chunksFuel 64 f es).map zcRun).flatten.length % 8 = 0 := by
  induction k with
  | zero =>
    intro f es _ hAll _
    obtain rfl : es = [] := List.eq_nil_of_length_eq_zero (Nat.le_zero.mp hAll)
    rw [chunksFuel_nil]
    exact ⟨Nat.zero_le _, rfl⟩
  | succ k ih =>
    intro f es hFuel hAll hLen
    by_cases hNone : es = []
    · obtain rfl := hNone
      rw [chunksFuel_nil]
      exact ⟨Nat.zero_le _, rfl⟩
    · obtain ⟨f, rfl⟩ : ∃ g, f = g + 1 := ⟨f - 1, by have := List.length_pos_iff.mpr hNone; omega⟩
      obtain ⟨hLess, hWords⟩ := ih f (es.drop 64) (by rw [List.length_drop]; omega) (by rw [List.length_drop]; omega)
        (fun e he => hLen e (List.mem_of_mem_drop he))
      have hData : (zcData (es.take 64)).length ≤ 64 * eb := by
        rw [zcData, flatten_length_le (eb := eb) (fun e he => hLen e (List.mem_of_mem_take (List.mem_filter.mp he).1))]
        exact Nat.mul_le_mul_right eb ((List.length_filter_le ..).trans (List.length_take_le ..))
      obtain ⟨-, hUp, hWhole⟩ := le_roundUp8 (zcData (es.take 64)).length
      rw [chunksFuel_cons hNone, List.map_cons, List.flatten_cons, List.length_append, zcRun_length, Nat.succ_mul]
      omega

/-- Settles O48: the page's length reads back, and its runs give the elements. -/
theorem zeroCompressionRoundTrip : Obligations.ZeroCompressionRoundTrip := by
  unfold Obligations.ZeroCompressionRoundTrip
  intro ore n dense hn hDense
  have hElem : 0 < zcElem ore := by cases ore <;> decide
  let es := elemsOf (zcElem ore) dense
  obtain ⟨hCount, hLen⟩ := chunksFuel_exact hElem n dense.length dense (Nat.le_refl _) hDense
  have hJoin : es.flatten = dense := (chunksFuel_spec hElem dense.length dense (Nat.le_refl _)).1
  let body := ((chunksFuel 64 es.length es).map zcRun).flatten
  obtain ⟨hShort, hWhole⟩ : body.length ≤ 64 * (8 + 64 * zcElem ore) ∧ body.length % 8 = 0 := zcBody_length (eb := zcElem ore) 64 es.length es (Nat.le_refl _) (hCount.trans_le (by omega)) hLen
  have hSlot : 64 * (8 + 64 * zcElem ore) + 8 ≤ zcSlot ore ∧ zcSlot ore ≤ 8768 := by cases ore <;> decide
  have hLow : (body.length + 8) / 8 < 256 ^ 2 := by omega
  have hPage : zcPage (zcElem ore) dense = natLe 8 ((body.length + 8) / 8) ++ body := rfl
  have hHead : leAt (natLe 8 ((body.length + 8) / 8) ++ body) 0 2 = (body.length + 8) / 8 := leAt_append [] body (n := 2) (m := 6) hLow
  have hRuns : zcRuns (zcElem ore) (natLe 8 ((body.length + 8) / 8) ++ body) 65 es.length (natLe 8 ((body.length + 8) / 8)).length =
      some (es.flatten, (natLe 8 ((body.length + 8) / 8) ++ body).length) := zcRuns_spec 65 es.length es (natLe 8 ((body.length + 8) / 8)) (Nat.le_refl _) (hCount.trans_le (by omega)) hLen
  rw [natLe_length, show es.length = n from hCount] at hRuns
  unfold zcExpand
  rw [hPage, hHead]
  dsimp only
  rw [if_neg (by omega), hRuns]
  dsimp only
  rw [hJoin]
  refine if_pos ?_
  rw [List.length_append, natLe_length]
  omega

end Sys2Proof.Machine
end

section
/-! PROOFS. Encode sessions as frames run (R246, R249, R253, R255 to R259, R267). -/

namespace Sys2Proof.Machine
open Sys2Proof

/-! The count of frames bound to the old bank changes registers alone. -/

theorem State.SameButRegs.trans {s t u : State} (h : s.SameButRegs t) (k : t.SameButRegs u) : s.SameButRegs u := by
  unfold State.SameButRegs at *
  rw [← h, ← k]

theorem State.SameButRegs.each {β : Type} {s : State} (l : List β) (f : State → β → State) (hf : ∀ (t : State) b, t.SameButRegs (f t b)) :
    s.SameButRegs (s.each l f) :=
  State.each_rel State.SameButRegs State.SameButRegs.refl (fun _ _ _ h k => h.trans k) l f hf

theorem State.setField_sameButRegs (s : State) (a lo n v : Nat) : s.SameButRegs (s.setField a lo n v) := rfl

theorem State.countOld_sameButRegs (s : State) : s.SameButRegs s.countOld :=
  .ite (.ite ((State.SameButRegs.each _ _ fun t _ => t.setField_sameButRegs ..).trans (.each _ _ fun t _ => t.setField_sameButRegs ..))
    (.each _ _ fun t _ => t.setField_sameButRegs ..)) (.refl s)

theorem State.SameButRegs.ses {s t : State} (h : s.SameButRegs t) (id : Nat) : t.ses id = s.ses id := h.keeps (fun u => u.ses id) (fun _ _ => rfl)

/-- A session set, and the old bank's frames counted. -/
theorem State.setSes_countOld (s : State) (id : Nat) (x : Session) :
    (s.setSes id x).countOld.ses id = x ∧ (∀ j, j ≠ id → (s.setSes id x).countOld.ses j = s.ses j) ∧
      (s.setSes id x).countOld.mem = s.mem ∧
      { (s.setSes id x).countOld with sessions := s.sessions, regs := s.regs } = s := by
  have hSame := (s.setSes id x).countOld_sameButRegs
  refine ⟨?_, fun j hj => ?_, hSame.keeps State.mem (fun _ _ => rfl), ?_⟩
  · rw [hSame.ses, State.ses_setSes, if_pos rfl]
  · rw [hSame.ses, State.ses_setSes, if_neg hj]
  · exact congrArg (fun u : State => { u with sessions := s.sessions, regs := s.regs }) hSame

/-! A frame's first launch. -/

/-- The first launch chooses the references and leaves the rest of the frame and the pictures. -/
theorem Session.firstLaunch_spec {x : Session} {f : EncFrame} (h : x.frame = some f) (t tick : Nat) :
    (∃ inter refresh refSlot storeMask ltMask refNum first full, (x.firstLaunch t tick).frame =
      some { f with inter, refresh, refSlot, storeMask, ltMask, refNum, first, full, chosen := true }) ∧
      (x.firstLaunch t tick).ingest = x.ingest := by
  have hChoose : ∀ y : Session, y.choose.1.ingest = y.ingest := fun y => by
    unfold Session.choose
    dsimp only
    split
    · rfl
    · split
      · rfl
      · split <;> rfl
  have hTaken : (x.takeReports t).choose.1.ingest = x.ingest := hChoose (x.takeReports t)
  unfold Session.firstLaunch
  rw [h]
  dsimp only
  split
  · exact ⟨⟨_, _, _, _, _, _, _, _, rfl⟩, hTaken⟩
  · exact ⟨⟨_, _, _, _, _, _, _, _, rfl⟩, hTaken⟩

/-! A frame start. -/

theorem frameStart_eq {s : State} {id : Nat} (hLive : s.sesLive id = true) (hEncode : (s.ses id).decode = false) (hActive : (s.ses id).state = .active)
    (hFree : (s.ses id).frame = none) (hDue : (s.ses id).startOf (s.ses id).frameIndex ≤ s.now) :
    exec (.frameStart id) s = .next (if ((s.beforeFrame id).ses id).closesNow then (s.beforeFrame id).toClosing id true
      else (s.beforeFrame id).startFrame id) :=
  when_true (by rw [hLive, hEncode, hActive, hFree, decide_eq_true hDue]; rfl) s _

/-- A frame start on a whole picture: the latest complete one is encoded with every slice launched, and no earlier one is kept. -/
theorem Session.startWhole_spec {x : Session} {p : Picture} (bank t : Nat) (h : (x.ready (x.startOf x.frameIndex)).getLast? = some p) :
    ∃ f, (x.startWhole bank t).frame = some f ∧ f.num = x.nextFrameNum ∧ f.start = x.startOf x.frameIndex ∧
      f.deadline = x.deadlineOf x.frameIndex ∧ f.bank = (bank == 1) ∧ f.pic = some p.num ∧ f.source = p.planes x.header ∧ f.chosen = true ∧
      f.slices.length = sliceCount x.header ∧ (∀ k ∈ f.slices, k.st = 1) ∧
      ∀ c ∈ (x.startWhole bank t).ingest, c.doneBy (x.startOf x.frameIndex) = false := by
  let y := { x with ingest := x.ingest.filter (fun c => !c.doneBy (x.startOf x.frameIndex)) }
  have hWhole : x.startWhole bank t = (y.openFrame bank (some p)).firstLaunch t (x.startOf x.frameIndex) := by
    unfold Session.startWhole
    dsimp only
    rw [h]
  obtain ⟨⟨_, _, _, _, _, _, _, _, hFrame⟩, hIngest⟩ :=
    Session.firstLaunch_spec (x := y.openFrame bank (some p)) rfl t (x.startOf x.frameIndex)
  rw [hWhole]
  refine ⟨_, hFrame, rfl, rfl, rfl, rfl, rfl, rfl, rfl, by simp [y], fun k hk => ?_, fun c hc => ?_⟩
  · obtain ⟨k', -, rfl⟩ := List.mem_map.mp hk
    rfl
  · rw [hIngest] at hc
    simpa using (List.mem_filter.mp hc).2

/-! Bands and slices. -/

/-- A band launched: its slice alone is marked, on its picture, with the references chosen. -/
theorem Session.launchBand_spec {x : Session} {f : EncFrame} (p : Picture) (band t at' : Nat)
    (hBand : band < f.slices.length) : ∃ g, (x.launchBand f p band t at').frame = some g ∧ (g.slices.getD band {}).st = 1 ∧
      (∀ i, i ≠ band → g.slices.getD i {} = f.slices.getD i {}) ∧ g.source = p.planes x.header ∧ g.chosen = true := by
  have hHere : ((f.slices.modify band (fun k => { k with st := 1 })).getD band {}).st = 1 := by
    simp [List.getD_eq_getElem?_getD, hBand]
  have hOther : ∀ i, i ≠ band → (f.slices.modify band (fun k => { k with st := 1 })).getD i {} = f.slices.getD i {} := fun i hi => by
    simp [List.getD_eq_getElem?_getD, Ne.symm hi]
  unfold Session.launchBand
  dsimp only
  split
  · next hChosen => exact ⟨_, rfl, hHere, hOther, rfl, hChosen⟩
  · let x1 := x.takeBand f p band
    obtain ⟨⟨_, _, _, _, _, _, _, _, hLaunched⟩, -⟩ := Session.firstLaunch_spec
      (x := { x1 with frame := x1.frame.map (fun g => { g with slices := g.slices.modify band (fun k => { k with st := 1 }) }) }) rfl t (max f.start at')
    exact ⟨_, hLaunched, hHere, hOther, rfl, rfl⟩

/-- A slice dropped: none of the frame's slices goes back, and this one is over. -/
theorem Session.dropSlice_spec {x : Session} {f : EncFrame} (hFrame : x.frame = some f) (i : Nat) :
    ∃ g, (x.dropSlice i).frame = some g ∧ g.slices.length = f.slices.length ∧ (i < f.slices.length → 3 ≤ (g.slices.getD i {}).st) ∧
      ∀ j, 3 ≤ (f.slices.getD j {}).st → 3 ≤ (g.slices.getD j {}).st := by
  have hAt : ∀ j, j ≠ i → (f.slices.modify i (fun k => { k with st := 4, data := [] })).getD j {} = f.slices.getD j {} := fun j hj => by
    simp [List.getD_eq_getElem?_getD, Ne.symm hj]
  have hHere : i < f.slices.length → ((f.slices.modify i (fun k => { k with st := 4, data := [] })).getD i {}).st = 4 := fun hi => by
    simp [List.getD_eq_getElem?_getD, hi]
  have hLen : (f.slices.modify i (fun k => { k with st := 4, data := [] })).length = f.slices.length := List.length_modify ..
  have hOld : ¬3 ≤ (f.slices.getD i {}).st → ∀ j, 3 ≤ (f.slices.getD j {}).st →
      3 ≤ ((f.slices.modify i (fun k => { k with st := 4, data := [] })).getD j {}).st := fun hNot j hj => by
    rw [hAt j (fun h => hNot (h ▸ hj))]
    exact hj
  unfold Session.dropSlice
  rw [hFrame]
  dsimp only
  split
  · next hOver => exact ⟨f, hFrame, rfl, fun _ => hOver, fun _ h => h⟩
  · next hNot =>
    split
    · exact ⟨_, rfl, hLen, fun hi => (hHere hi).ge.trans' (by decide), hOld hNot⟩
    · exact ⟨_, rfl, hLen, fun hi => (hHere hi).ge.trans' (by decide), hOld hNot⟩

/-- Slices dropped one after the other are over, every one. -/
theorem Session.dropSlices_spec {f : EncFrame} (n : Nat) : ∀ {x : Session}, x.frame = some f → ∃ g,
    ((List.range n).foldl Session.dropSlice x).frame = some g ∧ g.slices.length = f.slices.length ∧
      ∀ i, i < n → i < f.slices.length → 3 ≤ (g.slices.getD i {}).st := by
  induction n with
  | zero => exact fun h => ⟨f, h, rfl, fun i hi => absurd hi (Nat.not_lt_zero i)⟩
  | succ n ih =>
    intro x h
    obtain ⟨g, hg, hLen, hOver⟩ := ih h
    obtain ⟨k, hk, hSame, hHere, hOld⟩ := Session.dropSlice_spec hg n
    rw [List.range_succ, List.foldl_append, List.foldl_cons, List.foldl_nil]
    refine ⟨k, hk, hSame.trans hLen, fun i hi hIn => ?_⟩
    by_cases hLast : i = n
    · exact hLast ▸ hHere (hLen ▸ hLast ▸ hIn)
    · exact hOld i (hOver i (by omega) hIn)

/-- A unit emitted while a destination takes units is held last, with its bytes. -/
theorem Session.emit_units {x : Session} {type : Nat} (hType : type ≠ 1) (hAny : x.egress.dests.any (fun d => !d.skipping) = true)
    (payload : Bytes) (now pts : Nat) (last : Bool) (tally : Nat) : ∃ v, (x.emit type payload now pts last tally).egress.units = x.egress.units ++ [v] ∧
      v.bytes = usfUnit type x.egress.unitSeq payload := by
  obtain ⟨d, hd, hOpen⟩ := List.any_eq_true.mp hAny
  obtain ⟨i, hi, rfl⟩ := List.mem_iff_getElem.mp hd
  have hHolds : i ∈ (List.range x.egress.dests.length).filter (fun i => !(x.egress.dests.getD i {}).skipping) :=
    List.mem_filter.mpr ⟨List.mem_range.mpr hi, by rw [List.getD_eq_getElem _ _ hi]; exact hOpen⟩
  have hSome : ¬((List.range x.egress.dests.length).filter (fun i => !(x.egress.dests.getD i {}).skipping)).isEmpty = true := fun h => by
    rw [List.isEmpty_iff.mp h] at hHolds
    cases hHolds
  unfold Session.emit
  rw [if_neg hType]
  dsimp only
  rw [if_neg hSome]
  exact ⟨_, rfl, rfl⟩

/-- Settles O49: activation, a frame start by its mode, bands, the deadline and the next slice. -/
theorem encodeSessionsRun : Obligations.EncodeSessionsRun := by
  unfold Obligations.EncodeSessionsRun
  intro s id hLive x
  refine ⟨fun hOpening hDue => ?activate, fun hEncode hActive hFree hDue => ?start, fun f hEncode hFrame => ⟨fun band p tm hSub hBand hNew hBegun hPic
    hTime hThere => ?band, fun hOpen hDue => ?deadline, fun i hNext hDue => ?emit, fun g hg k hk => ?dropped⟩⟩
  case activate =>
    refine ⟨_, when_true ?_ s _, ?_, fun j hj => ?_, rfl⟩
    · rw [hLive, show decide ((s.ses id).start0 ≤ s.now) = true from decide_eq_true hDue]
      rcases hOpening with h | h <;> rw [show (s.ses id).state = _ from h] <;> rfl
    · rw [State.ses_setSes, if_pos rfl]
    · rw [State.ses_setSes, if_neg hj]
  case start =>
    intro u z b y at'
    have hExec := frameStart_eq hLive hEncode hActive hFree hDue
    have hStart : z.closesNow = false → exec (.frameStart id) s = .next ((u.setSes id (z.start b u.now (u.groupOf z).skipRefresh)).countOld) :=
      fun h => hExec.trans (congrArg Host.Outcome.next (if_neg (Bool.eq_false_iff.mp h)))
    have hSub : y.subframe = true → z.start b u.now (u.groupOf z).skipRefresh = y.openFrame b none := fun h => if_pos h
    have hWhole : y.subframe = false → z.start b u.now (u.groupOf z).skipRefresh = y.startWhole b u.now := fun h => if_neg (Bool.eq_false_iff.mp h)
    obtain ⟨hThis, hOthers, hMem, hRest⟩ := u.setSes_countOld id (z.start b u.now (u.groupOf z).skipRefresh)
    refine ⟨fun h => hExec.trans (congrArg Host.Outcome.next (if_pos h)), fun h hMode => ?_, fun h hMode _ hNone => ?_, fun p h hMode hSome => ?_⟩
    · have hOpened := hThis.trans (hSub hMode)
      refine ⟨_, _, hStart h, hOpened, congrArg Session.frame hOpened, rfl, rfl, rfl, rfl, List.length_replicate, fun k hk => ?_, hOthers, hMem⟩
      rw [List.eq_of_mem_replicate hk]
    · have hSkipped : y.startWhole b u.now = { y with frameIndex := y.frameIndex + 1 }.bump 19 1 := by
        unfold Session.startWhole
        dsimp only
        rw [show y.ready (y.startOf y.frameIndex) = [] from hNone]
        rfl
      exact ⟨_, hStart h, hThis.trans ((hWhole hMode).trans hSkipped), hOthers, hRest⟩
    · obtain ⟨f, hFrame, hNum, hBegin, hDeadline, hBank, hPic, hSource, hChosen, hLen, hSlices, hIngest⟩ := Session.startWhole_spec b u.now hSome
      rw [← hThis.trans (hWhole hMode)] at hFrame hIngest
      exact ⟨_, f, hStart h, hFrame, hNum, hBegin, hDeadline, hBank, hPic, hSource, hChosen, hLen, hSlices, hIngest, hOthers, hMem⟩
  case band =>
    have hExec : exec (.bandLaunch id band) s = .next (if decide (f.deadline < s.now + s.bandBudget x) then
        (s.setSes id (x.takeBand f p band)).dropSlices id [band] else s.setSes id (x.launchBand f p band s.now tm)) := by
      show execBandLaunch id band s = _
      unfold execBandLaunch
      dsimp only
      rw [show (s.ses id).frame = some f from hFrame]
      dsimp only
      rw [show (s.ses id).framePicture f = some p from hPic]
      dsimp only [Option.bind_some]
      rw [hTime]
      dsimp only [Option.map_some]
      refine when_true ?_ s _
      rw [hLive, show (s.ses id).decode = false from hEncode, show (s.ses id).subframe = true from hSub, hNew, decide_eq_true hBand,
        decide_eq_true hBegun, decide_eq_true hThere]
      rfl
    refine ⟨fun hLate => hExec.trans (congrArg Host.Outcome.next (if_pos (decide_eq_true hLate))), fun hTimely => ?_⟩
    obtain ⟨g, hLaunched, hHere, hOther, hSource, hChosen⟩ := Session.launchBand_spec (x := x) p band s.now tm hBand
    refine ⟨_, g, hExec.trans (congrArg Host.Outcome.next (if_neg ?_)), ?_, hHere, hOther, hSource, hChosen, fun j hj => ?_, rfl⟩
    · rw [decide_eq_true_iff]
      exact Nat.not_lt.mpr hTimely
    · rw [State.ses_setSes, if_pos rfl, hLaunched]
    · rw [State.ses_setSes, if_neg hj]
  case deadline =>
    show execEncodeDeadline id s = _
    unfold execEncodeDeadline
    dsimp only
    rw [show (s.ses id).frame = some f from hFrame]
    exact when_true (by rw [hLive, show (s.ses id).decode = false from hEncode, hOpen, decide_eq_true hDue]; rfl) s _
  case emit =>
    refine ⟨?_, fun hHeader hAny => ?_⟩
    · show execSliceEmit id s = _
      unfold execSliceEmit
      dsimp only
      rw [show (s.ses id).frame = some f from hFrame]
      dsimp only
      rw [show f.nextSlice (s.ses id).subframe = some i from hNext]
      exact when_true (by rw [hLive, show (s.ses id).decode = false from hEncode, decide_eq_true hDue]; rfl) s _
    · obtain ⟨v, hUnits, hBytes⟩ := Session.emit_units
        (x := { x with frame := some { f with headerSent := true, slices := f.slices.modify i (fun k => { k with st := 3 }) } })
        (type := 3) (by decide) hAny (natBe 4 f.num ++ natBe 1 i ++ zeros 3 ++ (f.slices.getD i {}).data) s.now f.pts
        { f with headerSent := true, slices := f.slices.modify i (fun k => { k with st := 3 }) }.settled (f.slices.getD i {}).tally
      refine ⟨v, Eq.trans ?_ hUnits, hBytes⟩
      unfold Session.emitSlice
      rw [hFrame]
      dsimp only
      rw [hHeader]
      rfl
  case dropped =>
    obtain ⟨g', hg', hLen, hOver⟩ := Session.dropSlices_spec f.slices.length hFrame
    obtain rfl : g' = g := Option.some.inj (hg'.symm.trans hg)
    obtain ⟨i, hi, rfl⟩ := List.mem_iff_getElem.mp hk
    have hAt := hOver i (hLen ▸ hi) (hLen ▸ hi)
    rwa [List.getD_eq_getElem _ _ hi] at hAt

end Sys2Proof.Machine
end

section
/-! PROOFS. How sessions send, skip, park and end (R246, R248, R253, R270, R271). -/

namespace Sys2Proof.Machine
open Sys2Proof

/-! Packets of a destination behind a stream port. -/

/-- t differs from s at most in what has been sent. -/
def State.SameButOutbox (s t : State) : Prop := { t with outbox := s.outbox } = s

theorem State.SameButOutbox.trans {s t u : State} (h : s.SameButOutbox t) (k : t.SameButOutbox u) : s.SameButOutbox u := by
  unfold State.SameButOutbox at *
  rw [← h, ← k]

theorem State.SameButOutbox.keeps {s t : State} {γ : Type} (h : s.SameButOutbox t) (q : State → γ)
    (hq : ∀ (u : State) f, q { u with outbox := f } = q u) : q t = q s := by
  unfold State.SameButOutbox at h
  have hEq := congrArg q h
  rwa [hq] at hEq

/-- The media packet that carries an RTP packet to a destination. -/
def DestRec.packet (d : DestRec) (udp : Nat) (rtp : Bytes) : Nat × Nat × Nat × Nat × Bytes × Bool := (d.portSel, d.addr, d.udp, udp, rtp, true)

/-- A packet sent: what it asks first is none, itself is one. -/
theorem State.sendRtp_spec (s : State) {d : DestRec} (hPort : d.portSel < 2) (rtp : Bytes) : ∃ new,
    (s.sendRtp d d.portSel rtp true).outbox = s.outbox ++ new ∧ s.SameButOutbox (s.sendRtp d d.portSel rtp true) ∧
      new.filterMap OutMsg.media = [d.packet ((s.port d.portSel).getD {}).mediaUdp rtp] := by
  have hAsks : (s.asks d.portSel d.addr).filterMap OutMsg.media = [] := by
    unfold State.asks
    split <;> rfl
  rw [State.sendRtp, if_pos hPort]
  refine ⟨s.asks d.portSel d.addr ++ [_], List.append_assoc .., rfl, ?_⟩
  rw [List.filterMap_append, hAsks]
  rfl

/-- Packets sent one after the other. -/
theorem State.sendRtps_spec {d : DestRec} (hPort : d.portSel < 2) {β : Type} (rtp : β → Bytes) (good : β → Bool) (l : List β)
    (hGood : ∀ b ∈ l, good b = true) : ∀ s : State, ∃ new,
      (s.each l (fun s b => s.sendRtp d d.portSel (rtp b) (good b))).outbox = s.outbox ++ new ∧
      s.SameButOutbox (s.each l (fun s b => s.sendRtp d d.portSel (rtp b) (good b))) ∧
      new.filterMap OutMsg.media = l.map (fun b => d.packet ((s.port d.portSel).getD {}).mediaUdp (rtp b)) := by
  induction l with
  | nil => exact fun s => ⟨[], (List.append_nil _).symm, rfl, rfl⟩
  | cons b l ih =>
    intro s
    obtain ⟨new, hOut, hSame, hMedia⟩ := s.sendRtp_spec hPort (rtp b)
    obtain ⟨more, hOuts, hSames, hMedias⟩ := ih (fun c hc => hGood c (List.mem_cons_of_mem b hc)) (s.sendRtp d d.portSel (rtp b) true)
    rw [State.each_cons, hGood b List.mem_cons_self]
    refine ⟨new ++ more, ?_, hSame.trans hSames, ?_⟩
    · rw [hOuts, hOut, List.append_assoc]
    · rw [List.filterMap_append, hMedia, hMedias, hSame.keeps (fun u => u.port d.portSel) (fun _ _ => rfl)]
      rfl

/-! A destination's send. -/

section
variable {s : State} {id dest : Nat}

/-- The session once a destination's units have left it. -/
def State.sentSes (s : State) (id dest : Nat) : Session :=
  let x := s.ses id
  let q := s.nextPackets id dest
  let units := (x.egress.units.map (fun u => if q.1.contains u then { u with holds := u.holds.filter (fun i => i != dest) } else u)).filter
    (fun u => !u.holds.isEmpty)
  let seq := (x.egress.dests.getD dest {}).rtpSeq
  { x with egress := { x.egress with units := units
                                     dests := x.egress.dests.modify dest (fun k => { k with rtpSeq := (seq + q.2.length) % 65536 }) } }

/-- The RTP packets of a destination's next payloads. -/
def State.nextRtp (s : State) (id dest : Nat) (p : Nat × Bytes) : Bytes :=
  let x := s.ses id
  let q := s.nextPackets id dest
  rtpPacket (q.1.any (fun u => u.last) && p.1 + 1 == q.2.length) ((s.groupOf x).dests.getD dest {}).payload
    (((x.egress.dests.getD dest {}).rtpSeq + p.1) % 65536) (rtpStamp x.header ((q.1.head?.map (fun u => u.pts)).getD 0)) x.streamId p.2

theorem destinationSend_eq (hCan : s.canSendTo id dest = true) (hPort : ((s.groupOf (s.ses id)).dests.getD dest {}).portSel < 2)
    (hGood : ∀ u ∈ s.nextUnits id dest, u.tallyFails = false) : exec (.destinationSend id dest true) s =
      .next ((s.each ((List.range (s.nextPackets id dest).2.length).zip (s.nextPackets id dest).2) (fun t p =>
        t.sendRtp ((s.groupOf (s.ses id)).dests.getD dest {}) ((s.groupOf (s.ses id)).dests.getD dest {}).portSel (s.nextRtp id dest p)
          ((none : Option HeldUnit).isNone || p.1 + 1 != (s.nextPackets id dest).2.length))).setSes id (s.sentSes id dest)) := by
  have hNone : (s.nextUnits id dest).find? (fun u => u.tallyFails || (u.slice && !true)) = none :=
    List.find?_eq_none.mpr fun u hu => by rw [hGood u hu]; simp
  refine (when_true hCan s _).trans ?_
  rw [hNone]
  unfold State.sendTo
  dsimp only
  rw [if_pos hPort, if_pos hPort, Option.isSome_none, if_neg Bool.false_ne_true, Bool.or_false]
  rfl

end

/-- A decode session that closes does so once no frame is open. -/
theorem State.afterCommit_closes {s : State} {id : Nat} (hActive : (s.ses id).state = .active) (hIdle : (s.ses id).busy = false)
    (hClosing : (s.ses id).dec.closing = true) : s.afterCommit id = s.toClosing id true := by
  have hGoes : ¬((s.ses id).state ≠ .active || ((s.ses id).busy && !(s.ses id).parkAsked)) = true := by
    rw [hActive, hIdle]
    simp
  unfold State.afterCommit
  dsimp only
  rw [if_neg hGoes, if_pos (by rw [hClosing, hIdle]; rfl)]

/-- Settles O50: parking and closing end, a destination sends or skips, a decode session closes. -/
theorem sessionsSendAndEnd : Obligations.SessionsSendAndEnd := by
  unfold Obligations.SessionsSendAndEnd
  intro s id hLive x
  refine ⟨fun hParking => ⟨fun hNone => ?parked, fun c hSome => ?closed⟩, fun hClosing hEmpty => ?free, fun hEncode dest hDest => ?dest,
    fun c hDecode hActive hAsked hDue hOpen => ?decode⟩
  case parked =>
    refine ⟨s.setSes id { s.ses id with state := .parked, workBase := 0, committed := {}, pending := none }, ?_, ?_, fun j hj => ?_, rfl⟩
    · exact (when_true (by rw [hLive, show (s.ses id).state = .parking from hParking]; rfl) s _).trans
        (congrArg Host.Outcome.next (if_neg (by rw [show (s.ses id).closeAsked = none from hNone]; decide)))
    · rw [State.ses_setSes, if_pos rfl]
    · rw [State.ses_setSes, if_neg hj]
  case closed =>
    let y : Session := { s.ses id with state := .parked, workBase := 0, committed := {}, pending := none }
    refine ⟨(s.setSes id y).toClosing id true, ?_, (State.toClosing_closing ..).1⟩
    exact (when_true (by rw [hLive, show (s.ses id).state = .parking from hParking]; rfl) s _).trans
      (congrArg Host.Outcome.next (if_pos (by rw [show (s.ses id).closeAsked = some c from hSome]; rfl)))
  case free =>
    have hDone : ((s.ses id).egress.units.isEmpty || decide ((s.ses id).closingAt + 1000000 ≤ s.now)) = true := by
      exact Bool.or_eq_true_iff.mpr (hEmpty.imp (fun h => by rw [show (s.ses id).egress.units = [] from h, List.isEmpty_nil]) decide_eq_true)
    have hFreed : (s.freeSes id).ses id = {} := by rw [State.ses_freeSes, if_pos rfl]
    refine ⟨_, when_true (by rw [hLive, show (s.ses id).state = .closing from hClosing, hDone]; rfl) s _, hFreed,
      congrArg Session.state hFreed, fun j hj => ?_, rfl⟩
    rw [State.ses_freeSes, if_neg hj]
  case dest =>
    intro d mine port q seq
    refine ⟨fun hState hPort hUp hSome hGood => ?send, fun hOpen hOver => ?skip⟩
    case send =>
      have hOwn : (if d.portSel < 2 then d.portSel else Config.freeChoice s.draws % 2) = d.portSel := if_pos hPort
      have hNext : s.nextPackets id dest = q := by
        unfold State.nextPackets
        dsimp only
        rw [show (if ((s.groupOf (s.ses id)).dests.getD dest {}).portSel < 2 then ((s.groupOf (s.ses id)).dests.getD dest {}).portSel
          else Config.freeChoice s.draws % 2) = d.portSel from hOwn]
      have hCan : s.canSendTo id dest = true := by
        have hUnits : (s.nextUnits id dest).isEmpty = false := by
          rw [State.nextUnits, hNext]
          exact List.isEmpty_eq_false_iff.mpr hSome
        unfold State.canSendTo
        dsimp only
        rw [if_pos (show ((s.groupOf (s.ses id)).dests.getD dest {}).portSel < 2 from hPort), hLive, bne_iff_ne.mpr hState,
          show (s.ses id).decode = false from hEncode, decide_eq_true hDest, hUnits, hUp]
        rfl
      have hExec := destinationSend_eq hCan hPort (by rw [State.nextUnits, hNext]; exact hGood)
      obtain ⟨new, hOut, hSame, hMedia⟩ := State.sendRtps_spec hPort (s.nextRtp id dest)
        (fun p => (none : Option HeldUnit).isNone || p.1 + 1 != (s.nextPackets id dest).2.length)
        ((List.range (s.nextPackets id dest).2.length).zip (s.nextPackets id dest).2) (fun _ _ => rfl) s
      have hSes : ∀ j, (s.each ((List.range (s.nextPackets id dest).2.length).zip (s.nextPackets id dest).2) (fun t p =>
        t.sendRtp ((s.groupOf (s.ses id)).dests.getD dest {}) ((s.groupOf (s.ses id)).dests.getD dest {}).portSel (s.nextRtp id dest p)
          ((none : Option HeldUnit).isNone || p.1 + 1 != (s.nextPackets id dest).2.length))).ses j = s.ses j :=
        fun j => hSame.keeps (fun u => u.ses j) (fun _ _ => rfl)
      refine ⟨_, new, hExec, hOut, ?_, ?_, ?_, fun j hj => ?_, ?_, ?_⟩
      · rw [hMedia, hNext]
        refine List.map_congr_left fun p _ => ?_
        unfold State.nextRtp
        rw [hNext]
        rfl
      · rw [State.ses_setSes, if_pos rfl]
        intro u hu
        simpa using (List.mem_filter.mp hu).2
      · rw [State.ses_setSes, if_pos rfl]
        unfold State.sentSes
        rw [hNext]
        simp [List.getD_eq_getElem?_getD, hDest, seq, x]
      · rw [State.ses_setSes, if_neg hj]
        exact hSes j
      · exact hSame.keeps State.regs (fun _ _ => rfl)
      · exact hSame.keeps State.mem (fun _ _ => rfl)
    case skip =>
      refine ⟨_, when_true ?_ s _, ?_, ?_, ?_, fun h => ?_, fun j hj => ?_, rfl⟩
      · rw [hLive, show (s.ses id).decode = false from hEncode, decide_eq_true hDest, show ((s.ses id).egress.dests.getD dest {}).skipping = false from hOpen]
        exact Bool.or_eq_true_iff.mpr (hOver.imp decide_eq_true fun ⟨u, hu, hOld⟩ => List.any_eq_true.mpr ⟨u, hu, decide_eq_true hOld⟩)
      · rw [State.ses_setSes, if_pos rfl]
        simp [Session.bump, List.getD_eq_getElem?_getD, hDest, x]
      · rw [State.ses_setSes, if_pos rfl]
        intro u hu
        obtain ⟨hOut, hLeft⟩ := List.mem_filter.mp hu
        obtain ⟨v, -, rfl⟩ := List.mem_map.mp hOut
        exact ⟨fun hIn => by simpa using (List.mem_filter.mp hIn).2, by simpa using hLeft⟩
      · rw [State.ses_setSes, if_pos rfl]
        rfl
      · rw [State.ses_setSes, if_pos rfl, h]
        exact Bool.or_true _
      · rw [State.ses_setSes, if_neg hj]
  case decode =>
    refine ⟨when_true ?_ s _, fun hNone => ?_⟩
    · rw [hLive, show (s.ses id).decode = true from hDecode, show (s.ses id).state = .active from hActive, show (s.ses id).closeAsked = some c from hAsked,
        show (s.ses id).dec.closing = false from hOpen]
      simpa using hDue
    · have hSes : (s.setSes id { x with dec := { x.dec with closing := true } }).ses id = { x with dec := { x.dec with closing := true } } := by
        rw [State.ses_setSes, if_pos rfl]
      have hIdle : ({ x with dec := { x.dec with closing := true } } : Session).busy = false := by
        unfold Session.busy
        rw [if_pos hDecode, hNone]
        rfl
      rw [State.afterCommit_closes (by rw [hSes]; exact hActive) (by rw [hSes]; exact hIdle) (by rw [hSes])]
      exact (State.toClosing_closing ..).1

end Sys2Proof.Machine
end

section
/-! PROOFS. Received units (R51 to R65, R268). -/

namespace Sys2Proof.Machine
open Sys2Proof

/-! A unit taken from its session's queue. -/

/-- Taking a unit changes its session's queue alone. -/
theorem State.takeUnit_spec (s : State) (id : Nat) (u : Bytes) : ∃ rx, (s.takeUnit id u).ses id = { s.ses id with dec := { (s.ses id).dec with rx } } ∧
    (∀ j, j ≠ id → (s.takeUnit id u).ses j = s.ses j) ∧ { s.takeUnit id u with sessions := s.sessions } = s ∧
      (s.takeUnit id u).now = s.now := by
  unfold State.takeUnit
  dsimp only
  split
  · exact ⟨_, by rw [State.ses_setSes, if_pos rfl], fun j hj => by rw [State.ses_setSes, if_neg hj], rfl, rfl⟩
  · exact ⟨_, rfl, fun _ _ => rfl, rfl, rfl⟩

/-- The number and the start of the last frame a session's frame header opened. -/
def Session.opened (x : Session) : Option Nat × Option Nat := (x.dec.lastOpened, x.dec.lastStart)

theorem State.opened_takeUnit (s : State) (id : Nat) (u : Bytes) : ((s.takeUnit id u).ses id).opened = (s.ses id).opened := by
  obtain ⟨rx, hSes, -, -, -⟩ := s.takeUnit_spec id u
  rw [hSes]
  rfl

theorem State.opened_bumpSes (s : State) (id i n : Nat) : ((s.bumpSes id i n).ses id).opened = (s.ses id).opened := by
  rw [State.bumpSes, State.ses_setSes, if_pos rfl]
  rfl

theorem State.opened_countSeq (s : State) (id q : Nat) : ((s.setSes id ((s.ses id).countSeq q)).ses id).opened = (s.ses id).opened := by
  rw [State.ses_setSes, if_pos rfl, Session.countSeq]
  split
  · rfl
  · split <;> rfl

/-! Deliveries. -/

/-- Is c the delivery of the unit to the session, as a unit of its type? -/
def Delivers (c : Instr) (id : Nat) (u : Bytes) : Prop :=
  (c = .usfStreamHeader id u ∧ usfType u = 1) ∨ (c = .usfFrameHeader id u ∧ usfType u = 2) ∨ (c = .usfSlice id u ∧ usfType u = 3) ∨
    (c = .usfEndOfStream id u ∧ usfType u = 5) ∨ (c = .usfReservedType id u ∧ usfDefined u = false)

section
variable {s : State} {id : Nat} {u : Bytes} (hLive : s.sesLive id = true) (hActive : (s.ses id).state = .active)
include hLive hActive

theorem State.deliver_of_decode (hDecode : (s.ses id).decode = true) (primary : Bool) :
    s.deliver id u primary true = (s.takeUnit id u).decodeUnit id u := by
  unfold State.deliver
  dsimp only
  rw [if_pos (by rw [hLive, hActive]; rfl), if_pos hDecode]

theorem State.deliver_of_encode (hEncode : (s.ses id).decode = false) (primary : Bool) :
    s.deliver id u primary true = (s.takeUnit id u).encodeUnit id u primary := by
  unfold State.deliver
  dsimp only
  rw [if_pos (by rw [hLive, hActive]; rfl), if_neg (Bool.eq_false_iff.mp hEncode)]

/-- A frame header that opens a frame arms what waited for it; else a delivery is the unit's effect. -/
theorem Delivers.exec_eq (hDecode : (s.ses id).decode = true) {c : Instr} (hc : Delivers c id u) :
    exec c s = .next (if usfType u ≠ 2 ∨ (((s.takeUnit id u).decodeUnit id u).ses id).opened = (s.ses id).opened
      then (s.takeUnit id u).decodeUnit id u else ((s.takeUnit id u).decodeUnit id u).migrateAtStart id) := by
  have hDelivers := State.deliver_of_decode (u := u) hLive hActive hDecode false
  have hOther : usfType u ≠ 2 → ∀ mine, mine = true → ok (s.deliver id u false mine) = .next (if usfType u ≠ 2 ∨
      (((s.takeUnit id u).decodeUnit id u).ses id).opened = (s.ses id).opened
        then (s.takeUnit id u).decodeUnit id u else ((s.takeUnit id u).decodeUnit id u).migrateAtStart id) := by
    rintro hType mine rfl
    rw [hDelivers, if_pos (Or.inl hType)]
    rfl
  rcases hc with ⟨rfl, hType⟩ | ⟨rfl, hType⟩ | ⟨rfl, hType⟩ | ⟨rfl, hType⟩ | ⟨rfl, hNone⟩
  · exact hOther (by omega) _ (by rw [hType]; rfl)
  · show ok _ = _
    rw [show (usfType u == 2) = true from beq_iff_eq.mpr hType, hDelivers]
    refine congrArg Host.Outcome.next (if_congr (iff_or_self.mpr fun h => absurd hType h) rfl rfl)
  · exact hOther (by omega) _ (by rw [hType]; rfl)
  · exact hOther (by omega) _ (by rw [hType]; rfl)
  · refine hOther (fun hType => ?_) _ (by rw [hNone]; rfl)
    unfold usfDefined at hNone
    rw [hType] at hNone
    cases hNone

end

/-- Settles O51: the checks in their order, then the unit's effect; the open frame's deadline and output. -/
theorem receivedUnitsAct : Obligations.ReceivedUnitsAct := by
  unfold Obligations.ReceivedUnitsAct
  intro s id u hLive hActive x v
  refine ⟨fun hDecode c hc => ?decode, fun hDecode hType hSized hCheck hVersion primary => ?report,
    fun hEncode hType hSized hCheck hVersion hLen primary => ?encode, fun f hDecode hOpen hDue => ?deadline, fun f rest hDecode hFrames hFinal => ?output⟩
  case decode =>
    intro w
    have hExec := Delivers.exec_eq hLive hActive hDecode hc
    have hKept : ∀ t, (s.takeUnit id u).decodeUnit id u = t → (t.ses id).opened = (s.ses id).opened → exec c s = .next t := by
      rintro t rfl hOpened
      exact hExec.trans (congrArg Host.Outcome.next (if_pos (Or.inr hOpened)))
    have hOpenedW : (w.ses id).opened = (s.ses id).opened := (v.opened_countSeq id (usfSeq u)).trans (s.opened_takeUnit id u)
    have hNot : ∀ {b : Bool}, b = true → ¬(!b) = true := by
      rintro b rfl
      decide
    have hIs : ∀ {b : Bool}, b = false → (!b) = true := by
      rintro b rfl
      rfl
    refine ⟨fun hSized => ?_, fun hSized hCheck => ?_, fun hSized hCheck hType => ?_⟩
    · exact hKept _ (if_pos (hIs hSized)) ((v.opened_bumpSes ..).trans (s.opened_takeUnit id u))
    · exact hKept _ ((if_neg (hNot hSized)).trans (if_pos (hIs hCheck))) ((v.opened_bumpSes ..).trans (s.opened_takeUnit id u))
    · have hChecked : (s.takeUnit id u).decodeUnit id u = if usfVersion u ≠ 1 then w.bumpSes id 1 1
          else if !usfDefined u then w.bumpSes id 2 1 else if !usfLengthOk u then w.bumpSes id 1 1 else w.typedUnit id u :=
        (if_neg (hNot hSized)).trans ((if_neg (hNot hCheck)).trans (if_neg fun h => hType h.2))
      refine ⟨fun hVersion => ?_, fun hVersion hNone => ?_, fun hVersion hSome hLen => ?_, fun hVersion hSome hLen => ?_⟩
      · exact hKept _ (hChecked.trans (if_pos hVersion)) ((w.opened_bumpSes ..).trans hOpenedW)
      · exact hKept _ (hChecked.trans ((if_neg (not_not_intro hVersion)).trans (if_pos (hIs hNone)))) ((w.opened_bumpSes ..).trans hOpenedW)
      · exact hKept _ (hChecked.trans ((if_neg (not_not_intro hVersion)).trans ((if_neg (hNot hSome)).trans (if_pos (hIs hLen)))))
          ((w.opened_bumpSes ..).trans hOpenedW)
      · intro t
        have hTyped : (s.takeUnit id u).decodeUnit id u = t :=
          hChecked.trans ((if_neg (not_not_intro hVersion)).trans ((if_neg (hNot hSome)).trans (if_neg (hNot hLen))))
        rw [hTyped] at hExec
        refine ⟨fun hOther => hExec.trans (congrArg Host.Outcome.next (if_pos (Or.inl hOther))), fun hFrame => hExec.trans ?_⟩
        exact congrArg Host.Outcome.next (if_congr (or_iff_right (not_not_intro hFrame)) rfl rfl)
  case report =>
    show ok (s.deliver id u primary (usfType u == 4)) = _
    rw [show (usfType u == 4) = true from beq_iff_eq.mpr hType, State.deliver_of_decode hLive hActive hDecode]
    refine congrArg Host.Outcome.next ?_
    unfold State.decodeUnit
    rw [hSized, hCheck, if_neg (by decide), if_neg (by decide), if_pos ⟨hVersion, hType⟩]
  case encode =>
    obtain ⟨rx, hSes, hOthers, hRest, hNow⟩ := s.takeUnit_spec id u
    have hTaken : (s.takeUnit id u).encodeUnit id u primary =
        (s.takeUnit id u).setSes id (((s.takeUnit id u).ses id).lossReport primary (usfPayload u) (s.takeUnit id u).now) :=
      if_pos (by rw [hSized, hCheck, hVersion, hType, hLen]; rfl)
    rw [hSes, hNow] at hTaken
    let y : Session := { s.ses id with dec := { (s.ses id).dec with rx } }
    refine ⟨(s.takeUnit id u).setSes id (y.lossReport primary (usfPayload u) s.now), ?_, fun hAccepts => ?_, fun hNot => ?_, fun j hj => ?_, ?_⟩
    · show ok (s.deliver id u primary (usfType u == 4)) = _
      rw [show (usfType u == 4) = true from beq_iff_eq.mpr hType, State.deliver_of_encode hLive hActive hEncode, hTaken]
      rfl
    · rw [State.ses_setSes, if_pos rfl, Session.lossReport, if_pos (show y.acceptsReport primary (usfPayload u) = true from hAccepts)]
      exact ⟨rfl, rfl, rfl⟩
    · rw [State.ses_setSes, if_pos rfl, Session.lossReport, if_neg (Bool.eq_false_iff.mp (show y.acceptsReport primary (usfPayload u) = false from hNot))]
      exact ⟨rfl, rfl⟩
    · rw [State.ses_setSes, if_neg hj, hOthers j hj]
    · exact hRest
  case deadline =>
    show execDecodeFrameDeadline id s = _
    unfold execDecodeFrameDeadline
    dsimp only
    rw [show (s.ses id).openDec = some f from hOpen]
    exact when_true (by rw [hLive, show (s.ses id).decode = true from hDecode, decide_eq_true hDue]; rfl) s _
  case output =>
    intro y
    show execDecodeFrameOutput id s = _
    unfold execDecodeFrameOutput
    dsimp only
    rw [show (s.ses id).dec.frames = f :: rest from hFrames]
    exact when_true (by rw [hLive, show (s.ses id).decode = true from hDecode, hActive, hFinal]; rfl) s _

end Sys2Proof.Machine
end

section
/-! PROOFS. The stream ports (R334, R418, R421 to R425). -/

namespace Sys2Proof.Machine
open Sys2Proof

/-! Frames. -/

/-- What a sound frame's fate makes of the state: the answer's free fields take two draws. -/
def State.meetFate (s : State) (port : Nat) (b : Bytes) : FrameFate → State
  | .pass => s
  | .drop => s.bumpReg (cmdReg (0xD00 + 16 * port + 4)) 1
  | .ignore => s
  | .answer type body =>
    let u := s.draw.2.draw.2
    u.send (.net port (u.ethFrame port (sub b 6 6) type body true))
  | .learn ip mac => s.learnMac port ip mac

/-- What a frame makes of the state: the checks in their order. -/
def State.takeFrame (s : State) (port : Nat) (b : Bytes) (intact : Bool) : State :=
  if !(decide (4 ≤ b.length) && leAt b (b.length - 4) 4 == crcFcs (b.take (b.length - 4))) then s.bumpReg (cmdReg (0xD00 + 16 * port)) 1
  else if decide (b.length < 64) || decide (9222 < b.length) then s.bumpReg (cmdReg (0xD00 + 16 * port + 4)) 1
  else if isPause b then s.bumpReg (cmdReg (0xD00 + 16 * port + 8)) 1
  else if !intact then (s.bumpReg (cmdReg 0x850) 1).raise 0x07 0 1 0 noFace none port 0
  else s.meetFate port b (s.frameFate port b (Config.freeChoice s.draws % 256) (Config.freeChoice (s.draws + 1) % 65536))

section
variable {s : State} {port : Nat} (hPort : port < 2) (hUp : s.links.streamUp.getD port false = true)
include hPort hUp

theorem ethFrameReceive_eq (b : Bytes) (intact : Bool) : exec (.ethFrameReceive port b intact) s = .next (s.takeFrame port b intact) := by
  refine (when_true (by rw [decide_eq_true hPort, hUp]; rfl) s _).trans (congrArg Host.Outcome.next ?_)
  unfold State.takeFrame State.meetFate
  rfl

/-! Packets. -/

theorem usfPacketReceive_eq (hCold : s.boot.warmCause = none) (src : NetAddr) (udp ssrc seq : Nat) (b : Bytes) {o : State}
    (h : (match s.usfTarget port udp ssrc src with
     | none => s.rxDrop port
     | some id => if b.length < 4 then s.rxDrop port
       else if bits (beAt b 0 4) 30 2 = 0 then s.deliverUnits id src (splitUnits (b.drop 4).length (b.drop 4))
       else s.takeFragment id port ssrc seq (bits (beAt b 0 4) 30 2) (bits (beAt b 0 4) 0 16) src (b.drop 4)) = o) :
    exec (.usfPacketReceive port src udp ssrc seq b) s = .next o :=
  (when_true (by rw [decide_eq_true hPort, hUp, hCold]; rfl) s _).trans (congrArg Host.Outcome.next h)

theorem rawMediaPacket_eq (hCold : s.boot.warmCause = none) {udp ssrc id : Nat} (b : Bytes) (hBound : s.boundTo port udp ssrc = some id)
    (hEncode : (s.ses id).decode = false) : exec (.rawMediaPacket port udp ssrc b) s =
      .next (if b.length < 32 then s.rxDrop port else s.setSes id ((s.ses id).takeRaw b s.now)) := by
  have hFound : (s.boundTo port udp ssrc).filter (fun i => !(s.ses i).decode) = some id := by
    rw [hBound, Option.filter_some, if_pos (by rw [hEncode]; rfl)]
  refine (when_true (by rw [decide_eq_true hPort, hUp, hCold]; rfl) s _).trans ?_
  rw [hFound]

end

/-- Settles O52: frames by their checks and fate, packets by their target. -/
theorem streamPortsReceive : Obligations.StreamPortsReceive := by
  unfold Obligations.StreamPortsReceive
  intro s port hPort hUp a
  refine ⟨fun b intact => ?frames, fun hCold => ⟨fun src udp ssrc seq b => ⟨fun hNone => ?strange, fun id hSome => ⟨fun hShort => ?short, fun hLong hWhole => ?units,
    fun hLong hPart => ?fragment⟩⟩, fun udp ssrc b id hBound hEncode => ⟨fun hShort => ?rawShort, fun hLong => ?raw⟩⟩, fun ssrc => ?timeout⟩
  case frames =>
    intro sound fate
    have hExec := ethFrameReceive_eq hPort hUp b intact
    have hTo : ∀ t, s.takeFrame port b intact = t → exec (.ethFrameReceive port b intact) s = .next t := by
      rintro t rfl
      exact hExec
    refine ⟨fun hBad => hTo _ (if_pos (by rw [show (decide (4 ≤ b.length) && leAt b (b.length - 4) 4 == crcFcs (b.take (b.length - 4))) = false from hBad]; rfl)),
      fun hSound hSize => hTo _ ?_, fun hSound hMin hMax => ?_⟩
    · refine (if_neg ?_).trans (if_pos ?_)
      · rw [show (decide (4 ≤ b.length) && leAt b (b.length - 4) 4 == crcFcs (b.take (b.length - 4))) = true from hSound]
        decide
      · exact Bool.or_eq_true_iff.mpr (hSize.imp decide_eq_true decide_eq_true)
    · have hSized : s.takeFrame port b intact = if isPause b then s.bumpReg (cmdReg (a + 8)) 1
          else if !intact then (s.bumpReg (cmdReg 0x850) 1).raise 0x07 0 1 0 noFace none port 0 else s.meetFate port b fate := by
        refine (if_neg ?_).trans (if_neg ?_)
        · rw [show (decide (4 ≤ b.length) && leAt b (b.length - 4) 4 == crcFcs (b.take (b.length - 4))) = true from hSound]
          decide
        · rw [decide_eq_false (Nat.not_lt.mpr hMin), decide_eq_false (Nat.not_lt.mpr hMax)]
          decide
      refine ⟨fun hPause => hTo _ (hSized.trans (if_pos hPause)), fun hData => ?_⟩
      have hMeets : intact = true → s.takeFrame port b intact = s.meetFate port b fate := by
        rintro rfl
        exact hSized.trans ((if_neg (Bool.eq_false_iff.mp hData)).trans (if_neg (by decide)))
      refine ⟨fun hIntact hFate => hTo _ ?_, fun hIntact hFate => hTo _ ?_, fun type body hIntact hFate => ?_, fun ip mac hIntact hFate => hTo _ ?_, fun hHurt => ?_⟩
      · rw [hMeets hIntact, hFate]
        rfl
      · rw [hMeets hIntact]
        rcases hFate with h | h <;> rw [h] <;> rfl
      · exact ⟨s.meetFate port b (.answer type body), _, hTo _ (by rw [hMeets hIntact, hFate]), rfl, rfl, rfl⟩
      · rw [hMeets hIntact, hFate]
        rfl
      · have hSame := (s.bumpReg (cmdReg 0x850) 1).raise_same 0x07 1 0 noFace none port 0 (cls := 0) (by decide)
        refine ⟨_, hTo _ (hSized.trans ((if_neg (Bool.eq_false_iff.mp hData)).trans (if_pos (by rw [hHurt]; rfl)))), ?_, ?_⟩
        · exact hSame.sessions.trans (State.bumpReg_sessions ..)
        · exact (hSame.keeps State.mem (fun _ _ _ _ _ _ _ => rfl)).trans (State.bumpReg_mem ..)
  case strange => exact usfPacketReceive_eq hPort hUp hCold src udp ssrc seq b (by rw [hNone])
  case short => exact usfPacketReceive_eq hPort hUp hCold src udp ssrc seq b (by rw [hSome]; exact if_pos hShort)
  case units =>
    refine ⟨_, usfPacketReceive_eq hPort hUp hCold src udp ssrc seq b (o := s.deliverUnits id src (splitUnits (b.drop 4).length (b.drop 4))) (by rw [hSome]; exact (if_neg (by omega)).trans (if_pos hWhole)), ?_, fun j hj => ?_, rfl⟩
    · rw [State.deliverUnits, State.ses_setSes, if_pos rfl]
    · rw [State.deliverUnits, State.ses_setSes, if_neg hj]
  case fragment => exact usfPacketReceive_eq hPort hUp hCold src udp ssrc seq b (by rw [hSome]; exact (if_neg (by omega)).trans (if_neg hPart))
  case rawShort => exact (rawMediaPacket_eq hPort hUp hCold b hBound hEncode).trans (congrArg Host.Outcome.next (if_pos hShort))
  case raw =>
    refine ⟨_, (rawMediaPacket_eq hPort hUp hCold b hBound hEncode).trans (congrArg Host.Outcome.next (if_neg (by omega))), ?_, fun c hPicture => ?_,
      fun j hj => ?_, rfl⟩
    · rw [State.ses_setSes, if_pos rfl]
    · rw [State.ses_setSes, if_pos rfl, Session.takeRaw]
      dsimp only
      rw [if_pos (by rw [hPicture]; rfl)]
    · rw [State.ses_setSes, if_neg hj]
  case timeout =>
    refine ⟨_, rfl, rfl, fun f => ?_⟩
    rw [List.mem_filter]
    refine and_congr_right fun _ => ?_
    rw [Bool.not_eq_true', ← Bool.not_eq_true, Bool.and_eq_true, Bool.and_eq_true, beq_iff_eq, beq_iff_eq, decide_eq_true_iff, and_assoc]

end Sys2Proof.Machine
end

section
/-! PROOFS. Rounds: how they run and what they flip (R322 to R331). -/

namespace Sys2Proof.Machine
open Sys2Proof

/-! A round after its update. -/

theorem State.round_setRound {s : State} {id : Nat} {r q : Round} (h : s.round id = some r) (hq : q.id = r.id) : (s.setRound q).round id = some q := by
  have hId : ∀ x : Round, (if x.id == q.id then q else x).id = x.id := fun x => by
    split
    · next hSame => exact (beq_iff_eq.mp hSame).symm
    · rfl
  have hFind : (s.setRound q).round id = (s.rounds.find? (fun x => x.id == id)).map (fun x => if x.id == q.id then q else x) := by
    rw [State.round, State.setRound, List.find?_map]
    exact congrArg (Option.map _) (List.find?_congr fun x _ => by rw [Function.comp_apply, hId])
  rw [hFind, show s.rounds.find? (fun x => x.id == id) = some r from h, Option.map_some, if_pos (by rw [hq]; exact beq_self_eq_true _)]

/-- A member's completion changes it alone. -/
theorem Round.memberDone_spec {r : Round} {i : Nat} {m : Member} (now : Nat) (h : r.members[i]? = some m) :
    (r.memberDone i now).members[i]? = some { m with st := 1 } ∧ ∀ j, j ≠ i → (r.memberDone i now).members[j]? = r.members[j]? := by
  unfold Round.memberDone
  refine ⟨?_, fun j hj => ?_⟩
  · rw [List.getElem?_modify_eq, h]
    rfl
  · exact List.getElem?_modify_ne _ _ (Ne.symm hj)

/-- Settles O53: arming, completion, decision, firing and deadline, each by its round's state. -/
theorem roundsRun : Obligations.RoundsRun := by
  unfold Obligations.RoundsRun
  intro s id r hRound
  refine ⟨fun hWaits hFree => ?arm, fun i m hArmed hOpen hMember hNew hCold => ⟨fun hGood => ?done, fun good hBad => ?fails⟩,
    fun at' hTimed hOpen hSoon => ?decide, fun at' hTimed hArmed hDecided hDue => ?fire, fun done hDone hArmed hTime hDue => ?complete,
    fun hArmed hTime hNone hDue => ?deadline⟩
  case arm =>
    intro u
    have hArm : s.tryArm id = if u.roundRoom r.flip.controller && !u.keysHeld (u.flipKeys r.flip) then u.setRound { r with
        armed := true, armedAt := s.now, deadline := s.roundDeadlineOf r,
        doneAt := if !r.flip.byTime && r.members.all (fun m => m.st == 1) then some s.now else none } else u := by
      unfold State.tryArm
      rw [hRound]
      dsimp only
      rw [hWaits, hFree]
      rfl
    refine ⟨fun hRoom hKeys => congrArg Host.Outcome.next (hArm.trans (if_pos ?_)), fun hNot => congrArg Host.Outcome.next (hArm.trans (if_neg ?_))⟩
    · rw [hRoom, hKeys]
      rfl
    · rcases hNot with h | h <;> rw [h] <;> simp
  case done =>
    obtain ⟨hHere, hOthers⟩ := Round.memberDone_spec s.now hMember
    refine ⟨_, r.memberDone i s.now, ?_, State.round_setRound hRound rfl, hHere, hOthers, fun hCounts hAll => ?_, fun hTime => ?_, rfl⟩
    · show execRoundMemberComplete id i true s = _
      unfold execRoundMemberComplete
      rw [hRound]
      dsimp only
      rw [hMember]
      dsimp only
      rw [hArmed, hOpen, hNew, hCold, hGood]
      rfl
    · refine if_pos ?_
      rw [hCounts]
      exact List.all_eq_true.mpr fun n hn => beq_iff_eq.mpr (hAll n hn)
    · exact if_neg (by rw [hTime]; simp)
  case fails =>
    show execRoundMemberComplete id i good s = _
    unfold execRoundMemberComplete
    rw [hRound]
    dsimp only
    rw [hMember]
    dsimp only
    refine (when_true (by rw [hArmed, hOpen, hNew, hCold]; rfl) s _).trans (congrArg Host.Outcome.next (if_neg ?_))
    rcases hBad with h | h <;> rw [h] <;> simp
  case decide =>
    have hExec : exec (.roundDecision id) s = .next (if !r.armed then s.refuseRound r
        else if r.members.all (fun m => m.st == 1) then s.setRound { r with decided := true } else s.abortRound r 2) := by
      show execRoundDecision id s = _
      unfold execRoundDecision
      rw [hRound]
      dsimp only
      rw [hTimed]
      exact when_true (by rw [hOpen, decide_eq_true hSoon]; rfl) s _
    refine ⟨fun hWaits => hExec.trans (congrArg Host.Outcome.next (if_pos (by rw [hWaits]; rfl))), fun hArmed hAll => ?_, fun hArmed ⟨m, hm, hNot⟩ => ?_⟩
    · exact hExec.trans (congrArg Host.Outcome.next ((if_neg (by rw [hArmed]; decide)).trans
        (if_pos (List.all_eq_true.mpr fun m hm => beq_iff_eq.mpr (hAll m hm)))))
    · exact hExec.trans (congrArg Host.Outcome.next ((if_neg (by rw [hArmed]; decide)).trans
        (if_neg fun h => hNot (beq_iff_eq.mp (List.all_eq_true.mp h m hm)))))
  case fire =>
    show execRoundFireTimed id s = _
    unfold execRoundFireTimed
    rw [hRound]
    dsimp only
    rw [hTimed]
    exact when_true (by rw [hArmed, hDecided, decide_eq_true hDue]; rfl) s _
  case complete =>
    have hLead : launchGrain (done + r.flip.lead) ≤ s.now := by
      revert hDue
      cases r.flip <;> exact fun h => h
    refine ⟨?_, fun hOther => ?_⟩
    · show execRoundFireCompletion id s = _
      unfold execRoundFireCompletion
      rw [hRound]
      dsimp only
      rw [hDone]
      exact when_true (by rw [hArmed, hTime, decide_eq_true hLead]; rfl) s _
    · unfold State.fireDone
      cases hFlip : r.flip with
      | remap ls => exact absurd hFlip (hOther ls)
      | takeover => rfl
      | rejoin => rfl
      | swap => rfl
      | checkpoint => rfl
      | migration => rfl
      | licence => rfl
  case deadline =>
    show execRoundDeadline id s = _
    unfold execRoundDeadline
    rw [hRound]
    exact when_true (by rw [hArmed, hTime, hNone, decide_eq_true hDue]; rfl) s _

end Sys2Proof.Machine
end

section
/-! PROOFS. What rounds flip (R232, R261, R266, R329). -/

namespace Sys2Proof.Machine
open Sys2Proof

/-! The bank that is current. -/

/-- The bank a level's register names. -/
def State.bankOf (s : State) (k : Nat) : Nat := s.field (lvlReg k 0x300) 0 1

theorem lvlReg_ne {l k o o' : Nat} (ho : o < 0x10000) (ho' : o' < 0x10000) (h : o ≠ o') : lvlReg l o ≠ lvlReg k o' := by
  unfold lvlReg
  omega

theorem lvlReg_inj {l k o : Nat} (h : lvlReg l o = lvlReg k o) : l = k := by
  unfold lvlReg at h
  omega

/-- A field above the bank's bit leaves it. -/
theorem State.bankOf_setField (s : State) (l k : Nat) {lo : Nat} (n v : Nat) (hLow : 1 ≤ lo) (hHigh : lo ≤ 32) :
    (s.setField (lvlReg l 0x300) lo n v).bankOf k = s.bankOf k := by
  by_cases h : k = l
  · rw [h]
    exact s.field_setField_below _ n v hLow hHigh
  · rw [State.bankOf, State.field, State.regNat, State.reg_setField_other _ _ _ _ _ _ (fun hEq => h (lvlReg_inj hEq))]
    rfl

theorem State.bankOf_setRegNat (s : State) (l k : Nat) {o : Nat} (v : Nat) (ho : o < 0x10000) (h : o ≠ 0x300) :
    (s.setRegNat (lvlReg l o) v).bankOf k = s.bankOf k := by
  rw [State.bankOf, State.field, State.regNat, State.setRegNat, State.reg_setReg, if_neg (lvlReg_ne (by decide) ho (Ne.symm h))]
  rfl

/-- The bank set at a list of levels. -/
theorem State.bankOf_set {v : Nat} (l : List Nat) (k : Nat) : ∀ s : State, k ∈ l ∨ s.bankOf k = v % 2 →
    (s.each l (fun s l => s.setField (lvlReg l 0x300) 0 1 v)).bankOf k = v % 2 := by
  induction l with
  | nil => exact fun _ h => h.resolve_left List.not_mem_nil
  | cons x l ih =>
    intro s hk
    rw [State.each_cons]
    refine ih _ ?_
    by_cases hHere : k = x
    · right
      rw [hHere]
      exact s.field_setField_same _ v (by decide)
    · refine (hk.imp_left fun h => (List.mem_cons.mp h).resolve_left hHere).imp_right fun h => ?_
      rw [State.bankOf, State.field, State.regNat, State.reg_setField_other _ _ _ _ _ _ (fun hEq => hHere (lvlReg_inj hEq))]
      exact h

/-- A swap's first step, the bank of every level. -/
def State.swapBanks (s : State) : State := s.each (List.range 4) (fun u l => u.setField (lvlReg l 0x300) 0 1 (1 - s.curBank))

/-- A swap's registers: the banks, their count, the old bank's frames and the time. -/
def State.swapRegs (s : State) (t : Nat) : State :=
  let n := s.boundFrames s.curBank t
  (((s.swapBanks.each s.servingLevels (fun s l => s.bumpField (lvlReg l 0x300) 24 8 1)).setOldFrames n).setShadow
    (if n = 0 then 0 else 4)).setFireTime t

theorem State.setRegNat_sameButRegs (s : State) (a v : Nat) : s.SameButRegs (s.setRegNat a v) := rfl

theorem State.bumpReg_sameButRegs (s : State) (a n : Nat) : s.SameButRegs (s.bumpReg a n) := rfl

theorem State.swapRegs_sameButRegs (s : State) (t : Nat) : s.SameButRegs (s.swapRegs t) := by
  have hField : ∀ (u : State) a lo n v, u.SameButRegs (u.setField a lo n v) := fun _ _ _ _ _ => rfl
  have hBanks : s.SameButRegs s.swapBanks := .each _ _ fun u _ => hField u ..
  refine hBanks.trans ((State.SameButRegs.each _ _ fun u _ => hField u ..).trans ((State.SameButRegs.each _ _ fun u _ => hField u ..).trans
    ((State.SameButRegs.each _ _ fun u _ => hField u ..).trans (State.SameButRegs.each _ _ fun u _ =>
      (u.setRegNat_sameButRegs ..).trans (State.setRegNat_sameButRegs ..)))))

/-- After a swap every level names the other bank. -/
theorem State.bankOf_swapRegs (s : State) (t : Nat) {k : Nat} (hk : k < 4) : (s.swapRegs t).bankOf k = (1 - s.curBank) % 2 := by
  unfold State.swapRegs State.setFireTime State.setShadow State.setOldFrames
  rw [State.each_keeps (fun u => u.bankOf k) _ _ fun u l => ?_]
  rw [State.each_keeps (fun u => u.bankOf k) _ _ fun u l => ?_]
  rw [State.each_keeps (fun u => u.bankOf k) _ _ fun u l => ?_]
  rw [State.each_keeps (fun u => u.bankOf k) _ _ fun u l => ?_]
  · exact State.bankOf_set _ k s (Or.inl (List.mem_range.mpr hk))
  · exact u.bankOf_setField l k 8 _ (by decide) (by decide)
  · exact u.bankOf_setField l k 16 _ (by decide) (by decide)
  · exact u.bankOf_setField l k 3 _ (by decide) (by decide)
  · exact (State.bankOf_setRegNat _ l k _ (by decide) (by decide)).trans (u.bankOf_setRegNat l k _ (by decide) (by decide))

theorem State.headServing_lt (s : State) : s.servingLevels.headD 0 < 4 := by
  cases h : s.servingLevels with
  | nil => decide
  | cons a l =>
    have hIn : a ∈ s.servingLevels := h ▸ List.mem_cons_self
    exact List.mem_range.mp (List.mem_filter.mp hIn).1

/-! The models that waited for the swap. -/

/-- A list of models after a swap: what was given up is gone, what was staged is usable. -/
def flipModels (l : List (Nat × ModelSlot)) : List (Nat × ModelSlot) :=
  (l.filter (fun m => m.2.state != 4)).map (fun m => if m.2.state = 2 then (m.1, { m.2 with state := 3 }) else m)

theorem flipModels_staged {d : ModelSlot} (hd : d.state ≠ 2) (m : Nat) (l : List (Nat × ModelSlot)) (h : (spGet d l m).state = 2) :
    (spGet d (flipModels l) m).state = 3 := by
  induction l with
  | nil => exact absurd h hd
  | cons e l ih =>
    by_cases hKey : e.1 = m
    · have hState : e.2.state = 2 := by
        rwa [spGet_cons, if_pos hKey] at h
      have hFlip : flipModels (e :: l) = (e.1, { e.2 with state := 3 }) :: flipModels l := by
        unfold flipModels
        rw [List.filter_cons_of_pos (by rw [hState]; decide), List.map_cons, if_pos hState]
      rw [hFlip, spGet_cons, if_pos hKey]
    · have hRest : (spGet d l m).state = 2 := by
        rwa [spGet_cons, if_neg hKey] at h
      have hFlip : flipModels (e :: l) = flipModels l ∨ ∃ v, flipModels (e :: l) = (e.1, v) :: flipModels l := by
        unfold flipModels
        rw [List.filter_cons]
        split
        · rw [List.map_cons]
          split
          · exact Or.inr ⟨_, rfl⟩
          · exact Or.inr ⟨e.2, rfl⟩
        · exact Or.inl rfl
      rcases hFlip with hSame | ⟨v, hCons⟩
      · rw [hSame]
        exact ih hRest
      · rw [hCons, spGet_cons, if_neg hKey]
        exact ih hRest

theorem State.fireSwap_eq (s : State) (t : Nat) :
    s.fireSwap t = { s.swapRegs t with models := flipModels (s.swapRegs t).models, shadow := none } := by
  unfold State.fireSwap State.swapRegs State.swapBanks flipModels
  rfl

theorem State.servingLevels_fireSwap (s : State) (t : Nat) : (s.fireSwap t).servingLevels = s.servingLevels := by
  have hModels : ∀ (u : State) m, ({ u with models := m, shadow := none } : State).servingLevels = u.servingLevels := fun _ _ => rfl
  rw [State.fireSwap_eq, hModels]
  exact (s.swapRegs_sameButRegs t).keeps State.servingLevels (fun _ _ => rfl)

theorem State.bankOf_fireSwap (s : State) (t k : Nat) : (s.fireSwap t).bankOf k = (s.swapRegs t).bankOf k := by
  have hModels : ∀ (u : State) m, ({ u with models := m, shadow := none } : State).bankOf k = u.bankOf k := fun _ _ => rfl
  rw [State.fireSwap_eq, hModels]

theorem State.models_fireSwap (s : State) (t : Nat) : (s.fireSwap t).models = flipModels s.models := by
  rw [State.fireSwap_eq]
  exact congrArg flipModels ((s.swapRegs_sameButRegs t).keeps State.models (fun _ _ => rfl))

theorem State.ses_fireMigration (s : State) {id j : Nat} (p : Nat) (h : (s.ses id).state ≠ .free) :
    (s.fireMigration id p).ses j = if j = id then { s.ses id with placement := p, degraded := false } else s.ses j := by
  have hMoves : s.fireMigration id p = (s.setSes id { s.ses id with placement := p, degraded := false }).bumpField
    (lvlReg (id / 262144) 0x510) 8 8 1 := if_neg h
  rw [hMoves, State.ses, State.bumpField_sessions]
  exact State.ses_setSes ..

/-! An armed round aborted. -/

/-- The round taken away, and its controller's record and count. -/
def State.abortNoted (s : State) (r : Round) (reason : Nat) : State :=
  ((s.removeRound r.id).bumpReg (lvlOrCmd r.flip.controller 0x808) 1).abortRecord r.flip.controller r.flip.kind reason r.flip.subject

/-- What an abort beside that marks of its flip. -/
def State.abortMarked (s : State) : Flip → State
  | .swap => if s.shadowState = 3 then s.setShadow 2 else s
  | .checkpoint i => s.bumpReg (lvlReg (i / 262144) 0x50C) 1
  | .remap _ => s
  | .takeover .. => s
  | .rejoin .. => s
  | .migration .. => s
  | .licence => s

theorem State.dropRound_of_armed (s : State) {r : Round} (reason : Nat) (h : r.armed = true) :
    ((s.abortNoted r reason).abortMarked r.flip).Raised (s.dropRound r reason) := by
  have hDrop : s.dropRound r reason = ((s.abortNoted r reason).abortMarked r.flip).raise 0x06 0 (if r.flip.controller.isSome then 0 else 1)
      r.flip.eventLevel noFace r.flip.owner (r.flip.kind + reason * 16) r.flip.subject := by
    unfold State.dropRound
    dsimp only
    rw [if_neg (by rw [h]; decide)]
    refine congrArg (fun u : State => u.raise 0x06 0 (if r.flip.controller.isSome then 0 else 1) r.flip.eventLevel noFace r.flip.owner
      (r.flip.kind + reason * 16) r.flip.subject) ?_
    unfold State.abortMarked State.abortNoted
    cases r.flip <;> rfl
  rw [hDrop]
  exact State.raise_raised ..

theorem State.abortRecord_spec (s : State) (c : Option Nat) (kind reason subject : Nat) :
    s.SameButRegs (s.abortRecord c kind reason subject) ∧
      (s.abortRecord c kind reason subject).reg (lvlOrCmd c 0x808) = s.reg (lvlOrCmd c 0x808) := by
  have hNe : ∀ o o' : Nat, o ≠ o' → lvlOrCmd c o ≠ lvlOrCmd c o' := fun o o' h => by
    cases c <;> simp only [lvlOrCmd, lvlReg, cmdReg] <;> omega
  unfold State.abortRecord
  split
  · exact ⟨.refl s, rfl⟩
  · refine ⟨(s.setRegNat_sameButRegs ..).trans (State.setRegNat_sameButRegs ..), ?_⟩
    rw [State.setRegNat, State.reg_setReg, if_neg (hNe _ _ (by decide)), State.setRegNat, State.reg_setReg, if_neg (hNe _ _ (by decide))]

theorem State.abortMarked_spec (s : State) (f : Flip) : s.SameButRegs (s.abortMarked f) ∧
    (s.abortMarked f).reg (lvlOrCmd f.controller 0x808) = s.reg (lvlOrCmd f.controller 0x808) := by
  cases f with
  | swap =>
    unfold State.abortMarked
    dsimp only
    split
    · refine ⟨.each _ _ fun u _ => u.setField_sameButRegs .., State.each_keeps (fun u => u.reg _) _ _ fun u l => ?_⟩
      exact u.reg_setField_other _ _ _ _ _ (by simp only [lvlOrCmd, Flip.controller, lvlReg, cmdReg]; omega)
    · exact ⟨.refl s, rfl⟩
  | checkpoint i => exact ⟨s.bumpReg_sameButRegs .., s.reg_bumpReg_other 1 (lvlReg_ne (by decide) (by decide) (by decide))⟩
  | takeover => exact ⟨.refl s, rfl⟩
  | migration => exact ⟨.refl s, rfl⟩
  | remap => exact ⟨.refl s, rfl⟩
  | rejoin => exact ⟨.refl s, rfl⟩
  | licence => exact ⟨.refl s, rfl⟩

theorem lvlOrCmd_ne_log (c : Option Nat) : lvlOrCmd c 0x808 ≠ cmdReg 0x860 ∧ lvlOrCmd c 0x808 ≠ cmdReg 0x864 := by
  cases c <;> simp only [lvlOrCmd, lvlReg, cmdReg] <;> omega

/-- An armed round dropped is gone, and its controller counts it. -/
theorem State.dropRound_spec (s : State) {r : Round} (reason : Nat) (h : r.armed = true) :
    (s.dropRound r reason).round r.id = none ∧ (s.dropRound r reason).regNat (lvlOrCmd r.flip.controller 0x808) =
      min (s.regNat (lvlOrCmd r.flip.controller 0x808) + 1) 0xFFFFFFFF := by
  have hRaised := s.dropRound_of_armed reason h
  obtain ⟨hMarked, hMarkedReg⟩ := (s.abortNoted r reason).abortMarked_spec r.flip
  obtain ⟨hNoted, hNotedReg⟩ := ((s.removeRound r.id).bumpReg (lvlOrCmd r.flip.controller 0x808) 1).abortRecord_spec r.flip.controller
    r.flip.kind reason r.flip.subject
  refine ⟨?_, ?_⟩
  · have hRounds : (s.dropRound r reason).rounds = s.rounds.filter (fun q => q.id != r.id) :=
      (hRaised.keeps State.rounds (fun _ _ _ _ _ _ _ _ => rfl)).trans ((hMarked.keeps State.rounds (fun _ _ => rfl)).trans
        ((hNoted.keeps State.rounds (fun _ _ => rfl)).trans (State.bumpReg_rounds ..)))
    rw [State.round, hRounds]
    exact List.find?_eq_none.mpr fun q hq => by simpa using (List.mem_filter.mp hq).2
  · rw [State.regNat, hRaised.2 _ (lvlOrCmd_ne_log _).1 (lvlOrCmd_ne_log _).2, hMarkedReg, State.abortNoted, hNotedReg, ← State.regNat,
      State.regNat_bumpReg_same]
    rfl

/-- Settles O54: the bank's bit of each level, the models by their list, the session, and the round that is gone. -/
theorem roundsFlipTheirMembers : Obligations.RoundsFlipTheirMembers := by
  unfold Obligations.RoundsFlipTheirMembers
  intro s
  refine ⟨fun t => ⟨?bank, fun m hStaged => ?usable⟩, fun id p hOpen => ⟨?placed, fun j hj => ?others⟩, fun r reason hIn hArmed => ⟨?gone, ?_, ?_, ?counted⟩⟩
  case bank =>
    have hBit : s.curBank < 2 := Nat.mod_lt _ (by decide)
    rw [State.curBank, s.servingLevels_fireSwap]
    exact (s.bankOf_fireSwap t _).trans ((s.bankOf_swapRegs t s.headServing_lt).trans (Nat.mod_eq_of_lt (by omega)))
  case usable =>
    rw [State.model, s.models_fireSwap]
    exact flipModels_staged (by decide) m s.models hStaged
  case placed => rw [s.ses_fireMigration p hOpen, if_pos rfl]
  case others => rw [s.ses_fireMigration p hOpen, if_neg hj]
  case gone => exact (s.dropRound_spec reason hArmed).1
  case counted => exact (s.dropRound_spec reason hArmed).2
  · exact (State.dropRound_same s r reason).sessions
  · exact (State.dropRound_same s r reason).keeps State.models (fun _ _ _ _ _ _ _ => rfl)

end Sys2Proof.Machine
end

section
/-! PROOFS. What rounds asked for, checkpoints and absent slots leave of the units (R25, R45, R263 to R266). -/

namespace Sys2Proof.Machine
open Sys2Proof

/-- When and why a face was declared failed. -/
def Face.marks (f : Face) : Bool × Nat × Nat := (f.failed, f.failedAt, f.cause)

/-- t differs from s at most in records, rounds, sessions, jobs and faces' work: memories, levels, links and the rest stay, and so does
what each face was declared failed for. -/
def State.SameUnits (s t : State) : Prop :=
  { t with faces := s.faces, draws := s.draws, outbox := s.outbox, regs := s.regs, rot := s.rot, boot := s.boot, events := s.events,
           ctrl := s.ctrl, jobs := s.jobs, sessions := s.sessions, rounds := s.rounds, nextRound := s.nextRound, musters := s.musters } = s ∧
    ∀ p, (t.face p).marks = (s.face p).marks

namespace State.SameUnits
variable {s t u : State}

theorem refl (s : State) : s.SameUnits s := ⟨rfl, fun _ => rfl⟩

theorem trans (h : s.SameUnits t) (k : t.SameUnits u) : s.SameUnits u := by
  obtain ⟨hRest, hMarks⟩ := h
  obtain ⟨kRest, kMarks⟩ := k
  refine ⟨?_, fun p => (kMarks p).trans (hMarks p)⟩
  rw [← hRest, ← kRest]

theorem each {β : Type} (l : List β) (f : State → β → State) (hf : ∀ (t : State) b, t.SameUnits (f t b)) : s.SameUnits (s.each l f) :=
  State.each_rel State.SameUnits refl (fun _ _ _ h k => h.trans k) l f hf

theorem ite {a b : State} {c : Prop} [Decidable c] (ha : s.SameUnits a) (hb : s.SameUnits b) : s.SameUnits (if c then a else b) := by
  split
  · exact ha
  · exact hb

/-- What neither records, rounds, sessions, jobs nor faces hold. -/
theorem keeps {γ : Type} (h : s.SameUnits t) (q : State → γ)
    (hq : ∀ (u : State) f d o g r b e c j x l n m, q { u with faces := f, draws := d, outbox := o, regs := g, rot := r, boot := b, events := e,
                                                               ctrl := c, jobs := j, sessions := x, rounds := l, nextRound := n,
                                                               musters := m } = q u) : q t = q s := by
  have hEq := congrArg q h.1
  rwa [hq] at hEq

theorem of_records (h : s.SameButRecords t) : s.SameUnits t := by
  refine ⟨?_, fun p => by rw [State.face, h.faces, State.face]⟩
  unfold State.SameButRecords at h
  rw [← h]

theorem of_raised (h : s.Raised t) : s.SameUnits t := by
  refine ⟨?_, fun p => by rw [State.face, h.keeps State.faces (fun _ _ _ _ _ _ _ _ => rfl), State.face]⟩
  rw [← h.1]

theorem of_regs (h : s.SameButRegs t) : s.SameUnits t := by
  refine ⟨?_, fun p => by rw [State.face, h.keeps State.faces (fun _ _ => rfl), State.face]⟩
  unfold State.SameButRegs at h
  rw [← h]

/-- An update of what the relation leaves free, faces apart. -/
theorem update (s : State) {draws outbox rot boot events ctrl jobs sessions rounds nextRound musters} :
    s.SameUnits { s with draws := draws, outbox := outbox, rot := rot, boot := boot, events := events, ctrl := ctrl, jobs := jobs,
                         sessions := sessions, rounds := rounds, nextRound := nextRound, musters := musters } := ⟨rfl, fun _ => rfl⟩

end State.SameUnits

variable (s : State)

theorem State.setSes_sameUnits (id : Nat) (x : Session) : s.SameUnits (s.setSes id x) := .update s

theorem State.setField_sameUnits (a lo n v : Nat) : s.SameUnits (s.setField a lo n v) := .of_regs (s.setField_sameButRegs ..)

/-! Rounds. -/

theorem State.addRound_sameUnits (f : Flip) (timed : Option Nat) (deadline : Nat) (members : List Member) (single hold : Bool) :
    s.SameUnits (s.addRound f timed deadline members single hold) := .update s

theorem State.preempt_sameUnits (r : Round) : s.SameUnits (s.preempt r) :=
  (State.SameUnits.of_records (s.dropRound_same r 4)).trans (State.addRound_sameUnits ..)

theorem State.preemptFor_sameUnits (f : Flip) : s.SameUnits (s.preemptFor f) := by
  unfold State.preemptFor
  split
  · exact .each _ _ fun t r => t.preempt_sameUnits r
  all_goals exact .refl s

theorem State.tryArm_sameUnits (id : Nat) : s.SameUnits (s.tryArm id) := by
  unfold State.tryArm
  split
  · exact .refl s
  · exact .ite (.refl s) (.ite ((s.preemptFor_sameUnits _).trans (State.SameUnits.update _)) (s.preemptFor_sameUnits _))

theorem State.requestRound_sameUnits (f : Flip) (timed : Option Nat) (deadline : Nat) : s.SameUnits (s.requestRound f timed deadline) :=
  (s.addRound_sameUnits ..).trans (State.tryArm_sameUnits ..)

theorem State.armCheckpoint_sameUnits (id : Nat) (leave : List Nat) : s.SameUnits (s.armCheckpoint id leave) :=
  ((s.addRound_sameUnits ..).trans (State.SameUnits.update _)).trans (State.tryArm_sameUnits ..)

/-! Frames and sessions. -/

theorem State.frameDone_sameUnits (id : Nat) (f : FrameLeft) : s.SameUnits (s.frameDone id f) :=
  (s.setSes_sameUnits ..).trans (State.armCheckpoint_sameUnits ..)

theorem State.encodeSettled_sameUnits (id : Nat) : s.SameUnits (s.encodeSettled id) := by
  unfold State.encodeSettled
  dsimp only
  split
  · exact .refl s
  · exact .ite (((s.setSes_sameUnits ..).trans (.of_records (State.countOld_same _))).trans (State.frameDone_sameUnits ..)) (.refl s)

theorem State.dropSlices_sameUnits (id : Nat) (l : List Nat) : s.SameUnits (s.dropSlices id l) :=
  ((State.SameUnits.ite (.of_regs (s.bumpReg_sameButRegs ..)) (.refl s)).trans (State.setSes_sameUnits ..)).trans
    (State.encodeSettled_sameUnits ..)

theorem State.toParking_sameUnits (id : Nat) : s.SameUnits (s.toParking id) :=
  .ite (((State.SameUnits.of_records (s.withdrawSession_same id true)).trans (State.setSes_sameUnits ..)).trans
    (.of_records (State.countOld_same _))) (.refl s)

theorem State.askPark_sameUnits (id : Nat) : s.SameUnits (s.askPark id) := .ite (s.setSes_sameUnits ..) (s.toParking_sameUnits id)

theorem State.pick_sameUnits (l : List Nat) : s.SameUnits (s.pick l).2 := by
  unfold State.pick
  split
  · exact .refl s
  · exact .update s

theorem State.moveSession_sameUnits (id : Nat) : s.SameUnits (s.moveSession id) := by
  unfold State.moveSession
  dsimp only
  split
  · exact (s.pick_sameUnits _).trans (State.requestRound_sameUnits ..)
  · exact (s.askPark_sameUnits id).trans (.of_raised (State.raise_raised ..))

theorem State.dropFed_sameUnits (id lf : Nat) : s.SameUnits (s.dropFed id lf) := by
  unfold State.dropFed
  dsimp only
  split
  · exact s.setSes_sameUnits ..
  · split
    · exact .refl s
    · exact s.dropSlices_sameUnits ..

/-! Slots and faces. -/

/-- A face that loses its work keeps what it was declared failed for. -/
theorem State.dropWork_sameUnits (p : Nat) : s.SameUnits (s.setFace p (s.face p).dropWork) := by
  refine ⟨rfl, fun q => ?_⟩
  rw [State.face_setFace]
  split
  · next h =>
    rw [h]
    rfl
  · rfl

theorem State.slotAbsent_sameUnits (l d slot p : Nat) : s.SameUnits (s.slotAbsent l d slot p) := by
  have hRegs : ∀ {u : State} a v b lo n w, u.SameUnits ((u.setRegNat a v).setField b lo n w) := fun {u} a v b lo n w =>
    .of_regs ((u.setRegNat_sameButRegs a v).trans (State.setField_sameButRegs ..))
  refine State.SameUnits.trans (State.SameUnits.trans (State.SameUnits.trans (State.SameUnits.trans ((hRegs ..).trans (State.SameUnits.update _))
    (State.dropWork_sameUnits _ p)) (.each _ _ fun t id => (t.setSes_sameUnits ..).trans (State.dropFed_sameUnits ..)))
    (.each _ _ fun t id => t.moveSession_sameUnits id)) (State.SameUnits.update _)

theorem State.replaceSlot_sameUnits (p slot : Nat) : s.SameUnits (s.replaceSlot p slot) := by
  unfold State.replaceSlot
  dsimp only
  split
  · exact s.requestRound_sameUnits ..
  · exact s.slotAbsent_sameUnits ..

theorem State.loseFace_sameUnits (p : Nat) : s.SameUnits (s.loseFace p) :=
  .ite ((s.setField_sameUnits ..).trans (State.setField_sameUnits ..)) (s.setField_sameUnits ..)

theorem State.fillReserve_sameUnits (l d : Nat) : s.SameUnits (s.fillReserve l d) := by
  unfold State.fillReserve
  dsimp only
  split
  · exact .ite ((s.addRound_sameUnits ..).trans (State.tryArm_sameUnits ..)) (.refl s)
  · exact .refl s

theorem State.failTakeover_sameUnits (p : Nat) : s.SameUnits (s.failTakeover p) := by
  refine .each _ _ fun t r => ?_
  split
  · exact (State.SameUnits.of_records (t.dropRound_same r 1)).trans (State.slotAbsent_sameUnits ..)
  all_goals exact .refl t

theorem State.logUnit_sameUnits (u : UnitId) (state cause detail : Nat) : s.SameUnits (s.logUnit u state cause detail) := .update s

/-- A face declared failed carries when and why; the slot it held is handed on or absent. -/
theorem State.faceFail_marks (p cause : Nat) : ((s.faceFail p cause).face p).marks = (true, s.now, cause) := by
  let v := s.setFace p { s.face p with failed := true, failedAt := s.now, cause := cause, autoDone := false, passed := false }
  have hMarked : (v.face p).marks = (true, s.now, cause) := by rw [s.face_setFace_same]; rfl
  have hEpoch : v.SameUnits (v.bumpEpoch p) := v.setField_sameUnits ..
  have hRaised := State.SameUnits.of_raised ((v.bumpEpoch p).raise_raised 0x20 (s.failClass p) 0 (levelOf p) p none p cause)
  suffices h : v.SameUnits (s.faceFail p cause) from (h.2 p).trans hMarked
  unfold State.faceFail
  dsimp only
  refine .trans (.trans ?_ (State.fillReserve_sameUnits ..)) (State.SameUnits.update _)
  have hLost := ((hEpoch.trans hRaised).trans (State.logUnit_sameUnits _ { kind := 1, index := p } 1 3 0x20)).trans
    ((State.failTakeover_sameUnits _ p).trans (State.loseFace_sameUnits _ p))
  split
  · exact hLost.trans (State.replaceSlot_sameUnits ..)
  · exact hLost

/-! The fields of a ring segment's record (R35). -/

/-- A field above the one written keeps its value. -/
theorem bits_putField_above (w v : Nat) {lo n lo' n' : Nat} (h : lo + n ≤ lo') : bits (putField w lo n v) lo' n' = bits w lo' n' := by
  obtain ⟨k, rfl⟩ := Nat.exists_eq_add_of_le h
  have hRest : v % 2 ^ n * 2 ^ lo + w % 2 ^ lo < 2 ^ (lo + n) := by
    have hHigh : (v % 2 ^ n + 1) * 2 ^ lo ≤ 2 ^ n * 2 ^ lo := Nat.mul_le_mul_right _ (Nat.mod_lt _ (Nat.two_pow_pos n))
    have hLow := Nat.mod_lt w (Nat.two_pow_pos lo)
    rw [Nat.pow_add]
    linarith
  have hSame : putField w lo n v / 2 ^ (lo + n) = w / 2 ^ (lo + n) := by
    rw [putField_eq, Nat.add_assoc, Nat.add_comm, Nat.add_mul_div_right _ _ (Nat.two_pow_pos _), Nat.div_eq_of_lt hRest, Nat.zero_add]
  rw [bits, bits, Nat.pow_add 2 (lo + n) k, ← Nat.div_div_eq_div_mul, ← Nat.div_div_eq_div_mul, hSame]

/-- A bit other than the one written keeps its value. -/
theorem State.field_setField_bit (a v : Nat) {j k : Nat} (h : j ≠ k) (hj : j < 32) (hk : k < 32) :
    (s.setField a k 1 v).field a j 1 = s.field a j 1 := by
  rcases Nat.lt_or_gt_of_ne h with hBelow | hAbove
  · exact s.field_setField_below a 1 v hBelow hk.le
  · rw [State.field, State.setField, State.regNat_setRegNat_same, bits_mod _ _ _ _ hj, bits_putField_above _ _ hAbove, State.field]

theorem State.field_of_reg {t : State} {a : Nat} (h : t.reg a = s.reg a) (lo n : Nat) : t.field a lo n = s.field a lo n := by
  rw [State.field, State.regNat, h, State.field, State.regNat]

theorem State.field_lt (a lo n : Nat) : s.field a lo n < 2 ^ n := Nat.mod_lt _ (Nat.two_pow_pos n)

theorem State.bumpField_sameButRegs (a lo n k : Nat) : s.SameButRegs (s.bumpField a lo n k) := s.setField_sameButRegs ..

theorem State.field_bumpField_byte (a : Nat) : (s.bumpField a 24 8 1).field a 24 8 = min (s.field a 24 8 + 1) 255 := by
  have hLt := s.field_lt a 24 8
  rw [State.bumpField, s.field_setField_same a _ (by decide)]
  omega

theorem State.field_bumpField_below (a : Nat) {j : Nat} (hj : j < 24) : (s.bumpField a 24 8 1).field a j 1 = s.field a j 1 :=
  s.field_setField_below a 8 _ hj (by decide)

theorem State.field_setField_above (a v : Nat) {lo n lo' n' : Nat} (h : lo + n ≤ lo') (hWord : lo' + n' ≤ 32) :
    (s.setField a lo n v).field a lo' n' = s.field a lo' n' := by
  rw [State.field, State.setField, State.regNat_setRegNat_same, bits_mod _ _ _ _ hWord, bits_putField_above _ _ h, State.field]

/-- What a ring segment's fault leaves (R35). -/
def State.segmentFaulted (l d k : Nat) : State :=
  ((((s.setField (drfReg l d 0x10) k 1 1).bumpField (drfReg l d 0x10) 24 8 1).bumpReg (drfReg l d 0x14) 4).raise 0x21 2 0 l noFace none
    (16 * l + d) k).logUnit { kind := 2, index := 17 * (16 * l + d) + k } 1 3 0x21

theorem State.segmentFaulted_reg (l d k : Nat) : (s.segmentFaulted l d k).reg (drfReg l d 0x10) =
    ((s.setField (drfReg l d 0x10) k 1 1).bumpField (drfReg l d 0x10) 24 8 1).reg (drfReg l d 0x10) := by
  refine ((State.raise_raised _ 0x21 2 0 l noFace none (16 * l + d) k).2 _ ?_ ?_).trans (State.reg_bumpReg_other _ 4 ?_)
  · rw [drfReg, cmdReg]
    omega
  · rw [drfReg, cmdReg]
    omega
  · rw [drfReg, drfReg]
    omega

theorem State.segmentFaulted_field (l d k lo n : Nat) : (s.segmentFaulted l d k).field (drfReg l d 0x10) lo n =
    ((s.setField (drfReg l d 0x10) k 1 1).bumpField (drfReg l d 0x10) 24 8 1).field (drfReg l d 0x10) lo n :=
  State.field_of_reg _ (s.segmentFaulted_reg l d k) lo n

theorem State.segmentFaulted_keeps {γ : Type} (q : State → γ)
    (hq : ∀ (u : State) e r t c o x j b, q { u with events := e, regs := r, rot := t, ctrl := c, outbox := o, sessions := x, jobs := j,
                                                     boot := b } = q u) (l d k : Nat) : q (s.segmentFaulted l d k) = q s := by
  have hRegs : s.SameButRegs (((s.setField (drfReg l d 0x10) k 1 1).bumpField (drfReg l d 0x10) 24 8 1).bumpReg (drfReg l d 0x14) 4) :=
    ((s.setField_sameButRegs ..).trans (State.bumpField_sameButRegs ..)).trans (State.bumpReg_sameButRegs ..)
  have hRaised := State.raise_raised (((s.setField (drfReg l d 0x10) k 1 1).bumpField (drfReg l d 0x10) 24 8 1).bumpReg (drfReg l d 0x14) 4)
    0x21 2 0 l noFace none (16 * l + d) k
  refine Eq.trans (hq _ _ _ _ _ _ _ _ _) ((hRaised.keeps q ?_).trans (hRegs.keeps q ?_))
  · exact fun u e r t c o x j => hq u e r t c o x j u.boot
  · exact fun u r => hq u u.events r u.rot u.ctrl u.outbox u.sessions u.jobs u.boot

/-- A faulted ring segment's bit is set and its drift's faults count; the other segments' bits, the faces and memory stay. -/
theorem State.segmentFaulted_marks {l d k : Nat} (hk : k < 17) :
    (s.segmentFaulted l d k).field (drfReg l d 0x10) k 1 = 1 ∧
      (s.segmentFaulted l d k).field (drfReg l d 0x10) 24 8 = min (s.field (drfReg l d 0x10) 24 8 + 1) 255 ∧
      (∀ j, j < 17 → j ≠ k → (s.segmentFaulted l d k).field (drfReg l d 0x10) j 1 = s.field (drfReg l d 0x10) j 1) ∧
      (s.segmentFaulted l d k).faces = s.faces ∧ (s.segmentFaulted l d k).mem = s.mem := by
  refine ⟨?_, ?_, fun j hj hNe => ?_, s.segmentFaulted_keeps State.faces (fun _ _ _ _ _ _ _ _ _ => rfl) l d k,
    s.segmentFaulted_keeps State.mem (fun _ _ _ _ _ _ _ _ _ => rfl) l d k⟩
  · rw [s.segmentFaulted_field, State.field_bumpField_below _ _ (by omega), s.field_setField_same _ 1 (by omega), Nat.mod_eq_of_lt (by decide)]
  · rw [s.segmentFaulted_field, State.field_bumpField_byte, s.field_setField_above _ 1 (by omega) (by decide)]
  · rw [s.segmentFaulted_field, State.field_bumpField_below _ _ (by omega), s.field_setField_bit _ 1 hNe (by omega) (by omega)]

/-! Temperatures (R416). -/

theorem State.corrected_of_dram {a : Nat} (h : 0x010000000000 ≤ a) (n : Nat) : s.corrected a n = s := if_neg (Nat.not_lt.mpr h)

theorem State.corrected_of_device {a : Nat} (h : a < 0x010000000000) (n : Nat) : s.corrected a n = s.deviceCorrected (deviceOf a) n :=
  if_pos h

/-- A list set at a place to what stands there. -/
theorem list_set_getD {α : Type} (l : List α) (k : Nat) (d : α) (h : k < l.length) : l.set k (l.getD k d) = l := by
  rw [List.getD_eq_getElem _ _ h, List.set_getElem_self]

/-- A patrol scrub of memory that is there does what it finds (R338, R339). -/
theorem execPatrolScrub_of_found {a n : Nat} {uncorrectable : Bool} {l : Nat} {t : State}
    (hPower : s.pwr.pwrgd = true) (hMemory : (decide (0x010000000000 ≤ a) && decide (a < 0x014000000000) || decide (a < 0x010000000000)) = true)
    (hLevel : (if (decide (0x010000000000 ≤ a) && decide (a < 0x014000000000)) = true then dramLevel a else deviceOf a / 4) = l)
    (hUp : s.levelUp l = true) (hFound : 0 < n ∨ uncorrectable = true)
    (hCount : (if 0 < n then (s.bumpReg (lvlReg l 0x820) n).corrected a n else s.bumpReg (lvlReg l 0x820) n) = t) :
    exec (.patrolScrub a uncorrectable n) s =
      .next (if uncorrectable then { t with poisoned := (t.poisoned ++ poisonedAt a).eraseDups } else t) := by
  subst hLevel hCount
  have hFinds : (decide (0 < n) || uncorrectable) = true := by simpa using hFound
  refine when_true ?_ s _
  rw [hPower, Bool.true_and, Bool.and_eq_true, Bool.and_eq_true]
  exact ⟨⟨hMemory, hFinds⟩, hUp⟩

/-- Settles O55: each fault's row acts under its condition; a face declared failed keeps its marks through all that follows in the same step. -/
theorem faultsAct : Obligations.FaultsAct := by
  unfold Obligations.FaultsAct
  intro s
  refine ⟨?fail, ?autoReset, ?sounded, ?segment, ?device, ?ecc, ?scrub, ?phase, ?junction, ?dvfs, ?stepped, ?watchdog⟩
  case fail =>
    intro p h
    refine ⟨when_true h s _, when_true h s _, fun cause => ?_⟩
    have hMarks := s.faceFail_marks p cause
    exact ⟨congrArg Prod.fst hMarks, congrArg (fun m => m.2.1) hMarks, congrArg (fun m => m.2.2) hMarks⟩
  case autoReset =>
    intro p hWf hFailed hAuto hReset hTime hParked hBusy hRuns
    exact when_true (by simp [hWf, hFailed, hAuto, hReset, hTime, hParked, hBusy, hRuns]) s _
  case sounded =>
    intro p passed test hWf hReset hParked
    exact when_true (by simp [hWf, hReset, hParked]) s _
  case segment =>
    intro l d k hl hd hk hUp hServes hClear
    exact ⟨s.segmentFaulted l d k, when_true (by simp [hl, hd, hk, hUp, hServes, hClear]) s _, s.segmentFaulted_marks hk⟩
  case device =>
    intro d c hd hOk
    exact when_true (by simp [hd, hOk]) s _
  case ecc =>
    intro a u hWf hPower
    exact ⟨when_true (by simp [hWf, hPower]) s _, when_true (by simp [hWf, hPower]) s _⟩
  case scrub =>
    intro hPower poison
    constructor
    · intro a n hLow hHigh hUp t
      have hDram : (decide (0x010000000000 ≤ a) && decide (a < 0x014000000000)) = true := by simp [hLow, hHigh]
      have hCount : (if 0 < n then t.corrected a n else t) = t := by rw [t.corrected_of_dram hLow, ite_self]
      have hScrub : ∀ b, 0 < n ∨ b = true → _ := fun b h =>
        execPatrolScrub_of_found s (uncorrectable := b) hPower (by rw [hDram, Bool.true_or]) (if_pos hDram) hUp h hCount
      exact ⟨fun hn => hScrub false (.inl hn), hScrub true (.inr rfl)⟩
    · intro a n hDevice hUp t
      have hLevel : (if (decide (0x010000000000 ≤ a) && decide (a < 0x014000000000)) = true then dramLevel a else deviceOf a / 4) =
          deviceOf a / 4 := if_neg (by simp only [Bool.and_eq_true, decide_eq_true_eq]; omega)
      have hScrub : ∀ b u, 0 < n ∨ b = true → (if 0 < n then t.corrected a n else t) = u → _ := fun b u h hCount =>
        execPatrolScrub_of_found s (uncorrectable := b) hPower (by rw [decide_eq_true hDevice, Bool.or_true]) hLevel hUp h hCount
      have hSome : 0 < n → (if 0 < n then t.corrected a n else t) = t.deviceCorrected (deviceOf a) n := fun hn => by
        rw [if_pos hn, t.corrected_of_device hDevice]
      exact ⟨fun hn => ⟨hScrub false _ (.inl hn) (hSome hn), hScrub true _ (.inr rfl) (hSome hn)⟩,
        fun hn => hScrub true _ (.inr rfl) (if_neg (by omega))⟩
  case phase =>
    intro n c hn hMin hMax hPower hLeft u
    have hReady : (decide (n < 140) && decide (1 ≤ c) && decide (c ≤ 3) && s.pwr.pwrgd && s.phasesLeft n 1 == 1) = true := by
      simp [hn, hMin, hMax, hPower, hLeft]
    have hShed : ∀ t, (if u.field (cmdReg 0xA24) 31 1 = 1 then u else u.setRegNat (cmdReg 0xA24) (n + c * 256 + 2 ^ 31)) = t →
        exec (.phaseShed n c) s = .next ((t.raise 0x24 2 1 (phaseLevel n) noFace none n 0).railBelow n) := by
      rintro _ rfl
      exact when_true hReady s _
    exact ⟨fun hValid => hShed _ (if_pos hValid), fun hClear => hShed _ (if_neg (by rw [hClear]; decide))⟩
  case junction =>
    intro die v hDie hPower hot u
    have hMarks : v < 1100 ∧ die < s.pwr.hot.length ∨ 1100 ≤ v →
        (if v > 1000 then s.pwr.hot.set die true else if v < 970 then s.pwr.hot.set die false else s.pwr.hot) = s.pwr.hot.set die hot := by
      intro hRange
      show _ = s.pwr.hot.set die (if v > 1000 then true else if v < 970 then false else s.pwr.hot.getD die false)
      split
      · rfl
      · next hWarm =>
        split
        · rfl
        · rw [list_set_getD _ _ _ (by omega)]
    have hExec := when_true (show (decide (die < 5) && s.pwr.pwrgd) = true by simp [hDie, hPower])
    constructor
    · intro hCool hLength
      refine (hExec s _).trans ?_
      rw [hMarks (.inl ⟨hCool, hLength⟩), if_neg (by omega)]
    · intro hTrip
      refine (hExec s _).trans ?_
      rw [hMarks (.inr hTrip), if_pos hTrip]
  case dvfs =>
    intro l hl hRuns hServes hNext hLength v
    have hReady : (decide (l < 4) && s.boot.hfRunning && (s.level l).inService && (s.level l).dvfsNext.isNone) = true := by
      simp [hl, hRuns, hServes, hNext]
    let mark : State := { s with pwr := { s.pwr with lastStep := s.pwr.lastStep.set l s.now } }
    refine ⟨?_, ?_, ?_⟩
    · intro hHot hBelow hLast
      refine ⟨mark.setLevel l { v with dvfsNext := some (v.dvfs + 1), thermal := true, dvfsAt := s.now }, ?_, ?_, ?_, ?_⟩
      · refine (when_true hReady s _).trans (congrArg Host.Outcome.next (if_pos ?_))
        rw [hHot, decide_eq_true hLast, decide_eq_true (show (s.level l).dvfs < 9 from hBelow)]
        rfl
      · rw [State.level_setLevel_same mark _ hLength]
      · rw [State.level_setLevel_same mark _ hLength]
      · exact fun k hk => State.level_setLevel_other mark _ hk
    · intro hCool hThermal hLast hFloor
      have hThermal' : (s.level l).thermal = true := hThermal
      refine ⟨mark.setLevel l { v with dvfsNext := some (v.dvfs - 1), dvfsAt := s.now,
                                       thermal := decide ((if v.phaseLim then s.phaseFloor l else 0) < v.dvfs - 1) }, ?_, ?_, ?_⟩
      · refine (when_true hReady s _).trans (congrArg Host.Outcome.next ?_)
        rw [hCool, hThermal', decide_eq_true hLast]
        exact if_pos hFloor
      · rw [State.level_setLevel_same mark _ hLength]
      · exact fun k hk => State.level_setLevel_other mark _ hk
    · intro hCool hThermal
      have hThermal' : (s.level l).thermal = false := hThermal
      refine (when_true hReady s _).trans (congrArg Host.Outcome.next ?_)
      rw [hCool, hThermal']
      rfl
  case stepped =>
    intro l n hl hNext
    show execDvfsStepDone l s = _
    unfold execDvfsStepDone
    dsimp only
    rw [hNext]
    exact when_true (decide_eq_true hl) s _
  case watchdog =>
    intro hRuns hTime hBusy
    exact when_true (by simp [hRuns, hTime, hBusy]) s _

end Sys2Proof.Machine
end

section
/-! PROOFS. The rows of a start (R350, R360 to R377). -/

namespace Sys2Proof.Machine
open Sys2Proof

/-! The phase register. -/

variable (s : State)

theorem State.phase_setPhase (v : Nat) : (s.setPhase v).phase = v % 16 := s.field_setField_same _ v (by decide)

theorem State.enterPhase_of_ne {v : Nat} (h : v ≠ 6) : s.enterPhase v = s.setPhase v := if_neg fun k => h k.1

theorem State.nextPhase_of_staged (hPhase : s.phase = 7) (hDone : s.boot.memDone = []) : s.nextPhase = 8 := by
  simp [State.nextPhase, hPhase, hDone]

theorem State.nextPhase_of_survey (hPhase : s.phase = 8) : s.nextPhase = 8 := by
  simp [State.nextPhase, hPhase]

theorem State.trainXct_keeps {γ : Type} (q : State → γ) (hq : ∀ (u : State) r, q { u with regs := r } = q u) : q s.trainXct = q s := by
  unfold State.trainXct
  split
  · exact State.each_keeps q _ _ fun t p => hq t _
  · rfl

/-- What neither the registers nor the start of the links hold, entering a phase keeps. -/
theorem State.enterPhase_keeps {γ : Type} (q : State → γ) (v : Nat)
    (hq : ∀ (u : State) r n, q { u with regs := r, links := { u.links with linksStart := n } } = q u) : q (s.enterPhase v) = q s := by
  have hRegs : ∀ (u : State) r, q { u with regs := r } = q u := fun u r => hq u r u.links.linksStart
  unfold State.enterPhase
  split
  · exact (State.trainXct_keeps _ q hRegs).trans ((hRegs _ _).trans (hq s s.regs s.now))
  · exact hRegs s _

theorem State.advance_keeps {γ : Type} (q : State → γ)
    (hq : ∀ (u : State) r n, q { u with regs := r, links := { u.links with linksStart := n } } = q u) : q s.advance = q s :=
  State.each_keeps q _ _ fun t _ => t.enterPhase_keeps q _ hq

/-- A start whose memories are staged passes to the survey and waits there. -/
theorem State.advance_of_staged (hPhase : s.phase = 7) (hDone : s.boot.memDone = []) : s.advance.phase = 8 := by
  have hFirst : (s.enterPhase s.nextPhase).phase = 8 := by
    rw [s.nextPhase_of_staged hPhase hDone, s.enterPhase_of_ne (by decide), s.phase_setPhase]
  have hStays : ∀ t : State, t.phase = 8 → (t.enterPhase t.nextPhase).phase = 8 := fun t h => by
    rw [t.nextPhase_of_survey h, t.enterPhase_of_ne (by decide), t.phase_setPhase]
  rw [State.advance, show List.range 5 = 0 :: [1, 2, 3, 4] from rfl, State.each_cons]
  exact State.each_rel (fun a b => a.phase = 8 → b.phase = 8) (fun _ h => h) (fun _ _ _ h k => k ∘ h) _ _ (fun t _ => hStays t) hFirst

/-! Power good starts the root of trust. -/

theorem State.setPhase_sameButRegs (v : Nat) : s.SameButRegs (s.setPhase v) := s.setField_sameButRegs ..

theorem State.noteReset_sameButRegs (last cause : Nat) : s.SameButRegs (s.noteReset last cause) :=
  (s.setField_sameButRegs ..).trans (State.setField_sameButRegs ..)

theorem State.logStat_sameButRegs : s.SameButRegs s.logStat := by
  unfold State.logStat
  split
  · exact s.setRegNat_sameButRegs ..
  · exact s.setRegNat_sameButRegs ..

/-- The root of trust's start of Headframe: it runs in PHASE 2, or nothing runs in PHASE 12. -/
theorem State.startHeadframe_phase (h : s.boot.hfRunning = false) :
    (s.startHeadframe.boot.hfRunning = true → s.startHeadframe.phase = 2) ∧
      (s.startHeadframe.boot.hfRunning = false → s.startHeadframe.phase = 12) := by
  unfold State.startHeadframe
  split
  · exact ⟨fun hRuns => absurd (h.symm.trans hRuns) (by decide), fun _ => s.phase_setPhase 12⟩
  · refine ⟨fun _ => State.phase_setPhase _ 2, fun hStops => ?_⟩
    rw [(State.setPhase_sameButRegs _ _).keeps State.boot (fun _ _ => rfl)] at hStops
    exact absurd hStops Bool.noConfusion

theorem State.startHeadframe_keeps :
    s.startHeadframe.rot.epoch = s.rot.epoch ∧ s.startHeadframe.boot.origin = s.boot.origin ∧ s.startHeadframe.mem = s.mem := by
  unfold State.startHeadframe
  split
  · have h := s.setPhase_sameButRegs 12
    exact ⟨h.keeps (fun t => t.rot.epoch) (fun _ _ => rfl), h.keeps (fun t => t.boot.origin) (fun _ _ => rfl),
      h.keeps State.mem (fun _ _ => rfl)⟩
  · dsimp only
    have h := fun (u : State) a b => ((u.setField_sameButRegs (cmdReg 0x900) 6 1 a).trans (State.setField_sameButRegs _ (cmdReg 0x900) 24 1 b)).trans
      (State.setPhase_sameButRegs _ 2)
    exact ⟨(h _ _ _).keeps (fun t => t.rot.epoch) (fun _ _ => rfl), (h _ _ _).keeps (fun t => t.boot.origin) (fun _ _ => rfl),
      (h _ _ _).keeps State.mem (fun _ _ => rfl)⟩

theorem State.rot_raised (r : RootOfTrust) : s.Raised { s with rot := r } := ⟨rfl, fun _ _ _ => rfl⟩

/-- Held records are entered in the log: of the rest only what the log changes. -/
theorem State.copyHeld_raised : s.Raised s.copyHeld := by
  have hEntered : ∀ (t : State) (e : EventRec), t.Raised ((t.countEvent e.code).writeLog e) := fun t e =>
    (t.countEvent_raised e.code).trans (State.writeLog_raised _ e)
  exact (State.Raised.each s.rot.tripHeld _ hEntered).trans (State.rot_raised _ _)

theorem State.copyHeld_epoch : s.copyHeld.rot.epoch = s.rot.epoch :=
  State.each_keeps (fun t => t.rot.epoch) (s := s) _ _ fun _ _ => rfl

/-- The root of trust's state at power good: a new epoch, and a cold reset noted. -/
def State.rooted : State :=
  let u : State := { s with draws := s.draws + 1, rot := { s.rot with epoch := Config.freeEpoch s.draws, lastKick := s.now },
                            boot := { s.boot with origin := s.now } }
  let e := (Config.freeEpoch s.draws).toNat
  let v := (((u.setField (cmdReg 0xE20) 0 1 (b2n s.rot.locked)).setRegNat (cmdReg 0xE04) e).setRegNat (cmdReg 0xE08) (e / 2 ^ 32)).logStat
  v.noteReset 1 (s.resetCause 0)

theorem State.rooted_keeps :
    s.rooted.rot.epoch = Config.freeEpoch s.draws ∧ s.rooted.boot.origin = s.now ∧ s.rooted.mem = s.mem ∧
      s.rooted.boot.hfRunning = s.boot.hfRunning := by
  have hRegs : State.SameButRegs { s with draws := s.draws + 1, rot := { s.rot with epoch := Config.freeEpoch s.draws, lastKick := s.now },
                                          boot := { s.boot with origin := s.now } } s.rooted :=
    (((State.setField_sameButRegs ..).trans (State.setRegNat_sameButRegs ..)).trans (State.setRegNat_sameButRegs ..)).trans
      ((State.logStat_sameButRegs _).trans (State.noteReset_sameButRegs ..))
  exact ⟨hRegs.keeps (fun t => t.rot.epoch) (fun _ _ => rfl), hRegs.keeps (fun t => t.boot.origin) (fun _ _ => rfl),
    hRegs.keeps State.mem (fun _ _ => rfl), hRegs.keeps (fun t => t.boot.hfRunning) (fun _ _ => rfl)⟩

/-- A cold start ends in PHASE 2 or 12, with the epoch, the origin and the memory it had. -/
theorem State.started_spec (h : s.boot.hfRunning = false) {t : State}
    (ht : t = if s.startHeadframe.boot.hfRunning then s.startHeadframe.copyHeld else s.startHeadframe) :
    t.rot.epoch = s.rot.epoch ∧ (t.phase = 2 ∨ t.phase = 12) ∧ t.boot.origin = s.boot.origin ∧ t.mem = s.mem := by
  obtain ⟨hRuns, hStops⟩ := s.startHeadframe_phase h
  obtain ⟨hEpoch, hOrigin, hMem⟩ := s.startHeadframe_keeps
  cases hHf : s.startHeadframe.boot.hfRunning with
  | false =>
    rw [hHf, if_neg (by decide)] at ht
    subst ht
    exact ⟨hEpoch, .inr (hStops hHf), hOrigin, hMem⟩
  | true =>
    rw [hHf, if_pos rfl] at ht
    subst ht
    have hCopied := s.startHeadframe.copyHeld_raised
    refine ⟨s.startHeadframe.copyHeld_epoch.trans hEpoch, .inl ?_,
      (hCopied.keeps (fun t => t.boot.origin) (fun _ _ _ _ _ _ _ _ => rfl)).trans hOrigin,
      (hCopied.keeps State.mem (fun _ _ _ _ _ _ _ _ => rfl)).trans hMem⟩
    exact (State.field_of_reg _ (hCopied.2 _ (by decide) (by decide)) 0 4).trans (hRuns hHf)

/-! Units that a start disables. -/

/-- t has the levels that are ready as in s, and disables at least the units that s does. -/
def State.KeepsDisabled (s t : State) : Prop := t.boot.memDone = s.boot.memDone ∧ ∀ u ∈ s.boot.disabled, u ∈ t.boot.disabled

namespace State.KeepsDisabled
variable {s t u : State}

theorem refl (s : State) : s.KeepsDisabled s := ⟨rfl, fun _ h => h⟩

theorem trans (h : s.KeepsDisabled t) (k : t.KeepsDisabled u) : s.KeepsDisabled u :=
  ⟨k.1.trans h.1, fun v hv => k.2 v (h.2 v hv)⟩

theorem each {β : Type} (l : List β) (f : State → β → State) (hf : ∀ (t : State) b, t.KeepsDisabled (f t b)) : s.KeepsDisabled (s.each l f) :=
  State.each_rel State.KeepsDisabled refl (fun _ _ _ h k => h.trans k) l f hf

theorem of_eq (hDone : t.boot.memDone = s.boot.memDone) (hDisabled : t.boot.disabled = s.boot.disabled) : s.KeepsDisabled t :=
  ⟨hDone, fun _ hv => hDisabled ▸ hv⟩

theorem of_raised (h : s.Raised t) : s.KeepsDisabled t := by
  have hBoot : t.boot = s.boot := h.keeps State.boot (fun _ _ _ _ _ _ _ _ => rfl)
  exact of_eq (by rw [hBoot]) (by rw [hBoot])

end State.KeepsDisabled

theorem State.disableUnit_spec (u : UnitId) : s.KeepsDisabled (s.disableUnit u) ∧ u ∈ (s.disableUnit u).boot.disabled :=
  ⟨⟨rfl, fun _ h => List.mem_eraseDups.mpr (List.mem_append_left _ h)⟩,
    List.mem_eraseDups.mpr (List.mem_append_right _ List.mem_cons_self)⟩

theorem State.logUnit_keepsDisabled (u : UnitId) (state cause detail : Nat) : s.KeepsDisabled (s.logUnit u state cause detail) :=
  .of_eq rfl rfl

theorem State.wantSurvey_keepsDisabled : s.KeepsDisabled s.wantSurvey := .of_eq rfl rfl

theorem State.declareDevice_keepsDisabled (d cause : Nat) : s.KeepsDisabled (s.declareDevice d cause) := by
  let u := { s with boot := { s.boot with lpddrFaulty := s.boot.lpddrFaulty ++ [d] } }.logUnit { kind := 8, index := d } 1 3 0x22
  have hMarked : s.KeepsDisabled u := .of_eq rfl rfl
  have hJobs : ∀ t : State, t.Raised (t.faultJobsOn d 0x22) := fun t => .each _ _ fun v j => v.faultJob_raised j.id 0x22
  have hFaulted := (u.raise_raised 0x22 2 0 (d / 4) noFace none d cause).trans (hJobs _)
  unfold State.declareDevice
  split
  · exact .refl s
  · exact hMarked.trans ((State.KeepsDisabled.of_raised hFaulted).trans (State.wantSurvey_keepsDisabled _))

theorem State.replaceCopy_keepsDisabled (id i : Nat) : s.KeepsDisabled (s.replaceCopy id i) := by
  have hPick : ∀ l, (s.pick l).2.boot = s.boot := fun l => by
    unfold State.pick
    split <;> rfl
  unfold State.replaceCopy
  dsimp only
  exact .of_eq (congrArg (fun b => b.memDone) (hPick _)) (congrArg (fun b => b.disabled) (hPick _))

theorem State.keptFailed_keepsDisabled (u : UnitId) : s.KeepsDisabled (s.keptFailed u) ∧ u ∈ (s.keptFailed u).boot.disabled := by
  have hRest : (s.disableUnit u).KeepsDisabled (s.keptFailed u) :=
    (State.declareDevice_keepsDisabled _ u.index 1).trans (.each _ _ fun t q => t.replaceCopy_keepsDisabled q.1 q.2)
  obtain ⟨hKeeps, hMem⟩ := s.disableUnit_spec u
  exact ⟨hKeeps.trans hRest, hRest.2 u hMem⟩

/-- What each step of a chain disables, the chain has disabled in the end. -/
theorem State.KeepsDisabled.each_all {s : State} (us : List UnitId) (f : State → UnitId → State)
    (hf : ∀ (t : State) u, t.KeepsDisabled (f t u) ∧ u ∈ (f t u).boot.disabled) :
    s.KeepsDisabled (s.each us f) ∧ ∀ u ∈ us, u ∈ (s.each us f).boot.disabled := by
  induction us generalizing s with
  | nil => exact ⟨.refl s, fun _ h => absurd h List.not_mem_nil⟩
  | cons v r ih =>
    obtain ⟨hKeeps, hAll⟩ := ih (s := f s v)
    obtain ⟨hStep, hMem⟩ := hf s v
    rw [State.each_cons]
    refine ⟨hStep.trans hKeeps, fun u hu => ?_⟩
    rcases List.mem_cons.mp hu with rfl | hRest
    · exact hKeeps.2 _ hMem
    · exact hAll u hRest

theorem State.trainFailed_spec (us : List UnitId) :
    s.KeepsDisabled (s.trainFailed us) ∧ ∀ u ∈ us, u ∈ (s.trainFailed us).boot.disabled := by
  refine State.KeepsDisabled.each_all us _ fun t u => ?_
  obtain ⟨hKeeps, hMem⟩ := t.disableUnit_spec u
  split
  · exact ⟨hKeeps, hMem⟩
  · exact ⟨hKeeps.trans (State.logUnit_keepsDisabled ..), hMem⟩

/-- Units sounded keep the levels that are ready, and of the units selected those fused as bad are disabled. -/
theorem State.soundUnits_spec (sel : UnitId → Bool) (failed : List UnitId) (test : Nat) :
    (s.soundUnits sel failed test).boot.memDone = s.boot.memDone ∧
      ∀ u ∈ s.rot.fuses.fusedBad, sel u = true → u ∈ (s.soundUnits sel failed test).boot.disabled := by
  have hLogs : ∀ (t : State) (news passes : List UnitId), t.KeepsDisabled
      ((t.each news fun s u => s.logUnit u 2 1 test).each passes fun s u => s.logUnit u 3 1 test) := fun t _ _ =>
    (State.KeepsDisabled.each _ _ fun t u => t.logUnit_keepsDisabled u 2 1 test).trans (.each _ _ fun t u => t.logUnit_keepsDisabled u 3 1 test)
  refine ⟨(hLogs _ _ _).1, fun u hu hSel => (hLogs _ _ _).2 u ?_⟩
  refine List.mem_append_right _ (List.mem_eraseDups.mpr ?_)
  exact List.mem_append_left _ (List.mem_append_left _ (List.mem_filter.mpr ⟨hu, hSel⟩))

/-- Devices that failed their training are disabled, whether their copies are kept or not. -/
theorem State.devicesTrained_spec (untrained kept : List UnitId) :
    s.KeepsDisabled ((s.trainFailed (untrained.filter fun u => !kept.contains u)).each kept State.keptFailed) ∧
      ∀ u ∈ untrained, u ∈ ((s.trainFailed (untrained.filter fun u => !kept.contains u)).each kept State.keptFailed).boot.disabled := by
  obtain ⟨hTrained, hOff⟩ := s.trainFailed_spec (untrained.filter fun u => !kept.contains u)
  obtain ⟨hCopies, hKeptOff⟩ := State.KeepsDisabled.each_all kept _ (fun t u => t.keptFailed_keepsDisabled u)
    (s := s.trainFailed (untrained.filter fun u => !kept.contains u))
  refine ⟨hTrained.trans hCopies, fun u hu => ?_⟩
  by_cases hIn : u ∈ kept
  · exact hKeptOff u hIn
  · exact hCopies.2 u (hOff u (by simp [hu, hIn]))

/-- Faces fused as bad on the levels that are ready are disabled by the sounding. -/
theorem State.soundLevels_disabled (failed : List UnitId) {v : UnitId} (hv : v ∈ s.rot.fuses.fusedBad) (hKind : v.kind = 1)
    (hLevel : v.index / 512 ∈ s.boot.memDone) : v ∈ (s.soundLevels failed).boot.disabled := by
  unfold State.soundLevels
  dsimp only
  refine (s.soundUnits_spec _ failed s.soundTest).2 v hv ?_
  simp [unitLevel, hKind, hLevel]

/-- A level whose memory is ready: its level joins those ready, its devices that failed are disabled, and one not locked is marked so. -/
theorem State.memoryReady_spec (l : Nat) (r : MemoryInit) :
    (s.memoryReady l r).boot.memDone = s.boot.memDone ++ [l] ∧
      (∀ u ∈ r.failed, u.kind = 8 → u.index / 4 = l → u ∈ (s.memoryReady l r).boot.disabled) ∧
      (r.locked = false → l ∈ (s.memoryReady l r).boot.unlocked) := by
  unfold State.memoryReady
  dsimp only
  refine ⟨congrArg (· ++ [l]) ((State.devicesTrained_spec _ _ _).1.1.trans ((State.soundUnits_spec ..).1.trans (s.soundUnits_spec ..).1)),
    fun u hu hKind hIndex => (State.devicesTrained_spec _ _ _).2 u ?_, fun hLocked => ?_⟩
  · simp [hu, hKind, hIndex]
  · simp [hLocked]

/-! Registers that the staging of models leaves. -/

theorem State.pick_regs (l : List Nat) : (s.pick l).2.regs = s.regs := by
  unfold State.pick
  split <;> rfl

theorem State.copyModel_regs (slot d : Nat) : (s.copyModel slot d).regs = s.regs := by
  unfold State.copyModel
  dsimp only
  split
  · exact s.pick_regs _
  · exact s.pick_regs _

theorem State.placeModel_regs (slot : Nat) : (s.placeModel slot).regs = s.regs :=
  (State.each_keeps State.regs _ _ fun t d => t.copyModel_regs slot d).trans rfl

theorem State.buildBanks_regs (l : Nat) : (s.buildBanks l).regs = s.regs :=
  State.each_keeps State.regs _ _ fun _ _ => State.each_keeps State.regs _ _ fun _ _ => State.each_keeps State.regs _ _ fun _ _ => rfl

theorem State.placeWeights_regs (ls : List Nat) : (s.placeWeights ls).regs = s.regs :=
  (State.each_keeps State.regs _ _ fun t p => t.loadChunks_regs p).trans
    (State.each_keeps State.regs _ _ fun t m => t.placeHomes_regs m.2.pkg ls)

theorem phaseReg_ne_lvlReg (l off : Nat) : cmdReg 0x900 ≠ lvlReg l off := by
  rw [cmdReg, lvlReg]
  omega

theorem State.mirrorBanks_phase (l k : Nat) : (s.mirrorBanks l k).phase = s.phase := by
  unfold State.mirrorBanks
  refine State.field_of_reg _ ?_ 0 4
  rw [State.reg_setReg, if_neg (phaseReg_ne_lvlReg l 0x308), State.reg_setReg, if_neg (phaseReg_ne_lvlReg l 0x304),
    State.reg_setField_other _ _ _ _ _ _ (phaseReg_ne_lvlReg l 0x300), State.reg, State.copyBank, State.copyBank,
    (State.copyRange_same ..).keeps State.regs (fun _ _ _ => rfl), (s.copyRange_same ..).keeps State.regs (fun _ _ _ => rfl), State.reg]

/-- The models in place of those a level kept, or built from the Plan: the phase stays (R372). -/
def State.modelsStaged (s : State) : State :=
  let ls := s.boot.memDone
  let new := (s.models.filter (fun m => m.2.state == 1 && m.2.planCarried)).map (fun m => m.1)
  let s1 := ((s.servingLevels.filter (fun l => !ls.contains l)).head?).elim
    ((s.each new (fun s m => (s.setModel m { s.model m with state := 3 }).placeModel m)).each ls State.buildBanks)
    (fun k => s.each ls (fun s l => s.mirrorBanks l k))
  let s2 := s1.placeWeights ls
  { s2 with boot := { s2.boot with memDone := [], sounded := false } }

theorem State.phase_of_regs {s t : State} (h : t.regs = s.regs) : t.phase = s.phase :=
  State.field_of_reg s (by rw [State.reg, h, State.reg]) 0 4

theorem State.modelsStaged_phase : s.modelsStaged.phase = s.phase := by
  unfold State.modelsStaged
  refine (State.phase_of_regs (State.placeWeights_regs ..)).trans ?_
  cases (s.servingLevels.filter fun l => !s.boot.memDone.contains l).head? with
  | none =>
    exact State.phase_of_regs ((State.each_keeps State.regs _ _ fun t l => t.buildBanks_regs l).trans
      (State.each_keeps State.regs _ _ fun t m => (State.placeModel_regs ..).trans rfl))
  | some k => exact State.each_keeps State.phase _ _ fun t l => t.mirrorBanks_phase l k

theorem State.modelsStaged_done : s.modelsStaged.boot.memDone = [] := rfl

theorem execModelStagingDone_of_start (hRuns : s.boot.hfRunning = true) (hSounded : s.boot.sounded = true)
    (hLevels : s.boot.memDone.all (fun l => (s.level l).inService || !s.levelFit l) = true) (hPhase : s.phase = 7) :
    exec .modelStagingDone s = .next s.modelsStaged.advance := by
  refine (when_true (by simp [hRuns, hSounded, hLevels, hPhase]) s _).trans (congrArg Host.Outcome.next ((if_pos hPhase).trans ?_))
  refine congrArg State.advance ?_
  unfold State.modelsStaged
  dsimp only
  cases (s.servingLevels.filter fun l => !s.boot.memDone.contains l).head? with
  | none => rfl
  | some k => rfl

theorem execColdStart_of_ready (hReady : (s.pwr.pwrgd && decide (s.phase ≤ 1) && s.boot.warmCause.isNone && !s.boot.hfRunning) = true) :
    exec .coldStart s =
      .next (if s.rooted.startHeadframe.boot.hfRunning then s.rooted.startHeadframe.copyHeld else s.rooted.startHeadframe) := by
  show execColdStart s = _
  unfold execColdStart State.draw State.rooted
  dsimp only
  exact when_true hReady s _

/-- Settles O56: each row acts where its condition holds. -/
theorem bringUpRowsAct : Obligations.BringUpRowsAct := by
  unfold Obligations.BringUpRowsAct
  intro s
  refine ⟨?cold, ?plan, ?memory, ?links, ?sounding, ?staging, ?time, ?survey, ?rerun, ?linkUp, ?linkDown, ?linkTimeout⟩
  case cold =>
    intro hPower hPhase hWarm hStops
    have hReady : (s.pwr.pwrgd && decide (s.phase ≤ 1) && s.boot.warmCause.isNone && !s.boot.hfRunning) = true := by
      simp [hPower, hPhase, hWarm, hStops]
    obtain ⟨hEpoch, hOrigin, hMem, hHf⟩ := s.rooted_keeps
    obtain ⟨kEpoch, kPhase, kOrigin, kMem⟩ := s.rooted.started_spec (hHf.trans hStops) rfl
    exact ⟨_, execColdStart_of_ready s hReady, kEpoch.trans hEpoch, kPhase, kOrigin.trans hOrigin, kMem.trans hMem⟩
  case plan =>
    intro hRuns hNone hMin hMax on a b c
    have hLoad : ∀ t, (if s.checkPlan b = 0 then s.loadPlan b a 0 else if bitAt s.directory 2 then
          if (s.setPlanErr (s.checkPlan b)).checkPlan c = 0 then (s.setPlanErr (s.checkPlan b)).loadPlan c (1 - a) 1 else
            (s.setPlanErr (s.checkPlan b)).setPlanErr ((s.setPlanErr (s.checkPlan b)).checkPlan c)
          else s.setPlanErr (s.checkPlan b)) = t → exec .planLoad s = .next (on t) := by
      rintro _ rfl
      exact when_true (by simp [hRuns, hNone, hMin, hMax]) s _
    refine ⟨fun hGood => hLoad _ (if_pos hGood), fun hBad hOff => hLoad _ ?_, fun hBad hOn => ⟨fun hGood => hLoad _ ?_, fun hBoth => hLoad _ ?_⟩⟩
    · rw [if_neg hBad, hOff]
      rfl
    · rw [if_neg hBad, hOn, if_pos rfl, if_pos hGood]
    · rw [if_neg hBad, hOn, if_pos rfl, if_neg hBoth]
  case memory =>
    intro l r hRuns hWaits t
    obtain ⟨hDone, hFailed, hLock⟩ := s.memoryReady_spec l r
    refine ⟨fun hPhase => ?_, fun hPhase => ?_, hDone, hFailed, hLock⟩
    · refine (when_true ?_ s _).trans (congrArg Host.Outcome.next (if_neg (by omega)))
      rcases hPhase with h | h <;> simp [hRuns, hWaits, h]
    · exact (when_true (by simp [hRuns, hWaits, hPhase]) s _).trans (congrArg Host.Outcome.next (if_pos hPhase))
  case links =>
    intro hOn
    have hOn' : (s.boot.hfRunning || s.boot.warmCause.isSome) = true := by simpa using hOn
    refine ⟨fun m w hm hTrains hWidth => ?_, fun p lanes hp hTrains => ?_⟩
    · exact when_true (by rw [hOn', hTrains, hWidth, decide_eq_true hm]; rfl) s _
    · exact when_true (by rw [hOn', hTrains, decide_eq_true hp]; rfl) s _
  case sounding =>
    intro failed hRuns hSounded hReady hWait hPhase u fit
    have hSound := when_true (show (s.boot.hfRunning && !s.boot.sounded && !s.boot.memDone.isEmpty && !(List.range 4).any s.levelWaits &&
        (s.phase == 7 || decide (9 ≤ s.phase))) = true by
      rw [hRuns, hSounded, hWait]
      simpa [hReady] using hPhase) s (if fit = [] then u else u.requestRound (.remap fit) none 0)
    refine ⟨fun hNone => hSound.trans (congrArg Host.Outcome.next (if_pos hNone)),
      fun hSome => hSound.trans (congrArg Host.Outcome.next (if_neg hSome)), fun v hv hKind hLevel => ?_⟩
    exact s.soundLevels_disabled failed hv hKind hLevel
  case staging =>
    intro hRuns hSounded hLevels hPhase
    exact ⟨_, execModelStagingDone_of_start s hRuns hSounded hLevels hPhase,
      s.modelsStaged.advance_of_staged (s.modelsStaged_phase.trans hPhase) s.modelsStaged_done,
      (State.advance_keeps _ (fun t => t.boot.memDone) (fun _ _ _ => rfl)).trans s.modelsStaged_done⟩
  case time => exact fun a b => ⟨fun h => when_true (decide_eq_true h) s _, fun h => by
      refine (congrArg (when · s _) (decide_eq_false h)).trans ?_
      rfl⟩
  case survey => exact fun hRuns hPhase => when_true (by simp [hRuns, hPhase]) s _
  case rerun => exact fun hRuns hDue hMin hMax => ⟨when_true (by simp [hRuns, hDue, hMin, hMax]) s _, rfl⟩
  case linkUp =>
    exact fun p hp => ⟨_, when_true (decide_eq_true hp) s _, State.advance_keeps _ (fun t => t.links.streamUp) (fun _ _ _ => rfl),
      State.advance_keeps _ (fun t => t.boot.surveyDue) (fun _ _ _ => rfl)⟩
  case linkDown =>
    exact fun p hp => ⟨_, when_true (decide_eq_true hp) s _, State.advance_keeps _ (fun t => t.links.streamUp) (fun _ _ _ => rfl),
      State.advance_keeps _ (fun t => t.boot.surveyDue) (fun _ _ _ => rfl)⟩
  case linkTimeout =>
    exact fun p hp hPhase hTime hDown => ⟨_, when_true (by rw [decide_eq_true hp, decide_eq_true hPhase, decide_eq_true hTime, hDown]; rfl) s _,
      State.advance_keeps _ (fun t => t.links.streamUp) (fun _ _ _ => rfl), State.advance_keeps _ State.mem (fun _ _ _ => rfl)⟩

end Sys2Proof.Machine
end

section
/-! PROOFS. Ends of resets and low power, the repair log and the connector (R379 to R407). -/

namespace Sys2Proof.Machine
open Sys2Proof

variable (s : State)

/-! The connector's power (R403, R404). -/

/-- A cold reset's begin keeps the power state's contacts and flash. -/
theorem State.beginCold_keeps (cause : Nat) :
    (s.beginCold cause).pwr.pwrgd = s.pwr.pwrgd ∧ (s.beginCold cause).pwr.fetClosed = s.pwr.fetClosed ∧
      (s.beginCold cause).pwr.present = s.pwr.present ∧ (s.beginCold cause).flash = s.flash := by
  have hPhase : ∀ (t : State) {γ : Type} (q : State → γ), (∀ (u : State) r, q { u with regs := r } = q u) →
      q (if s.pwr.pwrgd then t.setPhase 1 else t) = q t := fun t _ q hq => by
    split
    · exact (t.setPhase_sameButRegs 1).keeps q hq
    · rfl
  have hState : ∀ (t : State) {γ : Type} (q : State → γ), (∀ (u : State) r, q { u with regs := r } = q u) →
      q (if s.pwr.removeOk then t.setPwrState 5 else t) = q t := fun t _ q hq => by
    split
    · exact (t.setField_sameButRegs (cmdReg 0xA00) 0 3 5).keeps q hq
    · rfl
  unfold State.beginCold
  dsimp only
  exact ⟨(hState _ (fun t => t.pwr.pwrgd) (fun _ _ => rfl)).trans (hPhase _ (fun t => t.pwr.pwrgd) (fun _ _ => rfl)),
    (hState _ (fun t => t.pwr.fetClosed) (fun _ _ => rfl)).trans (hPhase _ (fun t => t.pwr.fetClosed) (fun _ _ => rfl)),
    (hState _ (fun t => t.pwr.present) (fun _ _ => rfl)).trans (hPhase _ (fun t => t.pwr.present) (fun _ _ => rfl)),
    (hState _ State.flash (fun _ _ => rfl)).trans (hPhase _ State.flash (fun _ _ => rfl))⟩

theorem State.tryPower_fetClosed (h : s.pwr.mayClose = true) (cause : Nat) : (s.tryPower cause).pwr.fetClosed = true := by
  unfold State.tryPower
  rw [if_pos h]
  exact (State.beginCold_keeps _ _).2.1

/-- Power comes where every condition of R403 holds. -/
theorem State.tryPower_pwrgd (h : s.pwr.mayClose = true) (cause : Nat) : (s.tryPower cause).pwr.pwrgd = true := by
  unfold State.tryPower
  rw [if_pos h]
  exact (State.beginCold_keeps _ _).1

theorem State.tryPower_of_not (h : s.pwr.mayClose = false) (cause : Nat) : s.tryPower cause = s := by
  unfold State.tryPower
  rw [h]
  rfl

theorem PowerState.mayClose_of {w : PowerState} (hVaux : w.vaux = true) (hPresent : w.present = true) (hEnable : w.enable = true)
    (hInput : w.inputOk = true) (hBulk : w.bulkOk = true) (hTemp : w.overTemp = false) (hFet : w.fetClosed = false) : w.mayClose = true := by
  simp [PowerState.mayClose, hVaux, hPresent, hEnable, hInput, hBulk, hTemp, hFet]

theorem PowerState.mayClose_of_closed {w : PowerState} (h : w.fetClosed = true) : w.mayClose = false := by simp [PowerState.mayClose, h]

theorem PowerState.mayClose_of_absent {w : PowerState} (h : w.present = false) : w.mayClose = false := by simp [PowerState.mayClose, h]

theorem PowerState.mayClose_of_disabled {w : PowerState} (h : w.enable = false) : w.mayClose = false := by simp [PowerState.mayClose, h]

/-- A surprise removal leaves flash and the contacts, and takes power that was there. -/
theorem State.surpriseOff_keeps :
    s.surpriseOff.pwr.present = s.pwr.present ∧ s.surpriseOff.flash = s.flash ∧
      (s.pwr.fetClosed = true → s.surpriseOff.pwr.surprise = true ∧ s.surpriseOff.pwr.pwrgd = false) := by
  obtain ⟨-, -, hPresent, hFlash⟩ := s.beginCold_keeps 0
  unfold State.surpriseOff
  split
  · exact ⟨hPresent, hFlash, fun _ => ⟨rfl, rfl⟩⟩
  · next hFet => exact ⟨rfl, rfl, fun h => absurd h hFet⟩

/-! The repair log (R370). -/

theorem State.compactLog_keeps (keep : UnitId → Bool) : (s.compactLog keep).mem = s.mem := rfl

theorem State.appendLog_mem (e : UnitId × Nat × Nat × Nat) : (s.appendLog e).mem = s.mem := by
  have hRoom : ∀ b : Bool, (if b then s else s.compactLog fun _ => true).mem = s.mem := fun b => by
    cases b with
    | false =>
      rw [if_neg Bool.false_ne_true]
      exact s.compactLog_keeps _
    | true => rw [if_pos rfl]
  unfold State.appendLog
  dsimp only
  rw [(State.logStat_sameButRegs _).keeps State.mem (fun _ _ => rfl), State.writeFlash_mem]
  exact hRoom _

/-- What an update of the start's state keeps. -/
theorem State.bootUpdate_keeps (b : BootState) : { s with boot := b }.flash = s.flash ∧ { s with boot := b }.mem = s.mem := ⟨rfl, rfl⟩

theorem State.setStandby_standby (v : Nat) : (s.setStandby v).pwr.standby = v := by
  unfold State.setStandby
  dsimp only
  split
  · rfl
  · exact (State.setField_sameButRegs _ (cmdReg 0xA00) 0 3 v).keeps (fun t => t.pwr.standby) (fun _ _ => rfl)

/-- Settles O57: power comes by `tryPower` under R403's conditions, and each end of a reset or a low-power state acts where it is due. -/
theorem resetsAndHotPlugAct : Obligations.ResetsAndHotPlugAct := by
  unfold Obligations.ResetsAndHotPlugAct
  intro s
  refine ⟨?warmNone, ?warmFull, ?warmFast, ?level, ?standbyIn, ?standbyOut, ?log, ?precharge, ?vaux, ?power, ?enableFalls, ?removal, ?presence, ?volts⟩
  case warmNone =>
    intro hWarm ok hStops hTrained
    refine (when_true ?_ s _).trans (congrArg Host.Outcome.next (if_pos (by rw [hStops]; rfl)))
    rw [hWarm, Bool.true_and, Bool.or_eq_true]
    rcases hTrained with rfl | hNone | hAll
    · exact .inl rfl
    · exact .inl (by rw [hNone, ite_self]; rfl)
    · exact .inr hAll
  case warmFull =>
    intro hWarm hRuns ok hFull
    have hNone : (if ok then s.boot.warmFast else []) = [] := by
      rcases hFull with rfl | hNone
      · rfl
      · rw [hNone, ite_self]
    refine (when_true (by rw [hNone, hWarm]; rfl) s _).trans (congrArg Host.Outcome.next ?_)
    rw [if_neg (by rw [hRuns]; decide), hNone]
    rfl
  case warmFast =>
    intro hWarm hRuns hFast hTrained t
    have hSome : s.boot.warmFast.isEmpty = false := by simpa using hFast
    have hExec : exec (.warmResetResume true) s =
        .next (if (List.range 4).any (fun l => !s.boot.warmFast.contains l && (s.level l).parked == 0) then t else t.endReset 1 0) := by
      refine (when_true (by rw [hWarm, hTrained, Bool.or_true]; rfl) s _).trans (congrArg Host.Outcome.next ?_)
      rw [if_neg (by rw [hRuns]; decide), if_pos rfl, if_neg (by rw [hSome]; decide)]
    refine ⟨fun hAll => hExec.trans (congrArg Host.Outcome.next (if_neg ?_)), fun ⟨l, hl, hNot, hParked⟩ =>
      hExec.trans (congrArg Host.Outcome.next (if_pos ?_))⟩
    · simpa [Decidable.or_iff_not_imp_left] using hAll
    · simpa using ⟨l, hl, hNot, hParked⟩
  case level =>
    intro l hl
    refine ⟨fun failed hReset hRemap hRuns => ?_, fun hParked => ?_, fun hParked hStandby hRuns => ?_⟩
    · exact when_true (by simp [hl, hReset, hRemap, hRuns]) s _
    · exact when_true (by simp [hl, hParked]) s _
    · exact when_true (by simp [hl, hParked, hStandby, hRuns]) s _
  case standbyIn =>
    intro hStandby hLevels
    refine when_true ?_ s _
    simp only [hStandby, beq_self_eq_true, Bool.true_and, List.all_eq_true, List.mem_range, Bool.or_eq_true, Bool.not_eq_true',
      beq_iff_eq]
    intro l hl
    cases hServes : (s.level l).inService with
    | false => exact .inl rfl
    | true => exact .inr (hLevels l hl hServes)
  case standbyOut =>
    intro hStandby hLevels
    refine ⟨_, when_true ?_ s _, ?_, rfl⟩
    · simpa [hStandby] using hLevels
    · exact State.setStandby_standby _ 0
  case log =>
    intro e rest hLog
    have hWritten : exec .repairLogWrite s = .next { s.appendLog e with boot := { s.boot with logPending := rest } } := by
      show execRepairLogWrite s = _
      unfold execRepairLogWrite
      rw [hLog]
      rfl
    obtain ⟨hFlash, hMem⟩ := (s.appendLog e).bootUpdate_keeps { s.boot with logPending := rest }
    exact ⟨_, hWritten, rfl, hFlash, hMem.trans (s.appendLog_mem e)⟩
  case precharge => exact fun h => when_true (by simpa using h) s _
  case vaux =>
    intro k hCharged hVaux hFet
    have hExec := when_true (show (s.pwr.precharged && !s.pwr.vaux) = true by simp [hCharged, hVaux]) s
    refine ⟨_, (hExec _).trans (congrArg Host.Outcome.next (State.tryPower_of_not _ ?_ 1)), rfl, rfl, rfl, rfl, rfl, rfl⟩
    exact PowerState.mayClose_of_closed hFet
  case power =>
    intro k mv hFet
    refine ⟨?vauxUp, ?present, ?input, ?enable⟩
    case vauxUp =>
      intro hCharged hVaux hPresent hEnable hInput hBulk hTemp
      refine ⟨_, when_true (by simp [hCharged, hVaux]) s _, State.tryPower_pwrgd _ ?_ 1, State.tryPower_fetClosed _ ?_ 1⟩ <;>
        exact PowerState.mayClose_of rfl hPresent hEnable hInput hBulk hTemp hFet
    case present =>
      intro hCharged hPresent
      have hReady : (s.pwr.precharged && !s.pwr.present) = true := by simp [hCharged, hPresent]
      refine ⟨fun hVaux hEnable hInput hBulk hTemp => ⟨_, when_true hReady s _, State.tryPower_pwrgd _ ?_ 1⟩, fun hEnable =>
        (when_true hReady s _).trans (congrArg Host.Outcome.next (State.tryPower_of_not _ ?_ 1))⟩
      · exact PowerState.mayClose_of hVaux rfl hEnable hInput hBulk hTemp hFet
      · exact PowerState.mayClose_of_disabled hEnable
    case input =>
      intro hCharged hLow hHigh
      have hReady : (s.pwr.precharged && decide (4600 ≤ mv) && decide (mv ≤ 5800)) = true := by simp [hCharged, hLow, hHigh]
      refine ⟨fun hVaux hPresent hEnable hTemp => ⟨_, when_true hReady s _, State.tryPower_pwrgd _ ?_ 1⟩, fun hEnable =>
        ⟨_, (when_true hReady s _).trans (congrArg Host.Outcome.next (State.tryPower_of_not _ ?_ 1)), rfl, rfl, rfl, rfl, rfl⟩⟩
      · exact PowerState.mayClose_of hVaux hPresent hEnable rfl rfl hTemp hFet
      · exact PowerState.mayClose_of_disabled hEnable
    case enable =>
      intro hEnable
      have hReady : (!s.pwr.enable) = true := by simp [hEnable]
      refine ⟨fun hVaux hPresent hInput hBulk => ⟨_, when_true hReady s _, State.tryPower_pwrgd _ ?_ _⟩, fun hPresent =>
        (when_true hReady s _).trans (congrArg Host.Outcome.next (State.tryPower_of_not _ ?_ _))⟩
      · exact PowerState.mayClose_of hVaux hPresent rfl hInput hBulk rfl hFet
      · exact PowerState.mayClose_of_absent hPresent
  case enableFalls =>
    intro hEnable u
    refine ⟨fun hOk => ?_, fun hSurprise => ⟨?_, ?_⟩⟩
    · exact (when_true hEnable s _).trans (congrArg Host.Outcome.next (if_pos hOk))
    · exact (when_true hEnable s _).trans (congrArg Host.Outcome.next (if_neg (by simp [hSurprise])))
    · exact when_true (by simp [hEnable, hSurprise]) s _
  case removal =>
    intro m hRuns hRemoval
    refine ⟨fun hOk hFree hFlash => ⟨_, when_true ?_ s _, rfl, State.field_setField_same _ _ _ (by decide)⟩, fun hDrain hOpen hTime => ?_⟩
    · simpa [hRuns, hRemoval, hOk, hFlash] using fun a b h => hFree (a, b) h
    · have hExec : ∃ t : State, exec .drainLimitExpire s = .next { t with pwr := { t.pwr with removal := some { m with closed := true } } } := by
        refine ⟨s.each (s.sessions.map (fun e => e.1)) (fun s i => s.closeGracefully i s.now), ?_⟩
        show execDrainLimitExpire s = _
        unfold execDrainLimitExpire
        rw [hRemoval]
        exact when_true (by simp [hDrain, hOpen, hTime, hRuns]) s _
      obtain ⟨t, ht⟩ := hExec
      exact ⟨_, ht, rfl⟩
  case presence =>
    intro hPresent
    obtain ⟨hGone, hFlash, hOff⟩ := State.surpriseOff_keeps { s with pwr := { s.pwr with present := false } }
    exact ⟨_, when_true hPresent s _, hGone, hOff, hFlash⟩
  case volts =>
    intro hInput
    exact ⟨when_true hInput s _, when_true hInput s _⟩

end Sys2Proof.Machine
end

section
/-! PROOFS. Free running and the servo's register (R377, R427, R428). -/

namespace Sys2Proof.Machine
open Sys2Proof

variable (s : State)

/-! The servo's register. -/

theorem State.setTim_source (source state steps : Nat) : (s.setTim source state steps).servoSource = source % 8 := by
  rw [State.servoSource, State.field, State.setTim, State.regNat_setRegNat_same, bits]
  omega

theorem State.setTim_state (source state steps : Nat) : (s.setTim source state steps).servoState = state % 4 := by
  rw [State.servoState, State.field, State.setTim, State.regNat_setRegNat_same, bits]
  omega

theorem State.setTim_sameButRegs (source state steps : Nat) : s.SameButRegs (s.setTim source state steps) := s.setRegNat_sameButRegs ..

/-! Free running. -/

/-- An election changes the links alone. -/
theorem State.elect_keeps {γ : Type} (q : State → γ) (hq : ∀ (u : State) l, q { u with links := l } = q u) : q s.elect = q s := by
  unfold State.elect
  split
  · rfl
  · exact hq s _

theorem State.freeRun_state : s.freeRun.servoState = 0 :=
  (State.elect_keeps _ State.servoState (fun _ _ => rfl)).trans (State.setTim_state _ 7 0 0)

theorem State.freeRun_servo {γ : Type} (q : Servo → γ)
    (hq : ∀ (v : Servo) e m a l, q { v with external := e, masterPort := m, announce := a, ptp := l } = q v) :
    q s.freeRun.servo = q s.servo :=
  (State.elect_keeps _ (fun u => q u.servo) (fun _ _ => rfl)).trans
    (((State.setTim_sameButRegs _ 7 0 0).keeps (fun u => q u.servo) (fun _ _ => rfl)).trans (hq s.servo _ _ _ _))

theorem State.freeRun_external : s.freeRun.servo.external = false :=
  (State.elect_keeps _ (fun u => u.servo.external) (fun _ _ => rfl)).trans
    ((State.setTim_sameButRegs _ 7 0 0).keeps (fun u => u.servo.external) (fun _ _ => rfl))

/-- A free-running module's time is not traceable (R377). -/
theorem State.timeRule_of_freeRun : s.freeRun.timeRule.2 = false := by
  unfold State.timeRule
  dsimp only
  rw [s.freeRun_state, s.freeRun_external]
  split <;> rfl

/-- A verdict on time that is not traceable judges the servo and keeps the rest of it. -/
theorem State.judgeTime_holdAt {s : State} (h : s.timeRule.2 = false) (old : State) : (s.judgeTime old).servo.holdAt = s.servo.holdAt := by
  unfold State.judgeTime State.timeVerdict
  dsimp only
  rw [h, Bool.and_false]
  split <;> rfl

theorem State.freeRun_judged_holdAt (old : State) : (s.freeRun.judgeTime old).servo.holdAt = s.servo.holdAt :=
  (State.judgeTime_holdAt s.timeRule_of_freeRun old).trans (s.freeRun_servo Servo.holdAt fun _ _ _ _ _ => rfl)

/-- A module that runs, with a stream port up, its servo unlocked and measured last 3 s ago. -/
def quietServo : State :=
  State.setTim { State.reset with now := 3000000000, boot := { State.reset.boot with hfRunning := true },
                                  links := { State.reset.links with streamUp := [true, false] } } 0 0 0

/-- A holdover row whose servo was unlocked notes the time in the servo (R428). -/
theorem execServoHoldover_holdAt {t : State} (hQuiet : s.servo.lastAt + 3000000000 ≤ s.now) (hFree : s.servoState = 0)
    (hSource : s.servoSource ≠ 7) (h : exec .servoHoldover s = .next t) : t.servo.holdAt = s.now := by
  have hExec : exec .servoHoldover s =
      .next (State.judgeTime (State.freeRun { s with servo := { s.servo with holdAt := s.now, below := 0, above := 0 } }) s) :=
    (when_true (by simp [hQuiet, hFree, hSource]) s _).trans (congrArg Host.Outcome.next (if_neg (by simp [hFree])))
  cases hExec.symm.trans h
  exact State.freeRun_judged_holdAt _ s

/-- Refutes O58: a servo unlocked and quiet for 3 s becomes free-running with holdAt at the present time, not with the holdAt it had, as the
clause on servoHoldover says it does. The state is `quietServo`, at 3 s with holdAt 0. -/
theorem not_timeRowsAct : ¬ Obligations.TimeRowsAct := by
  unfold Obligations.TimeRowsAct
  intro h
  have hRuns : quietServo.boot.hfRunning = true := rfl
  have hUp : quietServo.links.streamUp.getD 0 false = true := rfl
  have hNow : quietServo.now = 3000000000 := rfl
  have hQuiet : quietServo.servo.lastAt + 3000000000 ≤ quietServo.now := le_refl 3000000000
  have hFree : quietServo.servoState = 0 := State.setTim_state _ 0 0 0
  have hSource : quietServo.servoSource ≠ 7 := by
    rw [quietServo, State.setTim_source]
    decide
  obtain ⟨-, -, -, -, hHoldover, -⟩ := h quietServo 0 (by decide) hRuns hUp
  have hHold := execServoHoldover_holdAt quietServo hQuiet hFree hSource ((hHoldover hQuiet).2 hFree hSource)
  rw [quietServo.freeRun_judged_holdAt quietServo, hNow] at hHold
  exact absurd hHold (by decide)

end Sys2Proof.Machine
end

section
/-! PROOFS. The crosscut ports (R376, R430 to R435). -/

namespace Sys2Proof.Machine
open Sys2Proof

variable (s : State)

/-! Frames sent and resent. -/

theorem State.xctPut_keeps {γ : Type} (q : State → γ) (hq : ∀ (u : State) o, q { u with outbox := o } = q u) (p : Nat) (f : XctFrame) :
    q (s.xctPut p f) = q s := hq s _

/-- A resend counts its frames and changes no other register (R431). -/
theorem State.xctResend_reg (p a : Nat) :
    (s.xctResend p).reg a = (s.bumpReg (cmdReg (0xC0C + 16 * p)) (s.xct p).replay.length).reg a :=
  State.each_keeps (fun t => t.reg a) _ _ fun t f => t.xctPut_keeps (fun u => u.reg a) (fun _ _ => rfl) p f

theorem State.xctResend_count (p : Nat) : (s.xctResend p).regNat (cmdReg (0xC0C + 16 * p)) =
    min (s.regNat (cmdReg (0xC0C + 16 * p)) + (s.xct p).replay.length) 0xFFFFFFFF := by
  rw [State.regNat, s.xctResend_reg, ← State.regNat, State.regNat_bumpReg_same]

theorem State.xctResend_ports (p : Nat) : (s.xctResend p).links.xct.length = s.links.xct.length := by
  unfold State.xctResend
  dsimp only
  rw [State.each_keeps (fun t : State => t.links.xct.length) _ _ fun t f => t.xctPut_keeps (fun u => u.links.xct.length) (fun _ _ => rfl) p f,
    (State.bumpReg_sameButRegs ..).keeps (fun u => u.links.xct.length) (fun _ _ => rfl)]
  exact List.length_set

theorem State.xct_setXct_same {p : Nat} (h : p < s.links.xct.length) (q : XctPort) : (s.setXct p q).xct p = q := by
  simp [State.xct, State.setXct, h]

/-- A frame sent keeps the lanes' state of its port. -/
theorem State.xctSend_laneBusy {p : Nat} (h : p < s.links.xct.length) (type : Nat) (b : Bytes) :
    ((s.xctSend p type b).xct p).laneBusy = (s.xct p).laneBusy := by
  unfold State.xctSend
  dsimp only
  split
  · unfold State.xctLaunch
    rw [State.xctPut_keeps _ (fun u => u.xct p) (fun _ _ => rfl), s.xct_setXct_same h]
  · rw [s.xct_setXct_same h]

theorem State.xctSend_keeps {γ : Type} (q : State → γ) (hq : ∀ (u : State) o l, q { u with outbox := o, links := l } = q u)
    (p type : Nat) (b : Bytes) : q (s.xctSend p type b) = q s := by
  unfold State.xctSend
  dsimp only
  split
  · exact (State.xctPut_keeps _ q (fun u o => hq u o u.links) p _).trans (hq s s.outbox _)
  · exact hq s s.outbox _

/-! Lanes. -/

/-- What a port does when a lane of it has failed and others are left: the width w, and the frames not acknowledged again (R434). -/
def State.laneLeft (p w : Nat) : State :=
  let u := (s.setField (cmdReg (0xC00 + 16 * p)) 2 2 (widthCode w)).xctResend p
  (u.setXct p { u.xct p with laneBusy := true }).laneSend p

theorem State.laneLeft_reg (p w : Nat) : (s.laneLeft p w).reg (cmdReg (0xC00 + 16 * p)) =
    (s.setField (cmdReg (0xC00 + 16 * p)) 2 2 (widthCode w)).reg (cmdReg (0xC00 + 16 * p)) := by
  have hApart : cmdReg (0xC00 + 16 * p) ≠ cmdReg (0xC0C + 16 * p) := by
    rw [cmdReg, cmdReg]
    omega
  refine (State.xctSend_keeps _ (fun v => v.reg (cmdReg (0xC00 + 16 * p))) (fun _ _ _ => rfl) p 3 _).trans ?_
  refine (State.xctResend_reg _ p (cmdReg (0xC00 + 16 * p))).trans ?_
  exact State.reg_bumpReg_other _ _ hApart

theorem State.laneLeft_laneBusy {p : Nat} (h : p < s.links.xct.length) (w : Nat) : ((s.laneLeft p w).xct p).laneBusy = true := by
  let u := (s.setField (cmdReg (0xC00 + 16 * p)) 2 2 (widthCode w)).xctResend p
  let v := u.setXct p { u.xct p with laneBusy := true }
  have hPorts : p < u.links.xct.length := by
    rw [State.xctResend_ports, (s.setField_sameButRegs _ 2 2 _).keeps (fun t => t.links.xct.length) (fun _ _ => rfl)]
    exact h
  have hDrawn : p < v.draw.2.links.xct.length := hPorts.trans_eq List.length_set.symm
  refine (v.draw.2.xctSend_laneBusy hDrawn 3 (lanePayload v.draw.1)).trans ?_
  exact congrArg XctPort.laneBusy (u.xct_setXct_same hPorts _)

theorem State.laneLeft_width {p w : Nat} (hw : widthCode w < 4) : (s.laneLeft p w).field (cmdReg (0xC00 + 16 * p)) 2 2 = widthCode w := by
  rw [State.field_of_reg _ (s.laneLeft_reg p w), s.field_setField_same _ _ (by decide)]
  exact Nat.mod_eq_of_lt hw

theorem State.laneLeft_lane {p w n : Nat} (hn : n < 4) :
    (s.laneLeft p w).field (cmdReg (0xC00 + 16 * p)) (4 + n) 1 = s.field (cmdReg (0xC00 + 16 * p)) (4 + n) 1 := by
  rw [State.field_of_reg _ (s.laneLeft_reg p w), State.field, State.setField, State.regNat_setRegNat_same, bits_mod _ _ _ _ (by omega),
    bits_putField_above _ _ (by omega), State.field]

/-- What a lane's fault marks: the lane off, an event and an entry for the repair log. -/
def State.laneFailed (p n : Nat) : State :=
  ((s.setField (cmdReg (0xC00 + 16 * p)) (4 + n) 1 0).raise 0x23 2 1 0 noFace none p n).logUnit { kind := 9, index := 4 * p + n } 1 3 0x23

theorem State.laneFailed_lane {p n : Nat} (hp : p < 4) (hn : n < 4) : (s.laneFailed p n).field (cmdReg (0xC00 + 16 * p)) (4 + n) 1 = 0 := by
  have hRaised := (s.setField (cmdReg (0xC00 + 16 * p)) (4 + n) 1 0).raise_raised 0x23 2 1 0 noFace none p n
  refine (State.field_of_reg _ (hRaised.2 _ ?_ ?_) (4 + n) 1).trans (s.field_setField_same _ 0 (by omega))
  all_goals
    rw [cmdReg, cmdReg]
    omega

theorem State.laneFailed_ports (p n : Nat) : (s.laneFailed p n).links = s.links :=
  (((s.setField _ _ _ _).raise_raised 0x23 2 1 0 noFace none p n).keeps State.links (fun _ _ _ _ _ _ _ _ => rfl)).trans
    ((s.setField_sameButRegs ..).keeps State.links (fun _ _ => rfl))

theorem widthCode_laneWidth_lt (k : Nat) : widthCode (laneWidth k) < 4 := by
  unfold widthCode laneWidth
  split_ifs <;> omega

theorem State.execXctLane_of_on {p n : Nat} (hp : p < 4) (hn : n < 4) (hUp : s.xctUp p = true)
    (hOn : s.field (cmdReg (0xC00 + 16 * p)) (4 + n) 1 = 1) :
    let w := laneWidth ((List.range 4).countP (fun k => (s.laneFailed p n).field (cmdReg (0xC00 + 16 * p)) (4 + k) 1 == 1))
    exec (.xctLane p n) s =
      .next (if w = 0 then ((s.laneFailed p n).xctDisable p).judgeTime s else ((s.laneFailed p n).laneLeft p w).wantSurvey) := by
  intro w
  show execXctLane p n s = _
  unfold execXctLane
  refine when_true ?_ s _
  rw [hUp, decide_eq_true hp, decide_eq_true hn, Bool.and_self, Bool.and_self, Bool.true_and]
  exact beq_iff_eq.mpr hOn

theorem State.wantSurvey_fields : (∀ a lo n, s.wantSurvey.field a lo n = s.field a lo n) ∧ ∀ p, s.wantSurvey.xct p = s.xct p :=
  ⟨fun _ _ _ => rfl, fun _ => rfl⟩

/-! Neighbours. -/

theorem State.claimsOnTime_keeps : s.claimsOnTime.links = s.links ∧ s.claimsOnTime.mem = s.mem := by
  have hErased : ∀ t : State, t.eraseExpired.links = t.links ∧ t.eraseExpired.mem = t.mem := fun t =>
    ⟨State.each_keeps State.links (s := t) _ _ fun _ _ => rfl, State.each_keeps State.mem (s := t) _ _ fun _ _ => rfl⟩
  have hApplied : ∀ (t : State) n, t.SameUnits (t.applyClaims n) := fun t n =>
    (State.SameUnits.update t).trans (.of_regs (State.setRegNat_sameButRegs ..))
  have hAsked : ∀ (t : State) n, t.SameUnits (t.askLicences n) := fun t n => .each _ _ fun u v => u.requestRound_sameUnits ..
  let t := State.eraseExpired { s with boot := { s.boot with claimsTimed := true } }
  have hSame : t.SameUnits s.claimsOnTime := (hApplied t t.now).trans (hAsked ..)
  exact ⟨(hSame.keeps State.links (fun _ _ _ _ _ _ _ _ _ _ _ _ _ _ => rfl)).trans (hErased _).1,
    (hSame.keeps State.mem (fun _ _ _ _ _ _ _ _ _ _ _ _ _ _ => rfl)).trans (hErased _).2⟩

theorem State.judgeTime_keeps (old : State) : (s.judgeTime old).links = s.links ∧ (s.judgeTime old).mem = s.mem := by
  have hVerdict : ∀ a b, (s.timeVerdict a b).links = s.links ∧ (s.timeVerdict a b).mem = s.mem := fun a b => by
    unfold State.timeVerdict
    dsimp only
    split
    · exact State.claimsOnTime_keeps _
    · exact ⟨rfl, rfl⟩
  unfold State.judgeTime
  dsimp only
  split
  · exact ⟨rfl, rfl⟩
  · exact hVerdict ..

/-- What the module drops of the links it knows, reported 50 ms ago or earlier, and of its own ports on them (R376). -/
def State.neighboursLost : State :=
  let old := s.links.known.filter (fun k => decide (k.seen + 50000000 ≤ s.now))
  let me := s.rot.fuses.moduleId
  let gone := (List.range 4).filter (fun p => s.xctUp p &&
    old.any (fun k => (k.modA == me && k.portA == p) || (k.modB == me && k.portB == p)))
  (State.topologyChanged { s with links := { s.links with known := s.links.known.filter (fun k => !old.contains k) } }).each gone
    (fun s p => s.setXct p { s.xct p with nbrSeen := false, dataset := [], steps := 0 })

theorem State.neighboursLost_keeps :
    s.neighboursLost.links.known =
        s.links.known.filter (fun k => !(s.links.known.filter (fun k => decide (k.seen + 50000000 ≤ s.now))).contains k) ∧
      s.neighboursLost.links.topologyAt = s.now ∧ s.neighboursLost.mem = s.mem :=
  ⟨State.each_keeps (fun t => t.links.known) _ _ fun _ _ => rfl, State.each_keeps (fun t => t.links.topologyAt) _ _ fun _ _ => rfl,
    State.each_keeps State.mem _ _ fun _ _ => rfl⟩

theorem State.elect_neighbours :
    s.elect.links.known = s.links.known ∧ s.elect.links.topologyAt = s.links.topologyAt ∧ s.elect.mem = s.mem := by
  unfold State.elect
  split
  · exact ⟨rfl, rfl, rfl⟩
  · exact ⟨rfl, rfl, rfl⟩

theorem execNeighbourTimeout_of_old
    (h : (!(s.links.known.filter (fun k => decide (k.seen + 50000000 ≤ s.now))).isEmpty) = true) :
    exec .neighbourTimeout s = .next (s.neighboursLost.elect.wantSurvey.judgeTime s) := by
  show execNeighbourTimeout s = _
  unfold execNeighbourTimeout State.neighboursLost
  exact when_true h s _

theorem execNeighbourTimeout_of_none (h : s.links.known.filter (fun k => decide (k.seen + 50000000 ≤ s.now)) = []) :
    exec .neighbourTimeout s = .next s := by
  show execNeighbourTimeout s = _
  unfold execNeighbourTimeout
  dsimp only
  rw [h]
  rfl

/-- Settles O59: each row acts under its condition; a lane's fault and a neighbour's silence also say what the links keep. -/
theorem crosscutRowsAct : Obligations.CrosscutRowsAct := by
  unfold Obligations.CrosscutRowsAct
  intro s p b hp hUp a
  refine ⟨?nak, ?ack, ?replay, ?relay, ?time, ?timeSend, ?helloSend, ?hello, ?laneFrame, ?lane, ?heard, ?silent, ?settle⟩
  case nak =>
    intro h
    refine when_true ?_ s _
    rcases h with hBad | hFlag | ⟨hData, hOrder⟩
    · simp [hp, hUp, hBad]
    · simp [hp, hUp, hFlag]
    · simp [hp, hUp, hData, hOrder]
  case ack =>
    intro hSound t
    have hExec := when_true (show (decide (p < 4) && s.xctUp p && xctSound b) = true by simp [hp, hUp, hSound]) s
    refine ⟨fun ⟨hUnknown, hOrder⟩ => (hExec _).trans (congrArg Host.Outcome.next (if_pos (by rw [hUnknown, hOrder]; rfl))), fun h =>
      (hExec _).trans (congrArg Host.Outcome.next (if_neg ?_))⟩
    rcases h with h | h <;> simp [h]
  case replay =>
    intro hSome hTime
    exact ⟨when_true (by simp [hp, hUp, hSome, hTime]) s _, s.xctResend_count p⟩
  case relay =>
    intro hIs out
    have hExec := when_true (show (decide (p < 4) && s.xctUp p && s.xctIs p 4 b) = true by simp [hp, hUp, hIs]) s
    have hDown : s.links.streamUp.getD out false = false → ¬ s.links.streamUp.getD (beAt (xctPayload b) 0 1) false = true := fun h k =>
      Bool.false_ne_true (h.symm.trans k)
    exact ⟨fun hPort => (hExec _).trans (congrArg Host.Outcome.next (if_pos hPort)),
      fun hPort hOut => (hExec _).trans (congrArg Host.Outcome.next ((if_neg (hDown hPort)).trans (if_pos hOut))),
      fun hPort hOut => (hExec _).trans (congrArg Host.Outcome.next ((if_neg (hDown hPort)).trans (if_neg (Nat.not_lt.mpr hOut))))⟩
  case time => exact fun hIs => when_true (by simp [hp, hUp, hIs]) s _
  case timeSend => exact fun hRuns hTime => when_true (by simp [hp, hUp, hRuns, hTime]) s _
  case helloSend => exact fun hRuns hTime => when_true (by simp [hp, hUp, hRuns, hTime]) s _
  case hello => exact fun hRuns hIs hLength => when_true (by simp [hp, hUp, hRuns, hIs, hLength]) s _
  case laneFrame =>
    intro hIs
    have hExec := when_true (show (decide (p < 4) && s.xctUp p && s.xctIs p 3 b) = true by simp [hp, hUp, hIs]) s
    exact ⟨fun hBusy => (hExec _).trans (congrArg Host.Outcome.next (if_pos hBusy)),
      fun hFree => (hExec _).trans (congrArg Host.Outcome.next (if_neg (by simp [hFree])))⟩
  case lane =>
    intro n hn hOn u w
    have hExec : exec (.xctLane p n) s = .next (if w = 0 then ((s.laneFailed p n).xctDisable p).judgeTime s else
        ((s.laneFailed p n).laneLeft p w).wantSurvey) := s.execXctLane_of_on hp hn hUp hOn
    refine ⟨fun hNone => hExec.trans (congrArg Host.Outcome.next (if_pos hNone)), fun hSome hPort => ?_⟩
    have hLeft := ((s.laneFailed p n).laneLeft p w).wantSurvey_fields
    refine ⟨_, hExec.trans (congrArg Host.Outcome.next (if_neg hSome)), ?_, ?_, ?_, rfl⟩
    · exact (hLeft.1 _ 2 2).trans ((s.laneFailed p n).laneLeft_width (widthCode_laneWidth_lt _))
    · exact (hLeft.1 _ (4 + n) 1).trans (((s.laneFailed p n).laneLeft_lane hn).trans (s.laneFailed_lane hp hn))
    · exact (congrArg XctPort.laneBusy (hLeft.2 p)).trans ((s.laneFailed p n).laneLeft_laneBusy (by rw [s.laneFailed_ports]; exact hPort) w)
  case heard =>
    intro hAll
    refine execNeighbourTimeout_of_none s (List.filter_eq_nil_iff.mpr fun k hk => ?_)
    rw [decide_eq_true_eq, Nat.not_le]
    exact hAll k hk
  case silent =>
    rintro ⟨k, hk, hOld⟩
    have hMem : k ∈ s.links.known.filter (fun k => decide (k.seen + 50000000 ≤ s.now)) :=
      List.mem_filter.mpr ⟨hk, by rw [decide_eq_true_eq]; exact hOld⟩
    obtain ⟨hJudged, hJudgedMem⟩ := s.neighboursLost.elect.wantSurvey.judgeTime_keeps s
    obtain ⟨hKnown, hTime, hElectMem⟩ := s.neighboursLost.elect_neighbours
    obtain ⟨kKnown, kTime, kMem⟩ := s.neighboursLost_keeps
    refine ⟨_, execNeighbourTimeout_of_old s ?_, fun m => ?_, ?_, (hJudgedMem.trans hElectMem).trans kMem⟩
    · rw [Bool.not_eq_true', List.isEmpty_eq_false_iff]
      exact List.ne_nil_of_mem hMem
    · rw [hJudged, show s.neighboursLost.elect.wantSurvey.links.known = s.links.known.filter _ from hKnown.trans kKnown, List.mem_filter]
      refine and_congr_right fun hm => ?_
      simp only [List.contains_eq_mem, List.mem_filter, hm, true_and, decide_eq_true_eq, Bool.not_eq_true', decide_eq_false_iff_not, Nat.not_le]
    · rw [hJudged]
      exact hTime.trans kTime
  case settle =>
    intro hRuns hOpen hBest hTopology hTime
    refine when_true ?_ s _
    rcases hBest with h | h <;> simp [hRuns, hOpen, h, hTopology, hTime]

end Sys2Proof.Machine
end

section
/-! PROOFS. The queue, the clock and the state after reset (R10, R239, R254, R427). -/

namespace Sys2Proof.Machine
open Sys2Proof

/-- Settles O1: it is `step`'s second case. -/
theorem stepRunsFrontCommand : Obligations.StepRunsFrontCommand := fun _ _ _ => rfl

/-! The clock. -/

/-- A cycle of the clock with its fraction: 4 ns and the servo's slew (R427). -/
def State.cycleCount (s : State) : Nat := ((s.now * 2 ^ 32 + s.servo.frac + 4 * 2 ^ 32 : Nat) + s.slew).toNat

theorem State.slew_bounds {s : State} (h : ∃ e ∈ s.sessions, e.2.state ≠ .free) : -1717986 ≤ s.slew ∧ s.slew ≤ 1717986 := by
  obtain ⟨e, hMem, hState⟩ := h
  have hNot : s.sessions.all (fun e => e.2.state == .free) = false := by
    rw [List.all_eq_false]
    exact ⟨e, hMem, by simpa using hState⟩
  rw [State.slew, hNot, if_neg (by decide)]
  omega

theorem State.slew_zero {s : State} (h : s.servo.rate = 0) : s.slew = 0 := by
  rw [State.slew, h]
  split <;> rfl

theorem State.cycle_now (s : State) : s.cycle.now = s.cycleCount / 2 ^ 32 % 2 ^ 64 := rfl

theorem State.cycle_frac (s : State) : s.cycle.servo.frac = s.cycleCount % 2 ^ 32 := rfl

/-- With no correction a cycle is 4 ns. -/
theorem State.cycle_of_rate_zero {s : State} (hRate : s.servo.rate = 0) (hFrac : s.servo.frac < 2 ^ 32) :
    s.cycle.now = (s.now + 4) % 2 ^ 64 ∧ s.cycle.servo.frac = s.servo.frac := by
  have hCount : s.cycleCount = s.now * 2 ^ 32 + s.servo.frac + 4 * 2 ^ 32 := by
    rw [State.cycleCount, State.slew_zero hRate]
    omega
  rw [State.cycle_now, State.cycle_frac, hCount]
  omega

/-- With a session open a cycle is within 100 ppm of 4 ns, so the clock moves on. -/
theorem State.cycle_of_session {s : State} (hOpen : ∃ e ∈ s.sessions, e.2.state ≠ .free) (hFrac : s.servo.frac < 2 ^ 32)
    (hEnd : s.now + 5 < 2 ^ 64) : s.now < s.cycle.now ∧
      (((s.cycle.now * 2 ^ 32 + s.cycle.servo.frac : Nat) : Int) - (s.now * 2 ^ 32 + s.servo.frac : Nat) - 4 * 2 ^ 32).natAbs * 1000000 ≤
        100 * (4 * 2 ^ 32) := by
  obtain ⟨hLow, hHigh⟩ := State.slew_bounds hOpen
  have hCount : (s.cycleCount : Int) = (s.now * 2 ^ 32 + s.servo.frac + 4 * 2 ^ 32 : Nat) + s.slew :=
    Int.toNat_of_nonneg (by omega)
  rw [State.cycle_now, State.cycle_frac]
  omega

/-- Settles O2, from the bounds on the servo's slew. -/
theorem emptyQueueTicks : Obligations.EmptyQueueTicks := by
  unfold Obligations.EmptyQueueTicks
  intro s hEmpty
  refine ⟨s.cycle, ?_, rfl, rfl, fun hRate hFrac => State.cycle_of_rate_zero hRate hFrac,
    fun hOpen hFrac hEnd => State.cycle_of_session hOpen hFrac hEnd⟩
  rw [step, hEmpty]
  rfl

/-! Reset. -/

theorem getD_replicate_or {α : Type} (n i : Nat) (x y : α) : (List.replicate n x).getD i y = x ∨ (List.replicate n x).getD i y = y := by
  rcases Nat.lt_or_ge i n with h | h
  · exact .inl (by rw [List.getD_replicate _ h])
  · exact .inr (List.getD_eq_default _ _ (by rwa [List.length_replicate]))

theorem reset_level (l : Nat) : State.reset.level l = Level.zero := (getD_replicate_or 4 l Level.zero Level.zero).elim id id

theorem reset_ring (p r : Nat) : State.reset.ring p r = {} := (getD_replicate_or 16 r ({} : Ring) {}).elim id id

theorem reset_ringCap (p r : Nat) : State.reset.ringCap p r = 0 := by
  have hRec : State.reset.ringRec p r = {} := by
    unfold State.ringRec
    split <;> rfl
  rw [State.ringCap, hRec, reset_ring]
  rfl

theorem reset_viewRing (p r : Nat) : State.reset.viewRing p r = 0 := by
  rw [State.viewRing, reset_ring, reset_ringCap]
  decide

/-- An engine at reset holds its credit and no descriptor. -/
theorem reset_viewEngine (p e : Nat) : State.reset.viewEngine p e = 0 := by
  have hEngine : (State.reset.engine p e).queue = [] ∧ (State.reset.engine p e).stopped = false := by
    rcases getD_replicate_or 6 e ({ credit := creditCap } : Engine) {} with h | h
    · rw [show State.reset.engine p e = { credit := creditCap } from h]
      exact ⟨rfl, rfl⟩
    · rw [show State.reset.engine p e = {} from h]
      exact ⟨rfl, rfl⟩
  obtain ⟨hQueue, hStopped⟩ := hEngine
  simp [State.viewEngine, hQueue, hStopped]

/-- No coder of a level at reset has a job. -/
theorem reset_coder (c x : Nat) : (Level.zero.coders.getD c []).getD x {} = {} := by
  rcases getD_replicate_or 16 c (List.replicate 4 ({} : CoderCtx)) [] with h | h
  · rw [show Level.zero.coders.getD c [] = _ from h]
    exact (getD_replicate_or 4 x ({} : CoderCtx) {}).elim id id
  · rw [show Level.zero.coders.getD c [] = _ from h]
    rfl

theorem reset_coderStat (l c : Nat) : Level.zero.coderStat l c = 0 := by
  have hWaits : ∀ x, Level.zero.ctxWaits l c x = false := fun x => by
    rw [Level.ctxWaits, reset_coder]
    rfl
  simp only [Level.coderStat, reset_coder, hWaits]
  simp

theorem reset_clockStat (l : Nat) : State.reset.clockStat l = 0 := by
  have hPlls : State.reset.pllsLocked = false := rfl
  have hLocked : State.reset.levelLocked l = false := by rw [State.levelLocked, hPlls, Bool.false_and, Bool.false_and, Bool.false_and]
  rw [State.clockStat, hLocked, reset_level]
  rfl

theorem reset_reg_cmd {o : Nat} (ho : o < 0x100000) : State.reset.reg (cmdReg o) = if o = 0xB00 then 7 else 0 := by
  show regReset (cmdReg o) = _
  unfold regReset
  rw [regBlock_cmdReg ho]

theorem reset_reg_lvl {l o : Nat} (hl : l < 4) (ho : o < 0x10000) : State.reset.reg (lvlReg l o) = if o = 0x310 then 0x4040 else 0 := by
  show regReset (lvlReg l o) = _
  unfold regReset
  rw [regBlock_lvlReg hl ho]

theorem reset_reg_fce {p o : Nat} (hp : faceWf p = true) (ho : o < 0x1000) : State.reset.reg (fceReg p o) = if o = 0x240 then 0x3403 else 0 := by
  show regReset (fceReg p o) = _
  unfold regReset
  rw [regBlock_fceReg hp ho]

theorem reset_reg_drf {l d o : Nat} (hl : l < 4) (hd : d < 16) (ho : o < 0x1000) : State.reset.reg (drfReg l d o) = 0 := by
  show regReset (drfReg l d o) = _
  unfold regReset
  rw [regBlock_drfReg hl hd ho]

/-! What each part's registers read after reset. -/

theorem reset_view_drf {l d o : Nat} (hl : l < 4) (hd : d < 16) (ho : o < 0x1000) : State.reset.viewReg (drfReg l d o) = 0 := by
  unfold State.viewReg
  rw [regBlock_drfReg hl hd ho, reset_reg_drf hl hd ho]

theorem reset_view_cmd {o : Nat} (ho : o < 0x100000) : State.reset.viewReg (cmdReg o) = if o = 0xB00 then 7 else 0 := by
  unfold State.viewReg
  rw [regBlock_cmdReg ho, reset_reg_cmd ho]
  have hKeys : min State.reset.ctrl.queue.length 1024 + State.reset.ctrl.subs.length % 8 * 4096 +
      ((List.range 8).foldl (fun acc k => acc + b2n (State.reset.rot.keys.getD k none).isSome * 2 ^ k) 0) * 65536 +
      State.reset.handles.length % 8 * 2 ^ 24 = 0 := by decide
  have hMonitors : State.reset.armedOn none = 0 ∧ State.reset.cmdClocks = 0 ∧ State.reset.pwr.volts = 0 ∧ State.reset.pwr.watts = 0 ∧
      State.reset.now = 0 := ⟨rfl, rfl, rfl, rfl, rfl⟩
  obtain ⟨hArmed, hClocks, hVolts, hWatts, hNow⟩ := hMonitors
  dsimp only
  rw [reset_clockStat, hKeys, hArmed, hClocks, hVolts, hWatts, hNow]
  grind

theorem reset_lotsFree : Level.zero.lotsFree = 64 := by decide

theorem reset_orFaces (l o : Nat) : State.reset.orFaces l o = 0 := rfl

theorem reset_view_lvl {l o : Nat} (hl : l < 4) (ho : o < 0x10000) : State.reset.viewReg (lvlReg l o) = if o = 0x310 then 0x4040 else 0 := by
  have hBlk : (List.range 4).foldl (fun acc u => acc + b2n (Level.zero.blkUnits.getD u none).isSome * 2 ^ u) 0 = 0 := by decide
  have hNone : State.reset.swapTime = none ∧ (∀ f, State.reset.sesCount l f = 0) ∧ State.reset.armedOn (some l) = 0 := ⟨rfl, fun _ => rfl, rfl⟩
  obtain ⟨hSwap, hSessions, hArmed⟩ := hNone
  have hLevel : Level.zero.coderQ = [] ∧ Level.zero.blkQ = [] ∧ Level.zero.parked = 0 ∧ Level.zero.inReset = false := ⟨rfl, rfl, rfl, rfl⟩
  obtain ⟨hCoder, hQueue, hParked, hReset⟩ := hLevel
  unfold State.viewReg
  rw [regBlock_lvlReg hl ho, reset_reg_lvl hl ho]
  dsimp only
  rw [reset_level, reset_orFaces, reset_orFaces, reset_orFaces, reset_orFaces, reset_lotsFree, hSwap, hSessions, hSessions, hArmed, hBlk, hCoder, hQueue,
    hParked, hReset, reset_coderStat]
  by_cases hLots : o = 0x310
  · rw [hLots]
    decide
  · rw [if_neg hLots, if_neg hLots]
    simp [bits, b2n]

theorem reset_view_fce {p o : Nat} (hp : faceWf p = true) (ho : o < 0x1000) : State.reset.viewReg (fceReg p o) = if o = 0x240 then 0x3403 else 0 := by
  have hFace : (State.reset.face p).epoch = 0 ∧ State.reset.arithCtrl p = 0 ∧ State.reset.viewMotion p = 0 := ⟨rfl, rfl, rfl⟩
  obtain ⟨hEpoch, hArith, hMotion⟩ := hFace
  have hExpected : State.reset.expected p = 0 := by
    obtain ⟨hLevel, hDrift⟩ := faceWf_bounds hp
    have hPos : posOf p < 32 := Nat.mod_lt _ (by decide)
    rw [State.expected, State.field, State.regNat, reset_reg_drf hLevel hDrift (by omega)]
    decide
  unfold State.viewReg
  rw [regBlock_fceReg hp ho, reset_reg_fce hp ho]
  dsimp only
  rw [hEpoch, hArith, hMotion, hExpected, reset_viewRing, reset_viewEngine]
  grind

/-- Settles O4, from what each part's registers read after reset. -/
theorem resetState : Obligations.ResetState := by
  unfold Obligations.ResetState
  refine ⟨fun _ => rfl, rfl, rfl, fun p hp => ?_, fun l hl => ?_, ?_, fun o ho hNe => ?_, fun l o hl ho hNe => ?_, fun p o hp ho hNe => ?_,
    fun l d o hl hd ho => reset_view_drf hl hd ho, fun slot => (getD_replicate_or 8 slot none none).elim id id, rfl, rfl, rfl, rfl, rfl⟩
  · rw [reset_view_fce hp (by decide), if_pos rfl]
  · rw [reset_view_lvl hl (by decide), if_pos rfl]
  · rw [reset_view_cmd (by decide), if_pos rfl]
  · rw [reset_view_cmd ho, if_neg hNe]
  · rw [reset_view_lvl hl ho, if_neg hNe]
  · rw [reset_view_fce hp ho, if_neg hNe]

end Sys2Proof.Machine
end

section
/-! PROOFS. What a compute step forms: the tensors of its work (R14, R151, R290). -/

namespace Sys2Proof.Machine
open Sys2Proof

/-! The records of a step. -/

variable (s : State)

theorem State.setFlags_same (p flags : Nat) (owner : Option Ctx) : s.SameButRecords (s.setFlags p flags owner) :=
  .ite (s.setRegNat_same ..) ((s.setRegNat_same ..).trans (State.raise_same _ _ _ _ _ _ _ _ (by decide)))

theorem State.trapNan_same (p layer : Nat) (c : Ctx) (at' : Nat × Nat × Nat × Nat) (t : Nat × Nat) :
    s.SameButRecords (s.trapNan p layer c at' t) := by
  have hWords : ∀ (u : State) a v b w, u.SameButRecords ((u.setRegNat a v).setRegNat b w) := fun u a v b w =>
    (u.setRegNat_same a v).trans (State.setRegNat_same ..)
  refine .ite (s.bumpReg_same ..) (.ite (.refl s) ?_)
  exact (((hWords ..).trans (hWords ..)).trans ((hWords ..).trans (hWords ..))).trans (State.raise_same _ _ _ _ _ _ _ _ (by decide))

theorem State.spilled_same (p layer tensor : Nat) (c : Ctx) (sc : ScaleRec) (q : Nat × Nat × Nat × Bool × Nat × Nat) :
    s.SameButRecords (s.spilled p layer tensor c sc q) := by
  have hWords : ∀ (u : State) a v b w, u.SameButRecords ((u.setRegNat a v).setRegNat b w) := fun u a v b w =>
    (u.setRegNat_same a v).trans (State.setRegNat_same ..)
  have hCounts : ∀ (u : State) a n b m, u.SameButRecords ((u.bumpReg a n).bumpReg b m) := fun u a n b m =>
    (u.bumpReg_same a n).trans (State.bumpReg_same ..)
  refine .ite (hCounts ..) ((hCounts ..).trans (State.SameButRecords.trans (.ite (State.bumpReg_same ..) ?_)
    (State.raise_same _ _ _ _ _ _ _ _ (by decide))))
  exact ((hWords ..).trans (hWords ..)).trans (State.setRegNat_same ..)

theorem State.stepRecords_same (p : Nat) (e : Env) (layer lo : Nat) (l : LayerRec) (a : LayerIn) (rs : List Res) (o : StepOut) (extra : Nat) :
    s.SameButRecords (s.stepRecords p e layer lo l a rs o extra) :=
  ((s.setFlags_same ..).trans (.each _ _ fun t _ => t.trapNan_same ..)).trans (.each _ _ fun t _ => t.spilled_same ..)

theorem State.greyRecords_same (p : Nat) (e : Env) (g : List (Nat × List Res)) (layer lo count : Nat) :
    s.SameButRecords (s.greyRecords p e g layer lo count) := by
  refine .each _ _ fun t q => ?_
  exact .ite (t.stepRecords_same ..) (.ite (t.stepRecords_same ..) (.refl t))

/-! What a step may change besides its face. -/

/-- t differs from s at most in records, rounds, sessions and jobs. -/
def State.SameButWork (s t : State) : Prop :=
  { t with events := s.events, regs := s.regs, rot := s.rot, ctrl := s.ctrl, outbox := s.outbox, rounds := s.rounds,
           sessions := s.sessions, jobs := s.jobs } = s

namespace State.SameButWork
variable {s t u : State}

theorem refl (s : State) : s.SameButWork s := rfl

theorem trans (h : s.SameButWork t) (k : t.SameButWork u) : s.SameButWork u := by
  unfold State.SameButWork at *
  rw [← h, ← k]

theorem ite {a b : State} {c : Prop} [Decidable c] (ha : s.SameButWork a) (hb : s.SameButWork b) : s.SameButWork (if c then a else b) := by
  split
  · exact ha
  · exact hb

/-- What neither records, rounds, sessions nor jobs hold. -/
theorem keeps {γ : Type} (h : s.SameButWork t) (q : State → γ)
    (hq : ∀ (u : State) e g r c o l x j, q { u with events := e, regs := g, rot := r, ctrl := c, outbox := o, rounds := l, sessions := x,
                                                     jobs := j } = q u) : q t = q s := by
  unfold State.SameButWork at h
  have hEq := congrArg q h
  rwa [hq] at hEq

theorem of_records (h : s.SameButRecords t) : s.SameButWork t := by
  unfold State.SameButWork State.SameButRecords at *
  rw [← h]

theorem mem (h : s.SameButWork t) : t.mem = s.mem := h.keeps State.mem (fun _ _ _ _ _ _ _ _ _ => rfl)
theorem face (h : s.SameButWork t) (p : Nat) : t.face p = s.face p := h.keeps (fun v => v.face p) (fun _ _ _ _ _ _ _ _ _ => rfl)
theorem pkg (h : s.SameButWork t) (m : Nat) : t.pkg m = s.pkg m := h.keeps (fun v => v.pkg m) (fun _ _ _ _ _ _ _ _ _ => rfl)

end State.SameButWork

theorem State.setJob_work (j : Job) : s.SameButWork (s.setJob j) := rfl

theorem State.setWritten_work (e : Env) (ts : List (Nat × Tensor)) : s.SameButWork (s.setWritten e ts) := by
  unfold State.setWritten
  dsimp only
  repeat' split
  all_goals rfl

theorem State.noteWrote_work (e : Env) (layer out : Nat) : s.SameButWork (s.noteWrote e layer out) := by
  unfold State.noteWrote
  dsimp only
  repeat' split
  all_goals rfl

theorem State.putWritten_work (e : Env) (layer out : Nat) (t : Tensor) : s.SameButWork (s.putWritten e layer out t) :=
  .ite (.refl s) (.ite ((s.setWritten_work ..).trans (State.noteWrote_work ..)) (s.setWritten_work ..))

theorem State.lateMap_work (e : Env) (l : LayerRec) : s.SameButWork (s.lateMap e l) := by
  unfold State.lateMap
  dsimp only
  repeat' split
  all_goals rfl

theorem State.keepRoots_work (e : Env) (op : ComputeOp) (l : LayerRec) (a : LayerIn) (ix : List Nat) :
    s.SameButWork (s.keepRoots e op l a ix) := by
  unfold State.keepRoots
  dsimp only
  repeat' split
  all_goals rfl

theorem State.gateCounts_work (e : Env) (op : ComputeOp) (l : LayerRec) (skipped : List Nat) :
    s.SameButWork (s.gateCounts e op l skipped) := by
  unfold State.gateCounts
  dsimp only
  repeat' split
  all_goals rfl

/-! The tensors that a work holds. -/

/-- The tensors of a work, where there is a frame or a job to hold them. -/
def State.workTensors (e : Env) : Option (List (Nat × Tensor)) :=
  match e.ctx with
  | .session i => if e.dec then (s.ses i).decFrame.map (fun f => f.tensors) else (s.ses i).frame.map (fun f => f.tensors)
  | .job j => (s.job j).map (fun k => k.tensors)

theorem State.written_eq (e : Env) : s.written e = (s.workTensors e).getD [] := by
  unfold State.written State.workTensors
  cases e.ctx with
  | session i => cases e.dec <;> rfl
  | job j => rfl

theorem State.job_setJob {s : State} {id : Nat} {j k : Job} (h : s.job id = some j) (hId : k.id = j.id) : (s.setJob k).job id = some k := by
  have hSame : ∀ x : Job, (if x.id == k.id then k else x).id = x.id := fun x => by
    split
    · next hEq => exact (beq_iff_eq.mp hEq).symm
    · rfl
  have hFind : (s.setJob k).job id = (s.jobs.find? (fun x => x.id == id)).map (fun x => if x.id == k.id then k else x) := by
    rw [State.job, State.setJob, List.find?_map]
    exact congrArg (Option.map _) (List.find?_congr fun x _ => by rw [Function.comp_apply, hSame])
  rw [hFind, show s.jobs.find? (fun x => x.id == id) = some j from h, Option.map_some, if_pos (by rw [hId]; exact beq_self_eq_true _)]

theorem State.tensors_setJob {s : State} {id : Nat} {j k : Job} (h : s.job id = some j) (hId : k.id = j.id) :
    ((s.setJob k).job id).map (fun x => x.tensors) = some k.tensors := by
  rw [State.job_setJob h hId, Option.map_some]

theorem State.workTensors_of_same {s t : State} (hSessions : t.sessions = s.sessions) (hJobs : t.jobs = s.jobs) (e : Env) :
    t.workTensors e = s.workTensors e := by
  unfold State.workTensors State.ses State.job
  rw [hSessions, hJobs]

theorem State.workTensors_of_records {s t : State} (h : s.SameButRecords t) (e : Env) : t.workTensors e = s.workTensors e :=
  State.workTensors_of_same h.sessions h.jobs e

theorem State.workTensors_setWritten (e : Env) (ts : List (Nat × Tensor)) :
    (s.setWritten e ts).workTensors e = (s.workTensors e).map fun _ => ts := by
  unfold State.setWritten State.workTensors
  cases hCtx : e.ctx with
  | session i =>
    cases hDec : e.dec with
    | true =>
      dsimp only
      cases hFrames : (s.ses i).dec.frames with
      | nil => simp [hFrames, Session.decFrame]
      | cons f r => simp [hFrames, Session.decFrame]
    | false =>
      cases hFrame : (s.ses i).frame <;> simp [hFrame]
  | job j =>
    cases hJob : s.job j with
    | none => simp [hJob]
    | some k =>
      simp only [hJob, Option.map_some]
      refine State.tensors_setJob hJob ?_
      rfl

theorem State.workTensors_noteWrote (e : Env) (layer out : Nat) : (s.noteWrote e layer out).workTensors e = s.workTensors e := by
  unfold State.noteWrote State.workTensors
  cases hCtx : e.ctx with
  | session i =>
    cases hDec : e.dec with
    | true =>
      dsimp only
      cases hFrames : (s.ses i).dec.frames with
      | nil => simp
      | cons f r => simp [hFrames, Session.decFrame]
    | false => cases hFrame : (s.ses i).frame <;> simp [hFrame]
  | job j => rfl

/-- A step writes its output, but where a later layer of a spilled tensor has written it. -/
theorem State.workTensors_putWritten (e : Env) (layer out : Nat) (x : Tensor) :
    (s.putWritten e layer out x).workTensors e = s.workTensors e ∨
      (s.putWritten e layer out x).workTensors e = (s.workTensors e).map fun _ => spSet (s.written e) out x := by
  unfold State.putWritten
  dsimp only
  split
  · exact .inl rfl
  · split
    · exact .inr ((State.workTensors_noteWrote ..).trans (s.workTensors_setWritten ..))
    · exact .inr (s.workTensors_setWritten ..)

theorem State.workTensors_putWritten_of_first {e : Env} {layer out : Nat} (x : Tensor)
    (h : ((s.pkg e.model).tensors.getD out {}).role ≠ 4 ∨ ∀ q ∈ s.wrote e, q.1 = out → q.2 ≤ layer) :
    (s.putWritten e layer out x).workTensors e = (s.workTensors e).map fun _ => spSet (s.written e) out x := by
  have hFirst : ¬ (((s.pkg e.model).tensors.getD out {}).role == 4 && (s.wrote e).any (fun q => q.1 == out && decide (layer < q.2))) = true := by
    rcases h with hRole | hLater
    · exact fun hAny => hRole (beq_iff_eq.mp (Bool.and_eq_true .. ▸ hAny).1)
    · intro hAny
      obtain ⟨q, hq, hBoth⟩ := List.any_eq_true.mp (Bool.and_eq_true .. ▸ hAny).2
      simp only [Bool.and_eq_true, beq_iff_eq, decide_eq_true_eq] at hBoth
      exact absurd (hLater q hq hBoth.1) (Nat.not_le.mpr hBoth.2)
  unfold State.putWritten
  dsimp only
  rw [if_neg hFirst]
  split
  · exact (State.workTensors_noteWrote ..).trans (s.workTensors_setWritten ..)
  · exact s.workTensors_setWritten ..

/-- A painted frame has its map tensor, and keeps its other tensors and what has been written. -/
theorem Session.painted_frame (x : Session) {k : ModelPkg} (f : EncFrame) (boxes : List (Nat × Nat × Nat × Nat × Nat)) {m : Nat}
    (hMap : mapTensor k = some m) : ∃ (g : EncFrame) (map : Tensor), (x.painted k f boxes).frame = some g ∧ g.wrote = f.wrote ∧
      g.tensors = spSet f.tensors m map := by
  unfold Session.painted
  dsimp only
  rw [hMap]
  exact ⟨_, _, rfl, rfl, rfl⟩

/-- A late map is painted where the frame has none, and the session then holds it; else nothing changes. -/
theorem State.lateMap_cases (e : Env) (l : LayerRec) : s.lateMap e l = s ∨ ∃ i m f g map, e.ctx = .session i ∧ e.dec = false ∧
    mapTensor (s.pkg e.model) = some m ∧ (s.ses i).frame = some f ∧ ((s.lateMap e l).ses i).frame = some g ∧ g.wrote = f.wrote ∧
      g.tensors = spSet f.tensors m map := by
  unfold State.lateMap
  cases hCtx : e.ctx with
  | job j => exact .inl rfl
  | session i =>
    dsimp only
    cases hFrame : (s.ses i).frame with
    | none => exact .inl rfl
    | some f =>
      cases hMap : mapTensor (s.pkg e.model) with
      | none => exact .inl rfl
      | some m =>
        dsimp only
        split
        · next hPaint =>
          obtain ⟨g, map, hPainted, hWrote, hTensors⟩ := (s.ses i).painted_frame f [] hMap
          refine .inr ⟨i, m, f, g, map, rfl, ?_, rfl, hFrame, ?_, hWrote, hTensors⟩
          · cases hDec : e.dec with
            | false => rfl
            | true =>
              rw [hDec] at hPaint
              cases hPaint
          · rw [State.ses_setSes, if_pos rfl]
            exact hPainted
        · exact .inl rfl

theorem State.workTensors_lateMap (e : Env) (l : LayerRec) : ∃ f : List (Nat × Tensor) → List (Nat × Tensor),
    (s.lateMap e l).workTensors e = (s.workTensors e).map f ∧
      ∀ ts n d, mapTensor (s.pkg e.model) ≠ some n → spGet d (f ts) n = spGet d ts n := by
  rcases s.lateMap_cases e l with hSame | ⟨i, m, f, g, map, hCtx, hDec, hMap, hFrame, hPainted, -, hTensors⟩
  · rw [hSame]
    exact ⟨id, by rw [Option.map_id, id], fun _ _ _ _ => rfl⟩
  · refine ⟨fun ts => spSet ts m map, ?_, fun ts n d hOther => ?_⟩
    · unfold State.workTensors
      rw [hCtx, hDec]
      simp [hFrame, hPainted, hTensors]
    · rw [spGet_spSet, if_neg (fun h => hOther (by rw [hMap, h]))]

theorem State.wrote_lateMap (e : Env) (l : LayerRec) : (s.lateMap e l).wrote e = s.wrote e := by
  rcases s.lateMap_cases e l with hSame | ⟨i, m, f, g, map, hCtx, hDec, -, hFrame, hPainted, hWrote, -⟩
  · rw [hSame]
  · unfold State.wrote
    rw [hCtx, hDec]
    simp [hFrame, hPainted, hWrote]

/-! A step's output. -/

/-- The operands of a step, as its layer reads them. -/
def State.stepIn (e : Env) (op : ComputeOp) (l : LayerRec) : LayerIn :=
  s.layerIn e (if s.isGrey e then some (s.grey e).1 else none) l (opFunc op) (opAxis op) (opRowLen op)

/-- The codes of a step's range: an element skipped keeps what is held, another is the layer's value (R290, R150). -/
def State.stepOut (e : Env) (op : ComputeOp) (l : LayerRec) : StepOut :=
  let a := s.stepIn e op l
  let skip := s.skips e l (opLayer op) a
  let held := s.heldOut e l.out
  s.convertOut e l.out op.lo a.compat a.outX { at' := skip, held := held }
    (((List.range op.count).map fun i => op.lo + i).map fun i =>
      if skip i then Res.ofNum (held.elem (policyOf (s.pkg e.model) l.out) i) else a.elem i)

/-- The output tensor with a step's range written. -/
def State.stepTensor (e : Env) (op : ComputeOp) (l : LayerRec) : Tensor := (s.outBefore e l.out).put op.lo (s.stepOut e op l)

theorem State.workTensors_keepRoots (e : Env) (op : ComputeOp) (l : LayerRec) (a : LayerIn) (ix : List Nat) :
    (s.keepRoots e op l a ix).workTensors e = s.workTensors e := by
  unfold State.keepRoots State.workTensors
  cases hCtx : e.ctx with
  | session i => rfl
  | job j =>
    dsimp only
    cases hJob : s.job j with
    | none => simp [hJob]
    | some q =>
      dsimp only
      split
      · refine State.tensors_setJob hJob ?_
        rfl
      · rw [hJob]

theorem State.workTensors_gateCounts (e : Env) (op : ComputeOp) (l : LayerRec) (skipped : List Nat) :
    (s.gateCounts e op l skipped).workTensors e = s.workTensors e := by
  unfold State.gateCounts State.workTensors
  cases hCtx : e.ctx with
  | job j => rfl
  | session i =>
    dsimp only
    cases hFrame : (s.ses i).frame with
    | none => simp [hFrame]
    | some f =>
      dsimp only
      cases hDec : e.dec with
      | true => simp
      | false =>
        simp only [Bool.false_eq_true, if_false, State.ses_setSes, if_true, Session.bump]
        split <;> simp [hFrame]

/-- A job that keeps its tensors. -/
theorem State.workTensors_setJob {s : State} {e : Env} {id : Nat} {j k : Job} (hCtx : e.ctx = .job id) (hJob : s.job id = some j)
    (hId : k.id = j.id) (hTensors : k.tensors = j.tensors) : (s.setJob k).workTensors e = s.workTensors e := by
  unfold State.workTensors
  rw [hCtx]
  dsimp only
  rw [State.tensors_setJob hJob hId, hJob, hTensors, Option.map_some]

/-- What a step runs from: its operands' late map painted, and its output written where its layer is not empty. -/
def State.stepWritten (e : Env) (op : ComputeOp) (l : LayerRec) : State :=
  let v := s.lateMap e l
  if (v.stepIn e op l).empty then v else v.putWritten e (opLayer op) l.out (v.stepTensor e op l)

theorem State.runStep_spec (p : Nat) (e : Env) (op : ComputeOp) (l : LayerRec) : ∃ w : State, s.runStep p e op l =
    w.setFace p { w.face p with gated := false, lastWork := (s.lateMap e l).now } ∧ (s.stepWritten e op l).SameButWork w ∧
      w.workTensors e = (s.stepWritten e op l).workTensors e := by
  unfold State.runStep State.stepWritten State.stepTensor State.stepOut State.stepIn
  dsimp only
  have hGrey : ∀ c : Bool, ∀ q : List (Nat × Tensor) × List (Nat × List Res), (if c then some q else none).map (fun q => q.1) =
      if c then some q.1 else none := fun c q => by cases c <;> rfl
  rw [hGrey]
  generalize (s.lateMap e l).layerIn e (if (s.lateMap e l).isGrey e then some ((s.lateMap e l).grey e).1 else none) l (opFunc op)
    (opAxis op) (opRowLen op) = a
  refine ⟨_, rfl, ?_, ?_⟩
  · by_cases hEmpty : a.empty = true
    · rw [if_pos hEmpty, if_pos hEmpty]
      exact .refl _
    · rw [if_neg hEmpty, if_neg hEmpty]
      refine State.SameButWork.trans ?_ ((((State.keepRoots_work ..).trans (State.gateCounts_work ..)).trans
        (.of_records (State.greyRecords_same ..))).trans (.of_records (State.stepRecords_same ..)))
      split
      · split
        · exact State.setJob_work ..
        · exact .refl _
      · exact .refl _
  · by_cases hEmpty : a.empty = true
    · rw [if_pos hEmpty, if_pos hEmpty]
    · rw [if_neg hEmpty, if_neg hEmpty]
      rw [State.workTensors_of_records (State.stepRecords_same ..), State.workTensors_of_records (State.greyRecords_same ..),
        State.workTensors_gateCounts, State.workTensors_keepRoots]
      split
      · next j hCtx =>
        split
        · next q hJob =>
          refine State.workTensors_setJob hCtx hJob ?_ ?_
          · rfl
          · rfl
        · rfl
      · rfl

end Sys2Proof.Machine
end

section
/-! PROOFS. A compute step's codes, and what becomes of the step (R14, R151, R257, R282, R290). -/

namespace Sys2Proof.Machine
open Sys2Proof

variable (s : State)

/-! The codes of a step's range. -/

/-- What stands in a list where others were written into it. -/
theorem getD_splice {α : Type} (d : α) (old : List α) (lo : Nat) {new : List α} {i : Nat} (h : i < new.length) :
    (splice d old lo new).getD (lo + i) d = new.getD i d := by
  have hHead : ((old ++ List.replicate (lo - old.length) d).take lo).length = lo := by
    rw [List.length_take, List.length_append, List.length_replicate]
    omega
  unfold splice
  rw [List.append_assoc, List.getD_append_right _ _ _ _ (by omega), hHead, Nat.add_sub_cancel_left, List.getD_append _ _ _ _ h]

/-- An output in FP16 or FP32 takes each value's code. -/
theorem State.convertOut_wide (e : Env) (n lo : Nat) (compat : Bool) (x : Nat) (kept : Kept) (rs : List Res)
    (h : (s.outRec e n).fmt = 0 ∨ (s.outRec e n).fmt = 1) :
    (s.convertOut e n lo compat x kept rs).codes = rs.map fun r => (wideCode compat (s.outRec e n).fmt r).1 := by
  have hNarrow : narrowFmt (s.outRec e n).fmt = false := by rcases h with h | h <;> rw [h] <;> rfl
  have hGrit : (s.outRec e n).fmt ≠ 4 := by rcases h with h | h <;> rw [h] <;> decide
  unfold State.convertOut
  dsimp only
  rw [if_neg hGrit, hNarrow]
  simp

/-- An element that is not skipped gets the code of the layer's value. -/
theorem State.stepTensor_data {e : Env} {op : ComputeOp} {l : LayerRec} (hFmt : (s.outRec e l.out).fmt = 0 ∨ (s.outRec e l.out).fmt = 1)
    (hSkips : ∀ i, s.skips e l (opLayer op) (s.stepIn e op l) i = false) {i : Nat} (hi : i < op.count) :
    (s.stepTensor e op l).data.getD (op.lo + i) 0 =
      (wideCode (s.stepIn e op l).compat (s.outRec e l.out).fmt ((s.stepIn e op l).elem (op.lo + i))).1 := by
  have hCodes : (s.stepOut e op l).codes = (List.range op.count).map fun i =>
      (wideCode (s.stepIn e op l).compat (s.outRec e l.out).fmt ((s.stepIn e op l).elem (op.lo + i))).1 := by
    unfold State.stepOut
    dsimp only
    rw [s.convertOut_wide _ _ _ _ _ _ _ hFmt, List.map_map, List.map_map]
    refine List.map_congr_left fun i _ => ?_
    simp only [Function.comp_apply, hSkips, Bool.false_eq_true, if_false]
  unfold State.stepTensor Tensor.put
  dsimp only
  rw [getD_splice 0 _ _ (by rw [hCodes, List.length_map, List.length_range]; exact hi), hCodes]
  simp [List.getD_eq_getElem?_getD, hi]

/-! What a step leaves of its work. -/

/-- A work with an environment holds tensors. -/
theorem State.workTensors_of_env {s : State} {ctx : Ctx} {e : Env} (h : s.envOf ctx = some e) : ∃ ts, s.workTensors e = some ts := by
  unfold State.envOf at h
  cases ctx with
  | session i =>
    dsimp only at h
    split at h
    · obtain ⟨f, hFrame, rfl⟩ := Option.map_eq_some_iff.mp h
      obtain ⟨hFrame, -⟩ := Option.filter_eq_some_iff.mp hFrame
      exact ⟨f.tensors, by simp [State.workTensors, hFrame]⟩
    · obtain ⟨f, hFrame, rfl⟩ := Option.map_eq_some_iff.mp h
      obtain ⟨hFrame, -⟩ := Option.filter_eq_some_iff.mp hFrame
      exact ⟨f.tensors, by simp [State.workTensors, hFrame]⟩
  | job j =>
    dsimp only at h
    split at h
    · next k hJob =>
      split at h
      · cases h
        exact ⟨k.tensors, by simp [State.workTensors, hJob]⟩
      · cases h
    · cases h

theorem State.atStep_faces (p : Nat) (e : Env) (op : ComputeOp) (l : LayerRec) : s.SameButFaces (s.atStep p e op l) := by
  unfold State.atStep State.readRing
  dsimp only
  split <;> rfl

theorem State.atStep_face_other {p q : Nat} (e : Env) (op : ComputeOp) (l : LayerRec) (h : q ≠ p) :
    (s.atStep p e op l).face q = s.face q := by
  unfold State.atStep State.readRing
  dsimp only
  rw [State.face_setFace_other _ _ h]
  split
  · exact s.face_setRing_other _ _ h
  · rfl

theorem State.atStep_fused (p : Nat) (e : Env) (op : ComputeOp) (l : LayerRec) :
    ((s.atStep p e op l).face p).fused = (s.face p).fused := by
  unfold State.atStep State.readRing
  dsimp only
  rw [State.face_setFace_same]
  dsimp only
  split
  · exact s.fused_setRing ..
  · rfl

theorem State.outRec_of_pkg {s t : State} {e : Env} (h : t.pkg e.model = s.pkg e.model) (n : Nat) : t.outRec e n = s.outRec e n := by
  unfold State.outRec
  rw [h]

theorem State.outRec_role (e : Env) (n : Nat) : (s.outRec e n).role = ((s.pkg e.model).tensors.getD n {}).role := by
  unfold State.outRec
  dsimp only
  split
  · split <;> rfl
  · rfl

theorem State.stepWritten_work (e : Env) (op : ComputeOp) (l : LayerRec) : s.SameButWork (s.stepWritten e op l) :=
  .ite (s.lateMap_work e l) ((s.lateMap_work e l).trans (State.putWritten_work ..))

/-- A step changes its face's gate, its work, and records. -/
theorem State.runStep_rest (p : Nat) (e : Env) (op : ComputeOp) (l : LayerRec) :
    (s.runStep p e op l).mem = s.mem ∧ (∀ q, q ≠ p → (s.runStep p e op l).face q = s.face q) ∧
      ((s.runStep p e op l).face p).fused = (s.face p).fused := by
  obtain ⟨w, hRun, hWork, -⟩ := s.runStep_spec p e op l
  have hWork := (s.stepWritten_work e op l).trans hWork
  rw [hRun]
  refine ⟨hWork.mem, fun q hq => (w.face_setFace_other _ hq).trans (hWork.face q), ?_⟩
  rw [w.face_setFace_same]
  dsimp only
  rw [hWork.face p]

theorem State.workTensors_runStep (p : Nat) (e : Env) (op : ComputeOp) (l : LayerRec) :
    (s.runStep p e op l).workTensors e = (s.stepWritten e op l).workTensors e := by
  obtain ⟨w, hRun, -, hTensors⟩ := s.runStep_spec p e op l
  rw [hRun, ← hTensors]
  exact State.workTensors_of_same rfl rfl e

/-- A tensor that is neither the step's output nor the late map stays. -/
theorem State.written_runStep_other (p : Nat) (e : Env) (op : ComputeOp) {l : LayerRec} {n : Nat} (d : Tensor) (hOut : n ≠ l.out)
    (hMap : mapTensor (s.pkg e.model) ≠ some n) : spGet d ((s.runStep p e op l).written e) n = spGet d (s.written e) n := by
  obtain ⟨f, hLate, hKept⟩ := s.workTensors_lateMap e l
  have hPainted : spGet d ((s.lateMap e l).written e) n = spGet d (s.written e) n := by
    rw [State.written_eq, hLate, s.written_eq]
    cases s.workTensors e with
    | none => rfl
    | some ts => exact hKept ts n d hMap
  rw [State.written_eq, s.workTensors_runStep, ← State.written_eq, ← hPainted]
  unfold State.stepWritten
  dsimp only
  split
  · rfl
  · rw [State.written_eq]
    rcases (s.lateMap e l).workTensors_putWritten e (opLayer op) l.out ((s.lateMap e l).stepTensor e op l) with hSame | hPut
    · rw [hSame, ← State.written_eq]
    · rw [hPut, State.written_eq]
      cases (s.lateMap e l).workTensors e with
      | none => rfl
      | some ts => exact (spGet_spSet ..).trans (if_neg hOut)

/-- The step's output, where a later layer of a spilled tensor has not written it and the layer is not empty. -/
theorem State.written_runStep_out (p : Nat) {e : Env} (op : ComputeOp) {l : LayerRec} {ts : List (Nat × Tensor)}
    (hTensors : s.workTensors e = some ts) (hEmpty : ((s.lateMap e l).stepIn e op l).empty = false)
    (hFirst : (s.outRec e l.out).role ≠ 4 ∨ ∀ q ∈ s.wrote e, q.1 = l.out → q.2 ≤ opLayer op) :
    spGet {} ((s.runStep p e op l).written e) l.out = (s.lateMap e l).stepTensor e op l := by
  obtain ⟨f, hLate, -⟩ := s.workTensors_lateMap e l
  have hPkg : (s.lateMap e l).pkg e.model = s.pkg e.model := (s.lateMap_work e l).pkg e.model
  have hFirst' : (((s.lateMap e l).pkg e.model).tensors.getD l.out {}).role ≠ 4 ∨
      ∀ q ∈ (s.lateMap e l).wrote e, q.1 = l.out → q.2 ≤ opLayer op := by
    rwa [hPkg, s.wrote_lateMap, ← s.outRec_role]
  rw [State.written_eq, s.workTensors_runStep]
  unfold State.stepWritten
  dsimp only
  rw [hEmpty, if_neg Bool.false_ne_true, State.workTensors_putWritten_of_first _ _ hFirst', hLate, hTensors]
  exact (spGet_spSet ..).trans (if_pos rfl)

/-- After a step, an element of a wide output has the code of its layer's value. -/
theorem State.runStep_codes (p : Nat) {e : Env} (op : ComputeOp) {l : LayerRec} (hEnv : ∃ ts, s.workTensors e = some ts)
    (hEmpty : ((s.lateMap e l).stepIn e op l).empty = false) (hFmt : (s.outRec e l.out).fmt = 0 ∨ (s.outRec e l.out).fmt = 1)
    (hSkips : ∀ i, (s.lateMap e l).skips e l (opLayer op) ((s.lateMap e l).stepIn e op l) i = false)
    (hFirst : (s.outRec e l.out).role ≠ 4 ∨ ∀ q ∈ s.wrote e, q.1 = l.out → q.2 ≤ opLayer op) {i : Nat} (hi : i < op.count) :
    (spGet {} ((s.runStep p e op l).written e) l.out).data.getD (op.lo + i) 0 =
      (wideCode ((s.lateMap e l).stepIn e op l).compat (s.outRec e l.out).fmt (((s.lateMap e l).stepIn e op l).elem (op.lo + i))).1 := by
  obtain ⟨ts, hTensors⟩ := hEnv
  have hOut : (s.lateMap e l).outRec e l.out = s.outRec e l.out := State.outRec_of_pkg ((s.lateMap_work e l).pkg e.model) l.out
  rw [s.written_runStep_out p op hTensors hEmpty hFirst, State.stepTensor_data _ (by rwa [hOut]) hSkips hi, hOut]

theorem State.runGradient_fused (p : Nat) (e : Env) (op : ComputeOp) (l : LayerRec) (g out : Nat) :
    ((s.runGradient p e op l g out).face p).fused = (s.face p).fused := by
  unfold State.runGradient
  dsimp only
  rw [State.face_setFace_same]
  dsimp only
  exact congrArg Face.fused (((State.SameButWork.of_records (State.stepRecords_same ..)).face p).trans ((s.setWritten_work ..).face p))

theorem State.stepDone_of_free {s : State} {p : Nat} (h : (s.face p).fused = none) (op : ComputeOp) : s.stepDone p op = s := by
  unfold State.stepDone
  rw [h]

/-! A step's turn. -/

/-- Is the work a job's? -/
def isJobWork : Ctx → Bool
  | .job _ => true
  | .session _ => false

/-- Does a step's range lie in its output: a gradient step's in the λ gradients, another's in what its layer forms (R163, R290)? -/
def State.stepRange (ctx : Ctx) (op : ComputeOp) (e : Env) (l : LayerRec) : Bool :=
  let k := s.pkg e.model
  let t := s.outRec e l.out
  op.grad.elim (rangeOk t (policyOf k l.out) (tensorCols t e.hdr) (tensorElems t e.hdr) op.lo op.count) fun q =>
    isJobWork ctx && bitAt l.flags 1 && decide (q.1 < k.tensors.length) && (k.tensors.getD q.2 {}).fmt == 1 &&
      decide (op.lo + op.count ≤ tensorElems (k.tensors.getD q.2 {}) e.hdr)

/-- May a step run (R257, R290)? -/
def State.stepMay (p : Nat) (ctx : Ctx) (op : ComputeOp) (e : Env) (l : LayerRec) : Bool :=
  faceWf p && s.faceRuns p && !s.faceHeld p && !(s.face p).stageStop && s.stepTurn p ctx op && computeOk op.record &&
    decide (opLayer op < (s.pkg e.model).layers.length) && (l.opclass != 4 || opFunc op != 0) && (isJobWork ctx || l.runs e.inter) &&
    !(e.dec && bitAt l.flags 0) && s.stepRange ctx op e l

/-- What a step with no fault in its input forms. -/
def State.stepRan (p : Nat) (e : Env) (op : ComputeOp) (l : LayerRec) : State :=
  op.grad.elim (if (l.opclass == 5 || (l.opclass == 6 && decide (l.subop ≤ 2))) && opRowLen op == 0 then s else s.runStep p e op l) fun q =>
    s.runGradient p e op l q.1 q.2

/-- What becomes of a step whose turn it is, with its input at hand. -/
def State.stepRun (p : Nat) (ctx : Ctx) (e : Env) (op : ComputeOp) (l : LayerRec) : State :=
  ((s.stepTags p op).filter fun q => !tagsAgree q).elim
    ((s.stepTally p op).elim ((s.stepRan p e op l).stepDone p op) fun r => s.stageTally p r ctx)
    fun q => s.tagFault p q.1 (opLayer op) ctx q.2.1 q.2.2.1 q.2.2.2

theorem execComputeStep_of_env {s : State} {ctx : Ctx} {e : Env} (hEnv : s.envOf ctx = some e) (p : Nat) (op : ComputeOp) :
    let l := (s.pkg e.model).layers.getD (opLayer op) {}
    exec (.computeStep p ctx op) s =
      when (s.stepMay p ctx op e l) s ((s.stepWait p op).getD ((s.atStep p e op l).stepRun p ctx e op l)) := by
  intro l
  show execComputeStep p ctx op s = _
  unfold execComputeStep
  rw [hEnv]
  dsimp only
  refine congrArg₂ (fun c t => when c s t) ?may (congrArg (s.stepWait p op).getD ?run)
  case may =>
    unfold State.stepMay State.stepRange
    cases ctx with
    | session i => cases op.grad <;> rfl
    | job j => cases op.grad <;> rfl
  case run =>
    unfold State.stepRun State.stepRan
    cases ((s.atStep p e op l).stepTags p op).filter fun q => !tagsAgree q with
    | some q => rfl
    | none =>
      cases (s.atStep p e op l).stepTally p op with
      | some r => rfl
      | none => cases op.grad <;> rfl

theorem State.stepWait_of_empty {s : State} {p r : Nat} {op : ComputeOp} (hRing : op.inRing = some r) (hEmpty : (s.ring p r).occ = 0) :
    s.stepWait p op = some (s.setRing p r { s.ring p r with waitData := true }) := by
  unfold State.stepWait
  rw [hRing, Option.filter_some, if_pos (beq_iff_eq.mpr hEmpty)]
  rfl

theorem State.stepWait_of_fed {s : State} {p : Nat} {op : ComputeOp} (h : ∀ r, op.inRing = some r → (s.ring p r).occ ≠ 0) :
    s.stepWait p op = none := by
  unfold State.stepWait
  cases hRing : op.inRing with
  | none => rfl
  | some r =>
    rw [Option.filter_some, if_neg (fun k => h r hRing (beq_iff_eq.mp k))]
    rfl

section
variable {s : State} {p : Nat} {ctx : Ctx} {e : Env} {op : ComputeOp} {l : LayerRec}
  (hAgree : s.stepTags p op = none ∨ ∃ q, s.stepTags p op = some q ∧ tagsAgree q = true)
include hAgree

theorem State.tags_filter_none : (s.stepTags p op).filter (fun q => !tagsAgree q) = none := by
  rcases hAgree with hNone | ⟨q, hSome, hTags⟩
  · rw [hNone, Option.filter_none]
  · rw [hSome, Option.filter_some, hTags]
    rfl

theorem State.stepRun_of_tally {r : Nat} (hTally : s.stepTally p op = some r) : s.stepRun p ctx e op l = s.stageTally p r ctx := by
  unfold State.stepRun
  rw [State.tags_filter_none hAgree, hTally]
  rfl

/-- A step with its input in order forms its range. -/
theorem State.stepRun_of_right (hTally : s.stepTally p op = none) : s.stepRun p ctx e op l = (s.stepRan p e op l).stepDone p op := by
  unfold State.stepRun
  rw [State.tags_filter_none hAgree, hTally]
  rfl

end

theorem State.stepRun_of_tagFault {s : State} {p : Nat} {ctx : Ctx} {e : Env} {op : ComputeOp} {l : LayerRec} {q : Nat × Nat × Nat × List Nat}
    (hTags : s.stepTags p op = some q) (hDiffer : tagsAgree q = false) :
    s.stepRun p ctx e op l = s.tagFault p q.1 (opLayer op) ctx q.2.1 q.2.2.1 q.2.2.2 := by
  unfold State.stepRun
  rw [hTags, Option.filter_some, hDiffer]
  rfl

/-- Settles O37: the step waits, faults or forms its range as `stepRun` says; what it forms is `stepTensor`, written by `putWritten`. -/
theorem computeStepFormsItsRange : Obligations.ComputeStepFormsItsRange := by
  unfold Obligations.ComputeStepFormsItsRange
  intro s p ctx op e hEnv k l out u hWf hRuns hHeld hStage hFused hTurn hRecord hLayer hFunc hWork hCoded row agree right
  have hFree : (u.face p).fused = none := (s.atStep_fused p e op l).trans hFused
  have hMay : s.stepRange ctx op e l = true → s.stepMay p ctx op e l = true := by
    intro hRange
    have hFunc' : (l.opclass != 4 || opFunc op != 0) = true := by simpa using hFunc
    have hWork' : (isJobWork ctx || l.runs e.inter) = true := by
      rcases hWork with ⟨j, rfl⟩ | hLayerRuns
      · rfl
      · rw [hLayerRuns, Bool.or_true]
    unfold State.stepMay
    rw [hWf, hRuns, hHeld, hStage, hTurn, hRecord, decide_eq_true hLayer, hFunc', hWork', hCoded, hRange]
    rfl
  have hExec := execComputeStep_of_env hEnv p op
  have hRun : s.stepRange ctx op e l = true → (∀ r, op.inRing = some r → (s.ring p r).occ ≠ 0) →
      exec (.computeStep p ctx op) s = .next (u.stepRun p ctx e op l) := by
    intro hRange hFed
    refine hExec.trans ?_
    rw [State.stepWait_of_fed hFed]
    exact when_true (hMay hRange) s _
  constructor
  · intro hGrad hRange
    have hRange' : s.stepRange ctx op e l = true := by
      unfold State.stepRange
      rw [hGrad]
      exact hRange
    refine ⟨?wait, ?fed⟩
    case wait =>
      intro r hRing hEmpty
      refine hExec.trans ?_
      rw [State.stepWait_of_empty hRing hEmpty]
      exact when_true (hMay hRange') s _
    case fed =>
      intro hFed
      have hRight : right → exec (.computeStep p ctx op) s = .next ((u.stepRan p e op l).stepDone p op) := fun ⟨hAgree, hTally⟩ =>
        (hRun hRange' hFed).trans (congrArg Host.Outcome.next (State.stepRun_of_right hAgree hTally))
      refine ⟨?empty, ?forms, ?tags, ?tally⟩
      case empty =>
        intro hr hRow hLen
        refine (hRight hr).trans (congrArg Host.Outcome.next ?_)
        have hRan : u.stepRan p e op l = u := by
          unfold State.stepRan
          rw [hGrad]
          exact if_pos (Bool.and_eq_true .. ▸ ⟨hRow, beq_iff_eq.mpr hLen⟩)
        rw [hRan, State.stepDone_of_free hFree]
      case forms =>
        intro hr hRow
        have hRan : u.stepRan p e op l = u.runStep p e op l := by
          unfold State.stepRan
          rw [hGrad]
          refine if_neg fun h => ?_
          obtain ⟨hIs, hZero⟩ := Bool.and_eq_true .. ▸ h
          rcases hRow with hNot | hSome
          · exact Bool.false_ne_true (hNot.symm.trans hIs)
          · exact hSome (beq_iff_eq.mp hZero)
        obtain ⟨hMem, hFaces, hFusedRun⟩ := u.runStep_rest p e op l
        have hSame := s.atStep_faces p e op l
        have hPkg : u.pkg e.model = s.pkg e.model := hSame.keeps (fun t => t.pkg e.model) fun _ _ => rfl
        have hTensors : u.workTensors e = s.workTensors e := hSame.keeps (fun t => t.workTensors e) fun _ _ => rfl
        have hWrote : u.wrote e = s.wrote e := hSame.keeps (fun t => t.wrote e) fun _ _ => rfl
        refine ⟨_, ?_, rfl, ?_, ?_, ?_, ?_⟩
        · refine (hRight hr).trans (congrArg Host.Outcome.next ?_)
          rw [hRan, State.stepDone_of_free (hFusedRun.trans hFree)]
        · exact hMem.trans (hSame.keeps State.mem fun _ _ => rfl)
        · exact fun q hq => (hFaces q hq).trans (s.atStep_face_other e op l hq)
        · intro n d hOut hMap
          refine (u.written_runStep_other p e op d hOut ?_).trans ?_
          · rwa [hPkg]
          · rw [State.written_eq, hTensors, ← State.written_eq]
        · intro v a hEmpty hFmt hSkips hFirst i hi
          obtain ⟨ts, hHas⟩ := State.workTensors_of_env hEnv
          have hOut : u.outRec e l.out = out := State.outRec_of_pkg hPkg l.out
          have hCode := u.runStep_codes p op (l := l) ⟨ts, hTensors.trans hHas⟩ hEmpty (hOut ▸ hFmt) hSkips (by rwa [hOut, hWrote]) hi
          rwa [hOut] at hCode
      case tags =>
        intro q hTags hDiffer
        exact (hRun hRange' hFed).trans (congrArg Host.Outcome.next (State.stepRun_of_tagFault hTags hDiffer))
      case tally =>
        intro r hAgree hTally
        exact (hRun hRange' hFed).trans (congrArg Host.Outcome.next (State.stepRun_of_tally hAgree hTally))
  · rintro g n hGrad ⟨j, rfl⟩ hFlag hTensor hFmt hLast hFed ⟨hAgree, hTally⟩
    have hRange : s.stepRange (.job j) op e l = true := by
      unfold State.stepRange
      rw [hGrad, Option.elim_some]
      dsimp only
      rw [hFlag, decide_eq_true hTensor, decide_eq_true hLast, beq_iff_eq.mpr hFmt]
      rfl
    have hRan : u.stepRan p e op l = u.runGradient p e op l g n := by
      unfold State.stepRan
      rw [hGrad, Option.elim_some]
    refine ((hRun hRange hFed).trans (congrArg Host.Outcome.next (State.stepRun_of_right hAgree hTally))).trans (congrArg Host.Outcome.next ?_)
    rw [hRan, State.stepDone_of_free ((u.runGradient_fused ..).trans hFree)]

end Sys2Proof.Machine
end
